-- ==== Sys2Proof/Word.lean ====
section
/-! DEFINITION. Word types of the block and the sparse table that holds every array of its state. -/

namespace Sys2Proof

/-- A register word (R366). -/
abbrev Word := BitVec 64
/-- A byte of a granule, of the NOR device or of a frame. -/
abbrev Byte := BitVec 8
/-- A 288-bit row of a bank or of the script store: data, tags and check bits (R15). -/
abbrev Granule := BitVec 288

/-- A sparse table from a number to a value. In canonical form its keys rise strictly and no entry equals the
value that an unlisted key reads as. The value that an unlisted key reads as is given where the table is used. -/
abbrev Tab (α : Type) := List (Nat × α)

/-- The value a table holds under key `k`; an unlisted key reads as `d`. -/
def Tab.get {α : Type} (d : α) : Tab α → Nat → α
  | [], _ => d
  | (a, v) :: t, k => if a = k then v else Tab.get d t k

/-- Put `v` under key `k` in a table of rising keys. -/
def Tab.put {α : Type} (v : α) (k : Nat) : Tab α → Tab α
  | [] => [(k, v)]
  | (a, w) :: t => if k < a then (k, v) :: (a, w) :: t else if k = a then (k, v) :: t else (a, w) :: Tab.put v k t

/-- Remove key `k`, wherever it stands. -/
def Tab.drop {α : Type} (k : Nat) : Tab α → Tab α
  | [] => []
  | (a, w) :: t => if a = k then Tab.drop k t else (a, w) :: Tab.drop k t

/-- Write `v` under key `k`, keeping the canonical form for the default `d`. -/
def Tab.set {α : Type} [DecidableEq α] (d : α) (t : Tab α) (k : Nat) (v : α) : Tab α :=
  if v = d then Tab.drop k t else Tab.put v k t

/-- Keys rise strictly, all above `lo` (none when `lo` is none), and no entry equals the default. -/
def Tab.okFrom {α : Type} [DecidableEq α] (d : α) : Option Nat → Tab α → Bool
  | _, [] => true
  | lo, (a, v) :: t => (match lo with | none => true | some l => decide (l < a)) && decide (v ≠ d) && Tab.okFrom d (some a) t

/-- The canonical form of a table with default `d`. -/
def Tab.ok {α : Type} [DecidableEq α] (d : α) (t : Tab α) : Bool := Tab.okFrom d none t

end Sys2Proof
end

