-- ==== Sys2Proof/Config.lean ====
section
/-! DEFINITION. What is fixed when the block is generated (the reference configuration, R3 and R4), and the values that the manual leaves open. -/

namespace Sys2Proof.Config

/-- Clusters per quadrant of the reference configuration (00_scope, R3). -/
abbrev cpq : Nat := 32
/-- Stack ports built (00_scope). -/
abbrev stackPorts : Nat := 24
/-- Link ports built (00_scope). -/
abbrev linkPorts : Nat := 16
/-- Engine ports and sequencers (R3): F0 to F63, W0 to W23, V0 to V15. -/
abbrev seqs : Nat := 104
/-- Stream contexts (R3). -/
abbrev contexts : Nat := 16384
/-- Synchronization counters (R3). -/
abbrev counters : Nat := 4096
/-- Curtains (R3). -/
abbrev curtains : Nat := 64
/-- Windows (R3). -/
abbrev windows : Nat := 1024
/-- Send descriptors (MIO_CAP0). -/
abbrev sends : Nat := 256
/-- Weight images (MIO_CAP0). -/
abbrev wimgs : Nat := 8
/-- Cast groups (01_organization). -/
abbrev groups : Nat := 32
/-- Regions of the map (R21): entries 0 to 63. -/
abbrev regions : Nat := 64
/-- Physical banks of the reference configuration, without the understudies. -/
abbrev banks : Nat := 4 * 16 * cpq

/-- MIO_ID.INTEG and IDCODE [11:1] (R357): the integrator's JEP106 code, fixed at generation; the manual gives no value.
DESIGN CHOICE: a constant without a body, so nothing rests on its value (log entry 3). -/
opaque integ : BitVec 11

/-- An open value of the manual: the n-th value that a step draws is unconstrained (log entry 4). -/
opaque freeValue : Nat → BitVec 288

/-- The 64-bit signature that a transparent march test compacts a sequence of rows into (R265): the manual gives no polynomial (log entry 105). -/
opaque marchSignature : List (BitVec 288) → BitVec 64

end Sys2Proof.Config
end

