-- ==== Sys2Proof/Syntax.lean ====
section
/-! DEFINITION. The commands of the block: one constructor for each row of spec/opcode_table.json, with what comes from outside as operands. -/

namespace Sys2Proof

/-- Who writes or reads a register (R366): the host's control port, or the stage door by its SPI target or its TAP (R357). -/
inductive WSrc where
  | control | door | tap
  deriving DecidableEq, Repr

/-- Where a frame of R356 comes in: the SPI target, or the TAP under its instruction DOOR (R357); a cut frame ends before its opcode's last
MOSI byte, which a frame of an opcode alone cannot. -/
inductive DoorVia where
  | spi | tap | spiCut | tapCut
  deriving DecidableEq, Repr

/-- Who reads a register: the control port (R63), or a frame of the stage door (R356). -/
inductive ReadSrc where
  | control
  | frame (via : DoorVia)
  deriving DecidableEq, Repr

/-- Who requests a tableau (R296, R357): a TABLEAU frame, or the TAP's instruction TABLEAU. -/
inductive TabSrc where
  | frame (via : DoorVia)
  | tapBit
  deriving DecidableEq, Repr

/-- What an engine drives on a write channel in one write ec (R44): xN_wr_valid, xN_wr_lanes and the eight lanes of xN_wr_data, lane 0 first. -/
structure EngineDrive where
  valid : Bool
  lanes : BitVec 8
  data  : List Granule
  deriving DecidableEq, Repr

/-- One beat of a link port or the twin port (R209): its granules from lane 0 upwards, zeros on every lane not listed, with the lanes that
it sets and its first and last marks. -/
structure LinkBeat where
  data  : List Granule
  lanes : BitVec 8
  sop   : Bool
  eop   : Bool
  deriving DecidableEq, Repr

/-- The NOR device as the block finds it on the NVM port (R347, R5). -/
structure NvmDevice where
  readable : Bool   -- false: the device cannot be read, or its SFDP table is inconsistent (R351, reason NVM)
  sfdp     : Bool   -- the SFDP signature is present (R347)
  quad     : Bool   -- the table offers 1-1-4 read (R5)
  four     : Bool   -- the table offers 4-byte addressing (R5)
  bytes    : Tab Byte
  deriving DecidableEq, Repr

/-- A read of a march test that a bank has answered with another value (R264, R265): `second` is the checkerboard background, or the test pass
of a transparent test; element and operation are numbered from 0. -/
structure MarchRead where
  second : Bool
  elem   : Nat
  op     : Nat
  bank   : Nat
  row    : Nat
  value  : Granule
  deriving DecidableEq, Repr

/-- What a unit has shown in the self-test for one pattern (R262): the unit by its bit in MIO_SELFTEST, the code kind, the seed, the number of
consecutive positions in error, the first of them, and the classification and word that it gave. A count above 8 stands for the encoder's
own result for the seed, with `word` the encoded word. -/
structure SelfShown where
  unit  : Nat
  rep   : Bool
  seed  : Nat
  count : Nat
  pos   : Nat
  cls   : Nat
  word  : Granule
  deriving DecidableEq, Repr

/-- The outcome of the physical checks of one start (R262, R264, R355). -/
structure StartChecks where
  selfTest  : List SelfShown  -- what units have shown in the self-test where it is not what a sound unit shows; every other pattern passed
  march     : List (Nat × List MarchRead)  -- reads of the march test at start that gave another value, by q * 65 + cluster, 64 the understudy
  microcode : BitVec 5    -- read-back mismatches: bit q quadrant controller q, bit 4 the stream engine
  deriving DecidableEq, Repr

/-- Where a raw row lies, as READ_ROW names it (R356). -/
structure RowLoc where
  quad : Nat
  cluster : Nat
  us : Bool
  bank : Nat
  row : Nat
  deriving DecidableEq, Repr

/-- The commands. A word command (`set` to `halt`) names the sequencer that comes to execute the word at its PC. -/
inductive Instr where
  -- reset, start-up and key port (R343 to R346)
  | rstNAssert
  | startUp (tstMode : Bool)
  | pllLock (dev : NvmDevice) (checks : StartChecks)
  | keyDelivery (key : BitVec 256) (keyId : BitVec 16)
  | keyTimeout
  -- registers (R369)
  | registerWrite (src : WSrc) (off : Nat) (be : BitVec 2) (data : Word)
  -- cue words (R66 to R82)
  | set (n : Nat)
  | run (n : Nat) (drives : List EngineDrive)
  | sigCounterAdd (n : Nat)
  | sigCurtainEntry (n : Nat)
  | sigStreamStart (n : Nat)
  | wait (n : Nat)
  | scene (n : Nat)
  | flush (n : Nat)
  | acquire (n : Nat)
  | loop (n : Nat)
  | jump (n : Nat)
  | delay (n : Nat)
  | halt (n : Nat)
  | start (n : Nat)
  | park (n : Nat)
  | reset (n : Nat)
  -- scheduled path (R85 to R150)
  | releaseApply (n : Nat)
  | startDecision (g : Nat)
  | sceneStart (g : Nat)
  | scheduledBankAccess (n : Nat) (write : Bool)
  | readDelivery (n : Nat)
  | wingGroupIssue (n : Nat)
  | writeStatus (n : Nat)
  | accWriteback (n : Nat)
  | gatherFetch (n : Nat)
  | gatherOutput (n : Nat)
  | partialMerge (id : Nat)
  -- counters, tags, curtains (R161 to R179)
  | cntAdd (i : Nat) (be : BitVec 2) (data : Word)
  | cntLoad (i : Nat) (be : BitVec 2) (data : Word)
  | watchdogExpiry (g : Nat)
  | tagStallLimit (id : Nat)
  | curArrive (port : Nat) (beat : LinkBeat)
  | curRelease (port : Nat) (beat : LinkBeat)
  | curtainCfgWrite (c : Nat) (be : BitVec 2) (data : Word)
  | curtainReset (c : Nat)
  | lendAssert (n : Nat)
  -- streams (R181 to R206)
  | ctxWrite (x : Nat) (word : Nat) (be : BitVec 2) (data : Word)
  | arm (x : Nat)
  | disarm (x : Nat)
  | cancel (x : Nat)
  | clear (x : Nat)
  | triggerStart (x : Nat)
  | streamRequestIssue (port : Nat) (tag : Nat) (ready : Bool)
  | stackWriteBeat (port : Nat) (ready : Bool)
  | contextLate (x : Nat)
  | stackRspBeat (port : Nat) (tag : Nat) (lanes : BitVec 32) (last err : Bool) (data : List Granule)
  | stackWack (port : Nat) (tag : Nat) (err : Bool)
  | tagTimeout (port : Nat) (tag : Nat)
  | streamLanding (id : Nat)
  | spillSourceRead (id : Nat)
  | drainComplete (x : Nat)
  | osetRoundApply (k : Nat)
  | deadlockDetect (w : Nat)
  -- links, windows, send descriptors, twin (R207 to R234)
  | linkUp (port : Nat)
  | linkDown (port : Nat)
  | creditReturn (port : Nat)
  | dataPacket (port : Nat) (beat : LinkBeat)
  | linkLanding (id : Nat)
  | roundApply (w : Nat)
  | ack (port : Nat) (beat : LinkBeat)
  | openWin (w : Nat)
  | closeWin (w : Nat)
  | windowClosed (w : Nat)
  | windowWrite (w : Nat) (word : Nat) (be : BitVec 2) (data : Word)
  | sendArm (e : Nat)
  | sendDisarm (e : Nat)
  | sendClear (e : Nat)
  | badCmd (idx : Nat) (send : Bool) (cmd : BitVec 3)
  | sendStart (e : Nat)
  | sendPacket (e : Nat)
  | ackTimeout (e : Nat) (seq : Nat)
  | twinCfgWrite (be : BitVec 2) (data : Word)
  | jcopy (beat : LinkBeat)
  | jconf (beat : LinkBeat)
  | journalLanding (id : Nat)
  | soloEntry
  | ckptIdWrite (be : BitVec 2) (data : Word)
  | ckpt (beat : LinkBeat)
  | resync
  | rtab (beat : LinkBeat) (last : Bool)
  | replay (beat : LinkBeat) (last : Bool)
  | rsigSend
  | rsig (beat : LinkBeat)
  -- region map, owners, cue sheets, halves (R22 to R27, R96 to R103, R285)
  | regionWrite (n : Nat) (be : BitVec 2) (data : Word)
  | refillDone (r : Nat)
  | bankOwnWrite (k : Nat) (be : BitVec 2) (data : Word)
  | handover (be : BitVec 2) (data : Word)
  | csShadowWrite (q s w : Nat) (be : BitVec 2) (data : Word)
  | copy (qmask : BitVec 4)
  | csSwap (be : BitVec 2) (data : Word)
  | csSwapEffect
  | csActiveWrite (q s w : Nat) (be : BitVec 2) (data : Word)
  | quadrantHeld (q : Nat)
  | groupSwapGo (g : Nat) (half : Bool)
  | groupSwapCancel (g : Nat)
  | groupSwapEffect (g : Nat)
  | programDigestDone (h : Nat)
  -- integrity and repair (R254 to R273)
  | correctionWriteback (q : Nat) (bank : Nat)
  | ssCorrectionRewrite (h : Nat) (g : Nat)
  | scrubRead (q : Nat) (cluster : Nat) (bank : Nat)
  | scrubWriteback (q : Nat) (cluster : Nat) (bank : Nat)
  | marchCmd (q : Nat) (cluster : Nat) (us alg transp : Bool)
  | marchDone (q : Nat) (reads : List MarchRead)
  | migrate (q : Nat) (cluster : Nat)
  | migrateSwitch (q : Nat)
  | replace (q : Nat) (cluster : Nat)
  | usFillDone (q : Nat)
  | fence (q : Nat) (cluster : Nat)
  -- intermission, digests, tableau, time (R277 to R300)
  | save (atEn : Bool) (atScene : BitVec 32)
  | intmQuiesced
  | saveDone
  | restore (sheets : Bool)
  | restoreDone
  | resume
  | wimgOpen (k : Nat)
  | seal (k : Nat)
  | release (k : Nat)
  | wimgHashDone (k : Nat)
  | inputDigestDone
  | tableau (src : TabSrc)
  | tableauStop
  | timeSet (sec : BitVec 48) (atPps : Bool)
  | timeSetCancel
  | timeNowRead
  | ppsEdge
  | holdover
  -- faults (R303 to R321)
  | faultRaise (src pair : Nat) (rails : BitVec 2) (unit : BitVec 16)
  | faultReaction
  | kill (g : Nat)
  | strikeBegin (q : Nat) (cluster : Nat)
  | strikeDone (pbank : Nat)
  | aliveToggle
  | kick
  | injBank (w0 w1 : Word)
  | injLine (be : BitVec 2) (data : Word)
  | lock
  -- power and clocks (R324 to R340)
  | opTransition (target : BitVec 2)
  | dChange
  | vack
  | vackTimeout
  | brownout (vwarn : Bool)
  | brownoutRestore
  | wfi
  | entryCc
  | wakeEvent (src : Nat)
  | watchSlice
  | clampRel
  -- stage door, TAP, firmware, mailbox (R356 to R365)
  | readReg (src : ReadSrc) (off : Nat) (be : BitVec 2)
  | writeReg (via : DoorVia) (off : Nat) (data : Word)
  | readRow (via : DoorVia) (loc : RowLoc)
  | readStore (via : DoorVia) (sel : Nat) (idx : Nat)
  | getStatus (via : DoorVia)
  | getId (via : DoorVia)
  | idcode (reset : Bool)
  | scanN (n : Nat)
  | bypass
  | fwBegin (via : DoorVia) (header : List Byte)
  | fwData (via : DoorVia) (off : Nat) (data : List Byte)
  | fwEnd (via : DoorVia)
  | fwActivate (src : WSrc)
  | activateResume (microcode : BitVec 5)
  | slotCopy
  | unlock (via : DoorVia) (response : BitVec 256)
  | wake (via : DoorVia)
  | h2sSend
  | s2hAck
  | supplyRestore
  | h2sMessageTaken
  | s2hMessagePost (words : List Word)
  | pwrModeWrite (mode : BitVec 3)
  | nvmProgramEraseDone (ok : Bool)
  | unknownOpcode (via : DoorVia) (op : Byte)
  deriving DecidableEq, Repr

end Sys2Proof
end

