-- ==== Sys2Proof/Decode.lean ====
section
/-! DEFINITION. The command that a word of the opcode table spells. -/

namespace Sys2Proof

/-- The command that the word `w` of `nbits` bits spells. The opcode table gives no row any bits (every row's list of
fields is empty): the commands come over ports, not as words, so no word spells one. -/
def decodeTableWord (_nbits _w : Nat) : Option Instr := none

end Sys2Proof
end

