-- ==== Sys2Proof/Machine/State.lean ====
section
/-! DEFINITION. The state of the block as plain data: the queue, the banks, and every other unit. Every default value is the reset value of the rule the field cites. -/

namespace Sys2Proof.Machine

/-- Why a step stops with a fault. -/
inductive Fault where
  /-- Raised by every meaning whose command names a port, unit, bank or word that the block does not have
  (R3, R366): no such event exists. Safe: the hardware has no such unit to act. -/
  | noSuchUnit
  deriving DecidableEq, Repr

/-- Why a step has no meaning. -/
inductive Refusal where
  /-- Raised by no meaning: the arm of a command that the model does not reach yet. Safe. -/
  | notModelled (mnemonic : String)
  deriving DecidableEq, Repr

/-! ### Sequencers, wings and accesses in flight -/

/-- R81. -/
inductive SeqState where
  | halted | waiting | running | trapped
  deriving DecidableEq, Repr

/-- Address generator (R70); the defaults are those after sys_ready and RESET. -/
structure AddrGen where
  base   : BitVec 27 := 0
  lanes  : Nat := 8
  opmode : BitVec 4 := 0
  oparg  : BitVec 16 := 0
  count  : List Nat := [1, 1, 1, 1]
  stride : List Int := [0, 0, 0, 0]
  idx    : List Nat := [0, 0, 0, 0]
  deriving DecidableEq, Repr

/-- One entry of the loop stack (R71): first and last word of the body, trips left. -/
structure LoopEntry where
  first : Nat
  last  : Nat
  left  : Nat
  deriving DecidableEq, Repr

/-- A head WAIT under evaluation (R69, R164). `met` is latched. -/
structure HeadCond where
  curtain : Bool
  target  : Nat
  scope   : Nat
  met     : Bool := false
  deriving DecidableEq, Repr

/-- What a SIG releases (R68, R150). -/
inductive RelKind where
  | counterAdd | curtainEntry | streamStart
  deriving DecidableEq, Repr

/-- A pending release with its release point `x` in ec (R150). -/
structure Release where
  kind   : RelKind
  target : Nat
  value  : BitVec 32
  scope  : Nat
  x      : Nat
  deriving DecidableEq, Repr

/-- The RUN word in progress: enough to know how many accesses were issued by a given ec (R68). -/
structure RunRec where
  startEc : Nat
  gap     : Nat
  count   : Nat
  ag0     : AddrGen
  ag1     : AddrGen
  use0    : Bool
  use1    : Bool
  deriving DecidableEq, Repr

/-- One lane of a sampled write access (R44, R142). `follow` names the write access and lane whose entry absorbed it. -/
structure WLane where
  lane    : Nat
  gi      : Nat
  granule : Granule
  fault   : Bool               -- its granule is poisoned, uncorrectable or supplied by the block (POISON_IN)
  follow  : Option (Nat × Nat) := none
  code    : BitVec 2 := 0      -- R47, once the bank access has decided it
  prior   : Granule := 0       -- an accumulating lane: the chain result formed at its first slot (R122)
  passed  : Bool := false      -- the lane reaches the bank
  before  : Granule := 0       -- a plain lane: the granule as it stood before its bank access (R141)
  after   : Granule := 0       -- the granule as it stands after the lane's last bank access (R141)
  seen    : Granule := 0       -- the granule as sampled (R293)
  deriving DecidableEq, Repr

/-- A sampled write access: a group of the write wing until it issues, then an access in flight (R142, R46). -/
structure WAccess where
  id      : Nat                -- write accesses sampled by the sequencer, in order
  seqNo   : BitVec 16          -- xN_st_seq
  w       : Nat                -- write ec
  due     : Nat                -- d' of R144
  t       : Nat                -- ec of crossbar issue, once issued
  issued  : Bool := false
  acc     : Option Nat         -- ACC_TYPE of an accumulating write
  lanes   : List WLane
  mask    : BitVec 8           -- lanes the sequencer issued
  profile : Nat := 0           -- 0 to 2 plain A to C, 3 to 5 accumulating A to C, after R139
  first   : Bool := false      -- its first or only bank access is done
  done    : Bool := false      -- its last bank access is done
  told    : Bool := false      -- its status has been returned
  index   : Bool := false      -- gather index granules, which go to no bank (R49)
  cut     : Option Nat := none -- first bc in which a kill suppresses its bank access (R315)
  via     : Option Nat := none -- quadrant that its route to an opposite quadrant passes (R8)
  sceneNo : BitVec 32 := 0
  ec0     : Nat := 0
  deriving DecidableEq, Repr

/-- A cause of R93: 0 none, 1 OWNER, 2 SLOT, 3 BANK, 4 TAG, 5 DELIVERY; 6 suppressed by a kill (R315), 7 by safe state (R307). -/
abbrev Cause := Nat

/-- One lane of a read access. -/
structure RLane where
  gi      : Nat
  scale   : Bool := false      -- the ninth granule of an MX access (R116)
  fwd     : Option (Nat × Nat) := none  -- write access and lane of the newest pending write of the port (R141)
  got     : Bool := false      -- a forwarded lane that has taken its value, or has failed (R141)
  hit     : Bool := false
  cause   : Cause := 0
  granule : Granule := 0       -- as it leaves the correction stage
  rep     : Bool := false
  bad     : Bool := false      -- poisoned, uncorrectable or a cue violation
  deriving DecidableEq, Repr

/-- A read access in flight (R40, R92). -/
structure RAccess where
  id      : Nat
  issue   : Nat                -- ec
  deliver : Nat                -- ec
  bankBc  : Nat
  opmode  : BitVec 4
  oparg   : BitVec 16
  lanes   : List RLane
  tile    : Option (Nat × Nat) := none  -- first access id of its tile, and its position 0 to 3 (R108)
  checked : Bool := false
  dropped : Bool := false      -- not delivered (R41)
  done    : Bool := false      -- delivered
  viol    : Bool := false      -- it has been counted as a violating access (R94)
  cut     : Option Nat := none -- first bc in which a kill suppresses its bank access (R315)
  via     : Option Nat := none -- quadrant that its route to an opposite quadrant passes (R8)
  sceneNo : BitVec 32 := 0
  ec0     : Nat := 0
  deriving DecidableEq, Repr

/-- An entry of the read-ahead wing (R146), with the ec of its insertion and the last ec in which it can be hit. -/
structure RaEntry where
  gi      : Nat
  granule : Granule
  rep     : Bool
  since   : Nat
  gone    : Option Nat := none
  out     : Bool := false      -- an insertion has replaced it or pushed it out (R146)
  deriving DecidableEq, Repr

/-- A gather output waiting for its delivery ec (R127). `lost`: an earlier-issued read takes the bus in that ec (R41). -/
structure GatherOut where
  ec      : Nat
  issue   : Nat                -- ec of the fetch it counts as issued in (R41)
  gi      : Nat                -- granule of that fetch
  granule : Granule
  lost    : Bool := false
  deriving DecidableEq, Repr

/-- The gather unit of a vector port (R124 to R129). -/
structure Gather where
  s       : Nat
  nRow    : Nat
  bag     : Nat
  rowType : Nat
  base    : Nat
  pitch   : Int
  rows    : Nat
  words   : List (Nat × Bool)  -- index words in order, true = from a faulty index granule
  next    : Nat := 0           -- next fetch
  limit   : Nat                -- fetches issued: words times rows of the table, fewer after a kill
  cut     : Option Nat := none -- first bc in which a kill suppresses a fetch (R315)
  turned  : List Nat := []     -- fetches lost with the quadrant that their route passed (R8)
  sums    : List (Option Nat × Bool) := []  -- per granule j of the current bag: the sum so far, true = poisoned
  outs    : List GatherOut := []
  busyTo  : Nat
  sceneNo : BitVec 32 := 0
  ec0     : Nat := 0
  deriving DecidableEq, Repr

/-- A write access that an executed FLUSH waits for (R145): its id, whether it counts at scope quadrant, and the ec in which it is visible
as the wing now stands. -/
structure FlushWait where
  id   : Nat
  quad : Bool
  ec   : Nat
  deriving DecidableEq, Repr

/-- Sequencer n with its port (R65 to R83, R142 to R152). -/
structure Seq where
  state      : SeqState := .halted
  half       : Bool := false
  pc         : Nat := 0                  -- next word; in WAITING the SCENE word
  lastPc     : Nat := 0                  -- the word that occupies the sequencer until wordEc
  ag0        : AddrGen := {}
  ag1        : AddrGen := {}
  loops      : List LoopEntry := []      -- innermost first, as the word at pc will find them
  lastLoops  : List LoopEntry := []      -- as they stand until the word at lastPc has completed (R71)
  sceneNo    : BitVec 32 := 0
  nextNo     : BitVec 32 := 0            -- number of the scene that the current SCENE word opens
  baseNo     : BitVec 32 := 0            -- number of the previous scene, 0 after START (R74)
  ec0        : Nat := 0
  inScene    : Bool := false
  offset     : Nat := 0                  -- EC_OFFSET when the scene ended
  wordEc     : Nat := 0                  -- ec in which the next word begins
  waitSince  : Nat := 0                  -- ec in which WAITING was entered
  head       : List HeadCond := []
  evaluated  : Bool := false
  evalEc     : Nat := 0
  bodyPc     : Nat := 0
  bodyLoops  : List LoopEntry := []      -- loop stack at the first body word
  loadHold   : Bool := false
  parkPend   : Bool := false
  parkAt     : Option Nat := none        -- PARK in WAITING: first ec of the cc after it (R82)
  cmdRefused : Bool := false
  runRec     : Option RunRec := none
  flushPort  : Nat := 0                  -- latest completion of the executed FLUSHes at scope port (R145)
  flushes    : List FlushWait := []      -- what they wait for at the scopes quadrant and block
  lastReadBc : Nat := 0                  -- latest bank-access bc of a read issued so far (R150)
  lastX      : Nat := 0
  releases   : List Release := []
  writes     : List WAccess := []        -- sampled order
  lastT      : Nat := 0
  writeCount : Nat := 0                  -- write accesses sampled, for ids
  seqCount   : BitVec 16 := 0            -- xN_st_seq of the next access (R46)
  reads      : List RAccess := []        -- issue order
  readCount  : Nat := 0
  ra         : List RaEntry := []        -- oldest first
  acquires   : List (Nat × Nat × Nat) := []  -- recent ACQUIREs: ec, first and last granule
  gather     : Option Gather := none
  parkedSince : Nat := 0                 -- ec since which HALTED or WAITING without a break (R179)
  lend       : Bool := false
  lendOff    : Option Nat := none        -- first ec in which the bit is 0 again: the ec after the start decision (R179)
  deriving DecidableEq, Repr

/-- Cast group g: the ec 0 of a decided scene (R85), held by HOLD or an intermission. -/
structure Group where
  decided : Option Nat := none
  who : List Nat := []                   -- sequencers that take part in the decided scene
  ready : Option Nat := none             -- first ec in which the group's sequencers were all ready (the ec m of R85)
  intmHeld : Bool := false
  swapCancel : Option Nat := none        -- end of the completion cc of a CANCEL of a half swap (R103)
  swapCc : Option Nat := none            -- cc in which the latest half swap took effect
  deriving DecidableEq, Repr

/-! ### Port outputs (R37) -/

/-- xN_rd_* (R40, R42, R43) with the ec they were driven in. -/
structure ReadOut where
  ec : Nat := 0
  valid : Bool := false
  lanes : BitVec 8 := 0
  data : List Granule := []
  pois : BitVec 8 := 0
  rep : BitVec 8 := 0
  deriving DecidableEq, Repr

/-- xN_st_* (R46). -/
structure StatusOut where
  ec : Nat := 0
  valid : Bool := false
  seqNo : BitVec 16 := 0
  lanes : BitVec 8 := 0
  code : BitVec 16 := 0
  deriving DecidableEq, Repr

/-- sN_req_* (R50) and sN_wd_* (R52): a request or beat keeps its payload from the bc in which it is presented to its transfer; its valid
falls in the bc after that. -/
structure StackOut where
  reqValid : Bool := false
  write : Bool := false
  tag : BitVec 11 := 0
  gaddr : BitVec 36 := 0
  len : BitVec 7 := 0
  wdValid : Bool := false
  wdData : List Granule := []
  wdLanes : BitVec 32 := 0
  wdLast : Bool := false
  deriving DecidableEq, Repr

/-! ### Counters and curtains -/

/-- What a counter shows: VALUE, REL_SCOPE and LAST_SRC (R160, R161). -/
structure CntVal where
  value : BitVec 32 := 0
  scope : Nat := 0
  src   : Nat := 0
  deriving DecidableEq, Repr

/-- A recent ec in which a counter changed, and what observers still see in it (R161). -/
structure CntHist where
  ec     : Nat := 0
  rank   : Nat := 0            -- row of R161 recorded last in this ec
  loaded : Option (BitVec 32) := none  -- value that a load gave in this ec
  before : CntVal := {}
  deriving DecidableEq, Repr

/-- R170. -/
inductive CurState where
  | out | entered | latched
  deriving DecidableEq, Repr

/-- A participant of a curtain: sequencer n is n, stream context x is 0x4000 + x (MIO_CUR_STAT_c.WHO). `since` is the ec of the release. -/
structure Participant where
  state  : CurState := .out
  parity : Bool := false
  since  : Nat := 0
  deriving DecidableEq, Repr

/-- One parity of a curtain: own entries, children's counts, narrowest scope, arrive packet sent. -/
structure CurRound where
  own    : Nat := 0
  child  : Nat := 0
  scope  : Nat := 3
  sent   : Bool := false
  grown  : Option Nat := none  -- latest ec in which the count has grown, until the end of that ec
  deriving DecidableEq, Repr

/-- Curtain c (R170 to R175): beside its rounds and participants, entries of streams that are registered in a coming ec (participant, scope, ec;
R196), and releases from the parent that are applied in the ec after their acceptance (parity, scope, ec; R172). -/
structure Curtain where
  round0 : CurRound := {}
  round1 : CurRound := {}
  coming : List (Nat × Nat × Nat) := []
  rel    : List (Bool × Nat × Nat) := []
  parts  : Tab Participant := []
  deriving DecidableEq, Repr

/-! ### Streams and stack ports -/

/-- Who makes a stack request for the block itself: the hash of weight image k, or an intermission (R280, R282, R286). -/
inductive SysReq where
  | hash (k : Nat)
  | save
  | restore
  deriving DecidableEq, Repr

/-- A tag in use on a stack port (R51, R187). `from_` is the first stack granule of the context it covers, `n` the granules wanted. A request
of the block itself has a `sys`; `from_` is then the first granule of its image, and `live` says that its owner still wants it. -/
structure StackTag where
  tag    : Nat
  ctx    : Nat
  sys    : Option SysReq := none
  live   : Bool := true
  from_  : Nat
  n      : Nat
  skip   : Nat := 0            -- granule of the request that is read and discarded plus 1, 0 for none (R187)
  total  : Nat                 -- granules of the request on the wire
  write  : Bool
  useBc  : Nat
  beats  : Nat := 0            -- beats received
  broken : Bool := false       -- its final beat was refused (R55)
  seqIdx : Nat := 0            -- request index of the context (R197)
  deriving DecidableEq, Repr

/-- A write-data burst to send (R52). -/
structure WriteBurst where
  tag   : Nat
  n     : Nat
  data  : Tab Granule := []        -- granules read so far, by place in the request
  sent  : Nat := 0                 -- granules sent
  deriving DecidableEq, Repr

/-- A response granule held in the landing buffer (R54). -/
structure Landed where
  ctx : Nat
  s : Nat
  granule : Granule
  bad : Bool                   -- poisoned or uncorrectable
  deriving DecidableEq, Repr

/-- Stack port n (R50 to R59, R188, R191). -/
structure StackPort where
  tags     : List StackTag := []
  shown    : Option StackTag := none -- request presented and not yet transferred (R50)
  quar     : List Nat := []
  issueBc  : Option Nat := none -- latest bc in which a request was first presented or transferred
  bursts   : List WriteBurst := []
  reserved : Nat := 0
  lastSel  : Tab Nat := []     -- per PRI: context last selected + 1
  runCtx   : Option Nat := none
  runLen   : Nat := 0
  beat     : Bool := false     -- a write-data beat is presented and has not transferred (R50)
  beatBc   : Option Nat := none -- latest bc in which a beat was first presented or transferred
  hashBc   : Nat := 0          -- bc of the latest hash request (R286)
  removed  : Bool := false
  deriving DecidableEq, Repr

/-- Why a context drains (R201 to R204). -/
inductive DrainTo where
  | cancelled | killed | halted (status : BitVec 4)
  deriving DecidableEq, Repr

/-- What the context store and the scheduler hold beside the eight words of a context. -/
structure CtxRun where
  committed : List Nat := []       -- destination granules committed at or above the counted part
  acked     : List (Nat × Nat) := []  -- SPILL: acknowledged ranges (first, count)
  fail      : Option Nat := none   -- R199
  drain     : Option DrainTo := none
  armedAt   : Nat := 0             -- ec from which the trigger is sampled
  reqIdx    : Nat := 0
  startBc   : Nat := 0             -- first bc in which a request can issue
  late      : Bool := false
  movedCc   : Nat := 0             -- cc in which the context last started or issued a request (R206)
  reqCc     : Nat := 0             -- 1 + cc of its latest request (R206)
  trigCc    : Option Nat := none   -- cc in which its trigger was last met (R186)
  doneCc    : Option Nat := none   -- cc of its latest natural completion (R203)
  accNext   : Nat := 0             -- accumulating: stack granules that have taken their first slot (R191)
  cancelAt  : Option Nat := none   -- first ec of the cc after an accepted CANCEL
  disarmAt  : Option Nat := none   -- first ec of the cc after an accepted DISARM
  osetHeld  : List (Nat × Nat × Nat) := []  -- ordered set: (request index, destination granule, stage granule)
  deriving DecidableEq, Repr

/-- Ordered set k while ACTIVE (R197). -/
structure OSet where
  started : List Nat := []
  ended   : List Nat := []
  failed  : Option (BitVec 4) := none
  applying : Bool := false         -- its round is complete and is being applied
  deriving DecidableEq, Repr

/-! ### Unscheduled accesses and arbitration -/

/-- What an unscheduled request does when granted (R235). -/
inductive AKind where
  | streamLand (x s d : Nat)       -- context, stack granule, destination granule
  | stageHold (x s d : Nat)        -- ordered-set holding
  | spillRead (x s : Nat)
  | osetRead (x d : Nat)           -- reorder stage: contribution of an ordered set read back
  | osetApply (x d : Nat)
  | linkLand (pkt k : Nat)         -- accepted packet, payload granule
  | stageWrite (pkt k : Nat)       -- reorder stage: payload granule of an ordered packet
  | stageRead (pkt k : Nat)
  | stageApply (pkt k : Nat)
  | sendRead (e k : Nat)
  | journalWrite (j k : Nat)       -- journal entry, granule 0 the header
  | journalRead (j k : Nat)
  | imgRead (i pb row : Nat)       -- SAVE: row of a bank as granule i of the image (R280)
  | imgLand (i pb row : Nat)       -- RESTORE: granule i of the image goes to a row of a bank (R282)
  | service                        -- an access of a service requester, which is made where it is presented
  deriving DecidableEq, Repr

/-- A request for a bank in an unscheduled slot (R236). -/
structure AReq where
  id      : Nat
  req     : Nat                -- requester of R235
  kind    : AKind
  gi      : Nat
  group   : Nat
  granule : Granule := 0
  mask    : BitVec 32 := 0xFFFFFFFF  -- bytes written (R60)
  acc     : Option Nat := none
  write   : Bool := true
  order   : Nat := 0           -- ec of acceptance (R241)
  since   : Nat := 0           -- bc from which it is presented
  stall   : Option Nat := none -- bc since which its tag check fails (R167)
  reported : Bool := false
  second  : Option (Nat × Granule) := none  -- after its first slot: earliest bc of the second, and the result held
  base    : Option Granule := none          -- a merge: the stored granule read in the first slot (R62)
  dest    : Nat := 0                        -- reorder stage: target granule index
  keep    : Bool := false                   -- the failing granule of a halt, which still lands (R199)
  first   : Bool := false                   -- a service request: the oldest of its requester in the quadrant (R242)
  deriving DecidableEq, Repr

/-- A grant of a bank (R239): requester, bursts taken, and the bc of the last slot that did not end it. -/
structure Grant where
  req    : Nat
  taken  : Nat
  bc     : Nat
  deriving DecidableEq, Repr

/-- The arbiter of one quadrant (R237 to R243). -/
structure Arbiter where
  wait     : Tab Nat := []           -- wait counter by requester
  loss     : Tab Nat := []           -- losses at step 6 since the last grant, by link-port unit
  heldBack : Tab Nat := []           -- slots a link-port unit is still held back: unit * 4096 + bank
  grants   : Tab Grant := []         -- by bank * 4 + class
  forced   : Tab Nat := []           -- decisions still to lose (R319)
  losers   : List Nat := []          -- requesters whose oldest request has lost a slot in the present bc (R242)
  winners  : List Nat := []          -- requesters whose oldest request has been granted in it
  deriving DecidableEq, Repr

/-! ### Links, windows, send descriptors, twin -/

/-- A packet with its header and payload (R209). -/
structure Packet where
  header  : Granule
  payload : List Granule
  deriving DecidableEq, Repr

/-- A packet with payload on its way out: beats sent, the descriptor that sends it, the source granules that are done when its last beat
is sent (R224), and for each payload granule whether it is of the repertory code kind (R225, R252). -/
structure TxPkt where
  pkt  : Packet
  sent : Nat := 0
  desc : Option Nat := none
  done : Nat := 0
  reps : List Bool := []
  deriving DecidableEq, Repr

/-- A packet in a receive buffer (R207, R209): its header's data bits, the payload that has come, the ec of its first beat, and that of its
last. `stale`: the link has fallen since, so no credit is owed for it. `last`: see REPLAY. -/
structure RxPkt where
  h       : Nat
  payload : List Granule
  came    : Nat
  whole   : Option Nat
  stale   : Bool := false
  last    : Bool := false
  held    : Bool := false
  deriving DecidableEq, Repr

/-- What a receiver discards (R209, R212): nothing, the rest of a refused packet, or every beat up to the next first beat. -/
inductive RxSkip where
  | nothing | packet | toFirst
  deriving DecidableEq, Repr

/-- Link port n, or the twin port as number 16 (R207 to R210). -/
structure LinkPort where
  up       : Bool := false
  credits  : Nat := 0
  beat     : Option LinkBeat := none  -- the beat driven in this ec (lN_tx_*)
  wait     : List Packet := []        -- control packets to send, in the order of R210
  data     : List TxPkt := []         -- packets with payload to send, in order
  owed     : List Nat := []           -- credits to return, each with its first ec (R207, R319)
  rxCrd    : Bool := false            -- lN_rx_crd
  returned : Nat := 0                 -- credits returned
  inbox    : List RxPkt := []         -- the receive buffer, oldest first; at most the last packet with payload is still coming
  skip     : RxSkip := .nothing
  served   : Nat := 0                 -- descriptor last served + 1
  failed   : Bool := false            -- checker failed (R263) or quadrant fenced (R313)
  deriving DecidableEq, Repr

/-- Where an accepted packet stands: landing, being written to the reorder stage, held there, or being applied. -/
inductive PktPhase where
  | landing | staging | held | applying
  deriving DecidableEq, Repr

/-- An accepted packet whose landing or counting is not complete (R218 to R220). -/
structure Accepted where
  id       : Nat
  port     : Nat
  header   : Nat                     -- its data bits
  window   : Nat
  left     : Nat                     -- granules that have not reached the end of this phase
  phase    : PktPhase
  taken    : Nat := 0                -- ec in which the link unit accepted it (R241)
  data     : List Granule := []      -- payload as checked, for the landings and the digest (R288)
  stage    : List Nat := []          -- reorder stage: granule index that holds each payload granule
  journal  : Option Nat := none      -- the journal entry it lands from (R228)
  dropped  : Bool := false           -- a granule failed R25, or a kill cut it: never counted (R215, R219)
  deriving DecidableEq, Repr

/-- What the window tables hold beside the four words of a window. -/
structure WinRun where
  round    : Nat := 0                -- round being applied (R134)
  latest   : List (Nat × Nat × BitVec 32) := []  -- counted packets, latest first: id, ec, arrival counter after it (R289)
  deriving DecidableEq, Repr

/-- A journaled packet awaiting its acknowledgement (R224). -/
structure Unacked where
  seq   : BitVec 64
  port  : Nat                        -- port that sent it last
  again : Bool := false              -- it has been sent more than once
  sent  : Nat                        -- ec
  n     : Nat                        -- source granules
  pkt   : Packet
  reps  : List Bool := []            -- as in TxPkt
  deriving DecidableEq, Repr

/-- What a send descriptor holds beside its words. -/
structure SendRun where
  unacked  : List Unacked := []
  gathered : Tab Granule := []       -- source granules read, by source granule number
  armedAt  : Nat := 0
  disarmAt : Option Nat := none      -- end of the completion cc of a DISARM
  latched  : Option (Nat × BitVec 32) := none  -- input packet id and COUNT (R289)
  digest   : Option (BitVec 256) := none       -- its digest, once complete
  poisSent : Bool := false
  deriving DecidableEq, Repr

/-- A tracking entry of the journal (R227). -/
structure Track where
  next : BitVec 64 := 0
  held : List (BitVec 64) := []
  deriving DecidableEq, Repr

/-- A journal entry (R226). -/
structure JEntry where
  id       : Nat
  pos      : Nat                 -- first granule in the ring
  header   : Nat                 -- data bits of the DATA header
  payload  : List Granule
  port     : Nat                 -- arrival port, 16 for the twin
  taken    : Nat := 0            -- ec in which its packet was accepted by the port's unit (R241)
  left     : Nat                 -- granules not written yet
  confirm  : Option Nat := none  -- waiting for JCONF since this ec
  accepted : Bool := false
  landing  : Bool := false
  landed   : Bool := false
  void     : Bool := false       -- discarded under R215
  resent   : Bool := false       -- sent as REPLAY and not confirmed (R231)
  deriving DecidableEq, Repr

/-- A checkpoint record (R230): ID, tracking table, id of the next unlanded journal entry. -/
structure Checkpoint where
  ckptId : BitVec 32
  tracks : Tab Track
  pos    : Nat
  deriving DecidableEq, Repr

/-- The twin unit (R226 to R231). Tracking entries are keyed by window * 65536 + rank. -/
structure Twin where
  tracks   : Tab Track := []
  journal  : List JEntry := []           -- oldest first
  nextId   : Nat := 0
  head     : Nat := 0                    -- ring position of the next entry
  own      : List Checkpoint := []
  theirs   : List (BitVec 32) := []
  both     : Option Checkpoint := none   -- the latest checkpoint held by both
  lastSeen : Bool := false               -- the last entry that the survivor holds has come (R231)
  deriving DecidableEq, Repr

/-- A signature sent or received and not yet paired (R294, R295), with the first ec offset of its interval where it was sent. -/
structure RSig where
  quad : Nat
  sceneNo : BitVec 32
  offset : Nat
  sig : BitVec 64
  deriving DecidableEq, Repr

/-- An event to absorb (R293): ec 0 of its scene, ec offset, place within the ec, quadrant, bytes. -/
structure RehEvent where
  ec0   : Nat
  off   : Nat
  key   : Nat
  quad  : Nat
  bytes : List Byte
  deriving DecidableEq, Repr

/-- A scene of the rehearsed group whose intervals have not all been sent (R294): `len` is L once it has ended. -/
structure RehScene where
  sceneNo : BitVec 32
  ec0     : Nat
  next    : Nat := 0
  len     : Option Nat := none
  deriving DecidableEq, Repr

/-- The rehearsal unit (R293 to R295). -/
structure Rehearsal where
  sigs    : Tab (BitVec 64) := []        -- running signature per quadrant, all ones where unlisted
  events  : List RehEvent := []
  scenes  : List RehScene := []          -- oldest first
  sent    : List RSig := []
  got     : List RSig := []
  deriving DecidableEq, Repr

/-! ### Integrity and repair -/

/-- A check point's view of one decode (R256, R257): path of MIO_ECC_CNT_k, PATH and REQ of the log, the location, and UNIT of source 7. -/
structure EccSite where
  cnt     : Nat
  path    : Nat
  req     : Nat
  us      : Bool := false
  quad    : Nat := 0
  cluster : Nat := 0
  bank    : Nat := 0
  row     : Nat := 0
  unit    : Nat := 0x00FF
  deriving DecidableEq, Repr

/-- An event on its way to the log table (R257): the cc in which it is inserted, the bc of its access, KIND and BITPOS. -/
structure LogDue where
  cc   : Nat
  bc   : Nat
  site : EccSite
  kind : Nat
  pos  : Nat
  deriving DecidableEq, Repr

/-- A bank that is being filled by rows (R23, R316): the next row, the bc of the latest one, and whether a strike fills it. -/
structure BankFill where
  row    : Nat := 0
  lastBc : Nat := 0
  since  : Nat := 0            -- bc from which that row is asked for
  strike : Bool := false
  deriving DecidableEq, Repr

/-- An entry of a write-back queue (R254). -/
structure WbEntry where
  bank    : Nat          -- row key of the granule
  gi      : Nat
  granule : Granule
  readBc  : Nat
  queueBc : Nat
  deriving DecidableEq, Repr

/-- The scrubber's position in one cluster (R259, R260). -/
structure Scrub where
  row    : Nat := 0
  read   : BitVec 16 := 0
  since  : Nat := 0            -- bc from which the present row is asked for
  writes : Tab (Nat × Nat × Granule) := []  -- per bank: row of a write-back due, first bc in which it is asked for, granule
  period : Option Nat := none     -- scrub period in which the row before the present one was begun
  start  : Nat := 0               -- frame in which the lap began
  laps   : Nat := 0               -- laps completed since sys_ready
  deriving DecidableEq, Repr

/-- A march test in progress (R266). -/
structure March where
  us : Bool
  cluster : Nat
  alg : Bool
  transp : Bool
  startBc : Nat := 0           -- bc from which it runs
  deriving DecidableEq, Repr

/-- The understudy of one quadrant (R269). -/
structure Understudy where
  map    : Option Nat := none     -- the cluster whose name it has taken
  unavail : Bool := false
  copying : Option Nat := none    -- MIGRATE in progress of this cluster
  copyRow : Nat := 0
  copySince : Nat := 0            -- bc from which the present row is asked for
  copied : BitVec 16 := 0         -- banks of the present row that have been copied
  filling : Bool := false         -- REPLACE fill in progress
  switchAt : Option Nat := none   -- frame of the switch
  fillFrom : Nat := 0             -- bc in which the fill of a REPLACE begins
  how    : Nat := 0               -- HOW of R272
  lost   : Bool := false
  deriving DecidableEq, Repr

/-- A strike in progress (R314 to R317): group, cc of the kill, banks still striking, banks struck. -/
structure Strike where
  group : Nat
  cc    : Nat
  banks : List Nat
  total : Nat
  deriving DecidableEq, Repr

/-! ### Everything else -/

/-- Stages of start-up (R344, R345, R354). -/
inductive BootPhase where
  | inReset | waitPll | waitKey | recovery | stopped | ready
  deriving DecidableEq, Repr

/-- Start-up, firmware and NVM (R343 to R364). -/
structure Boot where
  phase     : BootPhase := .inReset
  tst       : Bool := false
  keyFrom   : Nat := 0             -- bc before sys_ready at the end of step 3, from which the key is awaited
  factory   : Bool := false
  unlocks   : Nat := 0
  key       : Option (BitVec 256 × BitVec 16) := none
  pll       : Option (NvmDevice × StartChecks) := none   -- what PLL_LOCK brought, kept while the key is awaited
  dev       : NvmDevice := { readable := true, sfdp := true, quad := true, four := true, bytes := [] }
  iramRun   : List Byte := []
  iramIdle  : List Byte := []
  dram      : Tab Byte := []
  runHeader : List Byte := []
  uploadHdr : List Byte := []
  upload    : List Byte := []      -- ciphertext received
  nvmBusy   : Bool := false        -- an erase or program of slot 1 is under way
  ending    : Nat := 0             -- FW_END has passed: 2 the last of the body is still programmed, 1 the header and the check word (R361)
  stagedHdr : List Byte := []
  stagedBody : List Byte := []
  pause     : Option Bool := none  -- activate in progress: recorded ISSUE_PAUSE
  kicked    : Bool := true         -- the image has kicked since the activate
  actCc     : Nat := 0             -- cc of the latest accepted activate
  copying   : Nat := 0             -- SLOT_COPY may run: steps of it that remain (R364)
  repairSeq : BitVec 32 := 0
  marchFail : List Nat := []       -- clusters that failed their most recent march test
  repairAt  : Nat := 0             -- the copy of the repair record that was written or read last (R352)
  repairNew : Bool := false        -- the repair record in NVM is to be rewritten (R272)
  deriving DecidableEq, Repr

/-- Clocks (R88, R298, R323). -/
structure Clk where
  bc      : Nat := 0          -- R88
  run     : Bool := false     -- the bank clock runs
  frozen  : Bool := false     -- tableau in force (R296)
  vco     : Nat := 0          -- VCO periods since the last ref_clk edge
  ref     : Nat := 0          -- ref_clk edges since the release of rst_n
  pre     : Nat := 0          -- bc that have passed before the first rise of sys_ready, which R88 does not count
  div     : Nat := 3          -- D
  readyBc : Nat := 0          -- bc of the latest rise of sys_ready: start of the alive count (R312, R341)
  tabReq  : Option Nat := none -- bc of a tableau request, counted from the start of the clocks
  deriving DecidableEq, Repr

/-- Which transition of the operating point is under way (R326, R328). -/
inductive OpStep where
  | idle
  | lowerD (target : Nat)        -- D is to change
  | lowerAck (target : Nat)      -- pwr_vack is awaited
  | raiseAck (target : Nat)
  | raiseD (target : Nat) (cc : Nat)
  | restoreAck (target : Nat)
  | restoreD (target : Nat) (cc : Nat)
  deriving DecidableEq, Repr

/-- Power (R324 to R341). -/
structure Power where
  step     : OpStep := .idle
  stepRef  : Nat := 0          -- ref_clk count from which the guard of R325 runs
  stepCc   : Nat := 0          -- cc of the write that began a lowering
  queued   : Option Nat := none  -- the latest TARGET written during a transition
  vwarn    : Bool := true      -- vwarn_n as the integrator drives it
  lows     : Nat := 0          -- consecutive samples of 0 of vwarn_n, up to two (R327)
  recog    : Option Nat := none  -- bc, from the start of the clocks, of an assertion recognized and not answered yet
  brownRef : Nat := 0          -- ref_clk count at the latest sample of 0 of vwarn_n (R328)
  owed     : Bool := false     -- a vack timeout while the clocks were stopped, not raised yet (R341)
  req      : Nat := 0          -- MIO_PWR_MODE.MODE
  mode     : Nat := 0          -- 2 to 5: in P2 to P5, from the entry cc to the rise of sys_ready; else 0
  entryRef : Nat := 0
  entryCc  : Nat := 0
  asleep   : Bool := false     -- entry is complete: the clocks are stopped
  rose     : Nat := 0          -- link ports whose lN_up has risen since the check of R331 (R334)
  wakePend : Bool := false     -- a wake event came before entry was complete (R335)
  locking  : Bool := false     -- exit from P4: the PLL lock and the checks are awaited
  riseAt   : Option Nat := none  -- cc in which sys_ready rises
  slice    : Bool := false     -- a watch slice runs (R337)
  sliceEnd : Nat := 0          -- ec in which it ends
  slices   : Nat := 0          -- slices begun since entry
  lends    : Nat := 0          -- pwr_lend at the entry cc, bit n sequencer n (R342)
  deriving DecidableEq, Repr

/-- A raise that is due at the start of a later cc (R94). -/
structure RaiseDue where
  cc   : Nat
  src  : Nat
  unit : Nat
  deriving DecidableEq, Repr

/-- An ordered reaction not yet applied (R306, R309). -/
structure FaultOrder where
  src  : Nat
  unit : BitVec 16
  cc   : Nat
  fence : Bool
  cap  : Bool                  -- the raise that MIO_FLT_CAP records
  deriving DecidableEq, Repr

/-- The fault collector (R303 to R312). -/
structure Faults where
  black  : Bool := false       -- safe state: MIO_FLT_STAT.BLACKOUT (R307)
  bad    : Tab (Nat × Nat) := []  -- per pair, by pair * 32 + source: consecutive non-complementary samples, and the cc of the latest
  inj    : Option (Nat × Nat × Nat × Nat) := none  -- MIO_INJ_LINE in force: source, form, first cc, duration (R321)
  orders : List FaultOrder := []
  due    : List RaiseDue := []    -- raises of a coming cc, in the order of their violations
  alive  : Bool := false
  kick   : Bool := false
  stop   : Nat := 0            -- ALIVE_STOP
  capCc  : Nat := 0            -- cc, from the start of the clocks, of the raise that MIO_FLT_CAP holds (R310)
  lastToggle : Nat := 0        -- cc or ref_clk edges counted to the last toggle edge, or to the last write of ALIVE_EXP
  deriving DecidableEq, Repr

/-- The time counter (R298 to R300): seconds, and units of 2^-32 ns. -/
structure TimeUnit where
  sec     : Nat := 0
  sub     : Nat := 0
  pending : Option (BitVec 48) := none
  since   : Option Nat := none    -- counter time since the latest detected edge, in units of 2^-32 ns
  good    : Nat := 0
  setCc   : Nat := 0           -- cc of the latest set, for a set in the cc of an edge
  deriving DecidableEq, Repr

/-- An input packet to hash (R288). -/
structure ToHash where
  id : Nat
  window : Nat
  header : Nat
  data : List Granule
  count : BitVec 32
  deriving DecidableEq, Repr

/-- The read-back of a weight image in HASHING (R286): the granules read so far by place in the image, whether one of them ends the hash in
FAILED, the requests made on each port of a stack image, and the bc of the SEAL. -/
structure HashRun where
  got    : Tab Granule := []
  failed : Bool := false
  asked  : Tab Nat := []
  since  : Nat := 0
  deriving DecidableEq, Repr

/-- The image of a SAVE (R280): the granules before its banks, the banks in order, the requests made on each port, and whether a stack has
refused one or has not answered. -/
structure SaveRun where
  front  : List Granule := []
  banks  : List Nat := []
  asked  : Tab Nat := []
  failed : Bool := false
  deriving DecidableEq, Repr

/-- A RESTORE (R282): its SHEETS bit, the phase it was taken in, granules that may be asked for, granules received by place (true: of a beat with
an error), requests made on each port; and once the part before the banks has passed: the groups, its length, the banks in order, bank granules
written, whether one was uncorrectable, and whether a read has timed out. -/
structure RestRun where
  sheets  : Bool := false
  wasHeld : Bool := false
  len     : Nat := 128
  got     : Tab (Granule × Bool) := []
  asked   : Tab Nat := []
  groups  : Option (BitVec 32) := none
  base    : Nat := 0
  banks   : List Nat := []
  landed  : Nat := 0
  pois    : Bool := false
  failed  : Bool := false
  deriving DecidableEq, Repr

/-- The digest unit and intermission (R277 to R292). -/
structure Audit where
  hashing   : BitVec 2 := 0            -- program digest running, per half
  dirty     : BitVec 8 := 0            -- a write fell in the extent while HASHING (R287)
  wroteCc   : Tab Nat := []            -- per image in STAGING: 1 + cc of the latest write in its extent (R287)
  queue     : List ToHash := []
  hold      : BitVec 32 := 0           -- groups whose DATA packets the ports hold (R279)
  quiet     : BitVec 32 := 0           -- groups that are quiesced: no request, no packet (R278)
  restored  : BitVec 32 := 0           -- RESTORED flag per group (R291)
  wimgHashed : BitVec 8 := 0           -- image has been hashed
  hashes   : Tab (Option HashRun) := [] -- per image in HASHING
  saveAt    : Option (BitVec 32) := none   -- AT_SCENE of a SAVE with AT_EN = 1
  save      : Option SaveRun := none   -- the image being written
  rest      : Option RestRun := none   -- the RESTORE in progress
  deriving DecidableEq, Repr

/-- The states of the TAP controller (IEEE 1149.1, R5, R357). -/
inductive TapState where
  | testLogicReset | runTestIdle | selectDr | captureDr | shiftDr | exit1Dr | pauseDr | exit2Dr | updateDr
  | selectIr | captureIr | shiftIr | exit1Ir | pauseIr | exit2Ir | updateIr
  deriving DecidableEq, Repr

/-- The stage door (R356, R357): `tapOut` is what shifts out of the data register on the next Shift-DR, first bit first. -/
structure Door where
  lastOp : BitVec 8 := 0
  result : Nat := 0
  resp   : List Byte := []
  tap    : TapState := .testLogicReset
  tapIr  : BitVec 8 := 0x01
  tapOut : List Bool := []
  spiCc  : Option Nat := none  -- cc, from the start of the clocks, in which the latest frame of the SPI target began (R357)
  deriving DecidableEq, Repr

/-- c_rsp_* (R63): valid in the cc in which a request completes. -/
structure CRsp where
  valid  : Bool := false
  rdata  : Word := 0
  status : BitVec 2 := 0
  deriving DecidableEq, Repr

/-- What has happened in the present cc to register fields that a write of this cc may change too (R371). Offsets are those of words. -/
structure CcNotes where
  ones   : Tab Word := []                  -- W1C bits that the block has set
  counts : List (Nat × Nat × Nat) := []    -- events counted in a field: offset, its lowest bit, events
  wrote  : Tab Word := []                  -- bits written of RW fields that the block changes as well
  door   : List (Nat × Word × Word) := []  -- fields that the stage door has loaded: offset, mask, value
  again  : List (Nat × BitVec 2 × Word) := []  -- writes of the stage door that may have to stand over the control port's: offset, enables, data
  port   : List Instr := []                -- what the control port has written after the first of them
  deriving DecidableEq, Repr

/-- A request that the control port has accepted and that has not completed (R63): a read of an offset under its byte enables, or a command
that writes. -/
inductive CReq where
  | read (off : Nat) (be : BitVec 2)
  | write (i : Instr)
  deriving DecidableEq, Repr

/-- Everything but the queue and the banks. -/
structure Ctl where
  regs     : Tab Word := []
  notes    : CcNotes := {}            -- what the present cc has done to fields that writes change too (R371)
  sysReady : Bool := false
  everReady : Bool := false
  clk      : Clk := {}
  boot     : Boot := {}
  store    : Tab Granule := []        -- script store: half * 32768 + granule
  storeSeen : List Nat := []          -- granules whose content has been counted in error (R256)
  storeFix : List Nat := []           -- corrections waiting for the controller's rewrite
  seqs     : Tab Seq := []
  groups   : Tab Group := []
  rdOut    : Tab ReadOut := []
  stOut    : Tab StatusOut := []
  sOut     : Tab StackOut := []
  cntHist  : Tab (List CntHist) := []  -- recent changes of each counter, oldest first
  curtains : Tab Curtain := []
  ctxs     : Tab CtxRun := []
  osets    : Tab OSet := []
  dlTold   : Tab Nat := []            -- per wait set: 1 + cc of its latest deadlock report (R206)
  sports   : Tab StackPort := []
  landed   : List Landed := []        -- landing buffers: granules that wait for the rest of their group
  later    : List (Nat × Word × Word) := []  -- register bits that govern from the next cc: offset, mask, value
  areqs    : List AReq := []
  nextReq  : Nat := 0
  arbs     : Tab Arbiter := []
  busy     : List (Nat × Nat) := []   -- banks used in a bc: (bc, bank index)
  links    : Tab LinkPort := []
  wins     : Tab WinRun := []
  packets  : List Accepted := []
  nextPkt  : Nat := 0
  sends    : Tab SendRun := []
  twin     : Twin := {}
  reh      : Rehearsal := {}
  fillPend : BitVec 64 := 0           -- R23
  refills  : BitVec 64 := 0           -- a refill is running
  handing  : List (Nat × Nat × Nat) := []  -- hand-overs that passed in a cc: region, new owner, that cc (R27)
  handCc   : Option Nat := none       -- cc of the latest hand-over that got as far as check 2 (R27)
  killCc   : Option Nat := none       -- cc of the latest kill (R27)
  swap     : Option (BitVec 32 × BitVec 4) := none
  swapCc   : Option Nat := none       -- cc in which the swap took effect: still PENDING (R97)
  wbq      : Tab (List WbEntry) := []
  wbNew    : Tab (List WbEntry) := [] -- write-backs that have not come to their queue yet (R254)
  logq     : List LogDue := []        -- events on their way to the log table (R257)
  fills    : Tab (Option BankFill) := []  -- per physical bank under a region refill or a strike
  scrubs   : Tab Scrub := []
  lapCorr  : Tab Nat := []
  lapTold  : List Nat := []           -- quadrants whose threshold has been raised in the present lap (R258)
  marches  : Tab March := []
  unders   : Tab Understudy := []
  fenced   : List Nat := []           -- clusters q * 65 + c fenced, c = 64 the understudy
  strikes  : List Strike := []
  power    : Power := {}
  faults   : Faults := {}
  time     : TimeUnit := {}
  audit    : Audit := {}
  door     : Door := {}
  cRsp     : CRsp := {}
  cReqs    : List CReq := []          -- control-port requests accepted and not complete, oldest first (R63)
  cTurn    : Bool := false            -- the command at the front of the queue is the oldest of them, whose cc has come
  cReady   : Bool := true             -- c_rsp_ready, which no command of the table drives
  free     : Nat := 0                 -- free values drawn so far (the model's own field)
  deriving DecidableEq, Repr

/-- The block: its waiting commands, its bank rows, and its units. -/
structure State where
  pending : List Instr := []
  banks   : Tab Granule := []
  c       : Ctl := {}
  deriving DecidableEq, Repr

/-- The block with rst_n asserted (R343), before its release. -/
def State.reset : State := {}

end Sys2Proof.Machine
end

