-- ==== Sys2Proof/Machine/RegMap.lean ====
section
/-! DEFINITION. The register map (R366, R375): every register, its offsets and its fields with their access types and reset values (R369), written out from the register tables of the spec. -/

namespace Sys2Proof.Machine

/-- The registers of the index R375. -/
inductive RegKind where
  | region | bankOwn | handover | regionStat | geom | regionAvail | latMap | pstat
  | sportCfg | sportStat | seqCfg | seqCtrl | seqStat | seqScene | seqTrap | seqWt
  | grpCfg | cs | cvRec0 | cvRec1 | cvRec2 | cvCount | csSwap | csCtrl
  | csStat | csFrame | grpSwap | ssStat | msoStat | reordStat | wingCfg | scopeRec
  | scopeCount | cnt | cntAdd | tagEn | curCfg | curStat | curCtrl | wdog
  | hangHdr | hangTag | hangSeq | hangSeqv | hangStr | syncCfg | syncStat | strCtx
  | strCmd | strCmdStat | strCfg | strStat | strOset | dlHdr | dlMem | win
  | lsend | winCmd | linkCfg | linkStat | twinCfg | twinStat | twinCkpt | arbCfg
  | arbReq | arbGnt | arbWait | eccLog | eccCnt | eccCfg | eccLogctl | eccWb
  | scrubCfg | scrubLap | selftest | marchCmd | marchStat | usCmd | usStat | intmCfg
  | intmAddr | intmCur | intmCmd | intmStat | progDig | wimg | wimgCmd | inDig
  | provSeq | provGflag | provSrc | rehCfg | rehDiv | rehDiv1 | rehSig | tableauCfg
  | timeNow | timeCtl | timeSetNs | timeSet | timePps | timeFref | fltSrc | fltCap
  | fltSticky | fltCnt | fltCfg | fltStat | fltKick | fltKill | strikeStat | repGrant
  | pertStream | pertArb | pertLink | injBank | injLine | pwrOp | pwrMode | pwrWake
  | pwrRet | pwrWatch | pwrWatchv | smBoot | fwStat | fwStaged | fwCmd | mbCtrl
  | mbH2s | mbS2h | id | cap0 | cap1 | ctrl | status
  deriving DecidableEq, Repr

/-- Access types of R369. -/
inductive Acc where
  | rw | ro | wo | w1c | w1s | rwl | rws
  deriving DecidableEq, Repr

/-- A field: word of the register, lowest bit in the word, width, access type, reset value. -/
structure Field where
  word : Nat
  lo : Nat
  width : Nat
  acc : Acc
  init : Nat
  deriving DecidableEq, Repr

/-- A register: base offset, distance of its copies, number of copies, 64-bit words of one copy, fields. -/
structure RegRow where
  kind : RegKind
  base : Nat
  stride : Nat
  count : Nat
  words : Nat
  fields : List Field
  deriving DecidableEq, Repr

/-- The registers of 02_geometry.md. -/
def regs02 : List RegRow := [
  ⟨.region, 0x40000, 8, 64, 1, [⟨0,0,8,.rwl,0⟩, ⟨0,8,8,.rwl,0x40⟩, ⟨0,16,8,.rwl,0x80⟩, ⟨0,24,8,.rwl,0xC0⟩, ⟨0,32,1,.rwl,0⟩, ⟨0,33,1,.rwl,0⟩, ⟨0,34,2,.rwl,0⟩, ⟨0,48,1,.rwl,1⟩, ⟨0,49,1,.ro,0⟩, ⟨0,50,1,.ro,0⟩]⟩,
  ⟨.bankOwn, 0x41000, 8, 512, 1, [⟨0,0,6,.rw,0⟩, ⟨0,8,6,.rw,0⟩, ⟨0,16,6,.rw,0⟩, ⟨0,24,6,.rw,0⟩, ⟨0,32,6,.rw,0⟩, ⟨0,40,6,.rw,0⟩, ⟨0,48,6,.rw,0⟩, ⟨0,56,6,.rw,0⟩, ⟨0,6,1,.ro,0⟩, ⟨0,14,1,.ro,0⟩, ⟨0,22,1,.ro,0⟩, ⟨0,30,1,.ro,0⟩, ⟨0,38,1,.ro,0⟩, ⟨0,46,1,.ro,0⟩, ⟨0,54,1,.ro,0⟩, ⟨0,62,1,.ro,0⟩]⟩,
  ⟨.handover, 0x40400, 0, 1, 1, [⟨0,0,6,.wo,0⟩, ⟨0,8,6,.wo,0⟩, ⟨0,16,6,.wo,0⟩]⟩,
  ⟨.regionStat, 0x40408, 0, 1, 1, [⟨0,0,6,.ro,0⟩, ⟨0,6,1,.ro,0⟩, ⟨0,8,2,.ro,0⟩, ⟨0,12,3,.ro,0⟩, ⟨0,16,1,.w1c,0⟩]⟩,
  ⟨.geom, 0x80, 0, 1, 1, [⟨0,0,7,.ro,0x20⟩, ⟨0,8,7,.ro,0x20⟩, ⟨0,16,5,.ro,0x18⟩, ⟨0,24,5,.ro,0x10⟩, ⟨0,32,4,.ro,0xF⟩, ⟨0,36,4,.ro,0⟩, ⟨0,40,4,.ro,0⟩]⟩,
  ⟨.regionAvail, 0x88, 0, 1, 1, [⟨0,0,64,.ro,0xFFFFFFFF⟩]⟩,
  ⟨.latMap, 0x90, 0, 1, 1, [⟨0,0,8,.ro,0xA⟩, ⟨0,8,8,.ro,0xD⟩, ⟨0,16,8,.ro,0x10⟩, ⟨0,24,8,.ro,8⟩, ⟨0,32,8,.ro,0xB⟩, ⟨0,40,8,.ro,0xE⟩, ⟨0,48,4,.ro,2⟩, ⟨0,52,4,.ro,4⟩, ⟨0,56,4,.ro,3⟩]⟩]

/-- The registers of 03_port_protocols.md. -/
def regs03 : List RegRow := [
  ⟨.pstat, 0x1000F8, 256, 104, 1, [⟨0,0,16,.rw,0⟩, ⟨0,16,16,.rw,0⟩, ⟨0,32,16,.rw,0⟩, ⟨0,48,16,.rw,0⟩]⟩,
  ⟨.sportCfg, 0x10800, 16, 24, 1, [⟨0,0,12,.rw,0x800⟩, ⟨0,16,5,.rw,0x14⟩, ⟨0,32,1,.rw,1⟩]⟩,
  ⟨.sportStat, 0x10808, 16, 24, 1, [⟨0,0,12,.ro,0⟩, ⟨0,16,16,.rw,0⟩, ⟨0,32,16,.rw,0⟩, ⟨0,48,11,.ro,0⟩, ⟨0,59,3,.ro,0⟩]⟩]

/-- The registers of 04_cue_words.md. -/
def regs04 : List RegRow := [
  ⟨.seqCfg, 0x100000, 256, 104, 1, [⟨0,0,5,.rw,0⟩, ⟨0,8,1,.rw,0⟩, ⟨0,16,16,.rw,0⟩]⟩,
  ⟨.seqCtrl, 0x100008, 256, 104, 1, [⟨0,0,2,.wo,0⟩]⟩,
  ⟨.seqStat, 0x100010, 256, 104, 1, [⟨0,0,2,.ro,0⟩, ⟨0,2,1,.ro,0⟩, ⟨0,3,1,.ro,0⟩, ⟨0,4,1,.ro,0⟩, ⟨0,5,1,.ro,0⟩, ⟨0,6,1,.w1c,0⟩, ⟨0,8,3,.ro,0⟩, ⟨0,16,16,.ro,0⟩]⟩,
  ⟨.seqScene, 0x100018, 256, 104, 1, [⟨0,0,32,.ro,0⟩, ⟨0,32,32,.ro,0⟩]⟩,
  ⟨.seqTrap, 0x100020, 256, 104, 1, [⟨0,0,4,.ro,0⟩, ⟨0,4,1,.ro,0⟩, ⟨0,16,16,.ro,0⟩, ⟨0,32,32,.ro,0⟩]⟩,
  ⟨.seqWt, 0x100040, 256, 104, 4, [⟨0,0,32,.rw,0⟩, ⟨0,32,32,.rw,0⟩, ⟨1,0,32,.rw,0⟩, ⟨1,32,32,.rw,0⟩, ⟨2,0,32,.rw,0⟩, ⟨2,32,32,.rw,0⟩, ⟨3,0,32,.rw,0⟩, ⟨3,32,32,.rw,0⟩]⟩]

/-- The registers of 05_scenes_and_cue_sheet.md. -/
def regs05 : List RegRow := [
  ⟨.grpCfg, 0xB9000, 8, 32, 1, [⟨0,0,4,.rw,8⟩]⟩,
  ⟨.cs, 0xB0000, 8, 4096, 1, [⟨0,0,64,.rws,0⟩]⟩,
  ⟨.cvRec0, 0xBA000, 0, 1, 1, [⟨0,0,7,.ro,0⟩, ⟨0,8,3,.ro,0⟩, ⟨0,12,3,.ro,0⟩, ⟨0,15,1,.ro,0⟩, ⟨0,16,2,.ro,0⟩, ⟨0,18,6,.ro,0⟩, ⟨0,24,4,.ro,0⟩, ⟨0,28,8,.ro,0⟩, ⟨0,62,1,.w1c,0⟩, ⟨0,63,1,.w1c,0⟩]⟩,
  ⟨.cvRec1, 0xBA008, 0, 1, 1, [⟨0,0,32,.ro,0⟩, ⟨0,32,32,.ro,0⟩]⟩,
  ⟨.cvRec2, 0xBA010, 0, 1, 1, [⟨0,0,27,.ro,0⟩, ⟨0,32,32,.ro,0⟩]⟩,
  ⟨.cvCount, 0xBA018, 0, 1, 1, [⟨0,0,32,.rw,0⟩]⟩,
  ⟨.csSwap, 0xB8000, 0, 1, 1, [⟨0,0,32,.wo,0⟩, ⟨0,32,4,.wo,0⟩]⟩,
  ⟨.csCtrl, 0xB8008, 0, 1, 1, [⟨0,0,4,.rw,0⟩, ⟨0,4,4,.w1s,0⟩]⟩,
  ⟨.csStat, 0xB8010, 0, 1, 1, [⟨0,0,4,.ro,0⟩, ⟨0,4,4,.ro,0⟩, ⟨0,8,3,.ro,0⟩, ⟨0,11,1,.w1c,0⟩, ⟨0,32,32,.ro,0⟩]⟩,
  ⟨.csFrame, 0xB8018, 0, 1, 1, [⟨0,0,32,.ro,0⟩, ⟨0,32,8,.ro,0⟩]⟩,
  ⟨.grpSwap, 0xB9100, 8, 32, 1, [⟨0,0,1,.wo,0⟩, ⟨0,1,1,.wo,0⟩, ⟨0,2,1,.wo,0⟩, ⟨0,8,1,.ro,0⟩, ⟨0,9,1,.ro,0⟩, ⟨0,16,1,.w1c,0⟩]⟩,
  ⟨.ssStat, 0xBA020, 0, 1, 1, [⟨0,0,1,.ro,0⟩, ⟨0,1,1,.ro,0⟩, ⟨0,2,1,.w1c,0⟩, ⟨0,16,14,.ro,0⟩]⟩]

/-- The registers of 06_memory_side_operations.md. -/
def regs06 : List RegRow := [
  ⟨.msoStat, 0x4F000, 8, 4, 1, [⟨0,0,16,.rw,0⟩, ⟨0,16,16,.rw,0⟩, ⟨0,32,16,.rw,0⟩, ⟨0,48,16,.rw,0⟩]⟩,
  ⟨.reordStat, 0x4F100, 8, 4, 1, [⟨0,0,18,.ro,0⟩, ⟨0,18,18,.ro,0⟩, ⟨0,36,18,.ro,0⟩, ⟨0,54,3,.ro,0⟩]⟩]

/-- The registers of 07_ordering.md. -/
def regs07 : List RegRow := [
  ⟨.wingCfg, 0x10C00, 8, 104, 1, [⟨0,0,3,.rw,0⟩, ⟨0,8,1,.rw,1⟩]⟩,
  ⟨.scopeRec, 0x10F80, 0, 1, 1, [⟨0,0,12,.ro,0⟩, ⟨0,12,1,.ro,0⟩, ⟨0,13,2,.ro,0⟩, ⟨0,15,2,.ro,0⟩, ⟨0,17,1,.ro,0⟩, ⟨0,18,14,.ro,0⟩, ⟨0,62,1,.w1c,0⟩, ⟨0,63,1,.w1c,0⟩]⟩,
  ⟨.scopeCount, 0x10F88, 0, 1, 1, [⟨0,0,32,.rw,0⟩]⟩]

/-- The registers of 08_synchronization.md. -/
def regs08 : List RegRow := [
  ⟨.cnt, 0x80000, 16, 4096, 1, [⟨0,0,32,.rw,0⟩, ⟨0,32,2,.ro,0⟩, ⟨0,34,3,.ro,0⟩, ⟨0,37,1,.ro,0⟩]⟩,
  ⟨.cntAdd, 0x80008, 16, 4096, 1, [⟨0,0,32,.wo,0⟩]⟩,
  ⟨.tagEn, 0x40410, 0, 1, 1, [⟨0,0,64,.rw,0⟩]⟩,
  ⟨.curCfg, 0x90000, 32, 64, 1, [⟨0,0,16,.rw,0⟩, ⟨0,16,5,.rw,0x10⟩, ⟨0,24,16,.rw,0⟩, ⟨0,40,8,.rw,0⟩]⟩,
  ⟨.curStat, 0x90008, 32, 64, 1, [⟨0,0,16,.ro,0⟩, ⟨0,16,16,.ro,0⟩, ⟨0,32,2,.ro,0⟩, ⟨0,34,1,.ro,0⟩, ⟨0,35,2,.ro,0⟩, ⟨0,37,15,.ro,0⟩, ⟨0,52,1,.w1c,0⟩, ⟨0,53,1,.w1c,0⟩, ⟨0,54,10,.rw,0⟩]⟩,
  ⟨.curCtrl, 0x90010, 32, 64, 1, [⟨0,0,1,.w1s,0⟩]⟩,
  ⟨.wdog, 0x9F100, 8, 32, 1, [⟨0,0,40,.rw,0⟩]⟩,
  ⟨.hangHdr, 0x9C000, 0, 1, 1, [⟨0,0,2,.ro,0⟩, ⟨0,2,5,.ro,0⟩, ⟨0,7,7,.ro,0⟩, ⟨0,14,9,.ro,0⟩, ⟨0,23,1,.ro,0⟩, ⟨0,24,32,.ro,0⟩, ⟨0,62,1,.w1c,0⟩, ⟨0,63,1,.w1c,0⟩]⟩,
  ⟨.hangTag, 0x9C008, 0, 1, 1, [⟨0,0,27,.ro,0⟩, ⟨0,27,1,.ro,0⟩, ⟨0,28,2,.ro,0⟩, ⟨0,30,14,.ro,0⟩]⟩,
  ⟨.hangSeq, 0x9C100, 16, 104, 1, [⟨0,0,2,.ro,0⟩, ⟨0,2,1,.ro,0⟩, ⟨0,3,5,.ro,0⟩, ⟨0,8,3,.ro,0⟩, ⟨0,11,1,.ro,0⟩, ⟨0,12,16,.ro,0⟩, ⟨0,32,32,.ro,0⟩]⟩,
  ⟨.hangSeqv, 0x9C108, 16, 104, 1, [⟨0,0,32,.ro,0⟩, ⟨0,32,32,.ro,0⟩]⟩,
  ⟨.hangStr, 0x9D000, 16, 256, 2, [⟨0,0,14,.ro,0⟩, ⟨0,16,12,.ro,0⟩, ⟨1,0,32,.ro,0⟩, ⟨1,32,32,.ro,0⟩]⟩,
  ⟨.syncCfg, 0x9F000, 0, 1, 1, [⟨0,0,5,.rw,0x14⟩, ⟨0,8,32,.rw,0⟩]⟩,
  ⟨.syncStat, 0x9F008, 0, 1, 1, [⟨0,0,12,.ro,0⟩, ⟨0,12,1,.w1c,0⟩, ⟨0,32,16,.rw,0⟩]⟩]

/-- The registers of 09_streams.md. -/
def regs09 : List RegRow := [
  ⟨.strCtx, 0x200000, 64, 16384, 8, [⟨0,0,3,.ro,0⟩, ⟨0,3,4,.ro,0⟩, ⟨0,7,10,.ro,0⟩, ⟨0,17,5,.rw,0⟩, ⟨0,22,2,.rw,0⟩, ⟨0,24,5,.rw,0⟩, ⟨0,29,2,.rw,0⟩, ⟨0,31,1,.rw,0⟩, ⟨0,32,1,.rw,0⟩, ⟨0,33,1,.rw,0⟩, ⟨0,34,1,.rw,0⟩, ⟨0,35,1,.rw,0⟩, ⟨0,36,6,.rw,0⟩, ⟨0,42,6,.rw,0⟩, ⟨0,48,4,.rw,0⟩, ⟨0,52,10,.ro,0⟩, ⟨0,62,1,.rw,0⟩, ⟨1,0,36,.rw,0⟩, ⟨1,36,7,.rw,0⟩, ⟨1,43,9,.rw,0⟩, ⟨1,52,12,.rw,0⟩, ⟨2,0,27,.rw,0⟩, ⟨2,27,24,.rw,0⟩, ⟨2,51,12,.rw,0⟩, ⟨2,63,1,.rw,0⟩, ⟨3,0,32,.rw,0⟩, ⟨3,32,16,.rw,0⟩, ⟨3,48,16,.rw,0⟩, ⟨4,0,2,.rw,0⟩, ⟨4,2,4,.rw,0⟩, ⟨4,6,3,.rw,0⟩, ⟨4,9,1,.rw,0⟩, ⟨4,10,2,.rw,0⟩, ⟨4,12,2,.rw,0⟩, ⟨4,14,3,.rw,0⟩, ⟨4,17,2,.rw,0⟩, ⟨4,19,12,.rw,0⟩, ⟨4,32,32,.rw,0⟩, ⟨5,0,32,.rw,0⟩, ⟨5,32,32,.rw,0⟩, ⟨6,0,32,.rw,0⟩, ⟨6,32,32,.ro,0⟩, ⟨7,0,32,.ro,0⟩, ⟨7,32,32,.ro,0⟩]⟩,
  ⟨.strCmd, 0x11000, 0, 1, 1, [⟨0,0,14,.wo,0⟩, ⟨0,16,3,.wo,0⟩]⟩,
  ⟨.strCmdStat, 0x11008, 0, 1, 1, [⟨0,0,14,.ro,0⟩, ⟨0,16,3,.ro,0⟩, ⟨0,20,2,.ro,0⟩, ⟨0,32,32,.ro,0⟩]⟩,
  ⟨.strCfg, 0x11010, 0, 1, 1, [⟨0,0,5,.rw,0xB⟩, ⟨0,8,5,.rw,0x12⟩, ⟨0,16,1,.rw,0⟩]⟩,
  ⟨.strStat, 0x11018, 0, 1, 1, [⟨0,0,14,.ro,0⟩, ⟨0,14,3,.ro,0⟩, ⟨0,17,1,.w1c,0⟩, ⟨0,18,1,.w1c,0⟩, ⟨0,32,16,.rw,0⟩, ⟨0,48,16,.rw,0⟩]⟩,
  ⟨.strOset, 0x11080, 8, 16, 1, [⟨0,0,14,.rw,0⟩, ⟨0,14,18,.rw,0⟩, ⟨0,32,20,.ro,0⟩, ⟨0,52,1,.ro,0⟩]⟩,
  ⟨.dlHdr, 0x11100, 0, 1, 1, [⟨0,0,6,.ro,0⟩, ⟨0,6,6,.ro,0⟩, ⟨0,12,1,.ro,0⟩, ⟨0,13,32,.ro,0⟩, ⟨0,62,1,.w1c,0⟩, ⟨0,63,1,.w1c,0⟩]⟩,
  ⟨.dlMem, 0x11108, 8, 32, 1, [⟨0,0,14,.ro,0⟩, ⟨0,14,12,.ro,0⟩, ⟨0,32,32,.ro,0⟩]⟩]

/-- The registers of 10_windows_links_twin.md. -/
def regs10 : List RegRow := [
  ⟨.win, 0x42000, 32, 1024, 4, [⟨0,0,2,.ro,0⟩, ⟨0,2,5,.rw,0⟩, ⟨0,7,1,.rw,0⟩, ⟨0,8,1,.rw,0⟩, ⟨0,9,1,.rw,0⟩, ⟨0,10,2,.rw,0⟩, ⟨0,12,1,.rw,0⟩, ⟨0,16,12,.rw,0⟩, ⟨0,32,27,.rw,0⟩, ⟨1,0,24,.rw,0⟩, ⟨1,24,16,.rw,0⟩, ⟨1,40,16,.rw,0⟩, ⟨2,0,16,.rw,0⟩, ⟨2,16,18,.rw,0⟩, ⟨3,0,16,.rw,0⟩, ⟨3,16,4,.ro,0⟩, ⟨3,32,32,.rw,0⟩]⟩,
  ⟨.lsend, 0x4A000, 64, 256, 8, [⟨0,0,2,.ro,0⟩, ⟨0,2,3,.ro,0⟩, ⟨0,5,5,.rw,0⟩, ⟨0,10,4,.rw,0⟩, ⟨0,14,4,.rw,0⟩, ⟨0,18,1,.rw,0⟩, ⟨0,19,1,.rw,0⟩, ⟨0,20,1,.rw,0⟩, ⟨0,21,1,.rw,0⟩, ⟨0,22,1,.rw,0⟩, ⟨0,32,10,.rw,0⟩, ⟨1,0,27,.rw,0⟩, ⟨1,32,24,.rw,0⟩, ⟨1,56,8,.rw,0⟩, ⟨2,0,24,.rw,0⟩, ⟨2,32,16,.rw,0⟩, ⟨2,48,12,.rw,0⟩, ⟨3,0,12,.rw,0⟩, ⟨3,32,32,.rw,0⟩, ⟨4,0,64,.rw,0⟩, ⟨5,0,32,.ro,0⟩, ⟨5,32,32,.ro,0⟩, ⟨6,0,32,.ro,0⟩, ⟨6,32,32,.ro,0⟩]⟩,
  ⟨.winCmd, 0x40420, 0, 1, 1, [⟨0,0,10,.wo,0⟩, ⟨0,10,1,.wo,0⟩, ⟨0,12,3,.wo,0⟩, ⟨0,16,3,.ro,0⟩, ⟨0,19,1,.w1c,0⟩]⟩,
  ⟨.linkCfg, 0x10A00, 16, 16, 1, [⟨0,0,7,.rw,0x40⟩, ⟨0,8,5,.rw,0x10⟩, ⟨0,16,1,.rw,1⟩]⟩,
  ⟨.linkStat, 0x10A08, 16, 16, 1, [⟨0,0,1,.ro,0⟩, ⟨0,1,7,.ro,0⟩, ⟨0,8,16,.rw,0⟩, ⟨0,24,4,.ro,0⟩, ⟨0,32,16,.rw,0⟩, ⟨0,48,16,.rw,0⟩]⟩,
  ⟨.twinCfg, 0x10B00, 0, 1, 1, [⟨0,0,2,.rw,0⟩, ⟨0,2,1,.rw,0⟩, ⟨0,3,1,.rw,0⟩, ⟨0,8,5,.rw,0xC⟩]⟩,
  ⟨.twinStat, 0x10B08, 0, 1, 1, [⟨0,0,21,.ro,0⟩, ⟨0,32,13,.ro,0⟩, ⟨0,45,2,.ro,0⟩, ⟨0,47,1,.ro,0⟩, ⟨0,48,1,.w1c,0⟩, ⟨0,49,1,.ro,0⟩]⟩,
  ⟨.twinCkpt, 0x10B10, 0, 1, 1, [⟨0,0,32,.rw,0⟩, ⟨0,32,32,.ro,0⟩]⟩]

/-- The registers of 11_slack_arbitration.md. -/
def regs11 : List RegRow := [
  ⟨.arbCfg, 0xA0000, 0, 1, 1, [⟨0,0,4,.rw,4⟩, ⟨0,4,1,.rw,0⟩]⟩,
  ⟨.arbReq, 0xA0100, 8, 61, 1, [⟨0,0,2,.rw,0⟩, ⟨0,2,3,.rw,0⟩, ⟨0,8,8,.rw,0x10⟩]⟩,
  ⟨.arbGnt, 0xA0400, 16, 61, 1, [⟨0,0,48,.rw,0⟩]⟩,
  ⟨.arbWait, 0xA0408, 16, 61, 1, [⟨0,0,16,.ro,0⟩, ⟨0,16,16,.rw,0⟩, ⟨0,32,4,.ro,0⟩]⟩]

/-- The registers of 12_integrity_and_repair.md. -/
def regs12 : List RegRow := [
  ⟨.eccLog, 0x31000, 16, 64, 2, [⟨0,0,1,.w1c,0⟩, ⟨0,1,3,.ro,0⟩, ⟨0,4,3,.ro,0⟩, ⟨0,7,1,.ro,0⟩, ⟨0,8,8,.ro,0⟩, ⟨0,16,2,.ro,0⟩, ⟨0,18,6,.ro,0⟩, ⟨0,24,4,.ro,0⟩, ⟨0,28,12,.ro,0⟩, ⟨0,40,9,.ro,0⟩, ⟨1,0,32,.ro,0⟩, ⟨1,32,16,.ro,0⟩]⟩,
  ⟨.eccCnt, 0x30020, 8, 8, 1, [⟨0,0,24,.rw,0⟩, ⟨0,24,16,.rw,0⟩, ⟨0,40,12,.rw,0⟩, ⟨0,52,12,.rw,0⟩]⟩,
  ⟨.eccCfg, 0x30000, 0, 1, 1, [⟨0,0,16,.rw,0x100⟩, ⟨0,16,1,.rw,1⟩]⟩,
  ⟨.eccLogctl, 0x30008, 0, 1, 1, [⟨0,0,7,.ro,0⟩, ⟨0,32,32,.rw,0⟩]⟩,
  ⟨.eccWb, 0x30060, 8, 4, 1, [⟨0,0,7,.ro,0⟩, ⟨0,16,16,.rw,0⟩, ⟨0,32,16,.rw,0⟩]⟩,
  ⟨.scrubCfg, 0x30100, 0, 1, 1, [⟨0,0,1,.rw,1⟩, ⟨0,1,3,.rw,0⟩]⟩,
  ⟨.scrubLap, 0x30108, 0, 1, 1, [⟨0,0,24,.ro,0x1000⟩, ⟨0,24,24,.ro,0⟩, ⟨0,48,16,.ro,0⟩]⟩,
  ⟨.selftest, 0x30200, 0, 1, 1, [⟨0,0,4,.ro,0⟩, ⟨0,4,4,.ro,0⟩, ⟨0,8,24,.ro,0⟩, ⟨0,32,16,.ro,0⟩, ⟨0,48,1,.ro,0⟩, ⟨0,49,1,.ro,0⟩, ⟨0,50,1,.ro,0⟩, ⟨0,63,1,.ro,0⟩]⟩,
  ⟨.marchCmd, 0x30300, 0, 1, 1, [⟨0,0,2,.wo,0⟩, ⟨0,2,6,.wo,0⟩, ⟨0,8,1,.wo,0⟩, ⟨0,9,1,.wo,0⟩, ⟨0,10,1,.wo,0⟩, ⟨0,11,1,.wo,0⟩]⟩,
  ⟨.marchStat, 0x30308, 8, 4, 1, [⟨0,0,2,.ro,0⟩, ⟨0,2,3,.ro,0⟩, ⟨0,5,1,.ro,0⟩, ⟨0,6,6,.ro,0⟩, ⟨0,12,16,.ro,0⟩, ⟨0,28,12,.ro,0⟩, ⟨0,40,3,.ro,0⟩]⟩,
  ⟨.usCmd, 0x30400, 0, 1, 1, [⟨0,0,2,.wo,0⟩, ⟨0,2,6,.wo,0⟩, ⟨0,8,2,.wo,0⟩]⟩,
  ⟨.usStat, 0x30410, 8, 4, 1, [⟨0,0,2,.ro,0⟩, ⟨0,2,6,.ro,0⟩, ⟨0,8,12,.ro,0⟩, ⟨0,20,1,.ro,0⟩, ⟨0,21,3,.ro,0⟩, ⟨0,24,1,.w1c,0⟩]⟩]

/-- The registers of 13_reproducibility_and_audit.md. -/
def regs13 : List RegRow := [
  ⟨.intmCfg, 0x11800, 0, 1, 1, [⟨0,0,32,.rw,0⟩, ⟨0,32,24,.rw,0⟩]⟩,
  ⟨.intmAddr, 0x11808, 0, 1, 1, [⟨0,0,36,.rw,0⟩, ⟨0,36,12,.rw,0⟩, ⟨0,48,13,.rw,0⟩]⟩,
  ⟨.intmCur, 0x11810, 0, 1, 1, [⟨0,0,64,.rw,0⟩]⟩,
  ⟨.intmCmd, 0x11818, 0, 1, 1, [⟨0,0,2,.wo,0⟩, ⟨0,2,1,.wo,0⟩, ⟨0,3,1,.wo,0⟩, ⟨0,32,32,.wo,0⟩]⟩,
  ⟨.intmStat, 0x11820, 0, 1, 1, [⟨0,0,3,.ro,0⟩, ⟨0,3,3,.ro,0⟩, ⟨0,6,1,.w1c,0⟩, ⟨0,32,32,.ro,0⟩]⟩,
  ⟨.progDig, 0x301000, 64, 2, 5, [⟨0,0,64,.ro,0⟩, ⟨1,0,64,.ro,0⟩, ⟨2,0,64,.ro,0⟩, ⟨3,0,64,.ro,0⟩, ⟨4,0,1,.ro,0⟩, ⟨4,1,1,.ro,0⟩, ⟨4,32,32,.ro,0⟩]⟩,
  ⟨.wimg, 0x302000, 64, 8, 8, [⟨0,0,3,.ro,0⟩, ⟨0,3,1,.ro,0⟩, ⟨0,4,1,.rw,0⟩, ⟨0,5,1,.rw,0⟩, ⟨0,6,24,.rw,0⟩, ⟨1,0,36,.rw,0⟩, ⟨2,0,32,.rw,0⟩, ⟨4,0,64,.ro,0⟩, ⟨5,0,64,.ro,0⟩, ⟨6,0,64,.ro,0⟩, ⟨7,0,64,.ro,0⟩]⟩,
  ⟨.wimgCmd, 0x302800, 0, 1, 1, [⟨0,0,3,.wo,0⟩, ⟨0,4,2,.wo,0⟩, ⟨0,8,3,.ro,0⟩, ⟨0,11,1,.w1c,0⟩]⟩,
  ⟨.inDig, 0x308000, 64, 1024, 8, [⟨0,0,64,.ro,0⟩, ⟨1,0,64,.ro,0⟩, ⟨2,0,64,.ro,0⟩, ⟨3,0,64,.ro,0⟩, ⟨4,0,32,.ro,0⟩, ⟨4,32,16,.ro,0⟩, ⟨4,48,16,.ro,0⟩, ⟨5,0,48,.ro,0⟩, ⟨5,48,1,.ro,0⟩, ⟨5,49,1,.ro,0⟩]⟩,
  ⟨.provSeq, 0x300000, 0, 1, 1, [⟨0,0,64,.rw,0⟩]⟩,
  ⟨.provGflag, 0x300100, 8, 32, 1, [⟨0,0,1,.w1c,0⟩, ⟨0,1,1,.w1c,0⟩]⟩,
  ⟨.provSrc, 0x300800, 8, 256, 1, [⟨0,0,10,.rw,0⟩, ⟨0,10,1,.rw,0⟩, ⟨0,11,3,.rw,0⟩, ⟨0,14,1,.rw,0⟩]⟩,
  ⟨.rehCfg, 0x10B20, 0, 1, 1, [⟨0,0,5,.rw,0⟩, ⟨0,5,5,.rw,0xA⟩]⟩,
  ⟨.rehDiv, 0x10B28, 0, 1, 1, [⟨0,0,32,.ro,0⟩, ⟨0,32,32,.ro,0⟩]⟩,
  ⟨.rehDiv1, 0x10B30, 0, 1, 1, [⟨0,0,2,.ro,0⟩, ⟨0,2,2,.ro,0⟩, ⟨0,62,1,.w1c,0⟩, ⟨0,63,1,.w1c,0⟩]⟩,
  ⟨.rehSig, 0x10B40, 8, 4, 1, [⟨0,0,64,.ro,0xFFFFFFFFFFFFFFFF⟩]⟩,
  ⟨.tableauCfg, 0x10E00, 0, 1, 1, [⟨0,0,1,.rw,0⟩, ⟨0,1,1,.rw,0⟩]⟩,
  ⟨.timeNow, 0x380000, 0, 1, 1, [⟨0,0,32,.ro,0⟩, ⟨0,32,32,.ro,0⟩]⟩,
  ⟨.timeCtl, 0x380008, 0, 1, 1, [⟨0,0,16,.ro,0⟩, ⟨0,16,2,.ro,0⟩, ⟨0,18,1,.ro,0⟩, ⟨0,24,24,.rw,0⟩, ⟨0,48,16,.rw,0x64⟩]⟩,
  ⟨.timeSetNs, 0x380010, 0, 1, 1, [⟨0,0,32,.rw,0⟩, ⟨0,32,8,.rw,0x19⟩]⟩,
  ⟨.timeSet, 0x380018, 0, 1, 1, [⟨0,0,48,.wo,0⟩, ⟨0,48,1,.wo,0⟩, ⟨0,49,1,.wo,0⟩]⟩,
  ⟨.timePps, 0x380020, 0, 1, 1, [⟨0,0,32,.ro,0⟩, ⟨0,32,16,.ro,0⟩, ⟨0,48,1,.w1c,0⟩]⟩,
  ⟨.timeFref, 0x380028, 0, 1, 1, [⟨0,0,32,.ro,0⟩, ⟨0,32,8,.ro,0⟩]⟩]

/-- The registers of 14_fault_handling.md. -/
def regs14 : List RegRow := [
  ⟨.fltSrc, 0x20100, 8, 24, 1, [⟨0,0,2,.rwl,0⟩, ⟨0,2,1,.rwl,0⟩]⟩,
  ⟨.fltCap, 0x20000, 0, 1, 2, [⟨0,0,5,.ro,0⟩, ⟨0,5,2,.ro,0⟩, ⟨0,7,1,.ro,0⟩, ⟨0,8,16,.ro,0⟩, ⟨0,61,1,.w1c,0⟩, ⟨0,62,1,.w1c,0⟩, ⟨0,63,1,.w1c,0⟩, ⟨1,0,32,.ro,0⟩, ⟨1,32,8,.ro,0⟩]⟩,
  ⟨.fltSticky, 0x20010, 0, 1, 1, [⟨0,0,24,.w1c,0⟩]⟩,
  ⟨.fltCnt, 0x20200, 8, 24, 1, [⟨0,0,32,.rw,0⟩]⟩,
  ⟨.fltCfg, 0x20018, 0, 1, 1, [⟨0,0,1,.rwl,0⟩, ⟨0,8,5,.rwl,0x14⟩]⟩,
  ⟨.fltStat, 0x20020, 0, 1, 1, [⟨0,0,1,.ro,0⟩, ⟨0,1,1,.w1c,0⟩, ⟨0,2,2,.ro,0⟩, ⟨0,4,1,.ro,0⟩, ⟨0,5,1,.ro,0⟩]⟩,
  ⟨.fltKick, 0x20028, 0, 1, 1, [⟨0,0,1,.wo,0⟩]⟩,
  ⟨.fltKill, 0x20030, 0, 1, 1, [⟨0,0,5,.wo,0⟩, ⟨0,8,1,.wo,0⟩]⟩,
  ⟨.strikeStat, 0x20038, 0, 1, 1, [⟨0,0,32,.ro,0⟩, ⟨0,32,5,.ro,0⟩, ⟨0,37,13,.ro,0⟩, ⟨0,63,1,.w1c,0⟩]⟩,
  ⟨.repGrant, 0x40418, 0, 1, 1, [⟨0,0,32,.rw,0⟩]⟩,
  ⟨.pertStream, 0xA0800, 0, 1, 1, [⟨0,0,24,.rw,0⟩, ⟨0,32,16,.rw,0⟩]⟩,
  ⟨.pertArb, 0xA0808, 0, 1, 1, [⟨0,0,6,.rw,0⟩, ⟨0,8,8,.rw,0⟩]⟩,
  ⟨.pertLink, 0xA0810, 0, 1, 1, [⟨0,0,17,.rw,0⟩, ⟨0,32,8,.rw,0⟩, ⟨0,40,7,.rw,0⟩]⟩,
  ⟨.injBank, 0x20F00, 0, 1, 2, [⟨0,0,27,.rw,0⟩, ⟨0,30,2,.rw,0⟩, ⟨0,32,1,.rw,0⟩, ⟨1,0,9,.rw,0⟩, ⟨1,9,9,.rw,0⟩, ⟨1,18,9,.rw,0⟩, ⟨1,27,9,.rw,0⟩]⟩,
  ⟨.injLine, 0x20F10, 0, 1, 1, [⟨0,0,5,.rw,0⟩, ⟨0,8,2,.rw,0⟩, ⟨0,16,16,.rw,0⟩, ⟨0,32,1,.w1s,0⟩]⟩]

/-- The registers of 15_power_and_clocks.md. -/
def regs15 : List RegRow := [
  ⟨.pwrOp, 0x10100, 0, 1, 1, [⟨0,0,2,.rw,0⟩, ⟨0,4,2,.ro,0⟩, ⟨0,6,2,.ro,0⟩, ⟨0,8,1,.ro,0⟩, ⟨0,9,1,.ro,0⟩, ⟨0,10,1,.w1c,0⟩, ⟨0,11,1,.w1c,0⟩, ⟨0,16,5,.rw,0x11⟩, ⟨0,21,1,.rw,1⟩, ⟨0,32,16,.rw,0⟩]⟩,
  ⟨.pwrMode, 0x10108, 0, 1, 1, [⟨0,0,3,.wo,0⟩, ⟨0,4,3,.ro,0⟩, ⟨0,7,2,.ro,0⟩, ⟨0,9,1,.ro,0⟩, ⟨0,10,1,.wo,0⟩, ⟨0,16,5,.ro,0⟩]⟩,
  ⟨.pwrWake, 0x10110, 0, 1, 1, [⟨0,0,1,.rw,1⟩, ⟨0,1,1,.rw,1⟩, ⟨0,2,1,.rw,0⟩, ⟨0,3,1,.rw,1⟩, ⟨0,8,5,.rw,0x1A⟩, ⟨0,16,16,.rw,0⟩]⟩,
  ⟨.pwrRet, 0x10118, 0, 1, 1, [⟨0,0,64,.rw,0⟩]⟩,
  ⟨.pwrWatch, 0x10120, 0, 1, 1, [⟨0,0,1,.rw,0⟩, ⟨0,1,1,.rw,0⟩, ⟨0,2,12,.rw,0⟩, ⟨0,14,24,.rw,0⟩, ⟨0,38,3,.rw,0⟩, ⟨0,41,5,.rw,0x14⟩, ⟨0,46,5,.rw,0xC⟩]⟩,
  ⟨.pwrWatchv, 0x10128, 0, 1, 1, [⟨0,0,32,.rw,0⟩, ⟨0,32,32,.rw,0xFFFFFFFF⟩]⟩]

/-- The registers of 16_startup_and_firmware.md. -/
def regs16 : List RegRow := [
  ⟨.smBoot, 0x3C0000, 0, 1, 1, [⟨0,0,4,.ro,3⟩, ⟨0,4,1,.ro,0⟩, ⟨0,5,1,.ro,0⟩, ⟨0,6,3,.ro,0⟩, ⟨0,9,12,.ro,0⟩, ⟨0,21,2,.ro,0⟩, ⟨0,23,1,.ro,0⟩, ⟨0,24,1,.ro,0⟩, ⟨0,25,1,.ro,0⟩, ⟨0,26,2,.ro,0⟩, ⟨0,32,32,.ro,0⟩]⟩,
  ⟨.fwStat, 0x3C0008, 0, 1, 1, [⟨0,0,4,.ro,0⟩, ⟨0,4,1,.ro,0⟩, ⟨0,5,1,.ro,0⟩, ⟨0,6,2,.ro,0⟩, ⟨0,32,32,.ro,0⟩]⟩,
  ⟨.fwStaged, 0x3C0018, 0, 1, 1, [⟨0,0,32,.ro,0⟩, ⟨0,32,16,.ro,0⟩]⟩,
  ⟨.fwCmd, 0x3C0010, 0, 1, 1, [⟨0,0,1,.wo,0⟩]⟩,
  ⟨.mbCtrl, 0x3C0100, 0, 1, 1, [⟨0,0,1,.ro,0⟩, ⟨0,1,1,.w1s,0⟩, ⟨0,2,1,.w1c,0⟩, ⟨0,8,1,.ro,0⟩, ⟨0,9,1,.w1s,0⟩]⟩,
  ⟨.mbH2s, 0x3C0140, 8, 8, 1, [⟨0,0,64,.rw,0⟩]⟩,
  ⟨.mbS2h, 0x3C0180, 8, 8, 1, [⟨0,0,64,.ro,0⟩]⟩]

/-- The registers of 17_register_map.md. -/
def regs17 : List RegRow := [
  ⟨.id, 0x0, 0, 1, 1, [⟨0,0,16,.ro,0x4C59⟩, ⟨0,16,16,.ro,0x4D10⟩, ⟨0,32,16,.ro,0x201⟩, ⟨0,48,11,.ro,0⟩]⟩,
  ⟨.cap0, 0x8, 0, 1, 1, [⟨0,0,7,.ro,0x68⟩, ⟨0,8,7,.ro,0x40⟩, ⟨0,16,9,.ro,0x100⟩, ⟨0,28,4,.ro,8⟩, ⟨0,32,11,.ro,0x400⟩, ⟨0,48,13,.ro,0x1000⟩]⟩,
  ⟨.cap1, 0x10, 0, 1, 1, [⟨0,0,15,.ro,0x4000⟩, ⟨0,16,12,.ro,0x800⟩, ⟨0,32,16,.ro,0xC000⟩]⟩,
  ⟨.ctrl, 0x10000, 0, 1, 1, [⟨0,0,1,.w1s,0⟩]⟩,
  ⟨.status, 0x10008, 0, 1, 1, [⟨0,0,1,.ro,0⟩, ⟨0,1,1,.ro,0⟩, ⟨0,2,1,.w1c,0⟩, ⟨0,3,1,.w1c,0⟩, ⟨0,8,22,.ro,0⟩]⟩]

/-- The whole register map. -/
def regMap : List RegRow :=
  regs02 ++ regs03 ++ regs04 ++ regs05 ++ regs06 ++ regs07 ++ regs08 ++ regs09 ++ regs10 ++ regs11 ++ regs12 ++ regs13 ++ regs14 ++ regs15 ++ regs16 ++ regs17

end Sys2Proof.Machine
end

