-- ==== Sys2Proof/Machine/RegFields.lean ====
section
/-! DEFINITION. Offsets of the registers (R375) and the places of their named fields, from the register tables of the spec. -/

namespace Sys2Proof.Machine

/-- The place of a field: word of the register, lowest bit, width. -/
structure FieldPos where
  word : Nat
  lo : Nat
  width : Nat
  deriving DecidableEq, Repr

/-! MIO_REGION_n, 02_geometry.md. -/
/-- Offset of MIO_REGION_n. -/
abbrev oRegion (n : Nat) : Nat := 0x40000 + 8 * n
abbrev region_SLOT0 : FieldPos := ⟨0, 0, 8⟩
abbrev region_SLOT1 : FieldPos := ⟨0, 8, 8⟩
abbrev region_SLOT2 : FieldPos := ⟨0, 16, 8⟩
abbrev region_SLOT3 : FieldPos := ⟨0, 24, 8⟩
abbrev region_MODE : FieldPos := ⟨0, 32, 1⟩
abbrev region_CODE : FieldPos := ⟨0, 33, 1⟩
abbrev region_USE : FieldPos := ⟨0, 34, 2⟩
abbrev region_VALID : FieldPos := ⟨0, 48, 1⟩
abbrev region_FENCED : FieldPos := ⟨0, 49, 1⟩
abbrev region_BUSY : FieldPos := ⟨0, 50, 1⟩

/-! MIO_BANK_OWN_k, 02_geometry.md. -/
/-- Offset of MIO_BANK_OWN_k. -/
abbrev oBankOwn (n : Nat) : Nat := 0x41000 + 8 * n

/-! MIO_HANDOVER, 02_geometry.md. -/
/-- Offset of MIO_HANDOVER. -/
abbrev oHandover : Nat := 0x40400
abbrev handover_REGION : FieldPos := ⟨0, 0, 6⟩
abbrev handover_FROM : FieldPos := ⟨0, 8, 6⟩
abbrev handover_TO : FieldPos := ⟨0, 16, 6⟩

/-! MIO_REGION_STAT, 02_geometry.md. -/
/-- Offset of MIO_REGION_STAT. -/
abbrev oRegionStat : Nat := 0x40408
abbrev regionStat_REGION : FieldPos := ⟨0, 0, 6⟩
abbrev regionStat_NOREG : FieldPos := ⟨0, 6, 1⟩
abbrev regionStat_OP : FieldPos := ⟨0, 8, 2⟩
abbrev regionStat_STATUS : FieldPos := ⟨0, 12, 3⟩
abbrev regionStat_REFUSED : FieldPos := ⟨0, 16, 1⟩

/-! MIO_GEOM, 02_geometry.md. -/
/-- Offset of MIO_GEOM. -/
abbrev oGeom : Nat := 0x80
abbrev geom_CPQ_BUILT : FieldPos := ⟨0, 0, 7⟩
abbrev geom_REGIONS_LIVE : FieldPos := ⟨0, 8, 7⟩
abbrev geom_STACK_PORTS : FieldPos := ⟨0, 16, 5⟩
abbrev geom_LINK_PORTS : FieldPos := ⟨0, 24, 5⟩
abbrev geom_US_FREE : FieldPos := ⟨0, 32, 4⟩
abbrev geom_US_USED : FieldPos := ⟨0, 36, 4⟩
abbrev geom_QUAD_FENCED : FieldPos := ⟨0, 40, 4⟩

/-! MIO_REGION_AVAIL, 02_geometry.md. -/
/-- Offset of MIO_REGION_AVAIL. -/
abbrev oRegionAvail : Nat := 0x88
abbrev regionAvail_AVAIL : FieldPos := ⟨0, 0, 64⟩

/-! MIO_LAT_MAP, 02_geometry.md. -/
/-- Offset of MIO_LAT_MAP. -/
abbrev oLatMap : Nat := 0x90
abbrev latMap_READ_A : FieldPos := ⟨0, 0, 8⟩
abbrev latMap_READ_B : FieldPos := ⟨0, 8, 8⟩
abbrev latMap_READ_C : FieldPos := ⟨0, 16, 8⟩
abbrev latMap_WRITE_A : FieldPos := ⟨0, 24, 8⟩
abbrev latMap_WRITE_B : FieldPos := ⟨0, 32, 8⟩
abbrev latMap_WRITE_C : FieldPos := ⟨0, 40, 8⟩
abbrev latMap_ADD_CONV : FieldPos := ⟨0, 48, 4⟩
abbrev latMap_ADD_TRANS : FieldPos := ⟨0, 52, 4⟩
abbrev latMap_ADD_ACC : FieldPos := ⟨0, 56, 4⟩

/-! MIO_PSTAT_n, 03_port_protocols.md. -/
/-- Offset of MIO_PSTAT_n. -/
abbrev oPstat (n : Nat) : Nat := 0x1000F8 + 256 * n
abbrev pstat_OWNF : FieldPos := ⟨0, 0, 16⟩
abbrev pstat_COLL : FieldPos := ⟨0, 16, 16⟩
abbrev pstat_POIS : FieldPos := ⟨0, 32, 16⟩
abbrev pstat_STRAY : FieldPos := ⟨0, 48, 16⟩

/-! MIO_SPORT_CFG_n, 03_port_protocols.md. -/
/-- Offset of MIO_SPORT_CFG_n. -/
abbrev oSportCfg (n : Nat) : Nat := 0x10800 + 16 * n
abbrev sportCfg_MAX_OUT : FieldPos := ⟨0, 0, 12⟩
abbrev sportCfg_TIMEOUT_EXP : FieldPos := ⟨0, 16, 5⟩
abbrev sportCfg_ENABLE : FieldPos := ⟨0, 32, 1⟩

/-! MIO_SPORT_STAT_n, 03_port_protocols.md. -/
/-- Offset of MIO_SPORT_STAT_n. -/
abbrev oSportStat (n : Nat) : Nat := 0x10808 + 16 * n
abbrev sportStat_OUTSTANDING : FieldPos := ⟨0, 0, 12⟩
abbrev sportStat_PROTO_ERR : FieldPos := ⟨0, 16, 16⟩
abbrev sportStat_TIMEOUTS : FieldPos := ⟨0, 32, 16⟩
abbrev sportStat_LAST_TAG : FieldPos := ⟨0, 48, 11⟩
abbrev sportStat_LAST_KIND : FieldPos := ⟨0, 59, 3⟩

/-! MIO_SEQ_CFG_n, 04_cue_words.md. -/
/-- Offset of MIO_SEQ_CFG_n. -/
abbrev oSeqCfg (n : Nat) : Nat := 0x100000 + 256 * n
abbrev seqCfg_GROUP : FieldPos := ⟨0, 0, 5⟩
abbrev seqCfg_ENTRY_HALF : FieldPos := ⟨0, 8, 1⟩
abbrev seqCfg_ENTRY_PC : FieldPos := ⟨0, 16, 16⟩

/-! MIO_SEQ_CTRL_n, 04_cue_words.md. -/
/-- Offset of MIO_SEQ_CTRL_n. -/
abbrev oSeqCtrl (n : Nat) : Nat := 0x100008 + 256 * n
abbrev seqCtrl_CMD : FieldPos := ⟨0, 0, 2⟩

/-! MIO_SEQ_STAT_n, 04_cue_words.md. -/
/-- Offset of MIO_SEQ_STAT_n. -/
abbrev oSeqStat (n : Nat) : Nat := 0x100010 + 256 * n
abbrev seqStat_STATE : FieldPos := ⟨0, 0, 2⟩
abbrev seqStat_HALF : FieldPos := ⟨0, 2, 1⟩
abbrev seqStat_HEAD_MET : FieldPos := ⟨0, 3, 1⟩
abbrev seqStat_LOAD_HOLD : FieldPos := ⟨0, 4, 1⟩
abbrev seqStat_PARK_PENDING : FieldPos := ⟨0, 5, 1⟩
abbrev seqStat_CMD_REFUSED : FieldPos := ⟨0, 6, 1⟩
abbrev seqStat_LOOP_DEPTH : FieldPos := ⟨0, 8, 3⟩
abbrev seqStat_PC : FieldPos := ⟨0, 16, 16⟩

/-! MIO_SEQ_SCENE_n, 04_cue_words.md. -/
/-- Offset of MIO_SEQ_SCENE_n. -/
abbrev oSeqScene (n : Nat) : Nat := 0x100018 + 256 * n
abbrev seqScene_SCENE_NO : FieldPos := ⟨0, 0, 32⟩
abbrev seqScene_EC_OFFSET : FieldPos := ⟨0, 32, 32⟩

/-! MIO_SEQ_TRAP_n, 04_cue_words.md. -/
/-- Offset of MIO_SEQ_TRAP_n. -/
abbrev oSeqTrap (n : Nat) : Nat := 0x100020 + 256 * n
abbrev seqTrap_CAUSE : FieldPos := ⟨0, 0, 4⟩
abbrev seqTrap_HALF : FieldPos := ⟨0, 4, 1⟩
abbrev seqTrap_PC : FieldPos := ⟨0, 16, 16⟩
abbrev seqTrap_SCENE_NO : FieldPos := ⟨0, 32, 32⟩

/-! MIO_SEQ_WT_n_k, 04_cue_words.md. -/
/-- Offset of MIO_SEQ_WT_n_k. -/
abbrev oSeqWt (n : Nat) : Nat := 0x100040 + 256 * n

/-! MIO_GRP_CFG_g, 05_scenes_and_cue_sheet.md. -/
/-- Offset of MIO_GRP_CFG_g. -/
abbrev oGrpCfg (n : Nat) : Nat := 0xB9000 + 8 * n
abbrev grpCfg_ALIGN_LOG : FieldPos := ⟨0, 0, 4⟩

/-! MIO_CS_q_a_s_w, 05_scenes_and_cue_sheet.md. -/
/-- Offset of MIO_CS_q_a_s_w. -/
abbrev oCs (n : Nat) : Nat := 0xB0000 + 8 * n

/-! MIO_CV_REC0, 05_scenes_and_cue_sheet.md. -/
/-- Offset of MIO_CV_REC0. -/
abbrev oCvRec0 : Nat := 0xBA000
abbrev cvRec0_PORT : FieldPos := ⟨0, 0, 7⟩
abbrev cvRec0_CAUSE : FieldPos := ⟨0, 8, 3⟩
abbrev cvRec0_LANE : FieldPos := ⟨0, 12, 3⟩
abbrev cvRec0_WRITE : FieldPos := ⟨0, 15, 1⟩
abbrev cvRec0_QUAD : FieldPos := ⟨0, 16, 2⟩
abbrev cvRec0_CLUSTER : FieldPos := ⟨0, 18, 6⟩
abbrev cvRec0_BANK : FieldPos := ⟨0, 24, 4⟩
abbrev cvRec0_SLOT : FieldPos := ⟨0, 28, 8⟩
abbrev cvRec0_OVERFLOW : FieldPos := ⟨0, 62, 1⟩
abbrev cvRec0_VALID : FieldPos := ⟨0, 63, 1⟩

/-! MIO_CV_REC1, 05_scenes_and_cue_sheet.md. -/
/-- Offset of MIO_CV_REC1. -/
abbrev oCvRec1 : Nat := 0xBA008
abbrev cvRec1_SCENE_NO : FieldPos := ⟨0, 0, 32⟩
abbrev cvRec1_EC_OFFSET : FieldPos := ⟨0, 32, 32⟩

/-! MIO_CV_REC2, 05_scenes_and_cue_sheet.md. -/
/-- Offset of MIO_CV_REC2. -/
abbrev oCvRec2 : Nat := 0xBA010
abbrev cvRec2_GI : FieldPos := ⟨0, 0, 27⟩
abbrev cvRec2_FRAME : FieldPos := ⟨0, 32, 32⟩

/-! MIO_CV_COUNT, 05_scenes_and_cue_sheet.md. -/
/-- Offset of MIO_CV_COUNT. -/
abbrev oCvCount : Nat := 0xBA018
abbrev cvCount_COUNT : FieldPos := ⟨0, 0, 32⟩

/-! MIO_CS_SWAP, 05_scenes_and_cue_sheet.md. -/
/-- Offset of MIO_CS_SWAP. -/
abbrev oCsSwap : Nat := 0xB8000
abbrev csSwap_FRAME : FieldPos := ⟨0, 0, 32⟩
abbrev csSwap_QMASK : FieldPos := ⟨0, 32, 4⟩

/-! MIO_CS_CTRL, 05_scenes_and_cue_sheet.md. -/
/-- Offset of MIO_CS_CTRL. -/
abbrev oCsCtrl : Nat := 0xB8008
abbrev csCtrl_HOLD : FieldPos := ⟨0, 0, 4⟩
abbrev csCtrl_COPY : FieldPos := ⟨0, 4, 4⟩

/-! MIO_CS_STAT, 05_scenes_and_cue_sheet.md. -/
/-- Offset of MIO_CS_STAT. -/
abbrev oCsStat : Nat := 0xB8010
abbrev csStat_HELD : FieldPos := ⟨0, 0, 4⟩
abbrev csStat_PENDING : FieldPos := ⟨0, 4, 4⟩
abbrev csStat_STATUS : FieldPos := ⟨0, 8, 3⟩
abbrev csStat_REFUSED : FieldPos := ⟨0, 11, 1⟩
abbrev csStat_SWAP_FRAME : FieldPos := ⟨0, 32, 32⟩

/-! MIO_CS_FRAME, 05_scenes_and_cue_sheet.md. -/
/-- Offset of MIO_CS_FRAME. -/
abbrev oCsFrame : Nat := 0xB8018
abbrev csFrame_FRAME : FieldPos := ⟨0, 0, 32⟩
abbrev csFrame_SLOT : FieldPos := ⟨0, 32, 8⟩

/-! MIO_GRP_SWAP_g, 05_scenes_and_cue_sheet.md. -/
/-- Offset of MIO_GRP_SWAP_g. -/
abbrev oGrpSwap (n : Nat) : Nat := 0xB9100 + 8 * n
abbrev grpSwap_HALF : FieldPos := ⟨0, 0, 1⟩
abbrev grpSwap_GO : FieldPos := ⟨0, 1, 1⟩
abbrev grpSwap_CANCEL : FieldPos := ⟨0, 2, 1⟩
abbrev grpSwap_PENDING : FieldPos := ⟨0, 8, 1⟩
abbrev grpSwap_PEND_HALF : FieldPos := ⟨0, 9, 1⟩
abbrev grpSwap_REFUSED : FieldPos := ⟨0, 16, 1⟩

/-! MIO_SS_STAT, 05_scenes_and_cue_sheet.md. -/
/-- Offset of MIO_SS_STAT. -/
abbrev oSsStat : Nat := 0xBA020
abbrev ssStat_LOAD_A : FieldPos := ⟨0, 0, 1⟩
abbrev ssStat_LOAD_B : FieldPos := ⟨0, 1, 1⟩
abbrev ssStat_REFUSED : FieldPos := ⟨0, 2, 1⟩
abbrev ssStat_REF_CTX : FieldPos := ⟨0, 16, 14⟩

/-! MIO_MSO_STAT_q, 06_memory_side_operations.md. -/
/-- Offset of MIO_MSO_STAT_q. -/
abbrev oMsoStat (n : Nat) : Nat := 0x4F000 + 8 * n
abbrev msoStat_FORMAT : FieldPos := ⟨0, 0, 16⟩
abbrev msoStat_GATHER_OOR : FieldPos := ⟨0, 16, 16⟩
abbrev msoStat_ACC_POIS : FieldPos := ⟨0, 32, 16⟩
abbrev msoStat_GATHER_BUSY : FieldPos := ⟨0, 48, 16⟩

/-! MIO_REORD_STAT_q, 06_memory_side_operations.md. -/
/-- Offset of MIO_REORD_STAT_q. -/
abbrev oReordStat (n : Nat) : Nat := 0x4F100 + 8 * n
abbrev reordStat_CAPACITY : FieldPos := ⟨0, 0, 18⟩
abbrev reordStat_RESERVED_G : FieldPos := ⟨0, 18, 18⟩
abbrev reordStat_USED : FieldPos := ⟨0, 36, 18⟩
abbrev reordStat_LAST_KIND : FieldPos := ⟨0, 54, 3⟩

/-! MIO_WING_CFG_n, 07_ordering.md. -/
/-- Offset of MIO_WING_CFG_n. -/
abbrev oWingCfg (n : Nat) : Nat := 0x10C00 + 8 * n
abbrev wingCfg_LINGER : FieldPos := ⟨0, 0, 3⟩
abbrev wingCfg_RA_EN : FieldPos := ⟨0, 8, 1⟩

/-! MIO_SCOPE_REC, 07_ordering.md. -/
/-- Offset of MIO_SCOPE_REC. -/
abbrev oScopeRec : Nat := 0x10F80
abbrev scopeRec_TARGET : FieldPos := ⟨0, 0, 12⟩
abbrev scopeRec_KIND : FieldPos := ⟨0, 12, 1⟩
abbrev scopeRec_REL_SCOPE : FieldPos := ⟨0, 13, 2⟩
abbrev scopeRec_ACQ_SCOPE : FieldPos := ⟨0, 15, 2⟩
abbrev scopeRec_SOURCE : FieldPos := ⟨0, 17, 1⟩
abbrev scopeRec_REQUESTER : FieldPos := ⟨0, 18, 14⟩
abbrev scopeRec_OVERFLOW : FieldPos := ⟨0, 62, 1⟩
abbrev scopeRec_VALID : FieldPos := ⟨0, 63, 1⟩

/-! MIO_SCOPE_COUNT, 07_ordering.md. -/
/-- Offset of MIO_SCOPE_COUNT. -/
abbrev oScopeCount : Nat := 0x10F88
abbrev scopeCount_COUNT : FieldPos := ⟨0, 0, 32⟩

/-! MIO_CNT_i, 08_synchronization.md. -/
/-- Offset of MIO_CNT_i. -/
abbrev oCnt (n : Nat) : Nat := 0x80000 + 16 * n
abbrev cnt_VALUE : FieldPos := ⟨0, 0, 32⟩
abbrev cnt_REL_SCOPE : FieldPos := ⟨0, 32, 2⟩
abbrev cnt_LAST_SRC : FieldPos := ⟨0, 34, 3⟩
abbrev cnt_BOUND : FieldPos := ⟨0, 37, 1⟩

/-! MIO_CNT_ADD_i, 08_synchronization.md. -/
/-- Offset of MIO_CNT_ADD_i. -/
abbrev oCntAdd (n : Nat) : Nat := 0x80008 + 16 * n
abbrev cntAdd_ADD : FieldPos := ⟨0, 0, 32⟩

/-! MIO_TAG_EN, 08_synchronization.md. -/
/-- Offset of MIO_TAG_EN. -/
abbrev oTagEn : Nat := 0x40410
abbrev tagEn_EN : FieldPos := ⟨0, 0, 64⟩

/-! MIO_CUR_CFG_c, 08_synchronization.md. -/
/-- Offset of MIO_CUR_CFG_c. -/
abbrev oCurCfg (n : Nat) : Nat := 0x90000 + 32 * n
abbrev curCfg_EXPECT : FieldPos := ⟨0, 0, 16⟩
abbrev curCfg_PARENT : FieldPos := ⟨0, 16, 5⟩
abbrev curCfg_CHILD_MASK : FieldPos := ⟨0, 24, 16⟩
abbrev curCfg_EPOCH : FieldPos := ⟨0, 40, 8⟩

/-! MIO_CUR_STAT_c, 08_synchronization.md. -/
/-- Offset of MIO_CUR_STAT_c. -/
abbrev oCurStat (n : Nat) : Nat := 0x90008 + 32 * n
abbrev curStat_COUNT0 : FieldPos := ⟨0, 0, 16⟩
abbrev curStat_COUNT1 : FieldPos := ⟨0, 16, 16⟩
abbrev curStat_REL_SCOPE : FieldPos := ⟨0, 32, 2⟩
abbrev curStat_LAST_PARITY : FieldPos := ⟨0, 34, 1⟩
abbrev curStat_KIND : FieldPos := ⟨0, 35, 2⟩
abbrev curStat_WHO : FieldPos := ⟨0, 37, 15⟩
abbrev curStat_BUSY : FieldPos := ⟨0, 52, 1⟩
abbrev curStat_EVENT : FieldPos := ⟨0, 53, 1⟩
abbrev curStat_STALE_CNT : FieldPos := ⟨0, 54, 10⟩

/-! MIO_CUR_CTRL_c, 08_synchronization.md. -/
/-- Offset of MIO_CUR_CTRL_c. -/
abbrev oCurCtrl (n : Nat) : Nat := 0x90010 + 32 * n
abbrev curCtrl_RESET : FieldPos := ⟨0, 0, 1⟩

/-! MIO_WDOG_g, 08_synchronization.md. -/
/-- Offset of MIO_WDOG_g. -/
abbrev oWdog (n : Nat) : Nat := 0x9F100 + 8 * n
abbrev wdog_LIMIT : FieldPos := ⟨0, 0, 40⟩

/-! MIO_HANG_HDR, 08_synchronization.md. -/
/-- Offset of MIO_HANG_HDR. -/
abbrev oHangHdr : Nat := 0x9C000
abbrev hangHdr_REASON : FieldPos := ⟨0, 0, 2⟩
abbrev hangHdr_GROUP : FieldPos := ⟨0, 2, 5⟩
abbrev hangHdr_SEQ : FieldPos := ⟨0, 7, 7⟩
abbrev hangHdr_STR_COUNT : FieldPos := ⟨0, 14, 9⟩
abbrev hangHdr_STR_OMIT : FieldPos := ⟨0, 23, 1⟩
abbrev hangHdr_FRAME : FieldPos := ⟨0, 24, 32⟩
abbrev hangHdr_OVERFLOW : FieldPos := ⟨0, 62, 1⟩
abbrev hangHdr_VALID : FieldPos := ⟨0, 63, 1⟩

/-! MIO_HANG_TAG, 08_synchronization.md. -/
/-- Offset of MIO_HANG_TAG. -/
abbrev oHangTag : Nat := 0x9C008
abbrev hangTag_GI : FieldPos := ⟨0, 0, 27⟩
abbrev hangTag_WRITE : FieldPos := ⟨0, 27, 1⟩
abbrev hangTag_CLASS : FieldPos := ⟨0, 28, 2⟩
abbrev hangTag_REQ : FieldPos := ⟨0, 30, 14⟩

/-! MIO_HANG_SEQ_n, 08_synchronization.md. -/
/-- Offset of MIO_HANG_SEQ_n. -/
abbrev oHangSeq (n : Nat) : Nat := 0x9C100 + 16 * n
abbrev hangSeq_STATE : FieldPos := ⟨0, 0, 2⟩
abbrev hangSeq_HEAD_MET : FieldPos := ⟨0, 2, 1⟩
abbrev hangSeq_GROUP : FieldPos := ⟨0, 3, 5⟩
abbrev hangSeq_UNMET_POS : FieldPos := ⟨0, 8, 3⟩
abbrev hangSeq_UNMET_KIND : FieldPos := ⟨0, 11, 1⟩
abbrev hangSeq_TARGET : FieldPos := ⟨0, 12, 16⟩
abbrev hangSeq_WAIT_EC : FieldPos := ⟨0, 32, 32⟩

/-! MIO_HANG_SEQV_n, 08_synchronization.md. -/
/-- Offset of MIO_HANG_SEQV_n. -/
abbrev oHangSeqv (n : Nat) : Nat := 0x9C108 + 16 * n
abbrev hangSeqv_WT : FieldPos := ⟨0, 0, 32⟩
abbrev hangSeqv_VALUE : FieldPos := ⟨0, 32, 32⟩

/-! MIO_HANG_STR_j, 08_synchronization.md. -/
/-- Offset of MIO_HANG_STR_j. -/
abbrev oHangStr (n : Nat) : Nat := 0x9D000 + 16 * n
abbrev hangStr_CONTEXT : FieldPos := ⟨0, 0, 14⟩
abbrev hangStr_COUNTER : FieldPos := ⟨0, 16, 12⟩
abbrev hangStr_TARGET : FieldPos := ⟨1, 0, 32⟩
abbrev hangStr_VALUE : FieldPos := ⟨1, 32, 32⟩

/-! MIO_SYNC_CFG, 08_synchronization.md. -/
/-- Offset of MIO_SYNC_CFG. -/
abbrev oSyncCfg : Nat := 0x9F000
abbrev syncCfg_TAGSTALL_EXP : FieldPos := ⟨0, 0, 5⟩
abbrev syncCfg_LEND_THRESH : FieldPos := ⟨0, 8, 32⟩

/-! MIO_SYNC_STAT, 08_synchronization.md. -/
/-- Offset of MIO_SYNC_STAT. -/
abbrev oSyncStat : Nat := 0x9F008
abbrev syncStat_LOAD_CNT_NO : FieldPos := ⟨0, 0, 12⟩
abbrev syncStat_LOAD_REFUSED : FieldPos := ⟨0, 12, 1⟩
abbrev syncStat_REFUSALS : FieldPos := ⟨0, 32, 16⟩

/-! MIO_STR_CTX_x, 09_streams.md. -/
/-- Offset of MIO_STR_CTX_x. -/
abbrev oStrCtx (n : Nat) : Nat := 0x200000 + 64 * n
abbrev strCtx_STATE : FieldPos := ⟨0, 0, 3⟩
abbrev strCtx_STATUS : FieldPos := ⟨0, 3, 4⟩
abbrev strCtx_EPOCH : FieldPos := ⟨0, 7, 10⟩
abbrev strCtx_GROUP : FieldPos := ⟨0, 17, 5⟩
abbrev strCtx_DIR : FieldPos := ⟨0, 22, 2⟩
abbrev strCtx_SPORT : FieldPos := ⟨0, 24, 5⟩
abbrev strCtx_PRI : FieldPos := ⟨0, 29, 2⟩
abbrev strCtx_POIS_PASS : FieldPos := ⟨0, 31, 1⟩
abbrev strCtx_TAG_STAMP : FieldPos := ⟨0, 32, 1⟩
abbrev strCtx_REARM : FieldPos := ⟨0, 33, 1⟩
abbrev strCtx_CREDIT_EN : FieldPos := ⟨0, 34, 1⟩
abbrev strCtx_CUR_EN : FieldPos := ⟨0, 35, 1⟩
abbrev strCtx_CUR_NO : FieldPos := ⟨0, 36, 6⟩
abbrev strCtx_WSET : FieldPos := ⟨0, 42, 6⟩
abbrev strCtx_OSET : FieldPos := ⟨0, 48, 4⟩
abbrev strCtx_OUTST : FieldPos := ⟨0, 52, 10⟩
abbrev strCtx_DIGEST : FieldPos := ⟨0, 62, 1⟩
abbrev strCtx_SADDR : FieldPos := ⟨1, 0, 36⟩
abbrev strCtx_REQ_LEN : FieldPos := ⟨1, 36, 7⟩
abbrev strCtx_MAX_OUT : FieldPos := ⟨1, 43, 9⟩
abbrev strCtx_ARR_CNT : FieldPos := ⟨1, 52, 12⟩
abbrev strCtx_RING_BASE : FieldPos := ⟨2, 0, 27⟩
abbrev strCtx_RING_SIZE : FieldPos := ⟨2, 27, 24⟩
abbrev strCtx_CREDIT_CNT : FieldPos := ⟨2, 51, 12⟩
abbrev strCtx_TRIG_REL : FieldPos := ⟨2, 63, 1⟩
abbrev strCtx_LEN : FieldPos := ⟨3, 0, 32⟩
abbrev strCtx_CREDIT_UNIT : FieldPos := ⟨3, 32, 16⟩
abbrev strCtx_RSV : FieldPos := ⟨3, 48, 16⟩
abbrev strCtx_XOP : FieldPos := ⟨4, 0, 2⟩
abbrev strCtx_SRC : FieldPos := ⟨4, 2, 4⟩
abbrev strCtx_DST : FieldPos := ⟨4, 6, 3⟩
abbrev strCtx_SAT : FieldPos := ⟨4, 9, 1⟩
abbrev strCtx_ACC_TYPE : FieldPos := ⟨4, 10, 2⟩
abbrev strCtx_RECODE : FieldPos := ⟨4, 12, 2⟩
abbrev strCtx_FMT : FieldPos := ⟨4, 14, 3⟩
abbrev strCtx_FMT_MODE : FieldPos := ⟨4, 17, 2⟩
abbrev strCtx_TRIG_CNT : FieldPos := ⟨4, 19, 12⟩
abbrev strCtx_SKIP_FIRST : FieldPos := ⟨4, 32, 32⟩
abbrev strCtx_SKIP_LAST : FieldPos := ⟨5, 0, 32⟩
abbrev strCtx_TRIG_VALUE : FieldPos := ⟨5, 32, 32⟩
abbrev strCtx_TRIG_TARGET : FieldPos := ⟨6, 0, 32⟩
abbrev strCtx_CREDIT_START : FieldPos := ⟨6, 32, 32⟩
abbrev strCtx_ISSUED : FieldPos := ⟨7, 0, 32⟩
abbrev strCtx_COUNTED : FieldPos := ⟨7, 32, 32⟩

/-! MIO_STR_CMD, 09_streams.md. -/
/-- Offset of MIO_STR_CMD. -/
abbrev oStrCmd : Nat := 0x11000
abbrev strCmd_CTX : FieldPos := ⟨0, 0, 14⟩
abbrev strCmd_CMD : FieldPos := ⟨0, 16, 3⟩

/-! MIO_STR_CMD_STAT, 09_streams.md. -/
/-- Offset of MIO_STR_CMD_STAT. -/
abbrev oStrCmdStat : Nat := 0x11008
abbrev strCmdStat_CTX : FieldPos := ⟨0, 0, 14⟩
abbrev strCmdStat_CMD : FieldPos := ⟨0, 16, 3⟩
abbrev strCmdStat_RESULT : FieldPos := ⟨0, 20, 2⟩
abbrev strCmdStat_DRAIN_CNT : FieldPos := ⟨0, 32, 32⟩

/-! MIO_STR_CFG, 09_streams.md. -/
/-- Offset of MIO_STR_CFG. -/
abbrev oStrCfg : Nat := 0x11010
abbrev strCfg_LATE_EXP : FieldPos := ⟨0, 0, 5⟩
abbrev strCfg_DL_EXP : FieldPos := ⟨0, 8, 5⟩
abbrev strCfg_ISSUE_PAUSE : FieldPos := ⟨0, 16, 1⟩

/-! MIO_STR_STAT, 09_streams.md. -/
/-- Offset of MIO_STR_STAT. -/
abbrev oStrStat : Nat := 0x11018
abbrev strStat_REF_CTX : FieldPos := ⟨0, 0, 14⟩
abbrev strStat_REF_CODE : FieldPos := ⟨0, 14, 3⟩
abbrev strStat_REFUSED : FieldPos := ⟨0, 17, 1⟩
abbrev strStat_CFG_REFUSED : FieldPos := ⟨0, 18, 1⟩
abbrev strStat_REFUSALS : FieldPos := ⟨0, 32, 16⟩
abbrev strStat_SPILL_POIS : FieldPos := ⟨0, 48, 16⟩

/-! MIO_STR_OSET_k, 09_streams.md. -/
/-- Offset of MIO_STR_OSET_k. -/
abbrev oStrOset (n : Nat) : Nat := 0x11080 + 8 * n
abbrev strOset_MEMBERS : FieldPos := ⟨0, 0, 14⟩
abbrev strOset_RESERVE : FieldPos := ⟨0, 14, 18⟩
abbrev strOset_HELD : FieldPos := ⟨0, 32, 20⟩
abbrev strOset_ACTIVE : FieldPos := ⟨0, 52, 1⟩

/-! MIO_DL_HDR, 09_streams.md. -/
/-- Offset of MIO_DL_HDR. -/
abbrev oDlHdr : Nat := 0x11100
abbrev dlHdr_WSET : FieldPos := ⟨0, 0, 6⟩
abbrev dlHdr_MEM_COUNT : FieldPos := ⟨0, 6, 6⟩
abbrev dlHdr_OMIT : FieldPos := ⟨0, 12, 1⟩
abbrev dlHdr_FRAME : FieldPos := ⟨0, 13, 32⟩
abbrev dlHdr_OVERFLOW : FieldPos := ⟨0, 62, 1⟩
abbrev dlHdr_VALID : FieldPos := ⟨0, 63, 1⟩

/-! MIO_DL_MEM_j, 09_streams.md. -/
/-- Offset of MIO_DL_MEM_j. -/
abbrev oDlMem (n : Nat) : Nat := 0x11108 + 8 * n
abbrev dlMem_CONTEXT : FieldPos := ⟨0, 0, 14⟩
abbrev dlMem_CREDIT_CNT : FieldPos := ⟨0, 14, 12⟩
abbrev dlMem_NEED : FieldPos := ⟨0, 32, 32⟩

/-! MIO_WIN_w, 10_windows_links_twin.md. -/
/-- Offset of MIO_WIN_w. -/
abbrev oWin (n : Nat) : Nat := 0x42000 + 32 * n
abbrev win_STATE : FieldPos := ⟨0, 0, 2⟩
abbrev win_OWNER : FieldPos := ⟨0, 2, 5⟩
abbrev win_ORDERED : FieldPos := ⟨0, 7, 1⟩
abbrev win_JOURNALED : FieldPos := ⟨0, 8, 1⟩
abbrev win_ACC_EN : FieldPos := ⟨0, 9, 1⟩
abbrev win_ACC_TYPE : FieldPos := ⟨0, 10, 2⟩
abbrev win_DIGEST : FieldPos := ⟨0, 12, 1⟩
abbrev win_ARR_CNT : FieldPos := ⟨0, 16, 12⟩
abbrev win_BASE : FieldPos := ⟨0, 32, 27⟩
abbrev win_SIZE : FieldPos := ⟨1, 0, 24⟩
abbrev win_ORD_RANK_BASE : FieldPos := ⟨1, 24, 16⟩
abbrev win_ORD_RANKS : FieldPos := ⟨1, 40, 16⟩
abbrev win_ORD_PER_RANK : FieldPos := ⟨2, 0, 16⟩
abbrev win_ORD_RESERVE : FieldPos := ⟨2, 16, 18⟩
abbrev win_REFUSED : FieldPos := ⟨3, 0, 16⟩
abbrev win_LAST_REFUSE : FieldPos := ⟨3, 16, 4⟩
abbrev win_ACCEPTED : FieldPos := ⟨3, 32, 32⟩

/-! MIO_LSEND_e, 10_windows_links_twin.md. -/
/-- Offset of MIO_LSEND_e. -/
abbrev oLsend (n : Nat) : Nat := 0x4A000 + 64 * n
abbrev lsend_STATE : FieldPos := ⟨0, 0, 2⟩
abbrev lsend_STATUS : FieldPos := ⟨0, 2, 3⟩
abbrev lsend_GROUP : FieldPos := ⟨0, 5, 5⟩
abbrev lsend_PORT : FieldPos := ⟨0, 10, 4⟩
abbrev lsend_ALT_PORT : FieldPos := ⟨0, 14, 4⟩
abbrev lsend_JOURNALED : FieldPos := ⟨0, 18, 1⟩
abbrev lsend_ORDERED : FieldPos := ⟨0, 19, 1⟩
abbrev lsend_ACCUM : FieldPos := ⟨0, 20, 1⟩
abbrev lsend_PROV : FieldPos := ⟨0, 21, 1⟩
abbrev lsend_REARM : FieldPos := ⟨0, 22, 1⟩
abbrev lsend_WINDOW : FieldPos := ⟨0, 32, 10⟩
abbrev lsend_SRC_BASE : FieldPos := ⟨1, 0, 27⟩
abbrev lsend_R_OFFSET : FieldPos := ⟨1, 32, 24⟩
abbrev lsend_PKT_LEN : FieldPos := ⟨1, 56, 8⟩
abbrev lsend_LEN : FieldPos := ⟨2, 0, 24⟩
abbrev lsend_RANK : FieldPos := ⟨2, 32, 16⟩
abbrev lsend_TRIG_CNT : FieldPos := ⟨2, 48, 12⟩
abbrev lsend_DONE_CNT : FieldPos := ⟨3, 0, 12⟩
abbrev lsend_TRIG_VALUE : FieldPos := ⟨3, 32, 32⟩
abbrev lsend_SEQ_NEXT : FieldPos := ⟨4, 0, 64⟩
abbrev lsend_TRIG_TARGET : FieldPos := ⟨5, 0, 32⟩
abbrev lsend_SENT : FieldPos := ⟨5, 32, 32⟩
abbrev lsend_DONE : FieldPos := ⟨6, 0, 32⟩
abbrev lsend_RETX : FieldPos := ⟨6, 32, 32⟩

/-! MIO_WIN_CMD, 10_windows_links_twin.md. -/
/-- Offset of MIO_WIN_CMD. -/
abbrev oWinCmd : Nat := 0x40420
abbrev winCmd_IDX : FieldPos := ⟨0, 0, 10⟩
abbrev winCmd_SEND : FieldPos := ⟨0, 10, 1⟩
abbrev winCmd_CMD : FieldPos := ⟨0, 12, 3⟩
abbrev winCmd_RESULT : FieldPos := ⟨0, 16, 3⟩
abbrev winCmd_REFUSED : FieldPos := ⟨0, 19, 1⟩

/-! MIO_LINK_CFG_n, 10_windows_links_twin.md. -/
/-- Offset of MIO_LINK_CFG_n. -/
abbrev oLinkCfg (n : Nat) : Nat := 0x10A00 + 16 * n
abbrev linkCfg_TX_CREDITS : FieldPos := ⟨0, 0, 7⟩
abbrev linkCfg_ACK_EXP : FieldPos := ⟨0, 8, 5⟩
abbrev linkCfg_ENABLE : FieldPos := ⟨0, 16, 1⟩

/-! MIO_LINK_STAT_n, 10_windows_links_twin.md. -/
/-- Offset of MIO_LINK_STAT_n. -/
abbrev oLinkStat (n : Nat) : Nat := 0x10A08 + 16 * n
abbrev linkStat_UP : FieldPos := ⟨0, 0, 1⟩
abbrev linkStat_TX_CRED : FieldPos := ⟨0, 1, 7⟩
abbrev linkStat_REFUSED : FieldPos := ⟨0, 8, 16⟩
abbrev linkStat_LAST_KIND : FieldPos := ⟨0, 24, 4⟩
abbrev linkStat_POIS : FieldPos := ⟨0, 32, 16⟩
abbrev linkStat_DOWNS : FieldPos := ⟨0, 48, 16⟩

/-! MIO_TWIN_CFG, 10_windows_links_twin.md. -/
/-- Offset of MIO_TWIN_CFG. -/
abbrev oTwinCfg : Nat := 0x10B00
abbrev twinCfg_MODE : FieldPos := ⟨0, 0, 2⟩
abbrev twinCfg_RESYNC : FieldPos := ⟨0, 2, 1⟩
abbrev twinCfg_LAND_PAUSE : FieldPos := ⟨0, 3, 1⟩
abbrev twinCfg_CONF_EXP : FieldPos := ⟨0, 8, 5⟩

/-! MIO_TWIN_STAT, 10_windows_links_twin.md. -/
/-- Offset of MIO_TWIN_STAT. -/
abbrev oTwinStat : Nat := 0x10B08
abbrev twinStat_JFREE : FieldPos := ⟨0, 0, 21⟩
abbrev twinStat_PAIRS : FieldPos := ⟨0, 32, 13⟩
abbrev twinStat_PHASE : FieldPos := ⟨0, 45, 2⟩
abbrev twinStat_LAND_IDLE : FieldPos := ⟨0, 47, 1⟩
abbrev twinStat_CFG_REFUSED : FieldPos := ⟨0, 48, 1⟩
abbrev twinStat_T_FAILED : FieldPos := ⟨0, 49, 1⟩

/-! MIO_TWIN_CKPT, 10_windows_links_twin.md. -/
/-- Offset of MIO_TWIN_CKPT. -/
abbrev oTwinCkpt : Nat := 0x10B10
abbrev twinCkpt_CKPT_ID : FieldPos := ⟨0, 0, 32⟩
abbrev twinCkpt_LAST_BOTH : FieldPos := ⟨0, 32, 32⟩

/-! MIO_ARB_CFG, 11_slack_arbitration.md. -/
/-- Offset of MIO_ARB_CFG. -/
abbrev oArbCfg : Nat := 0xA0000
abbrev arbCfg_BACKOFF_CAP : FieldPos := ⟨0, 0, 4⟩
abbrev arbCfg_DEBUG_EMERG : FieldPos := ⟨0, 4, 1⟩

/-! MIO_ARB_REQ_r, 11_slack_arbitration.md. -/
/-- Offset of MIO_ARB_REQ_r. -/
abbrev oArbReq (n : Nat) : Nat := 0xA0100 + 8 * n
abbrev arbReq_PRI : FieldPos := ⟨0, 0, 2⟩
abbrev arbReq_HOLD : FieldPos := ⟨0, 2, 3⟩
abbrev arbReq_WAIT_LIMIT : FieldPos := ⟨0, 8, 8⟩

/-! MIO_ARB_GNT_r, 11_slack_arbitration.md. -/
/-- Offset of MIO_ARB_GNT_r. -/
abbrev oArbGnt (n : Nat) : Nat := 0xA0400 + 16 * n
abbrev arbGnt_GRANTS : FieldPos := ⟨0, 0, 48⟩

/-! MIO_ARB_WAIT_r, 11_slack_arbitration.md. -/
/-- Offset of MIO_ARB_WAIT_r. -/
abbrev oArbWait (n : Nat) : Nat := 0xA0408 + 16 * n
abbrev arbWait_WAIT : FieldPos := ⟨0, 0, 16⟩
abbrev arbWait_LONGEST : FieldPos := ⟨0, 16, 16⟩
abbrev arbWait_BACKOFF_N : FieldPos := ⟨0, 32, 4⟩

/-! MIO_ECC_LOG_e, 12_integrity_and_repair.md. -/
/-- Offset of MIO_ECC_LOG_e. -/
abbrev oEccLog (n : Nat) : Nat := 0x31000 + 16 * n
abbrev eccLog_VALID : FieldPos := ⟨0, 0, 1⟩
abbrev eccLog_KIND : FieldPos := ⟨0, 1, 3⟩
abbrev eccLog_PATH : FieldPos := ⟨0, 4, 3⟩
abbrev eccLog_US : FieldPos := ⟨0, 7, 1⟩
abbrev eccLog_REQ : FieldPos := ⟨0, 8, 8⟩
abbrev eccLog_QUAD : FieldPos := ⟨0, 16, 2⟩
abbrev eccLog_CLUSTER : FieldPos := ⟨0, 18, 6⟩
abbrev eccLog_BANK : FieldPos := ⟨0, 24, 4⟩
abbrev eccLog_ROW : FieldPos := ⟨0, 28, 12⟩
abbrev eccLog_BITPOS : FieldPos := ⟨0, 40, 9⟩
abbrev eccLog_FRAME : FieldPos := ⟨1, 0, 32⟩
abbrev eccLog_HITS : FieldPos := ⟨1, 32, 16⟩

/-! MIO_ECC_CNT_k, 12_integrity_and_repair.md. -/
/-- Offset of MIO_ECC_CNT_k. -/
abbrev oEccCnt (n : Nat) : Nat := 0x30020 + 8 * n
abbrev eccCnt_CORR1 : FieldPos := ⟨0, 0, 24⟩
abbrev eccCnt_CORRM : FieldPos := ⟨0, 24, 16⟩
abbrev eccCnt_UNCORR : FieldPos := ⟨0, 40, 12⟩
abbrev eccCnt_POIS : FieldPos := ⟨0, 52, 12⟩

/-! MIO_ECC_CFG, 12_integrity_and_repair.md. -/
/-- Offset of MIO_ECC_CFG. -/
abbrev oEccCfg : Nat := 0x30000
abbrev eccCfg_CORR_THRESH : FieldPos := ⟨0, 0, 16⟩
abbrev eccCfg_LOG_CORR1 : FieldPos := ⟨0, 16, 1⟩

/-! MIO_ECC_LOGCTL, 12_integrity_and_repair.md. -/
/-- Offset of MIO_ECC_LOGCTL. -/
abbrev oEccLogctl : Nat := 0x30008
abbrev eccLogctl_USED : FieldPos := ⟨0, 0, 7⟩
abbrev eccLogctl_OVF : FieldPos := ⟨0, 32, 32⟩

/-! MIO_ECC_WB_q, 12_integrity_and_repair.md. -/
/-- Offset of MIO_ECC_WB_q. -/
abbrev oEccWb (n : Nat) : Nat := 0x30060 + 8 * n
abbrev eccWb_PENDING : FieldPos := ⟨0, 0, 7⟩
abbrev eccWb_DROPS : FieldPos := ⟨0, 16, 16⟩
abbrev eccWb_CANCELS : FieldPos := ⟨0, 32, 16⟩

/-! MIO_SCRUB_CFG, 12_integrity_and_repair.md. -/
/-- Offset of MIO_SCRUB_CFG. -/
abbrev oScrubCfg : Nat := 0x30100
abbrev scrubCfg_EN : FieldPos := ⟨0, 0, 1⟩
abbrev scrubCfg_DIV : FieldPos := ⟨0, 1, 3⟩

/-! MIO_SCRUB_LAP, 12_integrity_and_repair.md. -/
/-- Offset of MIO_SCRUB_LAP. -/
abbrev oScrubLap : Nat := 0x30108
abbrev scrubLap_NOMINAL : FieldPos := ⟨0, 0, 24⟩
abbrev scrubLap_LAST : FieldPos := ⟨0, 24, 24⟩
abbrev scrubLap_LAPS : FieldPos := ⟨0, 48, 16⟩

/-! MIO_SELFTEST, 12_integrity_and_repair.md. -/
/-- Offset of MIO_SELFTEST. -/
abbrev oSelftest : Nat := 0x30200
abbrev selftest_CSTAGE : FieldPos := ⟨0, 0, 4⟩
abbrev selftest_MSO : FieldPos := ⟨0, 4, 4⟩
abbrev selftest_SPORT : FieldPos := ⟨0, 8, 24⟩
abbrev selftest_LPORT : FieldPos := ⟨0, 32, 16⟩
abbrev selftest_TPORT : FieldPos := ⟨0, 48, 1⟩
abbrev selftest_SSTORE : FieldPos := ⟨0, 49, 1⟩
abbrev selftest_WCHAN : FieldPos := ⟨0, 50, 1⟩
abbrev selftest_DONE : FieldPos := ⟨0, 63, 1⟩

/-! MIO_MARCH_CMD, 12_integrity_and_repair.md. -/
/-- Offset of MIO_MARCH_CMD. -/
abbrev oMarchCmd : Nat := 0x30300
abbrev marchCmd_QUAD : FieldPos := ⟨0, 0, 2⟩
abbrev marchCmd_CLUSTER : FieldPos := ⟨0, 2, 6⟩
abbrev marchCmd_US : FieldPos := ⟨0, 8, 1⟩
abbrev marchCmd_ALG : FieldPos := ⟨0, 9, 1⟩
abbrev marchCmd_TRANSP : FieldPos := ⟨0, 10, 1⟩
abbrev marchCmd_GO : FieldPos := ⟨0, 11, 1⟩

/-! MIO_MARCH_STAT_q, 12_integrity_and_repair.md. -/
/-- Offset of MIO_MARCH_STAT_q. -/
abbrev oMarchStat (n : Nat) : Nat := 0x30308 + 8 * n
abbrev marchStat_STATE : FieldPos := ⟨0, 0, 2⟩
abbrev marchStat_RESULT : FieldPos := ⟨0, 2, 3⟩
abbrev marchStat_US : FieldPos := ⟨0, 5, 1⟩
abbrev marchStat_CLUSTER : FieldPos := ⟨0, 6, 6⟩
abbrev marchStat_FAIL_BANKS : FieldPos := ⟨0, 12, 16⟩
abbrev marchStat_FIRST_ROW : FieldPos := ⟨0, 28, 12⟩
abbrev marchStat_FIRST_ELEM : FieldPos := ⟨0, 40, 3⟩

/-! MIO_US_CMD, 12_integrity_and_repair.md. -/
/-- Offset of MIO_US_CMD. -/
abbrev oUsCmd : Nat := 0x30400
abbrev usCmd_QUAD : FieldPos := ⟨0, 0, 2⟩
abbrev usCmd_CLUSTER : FieldPos := ⟨0, 2, 6⟩
abbrev usCmd_OP : FieldPos := ⟨0, 8, 2⟩

/-! MIO_US_STAT_q, 12_integrity_and_repair.md. -/
/-- Offset of MIO_US_STAT_q. -/
abbrev oUsStat (n : Nat) : Nat := 0x30410 + 8 * n
abbrev usStat_STATE : FieldPos := ⟨0, 0, 2⟩
abbrev usStat_CLUSTER : FieldPos := ⟨0, 2, 6⟩
abbrev usStat_ROW : FieldPos := ⟨0, 8, 12⟩
abbrev usStat_LOST : FieldPos := ⟨0, 20, 1⟩
abbrev usStat_RESULT : FieldPos := ⟨0, 21, 3⟩
abbrev usStat_REFUSED : FieldPos := ⟨0, 24, 1⟩

/-! MIO_INTM_CFG, 13_reproducibility_and_audit.md. -/
/-- Offset of MIO_INTM_CFG. -/
abbrev oIntmCfg : Nat := 0x11800
abbrev intmCfg_GROUPS : FieldPos := ⟨0, 0, 32⟩
abbrev intmCfg_PORTS : FieldPos := ⟨0, 32, 24⟩

/-! MIO_INTM_ADDR, 13_reproducibility_and_audit.md. -/
/-- Offset of MIO_INTM_ADDR. -/
abbrev oIntmAddr : Nat := 0x11808
abbrev intmAddr_SADDR : FieldPos := ⟨0, 0, 36⟩
abbrev intmAddr_CNT_FIRST : FieldPos := ⟨0, 36, 12⟩
abbrev intmAddr_CNT_N : FieldPos := ⟨0, 48, 13⟩

/-! MIO_INTM_CUR, 13_reproducibility_and_audit.md. -/
/-- Offset of MIO_INTM_CUR. -/
abbrev oIntmCur : Nat := 0x11810
abbrev intmCur_CURTAINS : FieldPos := ⟨0, 0, 64⟩

/-! MIO_INTM_CMD, 13_reproducibility_and_audit.md. -/
/-- Offset of MIO_INTM_CMD. -/
abbrev oIntmCmd : Nat := 0x11818
abbrev intmCmd_CMD : FieldPos := ⟨0, 0, 2⟩
abbrev intmCmd_AT_EN : FieldPos := ⟨0, 2, 1⟩
abbrev intmCmd_SHEETS : FieldPos := ⟨0, 3, 1⟩
abbrev intmCmd_AT_SCENE : FieldPos := ⟨0, 32, 32⟩

/-! MIO_INTM_STAT, 13_reproducibility_and_audit.md. -/
/-- Offset of MIO_INTM_STAT. -/
abbrev oIntmStat : Nat := 0x11820
abbrev intmStat_PHASE : FieldPos := ⟨0, 0, 3⟩
abbrev intmStat_RESULT : FieldPos := ⟨0, 3, 3⟩
abbrev intmStat_REFUSED : FieldPos := ⟨0, 6, 1⟩
abbrev intmStat_IMG_LEN : FieldPos := ⟨0, 32, 32⟩

/-! MIO_PROG_DIG_h, 13_reproducibility_and_audit.md. -/
/-- Offset of MIO_PROG_DIG_h. -/
abbrev oProgDig (n : Nat) : Nat := 0x301000 + 64 * n
abbrev progDig_VALID : FieldPos := ⟨4, 0, 1⟩
abbrev progDig_BUSY : FieldPos := ⟨4, 1, 1⟩
abbrev progDig_LOADS : FieldPos := ⟨4, 32, 32⟩

/-! MIO_WIMG_k, 13_reproducibility_and_audit.md. -/
/-- Offset of MIO_WIMG_k. -/
abbrev oWimg (n : Nat) : Nat := 0x302000 + 64 * n
abbrev wimg_STATE : FieldPos := ⟨0, 0, 3⟩
abbrev wimg_TAINTED : FieldPos := ⟨0, 3, 1⟩
abbrev wimg_KIND : FieldPos := ⟨0, 4, 1⟩
abbrev wimg_CODE : FieldPos := ⟨0, 5, 1⟩
abbrev wimg_PORTS : FieldPos := ⟨0, 6, 24⟩
abbrev wimg_ADDR : FieldPos := ⟨1, 0, 36⟩
abbrev wimg_LEN : FieldPos := ⟨2, 0, 32⟩

/-! MIO_WIMG_CMD, 13_reproducibility_and_audit.md. -/
/-- Offset of MIO_WIMG_CMD. -/
abbrev oWimgCmd : Nat := 0x302800
abbrev wimgCmd_IDX : FieldPos := ⟨0, 0, 3⟩
abbrev wimgCmd_CMD : FieldPos := ⟨0, 4, 2⟩
abbrev wimgCmd_RESULT : FieldPos := ⟨0, 8, 3⟩
abbrev wimgCmd_REFUSED : FieldPos := ⟨0, 11, 1⟩

/-! MIO_IN_DIG_w, 13_reproducibility_and_audit.md. -/
/-- Offset of MIO_IN_DIG_w. -/
abbrev oInDig (n : Nat) : Nat := 0x308000 + 64 * n
abbrev inDig_COUNT : FieldPos := ⟨4, 0, 32⟩
abbrev inDig_RANK : FieldPos := ⟨4, 32, 16⟩
abbrev inDig_VALID : FieldPos := ⟨5, 48, 1⟩
abbrev inDig_PENDING : FieldPos := ⟨5, 49, 1⟩

/-! MIO_PROV_SEQ, 13_reproducibility_and_audit.md. -/
/-- Offset of MIO_PROV_SEQ. -/
abbrev oProvSeq : Nat := 0x300000
abbrev provSeq_SEQ : FieldPos := ⟨0, 0, 64⟩

/-! MIO_PROV_GFLAG_g, 13_reproducibility_and_audit.md. -/
/-- Offset of MIO_PROV_GFLAG_g. -/
abbrev oProvGflag (n : Nat) : Nat := 0x300100 + 8 * n
abbrev provGflag_TIMING_SUSPENDED : FieldPos := ⟨0, 0, 1⟩
abbrev provGflag_FP_UNORDERED : FieldPos := ⟨0, 1, 1⟩

/-! MIO_PROV_SRC_e, 13_reproducibility_and_audit.md. -/
/-- Offset of MIO_PROV_SRC_e. -/
abbrev oProvSrc (n : Nat) : Nat := 0x300800 + 8 * n
abbrev provSrc_INWIN : FieldPos := ⟨0, 0, 10⟩
abbrev provSrc_IN_EN : FieldPos := ⟨0, 10, 1⟩
abbrev provSrc_WIMG : FieldPos := ⟨0, 11, 3⟩
abbrev provSrc_W_EN : FieldPos := ⟨0, 14, 1⟩

/-! MIO_REH_CFG, 13_reproducibility_and_audit.md. -/
/-- Offset of MIO_REH_CFG. -/
abbrev oRehCfg : Nat := 0x10B20
abbrev rehCfg_GROUP : FieldPos := ⟨0, 0, 5⟩
abbrev rehCfg_SUB_EXP : FieldPos := ⟨0, 5, 5⟩

/-! MIO_REH_DIV, 13_reproducibility_and_audit.md. -/
/-- Offset of MIO_REH_DIV. -/
abbrev oRehDiv : Nat := 0x10B28
abbrev rehDiv_SCENE_NO : FieldPos := ⟨0, 0, 32⟩
abbrev rehDiv_EC_OFFSET : FieldPos := ⟨0, 32, 32⟩

/-! MIO_REH_DIV1, 13_reproducibility_and_audit.md. -/
/-- Offset of MIO_REH_DIV1. -/
abbrev oRehDiv1 : Nat := 0x10B30
abbrev rehDiv1_QUAD : FieldPos := ⟨0, 0, 2⟩
abbrev rehDiv1_KIND : FieldPos := ⟨0, 2, 2⟩
abbrev rehDiv1_OVERFLOW : FieldPos := ⟨0, 62, 1⟩
abbrev rehDiv1_VALID : FieldPos := ⟨0, 63, 1⟩

/-! MIO_REH_SIG_q, 13_reproducibility_and_audit.md. -/
/-- Offset of MIO_REH_SIG_q. -/
abbrev oRehSig (n : Nat) : Nat := 0x10B40 + 8 * n
abbrev rehSig_SIGNATURE : FieldPos := ⟨0, 0, 64⟩

/-! MIO_TABLEAU_CFG, 13_reproducibility_and_audit.md. -/
/-- Offset of MIO_TABLEAU_CFG. -/
abbrev oTableauCfg : Nat := 0x10E00
abbrev tableauCfg_ON_DIV : FieldPos := ⟨0, 0, 1⟩
abbrev tableauCfg_ON_BLACKOUT : FieldPos := ⟨0, 1, 1⟩

/-! MIO_TIME_NOW, 13_reproducibility_and_audit.md. -/
/-- Offset of MIO_TIME_NOW. -/
abbrev oTimeNow : Nat := 0x380000
abbrev timeNow_NS : FieldPos := ⟨0, 0, 32⟩
abbrev timeNow_SEC_LO : FieldPos := ⟨0, 32, 32⟩

/-! MIO_TIME_CTL, 13_reproducibility_and_audit.md. -/
/-- Offset of MIO_TIME_CTL. -/
abbrev oTimeCtl : Nat := 0x380008
abbrev timeCtl_SEC_HI : FieldPos := ⟨0, 0, 16⟩
abbrev timeCtl_STATE : FieldPos := ⟨0, 16, 2⟩
abbrev timeCtl_SET_PEND : FieldPos := ⟨0, 18, 1⟩
abbrev timeCtl_TRIM : FieldPos := ⟨0, 24, 24⟩
abbrev timeCtl_LOCK_NS : FieldPos := ⟨0, 48, 16⟩

/-! MIO_TIME_SET_NS, 13_reproducibility_and_audit.md. -/
/-- Offset of MIO_TIME_SET_NS. -/
abbrev oTimeSetNs : Nat := 0x380010
abbrev timeSetNs_NS : FieldPos := ⟨0, 0, 32⟩
abbrev timeSetNs_PPS_COMP : FieldPos := ⟨0, 32, 8⟩

/-! MIO_TIME_SET, 13_reproducibility_and_audit.md. -/
/-- Offset of MIO_TIME_SET. -/
abbrev oTimeSet : Nat := 0x380018
abbrev timeSet_SEC : FieldPos := ⟨0, 0, 48⟩
abbrev timeSet_AT_PPS : FieldPos := ⟨0, 48, 1⟩
abbrev timeSet_CANCEL : FieldPos := ⟨0, 49, 1⟩

/-! MIO_TIME_PPS, 13_reproducibility_and_audit.md. -/
/-- Offset of MIO_TIME_PPS. -/
abbrev oTimePps : Nat := 0x380020
abbrev timePps_NS : FieldPos := ⟨0, 0, 32⟩
abbrev timePps_SEC : FieldPos := ⟨0, 32, 16⟩
abbrev timePps_NEW : FieldPos := ⟨0, 48, 1⟩

/-! MIO_TIME_FREF, 13_reproducibility_and_audit.md. -/
/-- Offset of MIO_TIME_FREF. -/
abbrev oTimeFref : Nat := 0x380028
abbrev timeFref_FRAME : FieldPos := ⟨0, 0, 32⟩
abbrev timeFref_SLOT : FieldPos := ⟨0, 32, 8⟩

/-! MIO_FLT_SRC_s, 14_fault_handling.md. -/
/-- Offset of MIO_FLT_SRC_s. -/
abbrev oFltSrc (n : Nat) : Nat := 0x20100 + 8 * n
abbrev fltSrc_SEV : FieldPos := ⟨0, 0, 2⟩
abbrev fltSrc_REACT : FieldPos := ⟨0, 2, 1⟩

/-! MIO_FLT_CAP, 14_fault_handling.md. -/
/-- Offset of MIO_FLT_CAP. -/
abbrev oFltCap : Nat := 0x20000
abbrev fltCap_SRC : FieldPos := ⟨0, 0, 5⟩
abbrev fltCap_SEV : FieldPos := ⟨0, 5, 2⟩
abbrev fltCap_REACTED : FieldPos := ⟨0, 7, 1⟩
abbrev fltCap_UNIT : FieldPos := ⟨0, 8, 16⟩
abbrev fltCap_OVF_FATAL : FieldPos := ⟨0, 61, 1⟩
abbrev fltCap_OVERFLOW : FieldPos := ⟨0, 62, 1⟩
abbrev fltCap_VALID : FieldPos := ⟨0, 63, 1⟩
abbrev fltCap_FRAME : FieldPos := ⟨1, 0, 32⟩
abbrev fltCap_SLOT : FieldPos := ⟨1, 32, 8⟩

/-! MIO_FLT_STICKY, 14_fault_handling.md. -/
/-- Offset of MIO_FLT_STICKY. -/
abbrev oFltSticky : Nat := 0x20010
abbrev fltSticky_STICKY : FieldPos := ⟨0, 0, 24⟩

/-! MIO_FLT_CNT_s, 14_fault_handling.md. -/
/-- Offset of MIO_FLT_CNT_s. -/
abbrev oFltCnt (n : Nat) : Nat := 0x20200 + 8 * n
abbrev fltCnt_COUNT : FieldPos := ⟨0, 0, 32⟩

/-! MIO_FLT_CFG, 14_fault_handling.md. -/
/-- Offset of MIO_FLT_CFG. -/
abbrev oFltCfg : Nat := 0x20018
abbrev fltCfg_CAP_MODE : FieldPos := ⟨0, 0, 1⟩
abbrev fltCfg_ALIVE_EXP : FieldPos := ⟨0, 8, 5⟩

/-! MIO_FLT_STAT, 14_fault_handling.md. -/
/-- Offset of MIO_FLT_STAT. -/
abbrev oFltStat : Nat := 0x20020
abbrev fltStat_BLACKOUT : FieldPos := ⟨0, 0, 1⟩
abbrev fltStat_ERR_LATCHED : FieldPos := ⟨0, 1, 1⟩
abbrev fltStat_ALIVE_STOP : FieldPos := ⟨0, 2, 2⟩
abbrev fltStat_FACTORY : FieldPos := ⟨0, 4, 1⟩
abbrev fltStat_PERTURB : FieldPos := ⟨0, 5, 1⟩

/-! MIO_FLT_KICK, 14_fault_handling.md. -/
/-- Offset of MIO_FLT_KICK. -/
abbrev oFltKick : Nat := 0x20028
abbrev fltKick_KICK : FieldPos := ⟨0, 0, 1⟩

/-! MIO_FLT_KILL, 14_fault_handling.md. -/
/-- Offset of MIO_FLT_KILL. -/
abbrev oFltKill : Nat := 0x20030
abbrev fltKill_GROUP : FieldPos := ⟨0, 0, 5⟩
abbrev fltKill_GO : FieldPos := ⟨0, 8, 1⟩

/-! MIO_STRIKE_STAT, 14_fault_handling.md. -/
/-- Offset of MIO_STRIKE_STAT. -/
abbrev oStrikeStat : Nat := 0x20038
abbrev strikeStat_ACTIVE : FieldPos := ⟨0, 0, 32⟩
abbrev strikeStat_LAST : FieldPos := ⟨0, 32, 5⟩
abbrev strikeStat_BANKS : FieldPos := ⟨0, 37, 13⟩
abbrev strikeStat_DONE : FieldPos := ⟨0, 63, 1⟩

/-! MIO_REP_GRANT, 14_fault_handling.md. -/
/-- Offset of MIO_REP_GRANT. -/
abbrev oRepGrant : Nat := 0x40418
abbrev repGrant_GRANT : FieldPos := ⟨0, 0, 32⟩

/-! MIO_PERT_STREAM, 14_fault_handling.md. -/
/-- Offset of MIO_PERT_STREAM. -/
abbrev oPertStream : Nat := 0xA0800
abbrev pertStream_PORTS : FieldPos := ⟨0, 0, 24⟩
abbrev pertStream_DELAY : FieldPos := ⟨0, 32, 16⟩

/-! MIO_PERT_ARB, 14_fault_handling.md. -/
/-- Offset of MIO_PERT_ARB. -/
abbrev oPertArb : Nat := 0xA0808
abbrev pertArb_REQ : FieldPos := ⟨0, 0, 6⟩
abbrev pertArb_LOSE : FieldPos := ⟨0, 8, 8⟩

/-! MIO_PERT_LINK, 14_fault_handling.md. -/
/-- Offset of MIO_PERT_LINK. -/
abbrev oPertLink : Nat := 0xA0810
abbrev pertLink_PORTS : FieldPos := ⟨0, 0, 17⟩
abbrev pertLink_HOLD : FieldPos := ⟨0, 32, 8⟩
abbrev pertLink_CAP : FieldPos := ⟨0, 40, 7⟩

/-! MIO_INJ_BANK, 14_fault_handling.md. -/
/-- Offset of MIO_INJ_BANK. -/
abbrev oInjBank : Nat := 0x20F00
abbrev injBank_GI : FieldPos := ⟨0, 0, 27⟩
abbrev injBank_NBITS : FieldPos := ⟨0, 30, 2⟩
abbrev injBank_ARM : FieldPos := ⟨0, 32, 1⟩
abbrev injBank_POS0 : FieldPos := ⟨1, 0, 9⟩
abbrev injBank_POS1 : FieldPos := ⟨1, 9, 9⟩
abbrev injBank_POS2 : FieldPos := ⟨1, 18, 9⟩
abbrev injBank_POS3 : FieldPos := ⟨1, 27, 9⟩

/-! MIO_INJ_LINE, 14_fault_handling.md. -/
/-- Offset of MIO_INJ_LINE. -/
abbrev oInjLine : Nat := 0x20F10
abbrev injLine_SRC : FieldPos := ⟨0, 0, 5⟩
abbrev injLine_FORM : FieldPos := ⟨0, 8, 2⟩
abbrev injLine_DUR : FieldPos := ⟨0, 16, 16⟩
abbrev injLine_GO : FieldPos := ⟨0, 32, 1⟩

/-! MIO_PWR_OP, 15_power_and_clocks.md. -/
/-- Offset of MIO_PWR_OP. -/
abbrev oPwrOp : Nat := 0x10100
abbrev pwrOp_TARGET : FieldPos := ⟨0, 0, 2⟩
abbrev pwrOp_ACTIVE : FieldPos := ⟨0, 4, 2⟩
abbrev pwrOp_VREQ : FieldPos := ⟨0, 6, 2⟩
abbrev pwrOp_BUSY : FieldPos := ⟨0, 8, 1⟩
abbrev pwrOp_BROWNOUT : FieldPos := ⟨0, 9, 1⟩
abbrev pwrOp_BROWN_SEEN : FieldPos := ⟨0, 10, 1⟩
abbrev pwrOp_VTIMEOUT : FieldPos := ⟨0, 11, 1⟩
abbrev pwrOp_VACK_EXP : FieldPos := ⟨0, 16, 5⟩
abbrev pwrOp_AUTO_OFF : FieldPos := ⟨0, 21, 1⟩
abbrev pwrOp_BROWN_CNT : FieldPos := ⟨0, 32, 16⟩

/-! MIO_PWR_MODE, 15_power_and_clocks.md. -/
/-- Offset of MIO_PWR_MODE. -/
abbrev oPwrMode : Nat := 0x10108
abbrev pwrMode_MODE : FieldPos := ⟨0, 0, 3⟩
abbrev pwrMode_STATE : FieldPos := ⟨0, 4, 3⟩
abbrev pwrMode_RESULT : FieldPos := ⟨0, 7, 2⟩
abbrev pwrMode_CLAMPED : FieldPos := ⟨0, 9, 1⟩
abbrev pwrMode_CLAMP_REL : FieldPos := ⟨0, 10, 1⟩
abbrev pwrMode_WAKE_SRC : FieldPos := ⟨0, 16, 5⟩

/-! MIO_PWR_WAKE, 15_power_and_clocks.md. -/
/-- Offset of MIO_PWR_WAKE. -/
abbrev oPwrWake : Nat := 0x10110
abbrev pwrWake_EN_CPORT : FieldPos := ⟨0, 0, 1⟩
abbrev pwrWake_EN_DOOR : FieldPos := ⟨0, 1, 1⟩
abbrev pwrWake_EN_TIMER : FieldPos := ⟨0, 2, 1⟩
abbrev pwrWake_EN_WATCH : FieldPos := ⟨0, 3, 1⟩
abbrev pwrWake_TIMER_EXP : FieldPos := ⟨0, 8, 5⟩
abbrev pwrWake_LINK_MASK : FieldPos := ⟨0, 16, 16⟩

/-! MIO_PWR_RET, 15_power_and_clocks.md. -/
/-- Offset of MIO_PWR_RET. -/
abbrev oPwrRet : Nat := 0x10118
abbrev pwrRet_RET : FieldPos := ⟨0, 0, 64⟩

/-! MIO_PWR_WATCH, 15_power_and_clocks.md. -/
/-- Offset of MIO_PWR_WATCH. -/
abbrev oPwrWatch : Nat := 0x10120
abbrev pwrWatch_KIND : FieldPos := ⟨0, 0, 1⟩
abbrev pwrWatch_CMP : FieldPos := ⟨0, 1, 1⟩
abbrev pwrWatch_IDX : FieldPos := ⟨0, 2, 12⟩
abbrev pwrWatch_OFFSET : FieldPos := ⟨0, 14, 24⟩
abbrev pwrWatch_WORD : FieldPos := ⟨0, 38, 3⟩
abbrev pwrWatch_PERIOD_EXP : FieldPos := ⟨0, 41, 5⟩
abbrev pwrWatch_SLICE_EXP : FieldPos := ⟨0, 46, 5⟩

/-! MIO_PWR_WATCHV, 15_power_and_clocks.md. -/
/-- Offset of MIO_PWR_WATCHV. -/
abbrev oPwrWatchv : Nat := 0x10128
abbrev pwrWatchv_VALUE : FieldPos := ⟨0, 0, 32⟩
abbrev pwrWatchv_MASK : FieldPos := ⟨0, 32, 32⟩

/-! MIO_SM_BOOT, 16_startup_and_firmware.md. -/
/-- Offset of MIO_SM_BOOT. -/
abbrev oSmBoot : Nat := 0x3C0000
abbrev smBoot_STEP : FieldPos := ⟨0, 0, 4⟩
abbrev smBoot_RECOVERY : FieldPos := ⟨0, 4, 1⟩
abbrev smBoot_STOPPED : FieldPos := ⟨0, 5, 1⟩
abbrev smBoot_CFG_REASON : FieldPos := ⟨0, 6, 3⟩
abbrev smBoot_CFG_ENTRY : FieldPos := ⟨0, 9, 12⟩
abbrev smBoot_NVM_MODE : FieldPos := ⟨0, 21, 2⟩
abbrev smBoot_SLOT : FieldPos := ⟨0, 23, 1⟩
abbrev smBoot_REPAIR_DEF : FieldPos := ⟨0, 24, 1⟩
abbrev smBoot_REPAIR_COPY : FieldPos := ⟨0, 25, 1⟩
abbrev smBoot_MARCH : FieldPos := ⟨0, 26, 2⟩
abbrev smBoot_START_US : FieldPos := ⟨0, 32, 32⟩

/-! MIO_FW_STAT, 16_startup_and_firmware.md. -/
/-- Offset of MIO_FW_STAT. -/
abbrev oFwStat : Nat := 0x3C0008
abbrev fwStat_RESULT : FieldPos := ⟨0, 0, 4⟩
abbrev fwStat_UPLOADING : FieldPos := ⟨0, 4, 1⟩
abbrev fwStat_STAGED : FieldPos := ⟨0, 5, 1⟩
abbrev fwStat_COPY : FieldPos := ⟨0, 6, 2⟩
abbrev fwStat_RUN_VER : FieldPos := ⟨0, 32, 32⟩

/-! MIO_FW_STAGED, 16_startup_and_firmware.md. -/
/-- Offset of MIO_FW_STAGED. -/
abbrev oFwStaged : Nat := 0x3C0018
abbrev fwStaged_VER : FieldPos := ⟨0, 0, 32⟩
abbrev fwStaged_CFG_FORMAT : FieldPos := ⟨0, 32, 16⟩

/-! MIO_FW_CMD, 16_startup_and_firmware.md. -/
/-- Offset of MIO_FW_CMD. -/
abbrev oFwCmd : Nat := 0x3C0010
abbrev fwCmd_ACTIVATE : FieldPos := ⟨0, 0, 1⟩

/-! MIO_MB_CTRL, 16_startup_and_firmware.md. -/
/-- Offset of MIO_MB_CTRL. -/
abbrev oMbCtrl : Nat := 0x3C0100
abbrev mbCtrl_H2S_FULL : FieldPos := ⟨0, 0, 1⟩
abbrev mbCtrl_H2S_SEND : FieldPos := ⟨0, 1, 1⟩
abbrev mbCtrl_H2S_REFUSED : FieldPos := ⟨0, 2, 1⟩
abbrev mbCtrl_S2H_FULL : FieldPos := ⟨0, 8, 1⟩
abbrev mbCtrl_S2H_ACK : FieldPos := ⟨0, 9, 1⟩

/-! MIO_MB_H2S_k, 16_startup_and_firmware.md. -/
/-- Offset of MIO_MB_H2S_k. -/
abbrev oMbH2s (n : Nat) : Nat := 0x3C0140 + 8 * n
abbrev mbH2s_WORD : FieldPos := ⟨0, 0, 64⟩

/-! MIO_MB_S2H_k, 16_startup_and_firmware.md. -/
/-- Offset of MIO_MB_S2H_k. -/
abbrev oMbS2h (n : Nat) : Nat := 0x3C0180 + 8 * n
abbrev mbS2h_WORD : FieldPos := ⟨0, 0, 64⟩

/-! MIO_ID, 17_register_map.md. -/
/-- Offset of MIO_ID. -/
abbrev oId : Nat := 0x0
abbrev id_VENDOR : FieldPos := ⟨0, 0, 16⟩
abbrev id_BLOCK : FieldPos := ⟨0, 16, 16⟩
abbrev id_REVISION : FieldPos := ⟨0, 32, 16⟩
abbrev id_INTEG : FieldPos := ⟨0, 48, 11⟩

/-! MIO_CAP0, 17_register_map.md. -/
/-- Offset of MIO_CAP0. -/
abbrev oCap0 : Nat := 0x8
abbrev cap0_SEQS : FieldPos := ⟨0, 0, 7⟩
abbrev cap0_CURTAINS : FieldPos := ⟨0, 8, 7⟩
abbrev cap0_LSENDS : FieldPos := ⟨0, 16, 9⟩
abbrev cap0_WIMGS : FieldPos := ⟨0, 28, 4⟩
abbrev cap0_WINDOWS : FieldPos := ⟨0, 32, 11⟩
abbrev cap0_COUNTERS : FieldPos := ⟨0, 48, 13⟩

/-! MIO_CAP1, 17_register_map.md. -/
/-- Offset of MIO_CAP1. -/
abbrev oCap1 : Nat := 0x10
abbrev cap1_CONTEXTS : FieldPos := ⟨0, 0, 15⟩
abbrev cap1_OUT_PER_PORT : FieldPos := ⟨0, 16, 12⟩
abbrev cap1_OUT_TOTAL : FieldPos := ⟨0, 32, 16⟩

/-! MIO_CTRL, 17_register_map.md. -/
/-- Offset of MIO_CTRL. -/
abbrev oCtrl : Nat := 0x10000
abbrev ctrl_LOCK : FieldPos := ⟨0, 0, 1⟩

/-! MIO_STATUS, 17_register_map.md. -/
/-- Offset of MIO_STATUS. -/
abbrev oStatus : Nat := 0x10008
abbrev status_CFG_DEFAULTED : FieldPos := ⟨0, 0, 1⟩
abbrev status_LOCKED : FieldPos := ⟨0, 1, 1⟩
abbrev status_LOCK_WR : FieldPos := ⟨0, 2, 1⟩
abbrev status_DECODE_ERR : FieldPos := ⟨0, 3, 1⟩
abbrev status_LAST_DECERR : FieldPos := ⟨0, 8, 22⟩

end Sys2Proof.Machine
end

