-- ==== Sys2Proof/Machine/Regs.lean ====
section
/-! DEFINITION. Finding a register by its offset, its value at reset, and its stored value: the one home of register contents. -/

namespace Sys2Proof.Machine

/-- Where an offset lies: the register, the copy number and the word of the copy. -/
structure RegAt where
  row  : RegRow
  idx  : Nat
  word : Nat
  deriving DecidableEq, Repr

/-- Whether `off` is a word of the register `r`, and which (R366). -/
def regHit (r : RegRow) (off : Nat) : Option RegAt :=
  if off < r.base then none
  else
    let d := off - r.base
    let idx := if r.stride = 0 then 0 else d / r.stride
    let rest := if r.stride = 0 then d else d % r.stride
    if rest % 8 = 0 ∧ idx < r.count ∧ rest / 8 < r.words then some ⟨r, idx, rest / 8⟩ else none

/-- The first register of a list that holds `off`. -/
def regScan (off : Nat) : List RegRow → Option RegAt
  | [] => none
  | r :: t => match regHit r off with
    | some a => some a
    | none => regScan off t

/-- The register at `off`: MIO_WING_CFG_64 stands at 0x10F40 and its place in the array is MIO_TABLEAU_CFG (R368);
of an ordered set's copies the first is not built (R197). -/
def regFind (off : Nat) : Option RegAt :=
  if off = 0x10F40 then some ⟨⟨.wingCfg, 0x10C00, 8, 104, 1, [⟨0, 0, 3, .rw, 0⟩, ⟨0, 8, 1, .rw, 1⟩]⟩, 64, 0⟩
  else if off = 0x10E00 then some ⟨⟨.tableauCfg, 0x10E00, 0, 1, 1, [⟨0, 0, 1, .rw, 0⟩, ⟨0, 1, 1, .rw, 0⟩]⟩, 0, 0⟩
  else if off = 0x11080 then none
  else regScan off regMap

/-- The offset of MIO_WING_CFG_n (R368). -/
def oWing (n : Nat) : Nat := if n = 64 then 0x10F40 else oWingCfg n

/-- Bits [lo+width-1:lo] of a number. -/
def bits (v lo width : Nat) : Nat := (v >>> lo) % 2 ^ width

/-- `v` with bits [lo+width-1:lo] replaced by `x`. -/
def putBits (v lo width x : Nat) : Nat := v - (bits v lo width <<< lo) + ((x % 2 ^ width) <<< lo)

/-- The fields of one word at their reset values. -/
def fieldsInit (w : Nat) : List Field → Nat
  | [] => 0
  | f :: t => (if f.word = w then f.init <<< f.lo else 0) + fieldsInit w t

/-- Reset value of word 0 of an entry of a cue sheet at slot s (R95). -/
def csInit (s : Nat) : Nat :=
  if s % 16 < 12 then 0
  else if s % 16 < 14 then 0x5555555555555555
  else if s % 16 = 14 then 0xAAAAAAAAAAAAAAAA
  else 0xFFFFFFFFFFFFFFFF

/-- Reset value of MIO_ARB_REQ_r: PRI, HOLD and WAIT_LIMIT of the default table of R235. -/
def arbReqInit (r : Nat) : Nat :=
  let pri := if r < 24 then 1 else if r < 40 then 2 else if r < 45 then 3
    else if (r - 45) % 4 = 0 then 0 else if (r - 45) % 4 = 1 then 1 else if (r - 45) % 4 = 2 then 3 else 2
  let hold := if r < 24 then 4 else 1
  pri + ((hold - 1) <<< 2) + (0x10 <<< 8)

/-- Reset value of MIO_FLT_SRC_s: SEV (1 LOG, 2 ALERT, 3 FATAL) and REACT (4 FENCE) of the table of R302; 0 for the reserved number 23. -/
def fltSrcInit (s : Nat) : Nat :=
  if s < 4 then 3
  else if s < 6 then 3 + 4
  else if s = 7 ∨ s = 12 ∨ s = 13 ∨ s = 14 ∨ s = 17 ∨ s = 22 then 1
  else if s < 23 then 2
  else 0

/-- The value of the word at `off` at reset. Of an unmapped offset it is 0. -/
def regReset (off : Nat) : Word :=
  match regFind off with
  | none => 0
  | some a =>
    BitVec.ofNat 64 (match a.row.kind with
      | .region => a.idx + ((0x40 + a.idx) <<< 8) + ((0x80 + a.idx) <<< 16) + ((0xC0 + a.idx) <<< 24)
          + (if a.idx < Config.cpq then 1 <<< 48 else 0)
      | .cs => if a.idx % 2 = 0 then csInit (a.idx / 2 % 256) else 0
      | .arbReq => arbReqInit a.idx
      | .fltSrc => fltSrcInit a.idx
      | .wingCfg => if a.idx < 64 ∨ 88 ≤ a.idx then 1 <<< 8 else 0
      | .id => fieldsInit 0 a.row.fields + (Config.integ.toNat <<< 48)
      | _ => fieldsInit a.word a.row.fields)

/-- The stored word at an offset. -/
def Ctl.reg (c : Ctl) (off : Nat) : Word := Tab.get (regReset off) c.regs off

/-- Store a word at an offset. -/
def Ctl.setReg (c : Ctl) (off : Nat) (v : Word) : Ctl :=
  { c with regs := Tab.set (regReset off) c.regs off v }

/-- A stored field of the register at `off`. -/
def Ctl.fld (c : Ctl) (off : Nat) (f : FieldPos) : Nat :=
  bits (c.reg (off + 8 * f.word)).toNat f.lo f.width

/-- Store a field of the register at `off`. -/
def Ctl.setFld (c : Ctl) (off : Nat) (f : FieldPos) (x : Nat) : Ctl :=
  c.setReg (off + 8 * f.word) (BitVec.ofNat 64 (putBits (c.reg (off + 8 * f.word)).toNat f.lo f.width x))

/-! ### Changes that meet a write of the same cc (R371) -/

/-- The bits of a field in its word. -/
def FieldPos.mask (f : FieldPos) : Word := BitVec.ofNat 64 ((2 ^ f.width - 1) <<< f.lo)

/-- W1C bits of a word that the block sets in this cc. -/
def Ctl.noteOnes (c : Ctl) (off : Nat) (m : Word) : Ctl :=
  { c with notes := { c.notes with ones := Tab.set 0 c.notes.ones off (Tab.get 0 c.notes.ones off ||| m) } }

/-- The block sets a W1C field: a write that clears it in this cc leaves it at 1 (R371). -/
def Ctl.flag (c : Ctl) (off : Nat) (f : FieldPos) : Ctl := (c.setFld off f 1).noteOnes (off + 8 * f.word) f.mask

/-- Bits of a word written in this cc, of RW fields that the block changes as well. -/
def Ctl.noteWrote (c : Ctl) (off : Nat) (m : Word) : Ctl :=
  { c with notes := { c.notes with wrote := Tab.set 0 c.notes.wrote off (Tab.get 0 c.notes.wrote off ||| m) } }

/-- The block changes an RW field: one that a write of this cc has loaded keeps the written value (R371). -/
def Ctl.hwFld (c : Ctl) (off : Nat) (f : FieldPos) (x : Nat) : Ctl :=
  if Tab.get 0 c.notes.wrote (off + 8 * f.word) &&& f.mask = 0 then c.setFld off f x else c

/-- Add events to a count that saturates at its largest value, and note them for a write of the same cc (R371). -/
def Ctl.satAdd (c : Ctl) (off : Nat) (f : FieldPos) (x : Nat) : Ctl :=
  { c.setFld off f (min (c.fld off f + x) (2 ^ f.width - 1)) with
    notes := { c.notes with counts := c.notes.counts ++ [(off + 8 * f.word, f.lo, x)] } }

end Sys2Proof.Machine
end

