-- ==== Sys2Proof/Machine/Crypto.lean ====
section
/-! DEFINITION. The published algorithms that the manual names (00_scope): SHA-256 (FIPS 180-4), AES-256-GCM (FIPS 197, SP 800-38D),
CRC-32C, and the CRC-64 of R293. -/

namespace Sys2Proof.Machine

/-! ### Bytes -/

/-- `n` bytes of a number, least significant first. -/
def leBytes : Nat → Nat → List Byte
  | 0, _ => []
  | n + 1, v => BitVec.ofNat 8 v :: leBytes n (v / 256)

/-- The number of a list of bytes, least significant first. -/
def leNat : List Byte → Nat
  | [] => 0
  | b :: t => b.toNat + 256 * leNat t

/-- The number of a list of bytes, most significant first. -/
def beNatFrom (acc : Nat) : List Byte → Nat
  | [] => acc
  | b :: t => beNatFrom (acc * 256 + b.toNat) t

/-- The number of a list of bytes, most significant first. -/
def beNat (l : List Byte) : Nat := beNatFrom 0 l

/-- `n` bytes of a number, most significant first. -/
def beBytes (n v : Nat) : List Byte := (leBytes n v).reverse

/-- The 32 data bytes of a granule in address order (R16). -/
def granuleBytes (g : Granule) : List Byte := leBytes 32 (g.toNat % 2 ^ 256)

/-- The numbers 0 to n - 1. -/
def upto (n : Nat) : List Nat := List.range n

/-! ### SHA-256 -/

/-- Rotate a 32-bit word right. -/
def rotr32 (x n : Nat) : Nat := ((x >>> n) ||| (x <<< (32 - n))) % 2 ^ 32

/-- The 32-bit words of a number of 256 bits, the most significant first. -/
def wordsOf (v : Nat) : List Nat := (List.range 8).map fun i => bits v (224 - 32 * i) 32

/-- The round constants of FIPS 180-4, eight to a number. -/
def shaK : List Nat :=
  wordsOf 0x428A2F9871374491B5C0FBCFE9B5DBA53956C25B59F111F1923F82A4AB1C5ED5 ++
  wordsOf 0xD807AA9812835B01243185BE550C7DC372BE5D7480DEB1FE9BDC06A7C19BF174 ++
  wordsOf 0xE49B69C1EFBE47860FC19DC6240CA1CC2DE92C6F4A7484AA5CB0A9DC76F988DA ++
  wordsOf 0x983E5152A831C66DB00327C8BF597FC7C6E00BF3D5A7914706CA635114292967 ++
  wordsOf 0x27B70A852E1B21384D2C6DFC53380D13650A7354766A0ABB81C2C92E92722C85 ++
  wordsOf 0xA2BFE8A1A81A664BC24B8B70C76C51A3D192E819D6990624F40E3585106AA070 ++
  wordsOf 0x19A4C1161E376C082748774C34B0BCB5391C0CB34ED8AA4A5B9CCA4F682E6FF3 ++
  wordsOf 0x748F82EE78A5636F84C878148CC7020890BEFFFAA4506CEBBEF9A3F7C67178F2

/-- The initial hash value of FIPS 180-4. -/
def shaInit : List Nat := wordsOf 0x6A09E667BB67AE853C6EF372A54FF53A510E527F9B05688C1F83D9AB5BE0CD19

/-- Three rotations of a word, as the functions of FIPS 180-4 combine them. -/
def rot3 (x r s u : Nat) : Nat := rotr32 x r ^^^ rotr32 x s ^^^ rotr32 x u

/-- The schedule words that follow sixteen words of a message: `w` holds the words so far, latest first. -/
def shaSchedule : Nat → List Nat → List Nat
  | 0, w => w.reverse
  | n + 1, w =>
    let small := fun (i r s k : Nat) => let x := w.getD i 0; rotr32 x r ^^^ rotr32 x s ^^^ (x >>> k)
    shaSchedule n ((small 1 17 19 10 + w.getD 6 0 + small 14 7 18 3 + w.getD 15 0) % 2 ^ 32 :: w)

/-- One round on the eight working words, with the sum of its constant and its schedule word. Bit by bit, the choice takes the sixth word
where the fifth is 1 and the seventh elsewhere, and the majority that of the first three. -/
def shaRound (v : List Nat) (kw : Nat) : List Nat :=
  let x := fun i => v.getD i 0
  let choice := x 6 ^^^ (x 4 &&& (x 5 ^^^ x 6))
  let major := (x 0 &&& x 1) ||| (x 2 &&& (x 0 ||| x 1))
  let mixed := x 7 + rot3 (x 4) 6 11 25 + choice + kw
  [(mixed + rot3 (x 0) 2 13 22 + major) % 2 ^ 32] ++ (v.take 3) ++ [(x 3 + mixed) % 2 ^ 32] ++ ((v.drop 4).take 3)

/-- One block: the hash value after sixteen message words. -/
def shaBlock (hv : List Nat) (words : List Nat) : List Nat :=
  let r := (List.zipWith (fun k w => k + w) shaK (shaSchedule 48 words.reverse)).foldl shaRound hv
  List.zipWith (fun x y => (x + y) % 2 ^ 32) hv r

/-- The big-endian 32-bit words of a list of bytes. -/
def beWords : List Byte → List Nat
  | a :: b :: c :: d :: t => beNat [a, b, c, d] :: beWords t
  | _ => []

/-- Hash `n` blocks of words. -/
def shaBlocks : Nat → List Nat → List Nat → List Nat
  | 0, hv, _ => hv
  | n + 1, hv, ws => shaBlocks n (shaBlock hv (ws.take 16)) (ws.drop 16)

/-- SHA-256 of a message of whole bytes: the digest as 32 bytes. -/
def sha256Bytes (m : List Byte) : List Byte :=
  let zeros := (119 - m.length % 64) % 64
  let padded := m ++ [0x80#8] ++ List.replicate zeros 0#8 ++ beBytes 8 (8 * m.length)
  (shaBlocks (padded.length / 64) shaInit (beWords padded)).flatMap (beBytes 4)

/-- SHA-256 as a number whose most significant byte is the first byte of the digest. -/
def sha256 (m : List Byte) : BitVec 256 := BitVec.ofNat 256 (beNat (sha256Bytes m))

/-! ### AES-256-GCM -/

/-- Product in GF(2^8) modulo x^8 + x^4 + x^3 + x + 1, over `n` bits of `b`. -/
def gmul8 (a : Nat) : Nat → Nat → Nat
  | 0, _ => 0
  | n + 1, b =>
    (if b % 2 = 1 then a else 0) ^^^
      gmul8 (if 128 ≤ a then ((a <<< 1) ^^^ 0x11B) % 256 else a <<< 1) n (b / 2)

/-- Powers in GF(2^8) by repeated product. -/
def gpow8 (a : Nat) : Nat → Nat
  | 0 => 1
  | n + 1 => gmul8 (gpow8 a n) 8 a

/-- The substitution of FIPS 197: the inverse (a^254), then the affine map. -/
def aesSub (a : Nat) : Nat :=
  let a2 := gmul8 a 8 a
  let a4 := gmul8 a2 8 a2
  let a8 := gmul8 a4 8 a4
  let a16 := gmul8 a8 8 a8
  let a32 := gmul8 a16 8 a16
  let a64 := gmul8 a32 8 a32
  let a128 := gmul8 a64 8 a64
  let inv := gmul8 (gmul8 (gmul8 (gmul8 (gmul8 (gmul8 a2 8 a4) 8 a8) 8 a16) 8 a32) 8 a64) 8 a128
  let r := fun n => ((inv <<< n) ||| (inv >>> (8 - n))) % 256
  inv ^^^ r 1 ^^^ r 2 ^^^ r 3 ^^^ r 4 ^^^ 0x63

/-- Key expansion for 256-bit keys: words as lists of four bytes, latest first; `i` counts words made so far. -/
def aesExpand : Nat → Nat → List (List Nat) → List (List Nat)
  | 0, _, ws => ws.reverse
  | n + 1, i, ws =>
    let prev := ws.headD []
    let old := ws.getD 7 []
    let t := if i % 8 = 0 then
        match (prev.drop 1 ++ prev.take 1).map aesSub with
        | b :: rest => (b ^^^ gpow8 2 (i / 8 - 1)) :: rest
        | [] => []
      else if i % 8 = 4 then prev.map aesSub else prev
    aesExpand n (i + 1) (List.zipWith (fun x y => x ^^^ y) old t :: ws)

/-- Split a list in fours. -/
def fours {α : Type} : List α → List (List α)
  | a :: b :: c :: d :: t => [a, b, c, d] :: fours t
  | _ => []

/-- The fifteen round keys of a 32-byte key, sixteen bytes each. -/
def aesKeys (key : List Nat) : List (List Nat) :=
  (fours (aesExpand 52 8 (fours key).reverse)).map List.flatten

/-- ShiftRows on a state in column order. -/
def aesShift (s : List Nat) : List Nat := (upto 16).map fun i => s.getD ((i + 4 * (i % 4)) % 16) 0

/-- MixColumns on one column. -/
def aesMix (c : List Nat) : List Nat :=
  (upto 4).map fun i => gmul8 (c.getD i 0) 8 2 ^^^ gmul8 (c.getD ((i + 1) % 4) 0) 8 3
    ^^^ c.getD ((i + 2) % 4) 0 ^^^ c.getD ((i + 3) % 4) 0

/-- XOR of byte lists. -/
def xorBytes (a b : List Nat) : List Nat := List.zipWith (fun x y => x ^^^ y) a b

/-- The rounds after the first key addition. -/
def aesRounds : List (List Nat) → List Nat → List Nat
  | [], s => s
  | [k], s => xorBytes (aesShift (s.map aesSub)) k
  | k :: ks, s => aesRounds ks (xorBytes ((fours (aesShift (s.map aesSub))).flatMap aesMix) k)

/-- AES-256 of one block under expanded keys. -/
def aesBlock (keys : List (List Nat)) (b : List Nat) : List Nat :=
  aesRounds (keys.drop 1) (xorBytes b (keys.headD []))

/-- Product of GHASH: bit 0 of a block is the most significant bit of its number. -/
def ghashMul (v : Nat) : Nat → Nat → Nat
  | 0, _ => 0
  | n + 1, x =>
    (if Nat.testBit x n then v else 0) ^^^
      ghashMul (if v % 2 = 1 then (v >>> 1) ^^^ (0xE1 <<< 120) else v >>> 1) n x

/-- Split bytes in blocks of sixteen, the last filled with zeros. -/
def blocks16 : Nat → List Byte → List (List Byte)
  | 0, _ => []
  | n + 1, l => if l.isEmpty then [] else
    ((l.take 16) ++ List.replicate (16 - (l.take 16).length) 0#8) :: blocks16 n (l.drop 16)

/-- GHASH over blocks. -/
def ghash (h : Nat) (bs : List (List Byte)) : Nat :=
  bs.foldl (fun y b => ghashMul h 128 (y ^^^ beNat b)) 0

/-- The key stream over blocks of data: XOR of each block with the cipher of the counter block from `ctr` on. -/
def gcmStream (keys : List (List Nat)) (nonce : List Nat) : Nat → Nat → List Byte → List Byte
  | 0, _, _ => []
  | n + 1, ctr, l =>
    if l.isEmpty then [] else
    let ks := aesBlock keys (nonce ++ (beBytes 4 ctr).map BitVec.toNat)
    List.zipWith (fun (b : Byte) k => b ^^^ BitVec.ofNat 8 k) (l.take 16) ks ++ gcmStream keys nonce n (ctr + 1) (l.drop 16)

/-- AES-256-GCM with a 96-bit nonce: the tag over the additional data and the ciphertext, and the plaintext. -/
def gcmOpen (key nonce aad ct : List Byte) : List Byte × List Byte :=
  let keys := aesKeys (key.map BitVec.toNat)
  let nn := nonce.map BitVec.toNat
  let h := beNat ((aesBlock keys (List.replicate 16 0)).map (BitVec.ofNat 8))
  let s := ghash h (blocks16 (aad.length + 1) aad ++ blocks16 (ct.length + 1) ct
    ++ [beBytes 8 (8 * aad.length) ++ beBytes 8 (8 * ct.length)])
  let e := beNat ((aesBlock keys (nn ++ [0, 0, 0, 1])).map (BitVec.ofNat 8))
  (beBytes 16 (s ^^^ e), gcmStream keys nn (ct.length + 1) 2 ct)

/-! ### CRCs -/

/-- Eight steps of the reflected CRC-32C (polynomial 0x1EDC6F41, reflected 0x82F63B78). -/
def crc32cBits : Nat → Nat → Nat
  | 0, c => c
  | n + 1, c => crc32cBits n (if c % 2 = 1 then (c >>> 1) ^^^ 0x82F63B78 else c >>> 1)

/-- CRC-32C (00_scope): initial value and final XOR 0xFFFFFFFF. -/
def crc32c (l : List Byte) : Nat :=
  l.foldl (fun c b => crc32cBits 8 (c ^^^ b.toNat)) 0xFFFFFFFF ^^^ 0xFFFFFFFF

/-- Eight steps of the CRC of R293, not reflected. -/
def crc64Bits : Nat → Nat → Nat
  | 0, c => c
  | n + 1, c => crc64Bits n (if Nat.testBit c 63 then ((c <<< 1) ^^^ 0x42F0E1EBA9EA3693) % 2 ^ 64 else c <<< 1)

/-- The signature after more bytes (R293). -/
def crc64 (sig : BitVec 64) (l : List Byte) : BitVec 64 :=
  BitVec.ofNat 64 (l.foldl (fun c b => crc64Bits 8 (c ^^^ (b.toNat <<< 56))) sig.toNat)

end Sys2Proof.Machine
end

