-- ==== Sys2Proof/Machine/Ecc.lean ====
section
/-! DEFINITION. The granule, its tags, and the two codes (R15 to R17, R246 to R248, R252). A code kind is a Bool: false working, true repertory. -/

namespace Sys2Proof.Machine

/-- What a decoder answers (R248). `word` is the code word that goes on: the corrected word, or the poisoned granule of R252. -/
structure Decoded where
  bad   : Bool      -- UNCORRECTABLE
  fixed : Nat       -- corrected bits
  pos   : Nat       -- code-word position of a 1-bit correction, 0x1FF otherwise (MIO_ECC_LOG_e)
  pois  : Bool      -- POISONED
  word  : Granule
  deriving DecidableEq, Repr

/-- Message bits of a code (R246). -/
def codeK (rep : Bool) : Nat := if rep then 260 else 268

/-- Check bits of a code (R246). -/
def codeR (rep : Bool) : Nat := if rep then 28 else 20

/-- Correction limit of a code (R246). -/
def codeT (rep : Bool) : Nat := if rep then 3 else 2

/-- Product of two polynomials over GF(2), bit i the coefficient of x^i; `n` bounds the degree of the first. -/
def polyMul (a b : Nat) : Nat → Nat
  | 0 => 0
  | n + 1 => (if Nat.testBit a n then b <<< n else 0) ^^^ polyMul a b n

/-- Remainder of `v` modulo the polynomial `g` of degree `d`, for a `v` of degree below `n + d`. -/
def polyMod (g d : Nat) : Nat → Nat → Nat
  | 0, v => v
  | n + 1, v => polyMod g d n (if Nat.testBit v (n + d) then v ^^^ (g <<< n) else v)

/-- The minimal polynomials of α, α^3 and α^5 over GF(2), α a root of x^9 + x^4 + 1 (R246). -/
def minPoly1 : Nat := 0x211
def minPoly3 : Nat := 0x259
def minPoly5 : Nat := 0x331

/-- Generator polynomial of a code (R246). -/
def codeGen (rep : Bool) : Nat :=
  if rep then polyMul 0b11 (polyMul minPoly1 (polyMul minPoly3 minPoly5 10) 10) 2
  else polyMul 0b101 (polyMul minPoly1 minPoly3 10) 3

/-- The check bits of a message (R247). -/
def checkBits (rep : Bool) (msg : Nat) : Nat :=
  polyMod (codeGen rep) (codeR rep) (codeK rep) ((msg % 2 ^ codeK rep) <<< codeR rep)

/-- Encode a message: its granule (R15, R247). -/
def encode (rep : Bool) (msg : Nat) : Granule :=
  BitVec.ofNat 288 (msg % 2 ^ codeK rep + (checkBits rep msg <<< codeK rep))

/-- A granule as its code-word polynomial (R247). -/
def codeWord (rep : Bool) (g : Granule) : Nat :=
  ((g.toNat % 2 ^ codeK rep) <<< codeR rep) + (g.toNat >>> codeK rep)

/-- The granule of a code-word polynomial. -/
def ofCodeWord (rep : Bool) (v : Nat) : Granule :=
  BitVec.ofNat 288 ((v >>> codeR rep) + ((v % 2 ^ codeR rep) <<< codeK rep))

/-- The syndrome: the code-word polynomial modulo the generator. -/
def syndrome (rep : Bool) (g : Granule) : Nat :=
  polyMod (codeGen rep) (codeR rep) (codeK rep) (codeWord rep g)

/-- Positions with the syndrome of a one-bit error at each, from position `p` with syndrome `r` on. -/
def errorTable (rep : Bool) : Nat → Nat → Nat → List (Nat × Nat)
  | 0, _, _ => []
  | n + 1, p, r =>
    (p, r) :: errorTable rep n (p + 1)
      (if Nat.testBit (r <<< 1) (codeR rep) then (r <<< 1) ^^^ codeGen rep else r <<< 1)

/-- An error of exactly `t` bits at listed positions whose syndrome is `s`. -/
def findError : List (Nat × Nat) → Nat → Nat → Option (List Nat)
  | [], t, s => if t = 0 ∧ s = 0 then some [] else none
  | (p, r) :: rest, t, s =>
    if t = 0 then (if s = 0 then some [] else none)
    else match findError rest (t - 1) (s ^^^ r) with
      | some l => some (p :: l)
      | none => findError rest t s

/-- The error of fewest bits, up to `n` bits more than `t`, whose syndrome is `s`. -/
def leastError (tab : List (Nat × Nat)) (s : Nat) : Nat → Nat → Option (List Nat)
  | 0, t => findError tab t s
  | n + 1, t => match findError tab t s with
    | some l => some l
    | none => leastError tab s n (t + 1)

/-- Flip listed code-word positions. -/
def flipBits (v : Nat) : List Nat → Nat
  | [] => v
  | p :: t => flipBits (v ^^^ (1 <<< p)) t

/-- Tag bits (R15). -/
def gPoison (g : Granule) : Bool := Nat.testBit g.toNat 256
def gFull (g : Granule) : Bool := Nat.testBit g.toNat 257
def gEpoch (g : Granule) : Nat := bits g.toNat 258 10
def gFormat (g : Granule) : Nat := bits g.toNat 257 3
/-- The 256 data bits (R15). -/
def gData (g : Granule) : Nat := g.toNat % 2 ^ 256
/-- Message bits above the data: the tags. -/
def gTags (rep : Bool) (g : Granule) : Nat := bits g.toNat 256 (codeK rep - 256)
/-- The message of a granule. -/
def gMsg (rep : Bool) (g : Granule) : Nat := g.toNat % 2 ^ codeK rep

/-- A working granule from its data and tags. -/
def mkWorking (data : Nat) (poison full : Bool) (epoch : Nat) : Granule :=
  encode false (data % 2 ^ 256 + (poison.toNat <<< 256) + (full.toNat <<< 257) + ((epoch % 1024) <<< 258))

/-- A repertory granule from its data and tags. -/
def mkRep (data : Nat) (poison : Bool) (fmt : Nat) : Granule :=
  encode true (data % 2 ^ 256 + (poison.toNat <<< 256) + ((fmt % 8) <<< 257))

/-- The fill granule of both codes: all bits zero, whose check bits are zero (R17). -/
def fillGranule : Granule := 0

/-- The poisoned granule that the block forms (R252). -/
def poisonGranule (rep : Bool) : Granule := if rep then mkRep 0 true 0 else mkWorking 0 true true 0

/-- A granule with its poison bit set, re-encoded. -/
def setPoison (rep : Bool) (g : Granule) : Granule := encode rep (gMsg rep g ||| (1 <<< 256))

/-- A working granule with another full/empty bit, re-encoded. -/
def setFull (full : Bool) (g : Granule) : Granule :=
  encode false (putBits (gMsg false g) 257 1 full.toNat)

/-- Decode a granule (R248): the error of fewest bits within the correction limit decides; a word for which there is
none is UNCORRECTABLE (log entry 5). -/
def decodeG (rep : Bool) (g : Granule) : Decoded :=
  if syndrome rep g = 0 then ⟨false, 0, 0x1FF, gPoison g, g⟩
  else match leastError (errorTable rep 288 0 1) (syndrome rep g) (codeT rep - 1) 1 with
    | some l =>
      let w := ofCodeWord rep (flipBits (codeWord rep g) l)
      ⟨false, l.length, if l.length = 1 then l.headD 0x1FF else 0x1FF, gPoison w, w⟩
    | none => ⟨true, 0, 0x1FF, false, poisonGranule rep⟩

end Sys2Proof.Machine
end

