-- ==== Sys2Proof/Machine/Ops.lean ====
section
/-! DEFINITION. The operations every meaning is built from: outcomes, writes to the banks, time, the raising of a fault source, free values. -/

namespace Sys2Proof.Machine

/-- The outcome of a meaning. -/
abbrev Out := Host.Outcome State Fault Refusal

/-- A write to bank rows: one row, the fill granule to `n` rows from `lo`, or `n` rows copied. -/
inductive BankOp where
  | put (key : Nat) (g : Granule)
  | clear (lo n : Nat)
  | copy (src dst n : Nat)
  deriving DecidableEq, Repr

/-- A meaning that touches no bank: it acts on the units if the command names units that exist. In tableau every storage
element keeps its value (R296). -/
def onUnit (ok : Bool) (s : State) (f : Ctl → Ctl) : Out :=
  if ok then .next { s with c := if s.c.clk.frozen then s.c else f s.c } else .fault .noSuchUnit

/-- A meaning of what keeps running in tableau: the stage door, the TAP, the root PLL, the reset and the supplies (R296, R297). -/
def onDoor (ok : Bool) (s : State) (f : Ctl → Ctl) : Out :=
  if ok then .next { s with c := f s.c } else .fault .noSuchUnit

/-- Remove the entries whose key lies in [lo, lo + n). -/
def clearRows (lo n : Nat) : Tab Granule → Tab Granule
  | [] => []
  | (k, g) :: t => if lo ≤ k ∧ k < lo + n then clearRows lo n t else (k, g) :: clearRows lo n t

/-- The entries whose key lies in [lo, lo + n). -/
def takeRows (lo n : Nat) : Tab Granule → Tab Granule
  | [] => []
  | (k, g) :: t => if lo ≤ k ∧ k < lo + n then (k, g) :: takeRows lo n t else takeRows lo n t

/-- Write listed rows. -/
def putRows : Tab Granule → Tab Granule → Tab Granule
  | [], b => b
  | (k, g) :: t, b => putRows t (Tab.set fillGranule b k g)

/-- One write to the banks. -/
def applyOp (b : Tab Granule) : BankOp → Tab Granule
  | .put k g => Tab.set fillGranule b k g
  | .clear lo n => clearRows lo n b
  | .copy src dst n => putRows ((takeRows src n b).map fun e => (e.1 - src + dst, e.2)) (clearRows dst n b)

/-- Writes to the banks in order. -/
def applyOps (b : Tab Granule) (l : List BankOp) : Tab Granule := l.foldl applyOp b

/-- A meaning that may write banks: `f` reads banks and units and answers the units after it and the writes. -/
def onBanks (ok : Bool) (s : State) (f : Tab Granule → Ctl → Ctl × List BankOp) : Out :=
  if ok then
    let r := if s.c.clk.frozen then (s.c, []) else f s.banks s.c
    .next { s with c := r.1, banks := applyOps s.banks r.2 }
  else .fault .noSuchUnit

/-- As `onBanks`, for what keeps running in tableau. -/
def onDoorBanks (ok : Bool) (s : State) (f : Tab Granule → Ctl → Ctl × List BankOp) : Out :=
  if ok then .next { s with c := (f s.banks s.c).1, banks := applyOps s.banks (f s.banks s.c).2 } else .fault .noSuchUnit

/-- The canonical form of the bank rows: keys rise strictly, and no listed row holds the fill granule. -/
def Memory.wf (b : Tab Granule) : Bool := Tab.ok fillGranule b

/-- A row as stored: an unlisted row holds the fill granule (R17, R261). -/
def rowAt (b : Tab Granule) (key : Nat) : Granule := Tab.get fillGranule b key

/-! ### Time (R13, R88) -/

def Ctl.bc (c : Ctl) : Nat := c.clk.bc
def Ctl.ec (c : Ctl) : Nat := c.clk.bc / 2
def Ctl.cc (c : Ctl) : Nat := c.clk.bc / 8
/-- bc since the clocks began to run: R88 counts from the first rise of sys_ready only, but cc edges pass before it (R344). -/
def Ctl.tbc (c : Ctl) : Nat := c.clk.bc + c.clk.pre
/-- cc since the clocks began to run. -/
def Ctl.tcc (c : Ctl) : Nat := c.tbc / 8
/-- Slot index of a bc (R88). -/
def slotOf (bc : Nat) : Nat := bc % 256
/-- Frame number of a bc (R88). -/
def frameOf (bc : Nat) : Nat := bc / 256 % 2 ^ 32

/-- The units that land packets run: sys_ready is 1, or a watch slice is under way (R36, R337). -/
def Ctl.active (c : Ctl) : Bool := c.sysReady || c.power.slice

/-- The port clamps are in force (R339, R340). -/
def Ctl.clamped (c : Ctl) : Bool := decide (c.fld oPwrMode pwrMode_CLAMPED = 1)

/-! ### Small updates -/

/-- Sequencer and port `n`. -/
def Ctl.seq (c : Ctl) (n : Nat) : Seq := Tab.get {} c.seqs n
def Ctl.setSeq (c : Ctl) (n : Nat) (q : Seq) : Ctl := { c with seqs := Tab.set {} c.seqs n q }
def Ctl.group (c : Ctl) (g : Nat) : Group := Tab.get {} c.groups g
def Ctl.setGroup (c : Ctl) (g : Nat) (x : Group) : Ctl := { c with groups := Tab.set {} c.groups g x }
def Ctl.ctx (c : Ctl) (x : Nat) : CtxRun := Tab.get {} c.ctxs x
def Ctl.setCtx (c : Ctl) (x : Nat) (r : CtxRun) : Ctl := { c with ctxs := Tab.set {} c.ctxs x r }
def Ctl.sport (c : Ctl) (n : Nat) : StackPort := Tab.get {} c.sports n
def Ctl.setSport (c : Ctl) (n : Nat) (p : StackPort) : Ctl := { c with sports := Tab.set {} c.sports n p }
def Ctl.sout (c : Ctl) (n : Nat) : StackOut := Tab.get {} c.sOut n
def Ctl.setSout (c : Ctl) (n : Nat) (p : StackOut) : Ctl := { c with sOut := Tab.set {} c.sOut n p }
def Ctl.link (c : Ctl) (n : Nat) : LinkPort := Tab.get {} c.links n
def Ctl.setLink (c : Ctl) (n : Nat) (p : LinkPort) : Ctl := { c with links := Tab.set {} c.links n p }
def Ctl.win (c : Ctl) (w : Nat) : WinRun := Tab.get {} c.wins w
def Ctl.setWin (c : Ctl) (w : Nat) (r : WinRun) : Ctl := { c with wins := Tab.set {} c.wins w r }
def Ctl.send (c : Ctl) (e : Nat) : SendRun := Tab.get {} c.sends e
def Ctl.setSend (c : Ctl) (e : Nat) (r : SendRun) : Ctl := { c with sends := Tab.set {} c.sends e r }
def Ctl.curtain (c : Ctl) (k : Nat) : Curtain := Tab.get {} c.curtains k
def Ctl.setCurtain (c : Ctl) (k : Nat) (x : Curtain) : Ctl := { c with curtains := Tab.set {} c.curtains k x }
def Ctl.arb (c : Ctl) (q : Nat) : Arbiter := Tab.get {} c.arbs q
def Ctl.setArb (c : Ctl) (q : Nat) (a : Arbiter) : Ctl := { c with arbs := Tab.set {} c.arbs q a }
def Ctl.oset (c : Ctl) (k : Nat) : OSet := Tab.get {} c.osets k
def Ctl.setOset (c : Ctl) (k : Nat) (o : OSet) : Ctl := { c with osets := Tab.set {} c.osets k o }
def Ctl.under (c : Ctl) (q : Nat) : Understudy := Tab.get {} c.unders q
def Ctl.setUnder (c : Ctl) (q : Nat) (u : Understudy) : Ctl := { c with unders := Tab.set {} c.unders q u }

/-- Apply a function for every number of a list. -/
def forAll (l : List Nat) (f : Nat → Ctl → Ctl) (c : Ctl) : Ctl := l.foldl (fun c i => f i c) c

/-- A difference modulo 2^32 below 2^31: `a` is at or ahead of `b` (R162). -/
def ahead (a b : Nat) : Bool := decide ((a + 2 ^ 32 - b % 2 ^ 32) % 2 ^ 32 < 2 ^ 31)

/-- Draw a free value: the constant of Config applied to the count of values drawn (log entry 4). -/
def Ctl.draw (c : Ctl) : BitVec 288 × Ctl := (Config.freeValue c.free, { c with free := c.free + 1 })

/-! ### Fault sources (R302 to R311) -/

/-- Whether the block is in safe state (R307), as MIO_FLT_STAT.BLACKOUT shows. -/
def Ctl.blackout (c : Ctl) : Bool := c.faults.black

/-- MIO_FLT_SRC_s.SEV: 0 OFF, 1 LOG, 2 ALERT, 3 FATAL. -/
def Ctl.sev (c : Ctl) (s : Nat) : Nat := c.fld (oFltSrc s) fltSrc_SEV

/-- Whether the held record of MIO_FLT_CAP was taken in the present cc. -/
def Ctl.capNow (c : Ctl) : Bool := decide (c.faults.capCc = c.tcc)

/-- Whether a raise of source `s` at severity `v` takes the place of the held record of the same cc (R310). -/
def Ctl.capBetter (c : Ctl) (s v : Nat) : Bool :=
  let v0 := c.fld oFltCap fltCap_SEV
  let s0 := c.fld oFltCap fltCap_SRC
  decide (v0 < v ∨ (v0 = v ∧ s < s0))

/-- The record of one raise in MIO_FLT_CAP (R310), keeping the W1C bits. -/
def Ctl.capture (c : Ctl) (s v unit : Nat) : Ctl :=
  let c := ({ c with faults := { c.faults with capCc := c.tcc } } : Ctl).setFld oFltCap fltCap_SRC s
  let c := c.setFld oFltCap fltCap_SEV v
  let c := c.setFld oFltCap fltCap_REACTED 0
  let c := c.setFld oFltCap fltCap_UNIT unit
  let c := c.flag oFltCap fltCap_VALID
  let c := c.setFld oFltCap fltCap_FRAME (frameOf (8 * c.cc))
  c.setFld oFltCap fltCap_SLOT (slotOf (8 * c.cc))

/-- Mark a further raise while a record is held (R310). -/
def Ctl.capOver (c : Ctl) (v : Nat) : Ctl :=
  let c := c.flag oFltCap fltCap_OVERFLOW
  if v = 3 then c.flag oFltCap fltCap_OVF_FATAL else c

/-- No order that waits belongs to the record of MIO_FLT_CAP any more. -/
def Ctl.uncap (c : Ctl) : Ctl :=
  { c with faults := { c.faults with orders := c.faults.orders.map fun (o : FaultOrder) => { o with cap := false } } }

/-- The capture of a raise at ALERT or FATAL in native mode, and whether this raise is the one recorded. -/
def Ctl.captureRaise (c : Ctl) (s v unit : Nat) : Ctl × Bool :=
  if c.fld oFltCap fltCap_VALID = 0 then (c.uncap.capture s v unit, true)
  else if c.capNow && c.capBetter s v then
    let old := c.fld oFltCap fltCap_SEV
    ((c.uncap.capOver old).capture s v unit, true)
  else (c.capOver v, false)

/-- A raise of source `s` for a unit (R304, R309 to R311): it is counted, takes the effects of its severity, and at FATAL
outside safe state orders its reaction. The decision is taken in the cc of the raise (log entry 7). -/
def Ctl.raise (c : Ctl) (s unit : Nat) : Ctl :=
  let v := c.sev s
  let c := c.satAdd (oFltCnt s) fltCnt_COUNT 1
  let compat := decide (c.fld oFltCfg fltCfg_CAP_MODE = 1)
  let c := if 1 ≤ v ∧ compat then (c.setReg oFltSticky (c.reg oFltSticky ||| (1#64 <<< s))).noteOnes oFltSticky (1#64 <<< s) else c
  if v < 2 then c
  else
    let c := c.flag oFltStat fltStat_ERR_LATCHED
    let r := if compat then (c, false) else c.captureRaise s v unit
    let c := r.1
    if v = 3 ∧ ¬ c.blackout then
      { c with faults := { c.faults with orders := c.faults.orders ++
          [{ src := s, unit := BitVec.ofNat 16 unit, cc := c.tcc, fence := decide (c.fld (oFltSrc s) fltSrc_REACT = 1), cap := r.2 }] } }
    else c

/-- A raise that falls in cc `x`: at once when that cc has come, else at its start (R94). -/
def Ctl.raiseAt (c : Ctl) (x s unit : Nat) : Ctl :=
  if x ≤ c.cc then c.raise s unit
  else { c with faults := { c.faults with due := c.faults.due ++ [{ cc := x, src := s, unit := unit }] } }

/-- The raises that have waited for the present cc. -/
def Ctl.raiseDue (c : Ctl) : Ctl :=
  (c.faults.due.filter fun d => decide (d.cc ≤ c.cc)).foldl (fun c d => c.raise d.src d.unit)
    { c with faults := { c.faults with due := c.faults.due.filter fun d => decide (c.cc < d.cc) } }

/-- UNIT of sources 9, 10 and 11 (14_fault_handling): cast group and sequencer. -/
def seqUnit (g n : Nat) : Nat := (g <<< 8) + n

end Sys2Proof.Machine
end

