-- ==== Sys2Proof/Machine/Geometry.lean ====
section
/-! DEFINITION. Addresses, banks, owners and quadrants (R7, R19 to R32), and the one operation through which a granule is committed to a bank. -/

namespace Sys2Proof.Machine

/-- Where a granule lies (R19, R24): region, slot, quadrant and cluster that the region map names, bank, row. -/
structure Place where
  region  : Nat
  slot    : Nat
  quad    : Nat
  cluster : Nat
  bank    : Nat
  row     : Nat
  deriving DecidableEq, Repr

/-- Region of a granule index (R19). -/
def giRegion (gi : Nat) : Nat := gi / 2 ^ 18 % 64

/-- The fold of a row (R24). -/
def foldRow (row : Nat) : Nat := (row ^^^ (row >>> 4) ^^^ (row >>> 8)) % 16

/-- SLOTj of MIO_REGION_r: quadrant in the high two bits, cluster index in the low six. -/
def Ctl.slotCluster (c : Ctl) (r j : Nat) : Nat := c.fld (oRegion r) ⟨0, 8 * j, 8⟩

/-- The place of a granule index (R24). -/
def Ctl.place (c : Ctl) (gi : Nat) : Place :=
  let r := giRegion gi
  let row := gi / 64 % 4096
  let cl := c.slotCluster r (gi % 4)
  { region := r, slot := gi % 4, quad := cl / 64, cluster := cl % 64, bank := (gi / 4 % 16) ^^^ foldRow row, row := row }

/-- Physical bank number (R24) of a bank of a cluster by name. -/
def bankNo (q cl b : Nat) : Nat := q * (16 * Config.cpq) + cl * 16 + b

/-- Physical bank number of a place. -/
def Place.pbank (p : Place) : Nat := bankNo p.quad p.cluster p.bank

/-- Key of a stored row: quadrant, cluster as built (64: the understudy), bank, row. -/
def rowKey (q cl b row : Nat) : Nat := ((q * 65 + cl) * 16 + b) * 4096 + row

/-- The cluster as built that carries a name: the understudy (64) if it has replaced the cluster (R269). -/
def Ctl.built (c : Ctl) (q cl : Nat) : Nat := if (c.under q).map = some cl then 64 else cl

/-- Key of the row where a place is stored. -/
def Ctl.keyOf (c : Ctl) (p : Place) : Nat := rowKey p.quad (c.built p.quad p.cluster) p.bank p.row

/-- Code kind of a region: true repertory. -/
def Ctl.regionRep (c : Ctl) (r : Nat) : Bool := decide (c.fld (oRegion r) region_CODE = 1)

/-- Code kind under which a granule index is decoded. -/
def Ctl.repOf (c : Ctl) (gi : Nat) : Bool := c.regionRep (giRegion gi)

/-- The address is in range (R20, R23) for traffic that uses regions with this USE. -/
def Ctl.inRange (c : Ctl) (use gi : Nat) : Bool :=
  let o := oRegion (giRegion gi)
  decide (gi < 2 ^ 24) && decide (c.fld o region_VALID = 1) && decide (c.fld o region_FENCED = 0)
    && decide (c.fld o region_BUSY = 0) && decide (c.fld o region_USE = use)

/-- OWNER entry of a bank: 0 NONE, 0x20 + g cast group g. -/
def Ctl.owner (c : Ctl) (pb : Nat) : Nat := c.fld (oBankOwn (pb / 8)) ⟨0, 8 * (pb % 8), 6⟩

/-- STRIKING entry of a bank. -/
def Ctl.striking (c : Ctl) (pb : Nat) : Bool := decide (c.fld (oBankOwn (pb / 8)) ⟨0, 8 * (pb % 8) + 6, 1⟩ = 1)

def Ctl.setOwner (c : Ctl) (pb o : Nat) : Ctl := c.setFld (oBankOwn (pb / 8)) ⟨0, 8 * (pb % 8), 6⟩ o

def Ctl.setStriking (c : Ctl) (pb : Nat) (b : Bool) : Ctl :=
  c.setFld (oBankOwn (pb / 8)) ⟨0, 8 * (pb % 8) + 6, 1⟩ b.toNat

/-- A march test runs on the built cluster (R266). -/
def Ctl.marching (c : Ctl) (q cl : Nat) : Bool :=
  c.marches.any fun m => decide (m.1 = q) && (if m.2.us then decide (cl = 64) else decide (cl = m.2.cluster))

/-- A bank whose kill is applied in the present cc: accesses of its group that were issued before the kill still complete in this cc (R315). -/
def Ctl.struckNow (c : Ctl) (pb : Nat) : Bool := c.strikes.any fun s => decide (s.cc = c.cc) && s.banks.contains pb

/-- Granule `gi` is in range, and its bank belongs to cast group `g` and is not under march test (R20, R25, R266). -/
def Ctl.ownedBy (c : Ctl) (g gi : Nat) : Bool :=
  let p := c.place gi
  c.inRange 0 gi && !c.marching p.quad (c.built p.quad p.cluster) && decide (c.owner p.pbank = 0x20 + g)

/-- Ownership check of a scheduled access of group `g` at granule `gi`, with the range check (R20, R25, R315). -/
def Ctl.ownsSched (c : Ctl) (g gi : Nat) : Bool :=
  let pb := (c.place gi).pbank
  c.ownedBy g gi && (!c.striking pb || c.struckNow pb)

/-- Ownership check of an asynchronous access (R25, R314): the owner matches, or a read under the repertory grant; at a striking bank
none passes. -/
def Ctl.ownsAsync (c : Ctl) (g gi : Nat) (write : Bool) : Bool :=
  let p := c.place gi
  !c.striking p.pbank &&
    (c.ownedBy g gi ||
      (!write && c.inRange 0 gi && !c.marching p.quad (c.built p.quad p.cluster)
        && c.repOf gi && decide (c.owner p.pbank = 0) && Nat.testBit (c.reg oRepGrant).toNat g))

/-- Range check of the reorder stage (USE 1) and the twin journal (USE 2): no owner is checked (R20, R25). -/
def Ctl.ownsUnit (c : Ctl) (use gi : Nat) : Bool :=
  let p := c.place gi
  c.inRange use gi && !c.striking p.pbank && !c.marching p.quad (c.built p.quad p.cluster)

/-! ### Ports and classes -/

/-- Quadrant of engine port n, in the order F0-F63, W0-W23, V0-V15 (R7). -/
def seqQuad (n : Nat) : Nat := if n < 64 then n / 16 else if n < 88 then (n - 64) / 6 else (n - 88) / 4

/-- Quadrant of stack port n (R7). -/
def sportQuad (n : Nat) : Nat := n / (Config.stackPorts / 4)

/-- Quadrant of link port n; the twin port is number 16 and attaches to Q0 (R7). -/
def linkQuad (n : Nat) : Nat := if n = 16 then 0 else n / (Config.linkPorts / 4)

/-- Class of a port quadrant and a bank quadrant (R30): 0 A, 1 B, 2 C. -/
def classOf (p b : Nat) : Nat := if p = b then 0 else if (p + 2) % 4 = b % 4 then 2 else 1

/-- Quadrant q is fenced (R34). -/
def Ctl.quadFenced (c : Ctl) (q : Nat) : Bool := Nat.testBit (c.fld oGeom geom_QUAD_FENCED) q

/-- The quadrant that the route between a port quadrant and a bank quadrant passes (R8): none on a direct segment; to the opposite
quadrant the next one clockwise, or the one before when that is fenced. Where both are fenced the manual names no route; the model
keeps the counter-clockwise one, with the same latency (DESIGN CHOICE, log entry 91). -/
def Ctl.route (c : Ctl) (p b : Nat) : Option Nat :=
  if classOf p b ≠ 2 then none
  else if c.quadFenced ((p + 1) % 4) then some ((p + 3) % 4)
  else some ((p + 1) % 4)

/-- The quadrant that an access of a port passes on its way to an opposite quadrant: the route is one for all its granules there. -/
def Ctl.routeOf (c : Ctl) (n : Nat) (gis : List Nat) : Option Nat :=
  if gis.any fun gi => decide (classOf (seqQuad n) (c.place gi).quad = 2) then c.route (seqQuad n) ((seqQuad n + 2) % 4) else none

/-- Whether engine port n has a read channel: feed and vector ports. -/
def hasRead (n : Nat) : Bool := decide (n < 64 ∨ 88 ≤ n)
/-- Whether engine port n has a write channel: write and vector ports. -/
def hasWrite (n : Nat) : Bool := decide (64 ≤ n)
/-- Whether engine port n is a vector port. -/
def isVector (n : Nat) : Bool := decide (88 ≤ n)

/-- Class of an access: the highest of its granules (R31). -/
def Ctl.accessClass (c : Ctl) (n : Nat) (gis : List Nat) : Nat :=
  gis.foldl (fun m gi => max m (classOf (seqQuad n) (c.place gi).quad)) 0

/-- Read latency of a class, from MIO_LAT_MAP (R32). -/
def Ctl.readLat (c : Ctl) (cls : Nat) : Nat := c.fld oLatMap ⟨0, 8 * cls, 8⟩
/-- Write-commit latency of a class, from MIO_LAT_MAP (R32). -/
def Ctl.writeLat (c : Ctl) (cls : Nat) : Nat := c.fld oLatMap ⟨0, 24 + 8 * cls, 8⟩

/-! ### Weight images that a bank write touches (R287) -/

/-- Whether granule `gi` lies in the bank extent of image k. -/
def Ctl.inImage (c : Ctl) (k gi : Nat) : Bool :=
  decide (c.fld (oWimg k) wimg_KIND = 0) && decide (c.fld (oWimg k) wimg_ADDR ≤ gi)
    && decide (gi < c.fld (oWimg k) wimg_ADDR + c.fld (oWimg k) wimg_LEN)

/-- A write into the extent of image k (R287); `staging` for a write of a context with DIGEST = 1. -/
def Ctl.wimgWritten (c : Ctl) (k : Nat) (staging : Bool) : Ctl :=
  let st := c.fld (oWimg k) wimg_STATE
  if st = 1 then
    let c : Ctl := { c with audit := { c.audit with wroteCc := Tab.put (c.cc + 1) k c.audit.wroteCc } }
    if staging then c else c.setFld (oWimg k) wimg_TAINTED 1
  else if st = 2 then { c with audit := { c.audit with dirty := c.audit.dirty ||| (1#8 <<< k) } }
  else if st = 3 then c.setFld (oWimg k) wimg_STATE 4
  else c

/-- A bank write to granule `gi` acts on every image whose extent holds it. -/
def Ctl.wimgTouch (c : Ctl) (gi : Nat) (staging : Bool) : Ctl :=
  forAll (List.range Config.wimgs) (fun k c => if c.inImage k gi then c.wimgWritten k staging else c) c

/-- The granule index stored at a row of a bank of slot j of region r (the inverse of R24). -/
def giAt (r j bank row : Nat) : Nat := r * 2 ^ 18 + row * 64 + ((bank ^^^ foldRow row) % 16) * 4 + j

/-- The region with VALID = 1 that names a cluster, with the slot. -/
def Ctl.regionOf (c : Ctl) (q cl : Nat) : Option (Nat × Nat) :=
  ((List.range 64).flatMap fun r => (List.range 4).map fun j => (r, j)).find? fun rj =>
    decide (c.fld (oRegion rj.1) region_VALID = 1) && decide (c.slotCluster rj.1 rj.2 = q * 64 + cl)

/-- Quadrant and cluster of a physical bank, by name. -/
def pbQuad (pb : Nat) : Nat := pb / (16 * Config.cpq)
def pbCluster (pb : Nat) : Nat := pb / 16 % Config.cpq

/-- Granule index stored at a row of a cluster by name: 2^27, which is none, where no valid region names the cluster. -/
def Ctl.giOf (c : Ctl) (q cl b row : Nat) : Nat := match c.regionOf q cl with | some r => giAt r.1 r.2 b row | none => 2 ^ 27

/-- Code kind of a cluster by name: working where no valid region names it (R261). -/
def Ctl.clusterRep (c : Ctl) (q cl : Nat) : Bool := match c.regionOf q cl with | some r => c.regionRep r.1 | none => false

/-- A fill of a whole bank acts on every image whose extent holds a granule of it. -/
def Ctl.wimgBankFilled (c : Ctl) (q cl bank : Nat) : Ctl :=
  match c.regionOf q cl with
  | none => c
  | some (r, j) => forAll (List.range Config.wimgs) (fun k c =>
      if decide (c.fld (oWimg k) wimg_LEN ≠ 0) && (List.range 4096).any (fun row => c.inImage k (giAt r j bank row)) then c.wimgWritten k false else c) c

/-! ### Write-back entries that a commit overtakes (R255) -/

/-- Discard write-backs of quadrant `q` whose key satisfies `p`, those that have not come to the queue yet among them, counted in CANCELS. -/
def Ctl.cancelWb (c : Ctl) (q : Nat) (p : Nat → Bool) : Ctl :=
  let l := Tab.get [] c.wbq q
  let new := Tab.get [] c.wbNew q
  let keep := fun (l : List WbEntry) => l.filter fun e => !p e.bank
  let gone := l.length + new.length - (keep l).length - (keep new).length
  let c := if gone = 0 then c else c.satAdd (oEccWb q) eccWb_CANCELS gone
  { c with wbq := Tab.set [] c.wbq q (keep l), wbNew := Tab.set [] c.wbNew q (keep new) }

/-- Discard the scrubber's pending write-backs of a built cluster whose key satisfies `p`. -/
def Ctl.cancelScrub (c : Ctl) (q cl : Nat) (p : Nat → Bool) : Ctl :=
  let i := q * 65 + cl
  let s : Scrub := Tab.get {} c.scrubs i
  let kept := s.writes.filter fun (w : Nat × (Nat × Nat × Granule)) => !p (rowKey q cl w.1 w.2.1)
  { c with scrubs := Tab.set {} c.scrubs i { s with writes := kept } }

/-- Who commits a write: a context with DIGEST = 1, a correction or scrub write-back, or anything else (R255, R287). -/
inductive Writer where
  | staging | service | other
  deriving DecidableEq, Repr

/-- Error injection at the next commit to a granule (R321): the stored word and the units with ARM clear. -/
def Ctl.inject (c : Ctl) (gi : Nat) (rep : Bool) (g : Granule) : Ctl × Granule :=
  if c.fld oInjBank injBank_ARM = 1 ∧ c.fld oInjBank injBank_GI = gi ∧ c.boot.factory then
    let ps := [injBank_POS0, injBank_POS1, injBank_POS2, injBank_POS3].map (c.fld oInjBank)
    (c.hwFld oInjBank injBank_ARM 0,
      ofCodeWord rep (flipBits (codeWord rep g) (ps.take (c.fld oInjBank injBank_NBITS + 1))))
  else (c, g)

/-- The writes that a commit to a row makes: while a MIGRATE copies the cluster, the understudy takes it too (R269). -/
def Ctl.putAt (c : Ctl) (key : Nat) (g : Granule) : List BankOp :=
  let q := key / 65536 / 65
  if (c.under q).copying = some (key / 65536 % 65) then [.put key g, .put (rowKey q 64 (key / 4096 % 16) (key % 4096)) g] else [.put key g]

/-- Commit a granule to its bank: the one way a row is written through its address. In safe state nothing commits
(R307). Queued write-backs of the granule are discarded (R255) and weight images are told (R287). -/
def Ctl.commit (c : Ctl) (who : Writer) (gi : Nat) (g : Granule) : Ctl × List BankOp :=
  if c.blackout then (c, [])
  else
    let p := c.place gi
    let key := c.keyOf p
    let i := c.inject gi (c.repOf gi) g
    let c := i.1
    let c := if who = .service then c
      else ((c.cancelWb p.quad fun k => k == key).cancelScrub p.quad (c.built p.quad p.cluster) fun k => k == key).wimgTouch gi
        (who == .staging)
    (c, c.putAt key i.2)

end Sys2Proof.Machine
end

