-- ==== Sys2Proof/Machine/EccPath.lean ====
section
/-! DEFINITION. What follows a decode at a check point: counting, the log table, the fault sources and the write-back queue (R253 to R258), and the read of a bank through the correction stage. -/

namespace Sys2Proof.Machine

/-- The site of a decode of granule `gi` at a port or write channel: the destination bank (R257). -/
def Ctl.portSite (c : Ctl) (cnt path req gi : Nat) : EccSite :=
  let p := c.place gi
  { cnt := cnt, path := path, req := req, us := decide (c.built p.quad p.cluster = 64), quad := p.quad, cluster := p.cluster, bank := p.bank, row := p.row }

/-- The site of a bank read of granule `gi` by `req`. -/
def Ctl.bankSite (c : Ctl) (path req gi : Nat) : EccSite :=
  let p := c.place gi
  { c.portSite p.quad path req gi with unit := p.quad * 64 + p.cluster }

/-- Location bits of a site as the log holds them: US, QUAD, CLUSTER, BANK, ROW. -/
def EccSite.loc (s : EccSite) : List Nat := [s.us.toNat, s.quad, s.cluster, s.bank, s.row]

/-- Whether log entry `e` is valid and matches PATH, location and KIND (R257). -/
def Ctl.logMatch (c : Ctl) (s : EccSite) (kind e : Nat) : Bool :=
  let o := oEccLog e
  decide (c.fld o eccLog_VALID = 1) && decide (c.fld o eccLog_KIND = kind) && decide (c.fld o eccLog_PATH = s.path)
    && decide ([c.fld o eccLog_US, c.fld o eccLog_QUAD, c.fld o eccLog_CLUSTER, c.fld o eccLog_BANK, c.fld o eccLog_ROW] = s.loc)

/-- Fill log entry `e` with a first event, whose access was in `bc`. -/
def Ctl.logFill (c : Ctl) (s : EccSite) (kind pos bc e : Nat) : Ctl :=
  let o := oEccLog e
  [(eccLog_KIND, kind), (eccLog_PATH, s.path), (eccLog_US, s.us.toNat), (eccLog_REQ, s.req), (eccLog_QUAD, s.quad),
    (eccLog_CLUSTER, s.cluster), (eccLog_BANK, s.bank), (eccLog_ROW, s.row), (eccLog_BITPOS, pos), (eccLog_FRAME, frameOf bc),
    (eccLog_HITS, 1)].foldl (fun c x => c.setFld o x.1 x.2) (c.flag o eccLog_VALID)

/-- One event goes into the log table (R257). -/
def Ctl.logInsert (c : Ctl) (d : LogDue) : Ctl :=
  match (List.range 64).find? (c.logMatch d.site d.kind) with
  | some e => c.satAdd (oEccLog e) eccLog_HITS 1
  | none => match (List.range 64).find? (fun e => decide (c.fld (oEccLog e) eccLog_VALID = 0)) with
    | some e => c.logFill d.site d.kind d.pos d.bc e
    | none => c.satAdd oEccLogctl eccLogctl_OVF 1

/-- bc from the access of a decode to its classification (R251): a bank read has passed the correction stage 7 bc later. -/
def EccSite.lag (s : EccSite) : Nat := if s.path = 0 ∨ s.path = 1 ∨ s.path = 6 then 7 else 0

/-- An event for the log table: it is inserted in the cc after its classification (R257, log entry 103). -/
def Ctl.logEvent (c : Ctl) (s : EccSite) (kind pos : Nat) : Ctl :=
  { c with logq := c.logq ++ [{ cc := (c.bc + s.lag) / 8 + 1, bc := c.bc, site := s, kind := kind, pos := pos }] }

/-- Events in the order in which they are inserted: ascending quadrant, then bank-access bc, then as they came. -/
def logOrder (d : LogDue) : List LogDue → List LogDue
  | [] => [d]
  | e :: t => if d.site.quad < e.site.quad ∨ (d.site.quad = e.site.quad ∧ d.bc < e.bc) then d :: e :: t else e :: logOrder d t

/-- The events of a cc come into the log table. -/
def Ctl.logNow (c : Ctl) : Ctl :=
  let now := (c.logq.filter fun d => decide (d.cc ≤ c.cc)).foldl (fun l d => logOrder d l) []
  now.foldl (fun c d => c.logInsert d) { c with logq := c.logq.filter fun d => decide (c.cc < d.cc) }

/-- Source 8, once in a lap, when the corrections of a quadrant have reached the threshold (R258). -/
def Ctl.lapRaise (c : Ctl) (q : Nat) : Ctl :=
  let t := c.fld oEccCfg eccCfg_CORR_THRESH
  if t ≠ 0 ∧ t ≤ Tab.get 0 c.lapCorr q ∧ q ∉ c.lapTold then ({ c with lapTold := q :: c.lapTold } : Ctl).raise 8 0 else c

/-- One more correction in the scrub lap of a quadrant (R258). -/
def Ctl.lapCorrected (c : Ctl) (q : Nat) : Ctl :=
  ({ c with lapCorr := Tab.set 0 c.lapCorr q (Tab.get 0 c.lapCorr q + 1) } : Ctl).lapRaise q

/-- Count, log and raise what one decode at a check point found (R253, R256 to R258). -/
def Ctl.eccRecord (c : Ctl) (s : EccSite) (d : Decoded) : Ctl :=
  let o := oEccCnt s.cnt
  let c := if d.fixed = 0 then c else
    let c := if d.fixed = 1 then c.satAdd o eccCnt_CORR1 1 else c.satAdd o eccCnt_CORRM 1
    let c := if s.cnt < 4 then c.lapCorrected s.cnt else c
    if d.fixed = 1 then (if c.fld oEccCfg eccCfg_LOG_CORR1 = 1 then c.logEvent s 1 d.pos else c) else c.logEvent s 2 0x1FF
  let c := if d.bad then ((c.satAdd o eccCnt_UNCORR 1).logEvent s 3 0x1FF).raise 7 s.unit else c
  if d.pois then (c.satAdd o eccCnt_POIS 1).logEvent s 4 0x1FF else c

/-- A write-back of quadrant `q`, which is queued 8 bc after the bank access (R254). -/
def Ctl.queueWb (c : Ctl) (q key gi : Nat) (w : Granule) (readBc : Nat) : Ctl :=
  { c with wbNew := Tab.set [] c.wbNew q (Tab.get [] c.wbNew q ++ [{ bank := key, gi := gi, granule := w, readBc := readBc, queueBc := readBc + 8 }]) }

/-- One write-back comes to its queue: a granule has one entry, and a full queue drops it (R254). -/
def Ctl.wbEnter (c : Ctl) (q : Nat) (e : WbEntry) : Ctl :=
  let l := Tab.get [] c.wbq q
  if l.any fun x => x.bank == e.bank then c
  else if 64 ≤ l.length then c.satAdd (oEccWb q) eccWb_DROPS 1
  else { c with wbq := Tab.set [] c.wbq q (l ++ [e]) }

/-- The write-backs whose bc has come. -/
def Ctl.wbNow (c : Ctl) : Ctl :=
  c.wbNew.foldl (fun c e =>
    (e.2.filter fun x => decide (x.queueBc ≤ c.bc)).foldl (fun c x => c.wbEnter e.1 x)
      { c with wbNew := Tab.set [] c.wbNew e.1 (e.2.filter fun x => decide (c.bc < x.queueBc)) }) c

/-- A read of granule `gi` through the correction stage, with its counting and its write-back (R250, R251, R254). -/
def Ctl.bankRead (c : Ctl) (b : Tab Granule) (path req gi readBc : Nat) : Ctl × Decoded :=
  let p := c.place gi
  let key := c.keyOf p
  let d := decodeG (c.repOf gi) (rowAt b key)
  let c := c.eccRecord (c.bankSite path req gi) d
  (if d.bad ∨ d.fixed ≠ 0 then c.queueWb p.quad key gi d.word readBc else c, d)

/-- The decode of a row of a cluster by name through the correction stage, counted and logged (R250, R251). -/
def Ctl.rowDecode (c : Ctl) (b : Tab Granule) (path req q cl bank row : Nat) : Ctl × Decoded :=
  let built := c.built q cl
  let d := decodeG (c.clusterRep q cl) (rowAt b (rowKey q built bank row))
  (c.eccRecord { cnt := q, path := path, req := req, us := decide (built = 64), quad := q, cluster := cl, bank := bank, row := row, unit := q * 64 + cl } d, d)

/-- As `rowDecode`, with its write-back (R254). -/
def Ctl.rowRead (c : Ctl) (b : Tab Granule) (path req q cl bank row : Nat) : Ctl × Decoded :=
  let r := c.rowDecode b path req q cl bank row
  (if r.2.bad ∨ r.2.fixed ≠ 0 then r.1.queueWb q (rowKey q (c.built q cl) bank row) (c.giOf q cl bank row) r.2.word c.bc else r.1, r.2)

/-- The site of a stack arrival on port n that has no destination bank: the manual gives the log no location, a free value. -/
def Ctl.freeSite (c : Ctl) (n : Nat) : Ctl × EccSite :=
  let v := c.draw
  let y := v.1.toNat
  (v.2, { cnt := 4, path := 2, req := n, us := Nat.testBit y 0, quad := bits y 1 2, cluster := bits y 3 6, bank := bits y 9 4, row := bits y 13 12 })

/-- The state after a decode at a port's check point: path 4 stack, 5 link or twin (R249). -/
def Ctl.portCheck (c : Ctl) (cnt path req gi : Nat) (rep : Bool) (g : Granule) : Ctl × Decoded :=
  let d := decodeG rep g
  (c.eccRecord (c.portSite cnt path req gi) d, d)

end Sys2Proof.Machine
end

