-- ==== Sys2Proof/Machine/Format.lean ====
section
/-! DEFINITION. Element formats, conversion, transposition and accumulation (R108 to R123), as pure functions on granules. -/

namespace Sys2Proof.Machine

/-- The exact value of an element: a sign (true negative) and m · 2^e. -/
inductive FVal where
  | nan
  | inf (neg : Bool)
  | num (neg : Bool) (m : Nat) (e : Int)
  deriving DecidableEq, Repr

/-- A floating-point layout: exponent bits, fraction bits, and whether the top exponent holds infinity and NaN (2),
only the all-ones NaN (1), or finite values (0). -/
structure FFmt where
  eb : Nat
  mb : Nat
  special : Nat
  deriving DecidableEq, Repr

def fp32 : FFmt := ⟨8, 23, 2⟩
def bf16 : FFmt := ⟨8, 7, 2⟩
def fp16 : FFmt := ⟨5, 10, 2⟩
def e4m3 : FFmt := ⟨4, 3, 1⟩
def e5m2 : FFmt := ⟨5, 2, 2⟩
def e3m2 : FFmt := ⟨3, 2, 0⟩
def e2m3 : FFmt := ⟨2, 3, 0⟩
def e2m1 : FFmt := ⟨2, 1, 0⟩

/-- Smallest normal exponent of a layout. -/
def FFmt.emin (f : FFmt) : Int := 2 - 2 ^ (f.eb - 1)

/-- The value that bits of a layout stand for (R112). -/
def FFmt.value (f : FFmt) (b : Nat) : FVal :=
  let neg := Nat.testBit b (f.eb + f.mb)
  let ex := bits b f.mb f.eb
  let fr := bits b 0 f.mb
  if f.special = 2 ∧ ex = 2 ^ f.eb - 1 then (if fr = 0 then .inf neg else .nan)
  else if f.special = 1 ∧ ex = 2 ^ f.eb - 1 ∧ fr = 2 ^ f.mb - 1 then .nan
  else if ex = 0 then .num neg fr (f.emin - f.mb)
  else .num neg (fr + 2 ^ f.mb) (f.emin - f.mb + (ex - 1 : Nat))

/-- The two's-complement value of `w` bits. -/
def sint (w b : Nat) : Int := if Nat.testBit b (w - 1) then (b % 2 ^ w : Int) - 2 ^ w else (b % 2 ^ w : Int)

/-- An integer times 2^e as a value. -/
def ofInt (i e : Int) : FVal := .num (decide (i < 0)) i.natAbs e

/-- m / 2^d rounded to nearest, ties to even. -/
def rne (m d : Nat) : Nat :=
  let q := m >>> d
  let r := m - (q <<< d)
  let half := if d = 0 then 1 else 2 ^ (d - 1)
  if d = 0 then m else if r > half ∨ (r = half ∧ q % 2 = 1) then q + 1 else q

/-- m · 2^e rounded to a multiple of 2^q, in units of 2^q. -/
def roundTo (m : Nat) (e q : Int) : Nat :=
  if q ≤ e then m <<< (e - q).toNat else rne m (q - e).toNat

/-- Magnitude bits of m · 2^e rounded once to a layout with round-to-nearest-even and an unbounded exponent: a number above
the largest finite magnitude of the layout means overflow (R117). -/
def FFmt.magnitude (f : FFmt) (m : Nat) (e : Int) : Nat :=
  if m = 0 then 0
  else
    let top : Int := e + m.log2
    let ex := if top < f.emin then f.emin else top
    roundTo m e (ex - f.mb) + ((ex - f.emin).toNat <<< f.mb)

/-- Delivered formats of R112. -/
inductive Dst where
  | bf16 | fp16 | e4m3 | int8 | fp32
  deriving DecidableEq, Repr

/-- DST field of OPARG; none for a reserved value. -/
def dstOf (b : Nat) : Option Dst :=
  if b = 0 then some .bf16 else if b = 1 then some .fp16 else if b = 2 then some .e4m3
  else if b = 3 then some .int8 else if b = 4 then some .fp32 else none

/-- w_out of a delivered format. -/
def Dst.width : Dst → Nat
  | .bf16 => 16 | .fp16 => 16 | .e4m3 => 8 | .int8 => 8 | .fp32 => 32

/-- Layout, NaN, infinity and largest finite magnitude of a delivered floating-point format (the table of R117).
FP8 E4M3 has no infinity and gives 0x7F for one. -/
def Dst.specials : Dst → FFmt × Nat × Nat × Nat
  | .fp32 => (Machine.fp32, 0x7FC00000, 0x7F800000, 0x7F7FFFFF)
  | .bf16 => (Machine.bf16, 0x7FC0, 0x7F80, 0x7F7F)
  | .fp16 => (Machine.fp16, 0x7E00, 0x7C00, 0x7BFF)
  | .e4m3 => (Machine.e4m3, 0x7F, 0x7F, 0x7E)
  | .int8 => (Machine.e4m3, 0, 0, 0)

/-- A sign above `w - 1` magnitude bits. -/
def signed (w : Nat) (neg : Bool) (mag : Nat) : Nat := mag + (neg.toNat <<< (w - 1))

/-- An integer clamped to [-128, 127], as eight bits. -/
def clamp8 (neg : Bool) (mag : Nat) : Nat :=
  if neg then (256 - min mag 128) % 256 else min mag 127

/-- One element converted (R117). -/
def convElem (d : Dst) (sat : Bool) (v : FVal) : Nat :=
  match d, v with
  | .int8, .nan => 0
  | .int8, .inf neg => if neg then 0x80 else 0x7F
  | .int8, .num neg m e => clamp8 neg (roundTo m e 0)
  | d, .nan => d.specials.2.1
  | d, .inf neg =>
    if sat then signed d.width neg d.specials.2.2.2
    else if d = .e4m3 then 0x7F else signed d.width neg d.specials.2.2.1
  | d, .num neg m e =>
    let mag := d.specials.1.magnitude m e
    if mag ≤ d.specials.2.2.2 then signed d.width neg mag
    else if sat then signed d.width neg d.specials.2.2.2
    else if d = .e4m3 then 0x7F else signed d.width neg d.specials.2.2.1

/-- w_in of a stored format (R112); 0 for a reserved value. -/
def srcWidth (src : Nat) : Nat :=
  if src = 0 then 32 else if src ≤ 2 then 16 else if src ≤ 5 then 8 else if src = 6 then 4
  else if src ≤ 8 then 8 else if src ≤ 0xA then 6 else if src = 0xB then 4 else if src = 0xC then 8 else 0

/-- Whether a stored format has block scales. -/
def srcMx (src : Nat) : Bool := decide (7 ≤ src ∧ src ≤ 0xC)

/-- Value of a stored element without its scale (R112). -/
def srcValue (src b : Nat) : FVal :=
  if src = 0 then fp32.value b else if src = 1 then bf16.value b else if src = 2 then fp16.value b
  else if src = 3 ∨ src = 7 then e4m3.value b else if src = 4 ∨ src = 8 then e5m2.value b
  else if src = 5 then ofInt (sint 8 b) 0 else if src = 6 then ofInt (sint 4 b) 0
  else if src = 9 then e3m2.value b else if src = 0xA then e2m3.value b else if src = 0xB then e2m1.value b
  else ofInt (sint 8 b) (-6)

/-- A value times the E8M0 scale X (R112). -/
def scaleBy (x : Nat) (v : FVal) : FVal :=
  if x = 0xFF then .nan
  else match v with
    | .num neg m e => .num neg m (e + x - 127)
    | v => v

/-- Group size in granules of an MX format (R114). -/
def mxGroup (src : Nat) : Nat := if src = 7 ∨ src = 8 ∨ src = 0xC then 32 else 16

/-- Block of element `e` of an access whose lane 0 is at group position `p0` and whose element lies at lane position `p`,
as element `k` of its granule (R114). -/
def mxBlock (src p0 p e k : Nat) : Nat :=
  if src = 7 ∨ src = 8 ∨ src = 0xC then p - 1
  else if src = 0xB then 2 * (p - 1) + k / 32
  else ((p0 - 1) / 3 * 128 + e) / 32

/-- Concatenation of data of granules, the first lowest. -/
def packData : List Nat → Nat
  | [] => 0
  | d :: t => d + (packData t <<< 256)

/-- Elements packed upwards, `w` bits each. -/
def packElems (w : Nat) : List Nat → Nat
  | [] => 0
  | e :: t => e % 2 ^ w + (packElems w t <<< w)

/-- Delivered element `e` of a conversion access: `data` holds the packed lanes, `pos` their group positions, `scale` the
scale granule's data (R113, R117). -/
def convAt (src : Nat) (d : Dst) (sat : Bool) (data : Nat) (pos : List Nat) (scale : Nat) (e : Nat) : Nat :=
  let w := srcWidth src
  let v := srcValue src (bits data (w * e) w)
  if srcMx src then
    let per := 256 / w
    let lane := if w = 6 then 0 else e / per
    let b := mxBlock src (pos.getD 0 0) (pos.getD lane 0) e (e % per)
    convElem d sat (scaleBy (bits scale (8 * b) 8) v)
  else convElem d sat v

/-- Data of delivered granule `k` of a conversion access (R113). -/
def convGranule (src : Nat) (d : Dst) (sat : Bool) (data : Nat) (pos : List Nat) (scale : Nat) (k : Nat) : Nat :=
  let n := 256 / d.width
  packElems d.width ((List.range n).map fun i => convAt src d sat data pos scale (n * k + i))

/-- The lanes that contribute an element to delivered granule `k`: first and last (R118). -/
def convLanes (src : Nat) (d : Dst) (k : Nat) : Nat × Nat :=
  let n := 256 / d.width
  (n * k * srcWidth src / 256, (n * (k + 1) * srcWidth src - 1) / 256)

/-- Delivered granules of an access of `lanes` lanes (R113). -/
def convD (src : Nat) (d : Dst) (lanes : Nat) : Nat := lanes * d.width / srcWidth src

/-- Whether R107 to R113 permit OPMODE 0x1 with these fields. -/
def convOk (src : Nat) (dst : Nat) (lanes : Nat) : Bool :=
  match dstOf dst with
  | none => false
  | some d =>
    srcWidth src ≠ 0 && lanes * d.width % srcWidth src = 0 && decide (1 ≤ convD src d lanes ∧ convD src d lanes ≤ 8)
      && (if src = 9 ∨ src = 0xA then decide (lanes = 3 ∨ lanes = 6) else true)

/-- Whether R110 permits OPMODE 0x3 with these fields. -/
def transConvOk (src dst : Nat) : Bool :=
  match dstOf dst with
  | none => false
  | some d => decide (src ≤ 5) && decide (d.width ≤ srcWidth src)

/-- The access condition of R115 on the granule indices of the element lanes. -/
def mxLanesOk (src : Nat) (gis : List Nat) : Bool :=
  let g := mxGroup src
  let g0 := gis.headD 0
  gis.all (fun x => decide (x / g = g0 / g) && decide (x % g ≠ 0)) &&
    (if src = 9 ∨ src = 0xA then
      decide (g0 % g % 3 = 1) && decide (gis = (List.range gis.length).map (fun i => g0 + i))
     else true)

/-- Whether the stored-format code of a repertory granule is accepted for SRC (R119). -/
def fmtOk (src : Nat) (scale : Bool) (code : Nat) : Bool :=
  code = 0 || (if scale then code = 1
    else (code = 2 && (src = 7 || src = 8)) || (code = 3 && (src = 9 || src = 0xA)) || (code = 4 && src = 0xB)
      || (code = 5 && src = 0xC) || (code = 6 && (src = 3 || src = 4 || src = 5)) || (code = 7 && src = 6))

/-! ### Transposition -/

/-- Data of output granule `j` of a tile of 32 rows with elements of `esize` bytes (R109). -/
def transGranule (esize : Nat) (rows : List Nat) (j : Nat) : Nat :=
  let n := 32 / esize
  packElems (8 * esize) ((List.range n).map fun i =>
    bits (rows.getD ((j % esize) * n + i) 0) (8 * esize * (j / esize)) (8 * esize))

/-- The rows of output granule `j` (R109). -/
def transRows (esize j : Nat) : List Nat := (List.range (32 / esize)).map fun i => (j % esize) * (32 / esize) + i

/-! ### Accumulation -/

/-- Sum of two FP32 words (R121). -/
def fp32Add (a b : Nat) : Nat :=
  match fp32.value a, fp32.value b with
  | .nan, _ => 0x7FC00000
  | _, .nan => 0x7FC00000
  | .inf s, .inf t => if s = t then signed 32 s 0x7F800000 else 0x7FC00000
  | .inf s, .num _ _ _ => signed 32 s 0x7F800000
  | .num _ _ _, .inf t => signed 32 t 0x7F800000
  | .num s m e, .num t n f =>
    let q := if e ≤ f then e else f
    let x : Int := (if s then -(m : Int) else m) * 2 ^ (e - q).toNat + (if t then -(n : Int) else n) * 2 ^ (f - q).toNat
    if x = 0 then (if s ∧ t then 0x80000000 else 0)
    else
      let mag := fp32.magnitude x.natAbs q
      signed 32 (decide (x < 0)) (if mag ≤ 0x7F7FFFFF then mag else 0x7F800000)

/-- INT32 sum clamped to the range (R121). -/
def satAdd32 (a b : Nat) : Nat :=
  let x := sint 32 a + sint 32 b
  let y := if x < -(2 ^ 31) then -(2 ^ 31) else if x > 2 ^ 31 - 1 then 2 ^ 31 - 1 else x
  (y % 2 ^ 32).toNat

/-- One element of an accumulation: ACC_TYPE, target, contribution (R120, R121). -/
def accElem (acc t x : Nat) : Nat :=
  if acc = 0 then (t + x) % 2 ^ 32
  else if acc = 1 then satAdd32 t x
  else if acc = 2 then fp32Add t x
  else fp32Add t (x / 2 ^ 16 * 2 ^ 16)

/-- Data of a granule after a contribution: eight elements of 32 bits (R120). -/
def accData (acc t x : Nat) : Nat :=
  packElems 32 ((List.range 8).map fun w => accElem acc (bits t (32 * w) 32) (bits x (32 * w) 32))

/-- A contribution on its own, as the accumulator of a gather takes the first of a bag (R127): a BF16 contribution is
widened (log entry 6). -/
def accFirst (acc x : Nat) : Nat :=
  if acc = 3 then packElems 32 ((List.range 8).map fun w => bits x (32 * w) 32 / 2 ^ 16 * 2 ^ 16) else x % 2 ^ 256

/-- One step of an accumulation (R122): the target as the correction stage gives it, the contributions of the step in
order, and whether one of them is at fault. The result keeps the target's other tags. -/
def accStep (rep : Bool) (acc : Nat) (target : Granule) (contribs : List Granule) (fault : Bool) : Granule :=
  if gPoison target || fault then setPoison rep target
  else encode rep ((gTags rep target <<< 256) + contribs.foldl (fun t x => accData acc t (gData x)) (gData target))

end Sys2Proof.Machine
end

