-- ==== Sys2Proof/Machine/Operands.lean ====
section
/-! DEFINITION. The operand forms of the cue words (R66 to R71, R79): their fields, the conditions under which a word traps, and the address generators. A cue word is a number of 128 bits. -/

namespace Sys2Proof.Machine

/-- Opcode of a cue word (R66). -/
def wOp (w : Nat) : Nat := bits w 0 4
/-- SET: generator, part. -/
def wAg (w : Nat) : Nat := bits w 4 2
def wPart (w : Nat) : Nat := bits w 6 2
/-- SET BASE part, FLUSH and ACQUIRE: first granule index. -/
def wBase (w : Nat) : Nat := bits w 8 27
/-- SET BASE part: granules per access. -/
def wLanes (w : Nat) : Nat := bits w 35 3 + 1
def wOpmode (w : Nat) : Nat := bits w 40 4
def wOparg (w : Nat) : Nat := bits w 48 16
/-- RUN: channels, RESTART, access count, gap. -/
def wCh (w : Nat) : Nat := bits w 4 2
def wRestart (w : Nat) : Bool := decide (bits w 6 1 = 1)
def wN (w : Nat) : Nat := bits w 8 24 + 1
def wGap (w : Nat) : Nat := bits w 32 4
/-- SIG and WAIT: kind, scope, target, value, mode. -/
def wKind (w : Nat) : Nat := bits w 4 2
def wScope (w : Nat) : Nat := bits w 6 2
def wTarget (w : Nat) : Nat := bits w 8 16
def wValue (w : Nat) : Nat := bits w 24 32
def wMode (w : Nat) : Nat := bits w 56 2
/-- SCENE: number and INC. -/
def wSceneNo (w : Nat) : Nat := bits w 8 32
def wInc (w : Nat) : Bool := decide (bits w 40 1 = 1)
/-- FLUSH and ACQUIRE: count minus 1. -/
def wLen (w : Nat) : Nat := bits w 35 20
/-- LOOP: body field and trips field, both minus 1. -/
def wBody (w : Nat) : Nat := bits w 8 6
def wTrips (w : Nat) : Nat := bits w 16 24
/-- JUMP destination. -/
def wDest (w : Nat) : Nat := bits w 8 16
/-- DELAY length in ec. -/
def wDelay (w : Nat) : Nat := bits w 8 32 + 1

/-- SRC, DST and SAT of OPARG (R107). -/
def argSrc (a : Nat) : Nat := bits a 0 4
def argDst (a : Nat) : Nat := bits a 4 3
def argSat (a : Nat) : Bool := decide (bits a 7 1 = 1)
/-- ESIZE of OPARG in bytes. -/
def argEsize (a : Nat) : Nat := 2 ^ bits a 0 2
/-- NROW + 1, ROWTYPE and BAG + 1 of OPARG. -/
def argNrow (a : Nat) : Nat := bits a 0 6 + 1
def argRowtype (a : Nat) : Nat := bits a 6 2
def argBag (a : Nat) : Nat := bits a 8 8 + 1

/-- No bit of `w` outside the listed bit ranges (first, width) is set. -/
def onlyBits (w : Nat) : List (Nat × Nat) → Bool
  | [] => decide (w = 0)
  | (lo, n) :: t => onlyBits (putBits w lo n 0) t

/-- Whether OPARG and LANES are permitted for OPMODE (R107, R108, R110, R113). -/
def opargOk (mode arg lanes : Nat) : Bool :=
  if mode = 0 then decide (arg = 0)
  else if mode = 1 then decide (arg < 256) && convOk (argSrc arg) (argDst arg) lanes
  else if mode = 2 then decide (arg < 3) && decide (lanes = 8)
  else if mode = 3 then decide (arg < 256) && decide (lanes = 8) && transConvOk (argSrc arg) (argDst arg)
  else if mode = 4 then decide (arg < 4)
  else decide (mode = 5)

/-- The bits of a word and its field values are not reserved (R66), the generators aside. -/
def reservedOk (w : Nat) : Bool :=
  let op := wOp w
  if op = 1 then
    decide (wAg w < 2) && decide (wPart w < 3) &&
      (if wPart w = 0 then onlyBits w [(0, 8), (8, 27), (35, 3), (40, 4), (48, 16)]
          && decide (wOpmode w < 6) && opargOk (wOpmode w) (wOparg w) (wLanes w)
       else onlyBits w [(0, 8), (8, 16), (24, 28), (52, 16), (68, 28)])
  else if op = 2 then onlyBits w [(0, 7), (8, 24), (32, 4)] && decide (wCh w ≠ 0)
  else if op = 3 then
    onlyBits w [(0, 56)] && decide (wKind w ≠ 3) && (if wKind w = 2 then decide (wScope w = 0) else true)
      && (if wKind w = 0 then true else decide (wValue w = 0))
  else if op = 4 then
    onlyBits w [(0, 58)] && decide (wKind w < 2) && (if wKind w = 0 then decide (wMode w < 2) else decide (wMode w = 0 ∧ wValue w = 0))
  else if op = 5 then onlyBits w [(0, 4), (8, 32), (40, 1)] && (if wInc w then decide (wSceneNo w = 0) else true)
  else if op = 6 ∨ op = 7 then onlyBits w [(0, 4), (8, 27), (35, 20)]
  else if op = 8 then onlyBits w [(0, 4), (8, 6), (16, 24)] && decide (wBody w < 48)
  else if op = 9 then onlyBits w [(0, 4), (8, 16)]
  else if op = 0xA then onlyBits w [(0, 4), (8, 32)]
  else onlyBits w [(0, 4)]

/-- Largest TARGET of a kind plus 1: counter, curtain, stream context (R66). -/
def targetLimit (kind : Nat) : Nat := if kind = 0 then Config.counters else if kind = 1 then Config.curtains else Config.contexts

/-- The generator of the read channel and of the write channel (R68). -/
def Seq.readAg (q : Seq) : AddrGen := q.ag0
def Seq.writeAg (q : Seq) (n : Nat) : AddrGen := if isVector n then q.ag1 else q.ag0

/-- A RUN is a gather (R68): both channels of a vector port with AG1 in gather mode. -/
def Seq.isGather (q : Seq) (n w : Nat) : Bool := isVector n && decide (wCh w = 3) && decide (q.ag1.opmode.toNat = 5)

/-- The RUN uses the read channel's accesses from AG0 / the write channel's accesses. -/
def Seq.runReads (q : Seq) (n w : Nat) : Bool := decide (wCh w % 2 = 1) && !q.isGather n w
def runWrites (w : Nat) : Bool := decide (2 ≤ wCh w)

/-- The generators of a RUN break the conditions of R108, R125 or R126 (cause RESERVED). -/
def Seq.runReserved (q : Seq) (n w : Nat) : Bool :=
  let transposed := fun (a : AddrGen) => decide (a.opmode.toNat = 2 ∨ a.opmode.toNat = 3)
  let uses := (q.runReads n w && hasRead n && transposed q.readAg)
    || (runWrites w && !q.isGather n w && hasWrite n && transposed (q.writeAg n))
  let bad108 := uses && (decide (wGap w ≠ 0) || decide (wN w % 4 ≠ 0))
  let g := q.ag1
  let badG := q.isGather n w &&
    (decide (wN w * g.lanes * 8 % argBag g.oparg.toNat ≠ 0) || decide (wGap w + 1 > 8 * g.lanes * argNrow g.oparg.toNat))
  bad108 || badG

/-- The word needs a channel or generator that the port does not have (R79, PORT_MISMATCH). -/
def Seq.portMismatch (q : Seq) (n w : Nat) : Bool :=
  let op := wOp w
  if op = 1 then decide (wAg w = 1) && !isVector n
  else if op = 2 then
    (decide (wCh w = 3) && !isVector n) || (decide (wCh w = 2) && !hasWrite n) || (decide (wCh w = 1) && !hasRead n)
      || (q.runReads n w && decide (3 < q.ag0.opmode.toNat))
      || (runWrites w && !q.isGather n w && !(decide ((q.writeAg n).opmode.toNat = 0) || decide ((q.writeAg n).opmode.toNat = 4)))
  else if op = 6 then !hasWrite n
  else if op = 7 then !hasRead n
  else false

/-- The word breaks the loop rules of R71 (LOOP_SHAPE). -/
def Seq.loopShape (q : Seq) (pc w : Nat) : Bool :=
  let op := wOp w
  if op = 8 then
    decide (65535 < pc + wBody w + 1) || decide (4 ≤ q.loops.length) ||
      (match q.loops with | [] => false | l :: _ => decide (l.last < pc + wBody w + 1))
  else if op = 9 ∨ op = 0xB then !q.loops.isEmpty
  else false

/-- TARGET, or the range of a FLUSH or ACQUIRE, is out of range (RANGE). -/
def rangeBad (w : Nat) : Bool :=
  let op := wOp w
  if op = 3 ∨ op = 4 then decide (targetLimit (wKind w) ≤ wTarget w)
  else if op = 6 ∨ op = 7 then decide (0x7FFFFFF < wBase w + wLen w)
  else false

/-- The cause for which a word traps, 0 for none (R79). `head`: the word is evaluated as part of a head. -/
def Seq.trapCause (q : Seq) (n pc w : Nat) (poisoned head : Bool) : Nat :=
  let op := wOp w
  if poisoned then 4
  else if op = 0 ∨ 0xC ≤ op then 1
  else if !reservedOk w || (decide (op = 2) && q.runReserved n w) then 2
  else if q.portMismatch n w then 3
  else if op = 4 ∧ ¬ head then 5
  else if q.loopShape pc w then 6
  else if rangeBad w then 7
  else if op = 3 ∧ 32 ≤ q.releases.length then 0xA
  else 0

/-! ### Address generators (R70) -/

/-- One step of the position, innermost dimension first. -/
def stepIdx : List Nat → List Nat → List Nat
  | i :: is, n :: ns => if i + 1 < n then (i + 1) :: is else 0 :: stepIdx is ns
  | is, _ => is

/-- The granule index at the present position, modulo 2^27. -/
def AddrGen.at_ (a : AddrGen) : Nat :=
  let off : Int := (List.zipWith (fun (i : Nat) (s : Int) => (i : Int) * s) a.idx a.stride).foldl (fun x y => x + y) 0
  (((a.base.toNat : Int) + off) % 2 ^ 27).toNat

/-- Granule indices of `k` lanes, and the generator after them. -/
def AddrGen.take : Nat → AddrGen → List Nat × AddrGen
  | 0, a => ([], a)
  | k + 1, a =>
    let r := AddrGen.take k { a with idx := stepIdx a.idx a.count }
    (a.at_ :: r.1, r.2)

/-- One access: LANES granules (R70). -/
def AddrGen.access (a : AddrGen) : List Nat × AddrGen := AddrGen.take a.lanes a

/-- The position at the origin. -/
def AddrGen.restart (a : AddrGen) : AddrGen := { a with idx := [0, 0, 0, 0] }

/-- SET (R66): the generator after one part is loaded; its position returns to 0. -/
def AddrGen.load (a : AddrGen) (w : Nat) : AddrGen :=
  let a := a.restart
  if wPart w = 0 then
    { a with base := BitVec.ofNat 27 (wBase w), lanes := wLanes w, opmode := BitVec.ofNat 4 (wOpmode w), oparg := BitVec.ofNat 16 (wOparg w) }
  else
    let c0 := bits w 8 16 + 1
    let s0 := sint 28 (bits w 24 28)
    let c1 := bits w 52 16 + 1
    let s1 := sint 28 (bits w 68 28)
    if wPart w = 1 then
      { a with count := c0 :: c1 :: a.count.drop 2, stride := s0 :: s1 :: a.stride.drop 2 }
    else
      { a with count := a.count.take 2 ++ [c0, c1], stride := a.stride.take 2 ++ [s0, s1] }

/-! ### Control flow (R71) -/

/-- The word index after `pc` and the loop stack, innermost first; the index past the half is 65,536. -/
def nextPc (pc : Nat) : List LoopEntry → Nat × List LoopEntry
  | [] => (pc + 1, [])
  | l :: t =>
    if pc = l.last then
      if 0 < l.left then (l.first, { l with left := l.left - 1 } :: t) else nextPc pc t
    else (pc + 1, l :: t)

end Sys2Proof.Machine
end

