-- ==== Sys2Proof/Machine/Sheet.lean ====
section
/-! DEFINITION. The cue sheet and its commands (R88 to R99). -/

namespace Sys2Proof.Machine

/-- Offset of word w of slot s of copy a (0 shadow, 1 active) of quadrant q. -/
def csOff (q a s w : Nat) : Nat := 0xB0000 + 0x2000 * q + 0x1000 * a + 16 * s + 8 * w

/-- Class of a cluster in a slot of a copy: 0 scheduled, 1 stream, 2 link/twin, 3 service (R89). -/
def Ctl.sheet (c : Ctl) (q a s cl : Nat) : Nat := bits (c.reg (csOff q a s (cl / 32))).toNat (2 * (cl % 32)) 2

/-- Whether group `g` owns a bank in quadrant `q`. -/
def Ctl.groupOwnsIn (c : Ctl) (g q : Nat) : Bool :=
  c.regs.any fun e => decide (0x41000 + 512 * q ≤ e.1 ∧ e.1 < 0x41000 + 512 * (q + 1)) &&
    (List.range 8).any fun j => decide (bits e.2.toNat (8 * j) 6 = 0x20 + g)

/-- Cast group of sequencer `n` (R65). -/
def Ctl.groupOf (c : Ctl) (n : Nat) : Nat := c.fld (oSeqCfg n) seqCfg_GROUP

/-- The sequencers of group `g`. -/
def Ctl.members (c : Ctl) (g : Nat) : List Nat := (List.range Config.seqs).filter fun n => decide (c.groupOf n = g)

/-- Whether group `g` owns a bank in quadrant `q` or has a sequencer attached to it (R98). -/
def Ctl.groupUses (c : Ctl) (g q : Nat) : Bool :=
  c.groupOwnsIn g q || (c.members g).any fun n => decide (seqQuad n = q)

/-- A scene of group `g` is running or its start is decided (R84, R98). -/
def Ctl.groupBusy (c : Ctl) (g : Nat) : Bool :=
  (c.group g).decided.isSome || (c.members g).any fun n => decide ((c.seq n).inScene = true)

/-- All 16 banks of a cluster are STRIKING or NONE, with one STRIKING, and the strike of the cluster has begun (R91, R316). -/
def Ctl.strikeTakes (c : Ctl) (q cl : Nat) : Bool :=
  c.fills.any (fun e => decide (e.1 / 16 = q * Config.cpq + cl) && match e.2 with | some x => x.strike | none => false) &&
    (List.range 16).any (fun b => c.striking (bankNo q cl b)) &&
    (List.range 16).all (fun b => c.striking (bankNo q cl b) || decide (c.owner (bankNo q cl b) = 0))

/-- Whether a pending swap governs quadrant `q` at `bc` although it has not been carried out yet (R97). -/
def Ctl.swapGoverns (c : Ctl) (q bc : Nat) : Bool :=
  match c.swap, c.swapCc with
  | some (f, m), none => Nat.testBit m.toNat q && ahead (frameOf bc) f.toNat
  | _, _ => false

/-- The class of a cluster, by name, in a bc (R89, R91, R99, R266). -/
def Ctl.classAt (c : Ctl) (q cl bc : Nat) : Nat :=
  if c.strikeTakes q cl || c.marching q (c.built q cl) then 3
  else c.sheet q (if c.swapGoverns q bc then 0 else 1) (slotOf bc) cl

/-- Whether a copy breaks R90: some built cluster that is not fenced has no service slot. -/
def Ctl.noService (c : Ctl) (q a : Nat) : Bool :=
  (List.range Config.cpq).any fun cl =>
    !(c.fenced.any fun k => k == q * 65 + cl) && (List.range 256).all fun s => decide (c.sheet q a s cl ≠ 3)

/-! ### Status of commands on the sheets -/

/-- Record the outcome of a command: 0 OK, 1 LATE, 2 PENDING, 3 NO_SERVICE, 4 NOT_HELD (MIO_CS_STAT). -/
def Ctl.csStatus (c : Ctl) (st : Nat) : Ctl :=
  let c := c.setFld oCsStat csStat_STATUS st
  if st = 0 then c else c.flag oCsStat csStat_REFUSED

/-- A swap that covers quadrant `q` is pending: also in the whole cc that contains the first bc of its frame (R96, R97). -/
def Ctl.swapPending (c : Ctl) (q : Nat) : Bool :=
  match c.swap with
  | some (_, m) => Nat.testBit m.toNat q
  | none => false

/-- The bits of a word that a write enables (R64, R370): both halves, one, or none. -/
def beMask (be : BitVec 2) : Word :=
  (if be.getLsbD 0 then 0xFFFFFFFF else 0) ||| (if be.getLsbD 1 then 0xFFFFFFFF00000000 else 0)

/-- A word after a write of the enabled halves. -/
def merge (old : Word) (be : BitVec 2) (data : Word) : Word := (old &&& ~~~ beMask be) ||| (data &&& beMask be)

/-- A write of the shadow copy (R96). Words w = 1 hold no built cluster in this configuration and read 0. -/
def Ctl.csShadow (c : Ctl) (q s w : Nat) (be : BitVec 2) (data : Word) : Ctl :=
  if w ≠ 0 then c
  else if c.swapPending q then c.csStatus 2
  else (c.csStatus 0).setReg (csOff q 0 s 0) (merge (c.reg (csOff q 0 s 0)) be data)

/-- A word whose bits of `m` are replaced. -/
def mix (old m v : Word) : Word := (old &&& ~~~ m) ||| (v &&& m)

/-- The value that a register has, or takes at the next cc. -/
def Ctl.regNext (c : Ctl) (off : Nat) : Word := (c.later.filter fun l => decide (l.1 = off)).foldl (fun v l => mix v l.2.1 l.2.2) (c.reg off)

/-- Bits `m` of a value that govern from the first bc of the next cc. -/
def Ctl.setLater (c : Ctl) (off : Nat) (m v : Word) : Ctl := { c with later := c.later ++ [(off, m, v)] }

/-- The register bits of the cc that has ended come into force. -/
def Ctl.laterNow (c : Ctl) : Ctl := c.later.foldl (fun c l => c.setReg l.1 (mix (c.reg l.1) l.2.1 l.2.2)) { c with later := [] }

/-- HOLD of a quadrant is 1, and no group that uses it runs a scene or has a start decided (R98). -/
def Ctl.csIdle (c : Ctl) (q : Nat) : Bool :=
  Nat.testBit (c.fld oCsCtrl ⟨0, 0, 4⟩) q && (List.range Config.groups).all fun g => !c.groupBusy g || !c.groupUses g q

/-- A quadrant is held (R98, MIO_CS_STAT.HELD): it has become held, and nothing has come to run in it since. Before sys_ready no HOLD
is asked for (R351). -/
def Ctl.csHeldNow (c : Ctl) (q : Nat) : Bool := Nat.testBit (c.fld oCsStat csStat_HELD) q && (!c.sysReady || c.csIdle q)

/-- A write of the active copy (R98): it governs from the first bc of the next cc. -/
def Ctl.csActive (c : Ctl) (q s w : Nat) (be : BitVec 2) (data : Word) : Ctl :=
  if w ≠ 0 then c
  else if c.csHeldNow q then
    let c' := c.setLater (csOff q 1 s 0) (beMask be) data
    if c'.laterNow.noService q 1 then c.csStatus 3 else c'.csStatus 0
  else c.csStatus 4

/-- COPY of the quadrants of a mask (R96): a refused quadrant leaves PENDING standing (log entry 8). -/
def Ctl.csCopy (c : Ctl) (mask : Nat) : Ctl :=
  let qs := (List.range 4).filter (Nat.testBit mask)
  let c := if qs.any c.swapPending then c.csStatus 2 else if qs.isEmpty then c else c.csStatus 0
  forAll qs (fun q c => if c.swapPending q then c else
    forAll (List.range 256) (fun s c => c.setReg (csOff q 0 s 0) (c.reg (csOff q 1 s 0))) c) c

/-- A write of MIO_CS_SWAP (R97). -/
def Ctl.csSwapWrite (c : Ctl) (be : BitVec 2) (data : Word) : Ctl :=
  if be ≠ 3 then c
  else
    let f := bits data.toNat 0 32
    let m := bits data.toNat 32 4
    let d := (f + 2 ^ 32 - frameOf c.bc) % 2 ^ 32
    if c.swap.isSome then c.csStatus 2
    else if d < 2 ∨ 2 ^ 31 ≤ d then c.csStatus 1
    else if (List.range 4).any (fun q => Nat.testBit m q && c.noService q 0) then c.csStatus 3
    else
      let c := (c.csStatus 0).setFld oCsStat csStat_SWAP_FRAME f
      if m = 0 then c else { c with swap := some (BitVec.ofNat 32 f, BitVec.ofNat 4 m), swapCc := none }

/-- Exchange the copies of one quadrant (R97). -/
def Ctl.csExchange (c : Ctl) (q : Nat) : Ctl :=
  forAll (List.range 256) (fun s c =>
    let x := c.reg (csOff q 0 s 0)
    (c.setReg (csOff q 0 s 0) (c.reg (csOff q 1 s 0))).setReg (csOff q 1 s 0) x) c

/-- The exchange of a pending swap, once its frame has come (R97). It stays pending through that cc. -/
def Ctl.csSwapEffect (c : Ctl) : Ctl :=
  match c.swap, c.swapCc with
  | some (f, m), none =>
    if c.sysReady ∧ ahead (frameOf c.bc) f.toNat then
      { forAll ((List.range 4).filter (Nat.testBit m.toNat)) (fun q c => c.csExchange q) c with swapCc := some c.cc }
    else c
  | _, _ => c

/-- A pending swap ends at the end of the cc of its exchange (R97). -/
def Ctl.csSwapEnd (c : Ctl) : Ctl :=
  match c.swapCc with
  | some x => if x < c.cc then { c with swap := none, swapCc := none } else c
  | none => c

/-- A quadrant becomes held (R98): HOLD is 1 and no group that uses the quadrant runs a scene. -/
def Ctl.csHeld (c : Ctl) (q : Nat) : Ctl :=
  if c.csIdle q then c.setFld oCsStat csStat_HELD (c.fld oCsStat csStat_HELD ||| 2 ^ q) else c

/-- A write of MIO_CS_CTRL (R96, R98): HOLD is stored and a quadrant no longer asked for is not held; COPY acts. -/
def Ctl.csCtrlWrite (c : Ctl) (be : BitVec 2) (data : Word) : Ctl :=
  if be.getLsbD 0 then
    let c := c.setFld oCsCtrl ⟨0, 0, 4⟩ (bits data.toNat 0 4)
    let c := c.setFld oCsStat csStat_HELD (c.fld oCsStat csStat_HELD &&& bits data.toNat 0 4)
    if bits data.toNat 4 4 = 0 then c else c.csCopy (bits data.toNat 4 4)
  else c

/-! ### The commands -/

/-- Requests of the control port that have been accepted and are outstanding, the one that completes in this cc included (R63). -/
def Ctl.outstanding (c : Ctl) : Nat := c.cReqs.length + c.cRsp.valid.toNat

/-- A request can complete in this cc: none accepted before it is outstanding (R63). -/
def Ctl.portOpen (c : Ctl) : Bool := !c.cRsp.valid && (c.cReqs.isEmpty || c.cTurn)

/-- A request is accepted and waits for its turn; with four outstanding c_req_ready is 0 and nothing transfers (R63). -/
def Ctl.queueReq (c : Ctl) (r : CReq) : Ctl := if c.outstanding < 4 then { c with cReqs := c.cReqs ++ [r] } else c

/-- The control port takes a request while sys_ready is 1 (R36); one that it has accepted before completes later too. -/
def Ctl.portTakes (c : Ctl) : Bool := c.sysReady || c.cTurn

/-- A write of the control port after one of the stage door in the same cc is noted (R371). -/
def Ctl.notePort (c : Ctl) (i : Instr) : Ctl :=
  if c.notes.again.isEmpty then c else { c with notes := { c.notes with port := c.notes.port ++ [i] } }

/-- A request on the control port: it completes, with its effect and its response, or waits behind those accepted before it (R63, R367). -/
def Ctl.onPort (c : Ctl) (i : Instr) (f : Ctl → Ctl) (rsp : CRsp) : Ctl :=
  if !c.portTakes then c
  else if c.portOpen then { (f c).notePort i with cRsp := rsp, cTurn := false }
  else c.queueReq (.write i)

/-- A register write on the control port acts outside safe state (R64, R308). -/
def Ctl.accepts (c : Ctl) (be : BitVec 2) : Bool := decide (be ≠ 0) && !c.blackout

/-- What the control port answers to a write of a mapped register (R64): OK, BAD_BE (be = 0) or IGNORED (safe state). -/
def Ctl.writeRsp (c : Ctl) (be : BitVec 2) : CRsp :=
  { valid := true, rdata := 0, status := if be = 0 then 2 else if c.blackout then 3 else 0 }

/-- A register write through the control port: the register's own effect when it is accepted, and the answer. -/
def Ctl.ctlWrite (c : Ctl) (i : Instr) (be : BitVec 2) (f : Ctl → Ctl) : Ctl :=
  c.onPort i (fun c => if c.accepts be then f c else c) (c.writeRsp be)

/-- CS_SHADOW_WRITE. -/
def execCsShadowWrite (q s w : Nat) (be : BitVec 2) (data : Word) (st : State) : Out :=
  onUnit (decide (q < 4 ∧ s < 256 ∧ w < 2)) st fun c => c.ctlWrite (.csShadowWrite q s w be data) be fun c => c.csShadow q s w be data

/-- COPY. -/
def execCopy (qmask : BitVec 4) (s : State) : Out :=
  onUnit true s fun c => c.ctlWrite (.copy qmask) 3 fun c => c.csCopy qmask.toNat

/-- CS_SWAP. -/
def execCsSwap (be : BitVec 2) (data : Word) (s : State) : Out :=
  onUnit true s fun c => c.ctlWrite (.csSwap be data) be fun c => c.csSwapWrite be data

/-- CS_SWAP_EFFECT. -/
def execCsSwapEffect (s : State) : Out := onUnit true s Ctl.csSwapEffect

/-- CS_ACTIVE_WRITE. -/
def execCsActiveWrite (q s w : Nat) (be : BitVec 2) (data : Word) (st : State) : Out :=
  onUnit (decide (q < 4 ∧ s < 256 ∧ w < 2)) st fun c => c.ctlWrite (.csActiveWrite q s w be data) be fun c => c.csActive q s w be data

/-- QUADRANT_HELD. -/
def execQuadrantHeld (q : Nat) (s : State) : Out :=
  onUnit (decide (q < 4)) s fun c => if c.sysReady then c.csHeld q else c

end Sys2Proof.Machine
end

