-- ==== Sys2Proof/Machine/Sync.lean ====
section
/-! DEFINITION. Counters, scopes and tags, and the stored form of curtains (R154, R155, R160 to R170). -/

namespace Sys2Proof.Machine

/-- Serial-number comparison (R162). -/
def reached (cnt t : Nat) : Bool := ahead cnt t

/-! ### Counters -/

/-- What counter `i` shows once every change made so far has applied. -/
def Ctl.cntNow (c : Ctl) (i : Nat) : CntVal :=
  { value := BitVec.ofNat 32 (c.fld (oCnt i) cnt_VALUE), scope := c.fld (oCnt i) cnt_REL_SCOPE, src := c.fld (oCnt i) cnt_LAST_SRC }

/-- What an observer in ec `x` sees of counter `i`: a change applied in ec x is seen from ec x + 1 (R161). -/
def Ctl.cntSeen (c : Ctl) (i x : Nat) : CntVal :=
  match (Tab.get [] c.cntHist i).find? fun h => decide (x ≤ h.ec) with
  | some h => h.before
  | none => c.cntNow i

/-- The value of counter `i` that an observer in ec `x` sees. -/
def Ctl.cntAt (c : Ctl) (i x : Nat) : Nat := (c.cntSeen i x).value.toNat

/-- The scope of counter `i` that an observer in ec `x` sees recorded (R154, R155). -/
def Ctl.cntScopeAt (c : Ctl) (i x : Nat) : Nat := (c.cntSeen i x).scope

/-- A later state of a counter after an earlier change by `d`. -/
def CntVal.plus (d : BitVec 32) (v : CntVal) : CntVal := { v with value := v.value + d }

/-- The state at the end of an ec after one more operation in it, where `r0` is the row recorded so far: the operation listed last is
recorded, of several SIG adds the narrowest scope (R161). -/
def CntVal.op (r0 rank scope : Nat) (d : BitVec 32) (v : CntVal) : CntVal :=
  if r0 ≤ rank then { value := v.value + d, scope := if r0 = rank ∧ rank = 1 then min v.scope scope else scope, src := rank } else v.plus d

/-- A change by `d` in ec `x`, a load of `ld` if one is given, among the recent changes of a counter that shows `now`. -/
def cntInsert (x rank scope : Nat) (d : BitVec 32) (ld : Option (BitVec 32)) : List CntHist → CntVal → List CntHist × CntVal
  | [], now => ([⟨x, rank, ld, now⟩], now.op 0 rank scope d)
  | h :: t, now =>
    if h.ec < x then
      let r := cntInsert x rank scope d ld t now
      (h :: r.1, r.2)
    else
      let r0 := if h.ec = x then h.rank else 0
      let own : CntHist := ⟨x, max r0 rank, ld.or (if h.ec = x then h.loaded else none), h.before⟩
      match (if h.ec = x then t else h :: t) with
      | [] => ([own], now.op r0 rank scope d)
      | g :: l => (own :: { g with before := g.before.op r0 rank scope d } :: l.map (fun g => { g with before := g.before.plus d }), now.plus d)

/-- A change of counter `i` in ec `x` (R161): rank 1 SIG, 2 stream arrival, 3 window arrival, 4 control-port add are adds,
5 is a control-port load. Adds of one ec apply as one sum; a load takes its value plus those adds, and the last of several loads counts. -/
def Ctl.cntChange (c : Ctl) (i x rank amount scope : Nat) : Ctl :=
  let v := BitVec.ofNat 32 amount
  let old := (((Tab.get [] c.cntHist i).find? fun h => decide (h.ec = x)).bind fun h => h.loaded).getD (c.cntSeen i x).value
  let l := (Tab.get [] c.cntHist i).dropWhile fun h => decide (h.ec + 64 < c.ec)
  let r := cntInsert x rank scope (if rank = 5 then v - old else v) (if rank = 5 then some v else none) l (c.cntNow i)
  let c := (c.setFld (oCnt i) cnt_VALUE r.2.value.toNat).setFld (oCnt i) cnt_LAST_SRC r.2.src
  { c.setFld (oCnt i) cnt_REL_SCOPE r.2.scope with cntHist := Tab.set [] c.cntHist i r.1 }

/-- The contexts whose STATE is not IDLE, in ascending order. -/
def Ctl.liveCtxs (c : Ctl) : List Nat :=
  (c.regs.filter fun e => decide (0x200000 ≤ e.1 ∧ e.1 < 0x300000 ∧ e.1 % 64 = 0 ∧ bits e.2.toNat 0 3 ≠ 0)).map fun e => (e.1 - 0x200000) / 64

/-- A context's STATE: 0 IDLE, 1 ARMED, 2 RUNNING, 3 DRAINING, 4 HALTED. -/
def Ctl.ctxState (c : Ctl) (x : Nat) : Nat := c.fld (oStrCtx x) strCtx_STATE

/-- The windows whose STATE is not CLOSED, in ascending order. -/
def Ctl.liveWins (c : Ctl) : List Nat :=
  (c.regs.filter fun e => decide (0x42000 ≤ e.1 ∧ e.1 < 0x4A000 ∧ e.1 % 32 = 0 ∧ bits e.2.toNat 0 2 ≠ 0)).map fun e => (e.1 - 0x42000) / 32

/-- The send descriptors whose STATE is not IDLE, in ascending order. -/
def Ctl.liveSends (c : Ctl) : List Nat :=
  (c.regs.filter fun e => decide (0x4A000 ≤ e.1 ∧ e.1 < 0x4E000 ∧ e.1 % 64 = 0 ∧ bits e.2.toNat 0 2 ≠ 0)).map fun e => (e.1 - 0x4A000) / 64

/-- Whether counter `i` is bound (R165). -/
def Ctl.bound (c : Ctl) (i : Nat) : Bool :=
  (c.seqs.any fun e => decide (e.2.state = .waiting) && e.2.head.any fun h => !h.curtain && decide (h.target = i))
  || (c.liveCtxs.any fun x => (decide (c.ctxState x = 1) && decide (c.fld (oStrCtx x) strCtx_TRIG_CNT = i))
        || decide (c.fld (oStrCtx x) strCtx_ARR_CNT = i))
  || (c.liveWins.any fun w => decide (c.fld (oWin w) win_STATE = 1) && decide (c.fld (oWin w) win_ARR_CNT = i))
  || (c.liveSends.any fun e => decide (c.fld (oLsend e) lsend_STATE = 1) && decide (c.fld (oLsend e) lsend_TRIG_CNT = i))

/-- A control-port add (R161): it applies in the first ec of the completion cc. -/
def Ctl.cntAddWrite (c : Ctl) (i : Nat) (be : BitVec 2) (data : Word) : Ctl :=
  if be.getLsbD 0 then c.cntChange i (4 * c.cc) 4 (bits data.toNat 0 32) 2 else c

/-- A control-port load (R161, R165). -/
def Ctl.cntLoadWrite (c : Ctl) (i : Nat) (be : BitVec 2) (data : Word) : Ctl :=
  if be.getLsbD 0 then
    if c.bound i then
      ((c.setFld oSyncStat syncStat_LOAD_CNT_NO i).flag oSyncStat syncStat_LOAD_REFUSED).satAdd oSyncStat syncStat_REFUSALS 1
    else c.cntChange i (4 * c.cc) 5 (bits data.toNat 0 32) 2
  else c

/-- CNT_ADD. -/
def execCntAdd (i : Nat) (be : BitVec 2) (data : Word) (s : State) : Out :=
  onUnit (decide (i < Config.counters)) s fun c => c.ctlWrite (.cntAdd i be data) be fun c => c.cntAddWrite i be data

/-- CNT_LOAD. -/
def execCntLoad (i : Nat) (be : BitVec 2) (data : Word) (s : State) : Out :=
  onUnit (decide (i < Config.counters)) s fun c => c.ctlWrite (.cntLoad i be data) be fun c => c.cntLoadWrite i be data

/-! ### Scope mismatch (R155) -/

/-- An acquirer meets a condition: recorded scope `rel`, its own scope `acq`, KIND, target, SOURCE and REQUESTER of MIO_SCOPE_REC. -/
def Ctl.scopeEvent (c : Ctl) (rel acq kind target source req : Nat) : Ctl :=
  if acq ≤ rel then c
  else
    let c := c.satAdd oScopeCount ⟨0, 0, 32⟩ 1
    let c := if c.fld oScopeRec scopeRec_VALID = 1 then c.flag oScopeRec scopeRec_OVERFLOW
      else [(scopeRec_TARGET, target), (scopeRec_KIND, kind), (scopeRec_REL_SCOPE, rel), (scopeRec_ACQ_SCOPE, acq),
          (scopeRec_SOURCE, source), (scopeRec_REQUESTER, req)].foldl (fun c x => c.setFld oScopeRec x.1 x.2) (c.flag oScopeRec scopeRec_VALID)
    c.raise 13 0

/-! ### Tags (R166, R168) -/

/-- Tag checks apply to a granule (R166): its region's bit in MIO_TAG_EN is 1 and its CODE is working. -/
def Ctl.tagChecked (c : Ctl) (gi : Nat) : Bool :=
  Nat.testBit (c.reg oTagEn).toNat (giRegion gi) && !c.repOf gi

/-- The stored granule as a tag check sees it, after correction: none when it passes every check (R168). -/
def storedFull (rep : Bool) (g : Granule) : Option Bool :=
  let d := decodeG rep g
  if d.bad ∨ d.pois then none else some (gFull d.word)

/-- A read passes (R166). -/
def tagReadOk (stored : Option Bool) : Bool := stored != some false
/-- A plain or partial write passes; `inFull` none for a poisoned, uncorrectable or supplied granule (R168). -/
def tagWriteOk (stored inFull : Option Bool) : Bool :=
  match stored, inFull with
  | some s, some i => s != i
  | _, _ => true
/-- An accumulating write passes (R166); a contribution at fault passes (R168). -/
def tagAccOk (stored : Option Bool) (fault : Bool) : Bool := fault || stored != some false

end Sys2Proof.Machine
end

