-- ==== Sys2Proof/Machine/Packet.lean ====
section
/-! DEFINITION. Packet headers (R211, R212) and the sending of packets on the link ports and the twin port (R207, R209, R210). -/

namespace Sys2Proof.Machine

/-- Whether `n` granules from `base`, modulo 2^27, touch region r. -/
def touchesRegion (base n r : Nat) : Bool :=
  (List.range 2).any fun k => decide (base < r * 2 ^ 18 + 2 ^ 18 + k * 2 ^ 27 ∧ r * 2 ^ 18 + k * 2 ^ 27 < base + n)

/-- The KINDs whose packets have payload (R211, R212). -/
def payloadKind (kind : Nat) : Bool := decide (kind = 1 ∨ kind = 5 ∨ kind = 9)

/-- The KINDs of control packets (R209, R212). -/
def ctlKind (kind : Nat) : Bool := decide (kind = 2 ∨ kind = 3 ∨ kind = 4 ∨ kind = 6 ∨ kind = 7 ∨ kind = 8 ∨ kind = 10)

/-- The fields of a header of a KIND, as bit ranges (first, width); every other bit is reserved. -/
def hdrFields (kind : Nat) : List (Nat × Nat) :=
  if kind = 1 ∨ kind = 5 ∨ kind = 9 then [(0, 10), (16, 10), (32, 24), (64, 8), (80, 16), (96, 64), (160, 64)]
  else if kind = 2 then [(0, 6), (16, 10), (80, 16), (96, 64)]
  else if kind = 3 then [(0, 5), (6, 2), (16, 6), (24, 8), (32, 16)]
  else if kind = 4 then [(0, 5), (6, 2), (16, 6), (24, 8)]
  else if kind = 6 then [(0, 5), (16, 10), (80, 16), (96, 64)]
  else if kind = 7 then [(0, 4), (32, 32)]
  else if kind = 8 then [(0, 6), (32, 32), (64, 64)]
  else [(0, 4), (16, 10), (80, 16), (96, 64)]

/-- A KIND is valid on a port: 1 to 4 on a link port, 5 to 0xA on the twin port (R212). -/
def kindOn (port kind : Nat) : Bool :=
  if port = 16 then decide (5 ≤ kind ∧ kind ≤ 10) else decide (1 ≤ kind ∧ kind ≤ 4)

/-- The fields of a header. -/
def hKind (h : Nat) : Nat := bits h 0 4
def hOpn (h : Nat) : Nat := bits h 4 2
def hJournaled (h : Nat) : Bool := decide (bits h 6 1 = 1)
def hOrdered (h : Nat) : Bool := decide (bits h 7 1 = 1)
def hMasked (h : Nat) : Bool := decide (bits h 8 1 = 1)
def hProv (h : Nat) : Bool := decide (bits h 9 1 = 1)
def hWindow (h : Nat) : Nat := bits h 16 10
def hOffset (h : Nat) : Nat := bits h 32 24
/-- Payload granules. -/
def hLen (h : Nat) : Nat := bits h 64 8 + 1
def hRank (h : Nat) : Nat := bits h 80 16
def hSeq (h : Nat) : Nat := bits h 96 64
def hMaskFirst (h : Nat) : Nat := bits h 160 32
def hMaskLast (h : Nat) : Nat := bits h 192 32
/-- Curtain packets: PARITY, SCOPE, CURTAIN, EPOCH, COUNT. -/
def hParity (h : Nat) : Bool := decide (bits h 4 1 = 1)
def hScope (h : Nat) : Nat := bits h 6 2
def hCurtain (h : Nat) : Nat := bits h 16 6
def hEpoch (h : Nat) : Nat := bits h 24 8
def hCount (h : Nat) : Nat := bits h 32 16

/-- A header granule: working code, all tags 0 (R211). -/
def mkHeader (h : Nat) : Granule := mkWorking (h % 2 ^ 256) false false 0

/-- The decoded header of a packet that arrives on a port, none where R212 refuses it: poisoned or uncorrectable, a
reserved KIND or one of another port, a reserved bit. A reserved OPN counts as reserved bits (log entry 9). -/
def hdrData (port : Nat) (g : Granule) : Option Nat :=
  let d := decodeG false g
  let h := gData d.word
  if d.bad || d.pois || !kindOn port (hKind h) || !onlyBits h (hdrFields (hKind h)) then none
  else if (hKind h = 1 ∨ hKind h = 5 ∨ hKind h = 9) ∧ 2 ≤ hOpn h then none
  else some h

/-- The check of an arriving header: it is counted and logged on path 5 (R249, R256). -/
def Ctl.hdrCheck (c : Ctl) (port : Nat) (g : Granule) : Ctl × Option Nat :=
  (c.eccRecord { cnt := 5, path := 3, req := port } (decodeG false g), hdrData port g)

/-! ### Beats (R209) -/

/-- Beats of a packet with `k` payload granules (R209). -/
def packetBeats (k : Nat) : Nat := (k + 8) / 8

/-- The lanes that n granules take, set from lane 0 upwards. -/
def beatMask (n : Nat) : BitVec 8 := BitVec.ofNat 8 (2 ^ n - 1)

/-- Beat i of a packet (R209): the header on lane 0 of the first, payload granule k on lane k + 1 of that beat, or on lane (k − 7) mod 8 of beat
1 + floor((k − 7) / 8). -/
def Packet.beat (p : Packet) (i : Nat) : LinkBeat :=
  let g := ((p.header :: p.payload).drop (8 * i)).take 8
  { data := g, lanes := beatMask g.length, sop := decide (i = 0), eop := decide (i + 1 = packetBeats p.payload.length) }

/-- The one beat of a control packet (R209). -/
def ctlBeat (header : Granule) : LinkBeat := Packet.beat { header := header, payload := [] } 0

/-- A beat has the shape of a control packet. -/
def beatSingle (b : LinkBeat) : Bool := b.sop && b.eop && b.lanes == 1

/-- A first beat that may stand between two beats of another packet: it has the shape of a control packet, and its header can be read and
has the KIND of one (R209). -/
def beatBetween (b : LinkBeat) : Bool :=
  let d := decodeG false (b.data.getD 0 0)
  beatSingle b && !d.bad && ctlKind (hKind (gData d.word))

/-- A beat has the lanes and the last mark of R209 when n granules of its packet are still to come. -/
def beatFits (b : LinkBeat) (n : Nat) : Bool := b.lanes == beatMask (min 8 n) && b.eop == decide (n ≤ 8)

/-- The granules of a beat that fits. -/
def beatGranules (b : LinkBeat) (n : Nat) : List Granule := (List.range (min 8 n)).map fun k => b.data.getD k 0

/-! ### Sending -/

/-- MIO_LINK_CFG_n.ENABLE; the twin port has none. -/
def Ctl.linkEnabled (c : Ctl) (n : Nat) : Bool := decide (n = 16) || decide (c.fld (oLinkCfg n) linkCfg_ENABLE = 1)

/-- The port can send: up, enabled, in use, outside safe state, and the twin port not OFF (R207, R226, R307). -/
def Ctl.linkLive (c : Ctl) (n : Nat) : Bool :=
  (c.link n).up && !(c.link n).failed && c.linkEnabled n && !c.blackout
    && (decide (n ≠ 16) || decide (c.fld oTwinCfg twinCfg_MODE ≠ 0))

/-- Put a control packet in the order of R210: curtain packets before others. -/
def waitInsert (p : Packet) (l : List Packet) : List Packet :=
  let cur := fun (p : Packet) => decide (gData p.header % 16 = 3 ∨ gData p.header % 16 = 4)
  if cur p then l.takeWhile cur ++ [p] ++ l.dropWhile cur else l ++ [p]

/-- Send a control packet: it leaves as one beat when the port can send and a credit is free (R209, R210; log entry 10). -/
def Ctl.sendCtl (c : Ctl) (n : Nat) (h : Nat) : Ctl :=
  let l := c.link n
  c.setLink n { l with wait := waitInsert { header := mkHeader h, payload := [] } l.wait }

/-! ### Refusals -/

/-- A refusal on a port (R217): counted in MIO_LINK_STAT_n (which the twin port lacks) and raised as source 17. -/
def Ctl.portRefuse (c : Ctl) (port kind : Nat) : Ctl :=
  let c := if port = 16 then c
    else (c.satAdd (oLinkStat port) linkStat_REFUSED 1).setFld (oLinkStat port) linkStat_LAST_KIND kind
  c.raise 17 port

/-- A refusal of a packet for a window (R217): counted there as well, with kinds 1 and 2 only on the port. -/
def Ctl.winRefuse (c : Ctl) (port w kind : Nat) : Ctl :=
  let c := if kind ≤ 2 then c else (c.satAdd (oWin w) win_REFUSED 1).setFld (oWin w) win_LAST_REFUSE kind
  c.portRefuse port kind

/-- Whether a port takes part in what arrives: link up, in use, and the link units running. -/
def Ctl.hears (c : Ctl) (port : Nat) : Bool := c.active && (c.link port).up && !(c.link port).failed

/-- The data bits of an ACK (R212): CODE 0 ACCEPTED, 1 DUPLICATE, 2 REFUSED, 3 RETRY. -/
def ackHeader (code w rank seq : Nat) : Nat := 2 + (code <<< 4) + (w <<< 16) + (rank <<< 80) + (seq <<< 96)

/-- Acknowledge a DATA packet on its port. -/
def Ctl.ackFor (c : Ctl) (port h code : Nat) : Ctl := c.sendCtl port (ackHeader code (hWindow h) (hRank h) (hSeq h))

/-- The fields of a journaled DATA header that R212 refuses and an ACK can still answer: it came on a link port, without poison and not
uncorrectable (log entry 113). -/
def hdrAnswer (port : Nat) (g : Granule) : Option Nat :=
  let d := decodeG false g
  let h := gData d.word
  if d.bad || d.pois || decide (port = 16) || decide (hKind h ≠ 1) || !hJournaled h then none else some h

/-- A refusal of kind HDR or FRAME (R217): a journaled DATA packet gets ACK REFUSED, but for safe state (R307). -/
def Ctl.refuseShape (c : Ctl) (port kind : Nat) (h : Option Nat) : Ctl :=
  let c := c.portRefuse port kind
  match h with
  | some h => if hKind h = 1 ∧ hJournaled h ∧ port ≠ 16 ∧ ¬ c.blackout then c.ackFor port h 2 else c
  | none => c

/-! ### The receive buffer (R207, R209) -/

/-- `n` beats leave the receive buffer: a credit is returned for each, delayed by MIO_PERT_LINK (R207, R319). -/
def Ctl.creditBack (c : Ctl) (port n : Nat) : Ctl :=
  let l := c.link port
  let late := if Nat.testBit (c.fld oPertLink pertLink_PORTS) port then c.fld oPertLink pertLink_HOLD else 0
  c.setLink port { l with owed := l.owed ++ List.replicate n (c.ec + 1 + late) }

/-- Beats of a packet that have come. -/
def RxPkt.beats (p : RxPkt) : Nat := packetBeats p.payload.length

/-- A packet leaves the receive buffer. Beats that came before a fall of the link give no credit: both sides have loaded their counts anew
(R207, log entry 111). -/
def Ctl.rxLeaves (c : Ctl) (port : Nat) (p : RxPkt) : Ctl := if p.stale then c else c.creditBack port p.beats

/-- The packet that is still coming. -/
def LinkPort.coming (l : LinkPort) : Option RxPkt := l.inbox.find? fun p => p.whole.isNone

/-- Every one of the 64 beats of the buffer is taken (R207). -/
def LinkPort.full (l : LinkPort) : Bool := decide (64 ≤ (l.inbox.map RxPkt.beats).sum)

/-- The receiver's state of discarding. -/
def Ctl.setSkip (c : Ctl) (port : Nat) (k : RxSkip) : Ctl := c.setLink port { c.link port with skip := k }

/-- The packet that is coming, if there is one, is refused with kind FRAME (R209). -/
def Ctl.rxBreak (c : Ctl) (port : Nat) : Ctl :=
  match (c.link port).coming with
  | none => c
  | some p =>
    let c := c.setLink port { c.link port with inbox := (c.link port).inbox.filter fun q => q.whole.isSome }
    (c.rxLeaves port p).refuseShape port 2 (some p.h)

/-- A beat that is not a first one, in a command for packets whose KIND satisfies `mine`: a beat of the packet that is coming, or one
outside a packet, with which the receiver discards up to the next first beat (R209). -/
def Ctl.rxRest (c : Ctl) (port : Nat) (mine : Nat → Bool) (b : LinkBeat) : Ctl :=
  let l := c.link port
  match l.coming with
  | some p =>
    let n := hLen p.h - p.payload.length
    if !mine (hKind p.h) then c
    else if !beatFits b n || l.full then ((c.rxBreak port).creditBack port 1).setSkip port .toFirst
    else c.setLink port { l with inbox := l.inbox.map fun q =>
      if q.whole.isNone then { q with payload := q.payload ++ beatGranules b n, whole := if b.eop then some c.ec else none } else q }
  | none =>
    if l.skip = .nothing then ((c.creditBack port 1).portRefuse port 2).setSkip port .toFirst
    else (c.creditBack port 1).setSkip port (if l.skip = .packet ∧ b.eop then .nothing else l.skip)

/-- The twin port refuses every packet with kind HDR in OFF (R226). -/
def Ctl.portOff (c : Ctl) (port : Nat) : Bool := decide (port = 16 ∧ c.fld oTwinCfg twinCfg_MODE = 0)

/-- Every granule of a window lies in a region retained in P3 (R336). -/
def Ctl.winRetained (c : Ctl) (w : Nat) : Bool :=
  ((List.range 64).filter (touchesRegion (c.fld (oWin w) win_BASE) (c.fld (oWin w) win_SIZE))).all fun r =>
    c.regionRep r || Nat.testBit (c.reg oPwrRet).toNat r

/-- DATA packets for a window stay in the receive buffer: its owner is in an intermission, or a watch slice runs and the
window is not one that may be open in P3 (R279, R338). In safe state every DATA packet is refused (R307). -/
def Ctl.winHeld (c : Ctl) (w : Nat) : Bool :=
  let f := c.fld (oWin w)
  !c.blackout && (Nat.testBit c.audit.hold.toNat (f win_OWNER) ||
    (c.power.slice && !(decide (f win_STATE = 1 ∧ f win_ORDERED = 0 ∧ f win_JOURNALED = 0) && c.winRetained w)))

/-- A packet in a receive buffer is a DATA packet for a held window. -/
def Ctl.pktHeld (c : Ctl) (p : RxPkt) : Bool := decide (hKind p.h = 1) && c.winHeld (hWindow p.h)

/-- A control packet stays in the receive buffer behind a held packet, and behind a control packet that waits there (R279, R338). -/
def Ctl.ctlWaits (c : Ctl) (port : Nat) : Bool := (c.link port).inbox.any fun p => c.pktHeld p || !payloadKind (hKind p.h)

/-- What the receiver discards after a first beat: a control packet between the beats of a refused packet leaves the rest of that packet
refused (R212); any other first beat ends it. -/
def RxSkip.after (k : RxSkip) (b : LinkBeat) : RxSkip :=
  if beatBetween b then (if k = .packet then .packet else .nothing) else if b.eop then .nothing else .packet

/-- The first beat of a packet, in a command for packets whose KIND satisfies `mine` (R209, R212): a packet with payload begins to fill
the buffer; the fields of a control packet come out unless it waits there. Any first beat but that of a control packet ends a packet that
was coming. `last` marks what REPLAY says of it. -/
def Ctl.rxFirst (c : Ctl) (port : Nat) (mine : Nat → Bool) (b : LinkBeat) (last : Bool) : Ctl × Option Nat :=
  let g := b.data.getD 0 0
  let d := hdrData port g
  let ctl := match d with | some h => !payloadKind (hKind h) | none => true
  if d.any fun h => !mine (hKind h) then (c, none)
  else
    let c := if c.portOff port then c else (c.hdrCheck port g).1
    let skip := (c.link port).skip.after b
    let c := (if beatBetween b then c else c.rxBreak port).setSkip port skip
    let l := c.link port
    match (if c.portOff port then none else d) with
    | none => ((c.creditBack port 1).refuseShape port 1 (hdrAnswer port g), none)
    | some h =>
      let n := if ctl then 1 else 1 + hLen h
      if !beatFits b n || l.full then (((c.creditBack port 1).refuseShape port 2 (some h)).setSkip port .toFirst, none)
      else if ctl && !c.ctlWaits port then (c.creditBack port 1, some h)
      else
        let p : RxPkt := { h := h, payload := (beatGranules b n).drop 1, came := c.ec, whole := if b.eop then some c.ec else none, last := last }
        (c.setLink port { l with inbox := l.inbox ++ [p], skip := if ctl then skip else .nothing }, none)

/-- A beat arrives, in a command for control packets of one kind: `f` takes the fields of the packet. -/
def Ctl.ctlArrives (c : Ctl) (port kind : Nat) (b : LinkBeat) (f : Ctl → Nat → Ctl) : Ctl :=
  if !c.hears port then c
  else if !b.sop then c.rxRest port (fun k => decide (k = kind)) b
  else
    let r := c.rxFirst port (fun k => decide (k = kind)) b false
    match r.2 with
    | some h => f r.1 h
    | none => r.1

/-- A beat arrives, in a command for packets with payload of one kind. -/
def Ctl.dataArrives (c : Ctl) (port kind : Nat) (b : LinkBeat) (last : Bool) : Ctl :=
  if !c.hears port then c
  else if !b.sop then c.rxRest port (fun k => decide (k = kind)) b
  else (c.rxFirst port (fun k => decide (k = kind)) b last).1

end Sys2Proof.Machine
end

