-- ==== Sys2Proof/Machine/Curtains.lean ====
section
/-! DEFINITION. Curtains (R170 to R175): entries, arrive and release packets, configuration and reset. -/

namespace Sys2Proof.Machine

/-- The round of a parity. -/
def Curtain.round (k : Curtain) (p : Bool) : CurRound := if p then k.round1 else k.round0
def Curtain.setRound (k : Curtain) (p : Bool) (r : CurRound) : Curtain := if p then { k with round1 := r } else { k with round0 := r }

/-- A participant's state. -/
def Curtain.part (k : Curtain) (who : Nat) : Participant := Tab.get {} k.parts who
def Curtain.setPart (k : Curtain) (who : Nat) (p : Participant) : Curtain := { k with parts := Tab.set {} k.parts who p }

/-- The subtree count of a round (R172). -/
def CurRound.total (r : CurRound) : Nat := r.own + r.child

/-- The first event of a curtain: KIND 1 OVERRUN, 2 EXCESS, 3 STALE, with WHO (MIO_CUR_STAT_c). -/
def Ctl.curEvent (c : Ctl) (k kind who : Nat) : Ctl :=
  if c.fld (oCurStat k) curStat_EVENT = 1 then c
  else ((c.setFld (oCurStat k) curStat_KIND kind).setFld (oCurStat k) curStat_WHO who).flag (oCurStat k) curStat_EVENT

/-- The data of a curtain packet, KIND 3 ARRIVE or 4 RELEASE (R212). -/
def curHeader (kind k : Nat) (parity : Bool) (epoch scope count : Nat) : Nat :=
  kind + (parity.toNat <<< 4) + (scope <<< 6) + (k <<< 16) + (epoch <<< 24) + (count <<< 32)

/-- Every participant in ENTERED(p) moves to LATCHED(p). -/
def latchAll (p : Bool) (x : Nat) (t : Tab Participant) : Tab Participant :=
  t.map fun e => (e.1, if e.2.state = .entered ∧ e.2.parity = p then { e.2 with state := .latched, since := x } else e.2)

/-- The release of parity `p` applied in ec `x` (R172, R174), and forwarded to the children. -/
def Ctl.curRelease (c : Ctl) (k : Nat) (p : Bool) (scope x : Nat) : Ctl :=
  let u := c.curtain k
  let c := c.setCurtain k ({ u with parts := latchAll p x u.parts }.setRound p {})
  let c := (c.setFld (oCurStat k) curStat_REL_SCOPE scope).setFld (oCurStat k) curStat_LAST_PARITY p.toNat
  let epoch := c.fld (oCurCfg k) curCfg_EPOCH
  let mask := c.fld (oCurCfg k) curCfg_CHILD_MASK
  forAll ((List.range Config.linkPorts).filter (Nat.testBit mask)) (fun n c => c.sendCtl n (curHeader 4 k p epoch scope 0)) c

/-- The end of the ec `e` in which the subtree count of parity `p` grew: above EXPECT it is EXCESS; at EXPECT the root releases, and another
block sends its arrive packet once, with the count and the narrowest scope of all that came in the ec (R172 to R174). A curtain with EXPECT = 0
takes part in no round: an arrive packet with its EPOCH and a port of its children still counts, and is EXCESS (DESIGN CHOICE, log entry
132). -/
def Ctl.curGrown (c : Ctl) (k : Nat) (p : Bool) (e : Nat) : Ctl :=
  let r := { (c.curtain k).round p with grown := none }
  let c := c.setCurtain k ((c.curtain k).setRound p r)
  let expect := c.fld (oCurCfg k) curCfg_EXPECT
  let parent := c.fld (oCurCfg k) curCfg_PARENT
  let c := if expect < r.total then (c.curEvent k 2 0).raise 12 k else c
  if r.total < expect ∨ expect = 0 then c
  else if parent = 0x10 then c.curRelease k p r.scope e
  else if r.sent then c
  else
    let c := c.setCurtain k ((c.curtain k).setRound p { r with sent := true })
    c.sendCtl parent (curHeader 3 k p (c.fld (oCurCfg k) curCfg_EPOCH) r.scope r.total)

/-- The end of an ec at a curtain: what its counts have come to, and the releases of this ec from its parent. In safe state nothing changes (R307). -/
def Ctl.curEnd (c : Ctl) (k : Nat) : Ctl :=
  if c.blackout then c
  else
    let c := [false, true].foldl (fun c p => match ((c.curtain k).round p).grown with | some e => c.curGrown k p e | none => c) c
    let u := c.curtain k
    (u.rel.filter fun r => decide (r.2.2 ≤ c.ec)).foldl (fun c r => c.curRelease k r.1 r.2.1 r.2.2)
      (c.setCurtain k { u with rel := u.rel.filter fun r => decide (c.ec < r.2.2) })

/-- A stream participant consumes a latched release in the ec after it (R170, R196). -/
def settleParts (x : Nat) (t : Tab Participant) : Tab Participant :=
  (t.map fun e => if 0x4000 ≤ e.1 ∧ e.2.state = .latched ∧ e.2.since < x then (e.1, { state := .out, parity := !e.2.parity, since := 0 : Participant }) else e).filter
    fun e => decide (e.2 ≠ {})

/-- The releases that stream participants of a curtain have consumed by ec `x`. -/
def Ctl.curSettle (c : Ctl) (k x : Nat) : Ctl :=
  let u := c.curtain k
  if c.blackout then c else c.setCurtain k { u with parts := settleParts x u.parts }

/-- An entry of participant `who` is registered in ec `x` (R170 to R173). -/
def Ctl.curRegister (c : Ctl) (k who scope x : Nat) : Ctl :=
  let c := c.curSettle k x
  let u := c.curtain k
  let part := u.part who
  let r := u.round part.parity
  if c.fld (oCurCfg k) curCfg_EXPECT = 0 ∨ part.state ≠ .out then (c.curEvent k 1 who).raise 12 k
  else
    c.setCurtain k ((u.setPart who { part with state := .entered }).setRound part.parity
      { r with own := r.own + 1, scope := min r.scope scope, grown := some (max x (r.grown.getD 0)) })

/-- An entry for ec `x`: registered now, or when that ec comes. -/
def Ctl.curEntry (c : Ctl) (k who scope x : Nat) : Ctl :=
  if x ≤ c.ec then c.curRegister k who scope x
  else c.setCurtain k { c.curtain k with coming := (c.curtain k).coming ++ [(who, scope, x)] }

/-- A new ec at a curtain: stream participants consume, and the entries that have waited for it are registered. -/
def Ctl.curStart (c : Ctl) (k : Nat) : Ctl :=
  let c := c.curSettle k c.ec
  if c.blackout then c
  else
    let u := c.curtain k
    (u.coming.filter fun e => decide (e.2.2 ≤ c.ec)).foldl (fun c e => c.curRegister k e.1 e.2.1 e.2.2)
      (c.setCurtain k { u with coming := u.coming.filter fun e => decide (c.ec < e.2.2) })

/-- Consumption of a latched release (R170). -/
def Ctl.curConsume (c : Ctl) (k who : Nat) : Ctl :=
  let u := c.curtain k
  let p := u.part who
  if p.state = .latched then c.setCurtain k (u.setPart who { state := .out, parity := !p.parity, since := 0 }) else c

/-- A curtain WAIT of a participant, sampled in ec `x`, is met: its release came in an earlier ec (R170, R172). -/
def Ctl.curMet (c : Ctl) (k who x : Nat) : Bool :=
  let p := (c.curtain k).part who
  decide (p.state = .latched ∧ p.since < x)

/-- A curtain packet with the wrong EPOCH or port is refused and counted as STALE (R173). -/
def Ctl.curStale (c : Ctl) (k port : Nat) : Ctl :=
  (c.satAdd (oCurStat k) curStat_STALE_CNT 1).curEvent k 3 port

/-- A received arrive packet with fields `h` (R172 to R174). -/
def Ctl.curArrived (c : Ctl) (port h : Nat) : Ctl :=
  let k := hCurtain h
  let p := hParity h
  if hEpoch h ≠ c.fld (oCurCfg k) curCfg_EPOCH ∨ ¬ Nat.testBit (c.fld (oCurCfg k) curCfg_CHILD_MASK) port then c.curStale k port
  else
    let u := c.curtain k
    let r := u.round p
    c.setCurtain k (u.setRound p { r with child := r.child + hCount h, scope := min r.scope (hScope h), grown := some c.ec })

/-- A received release packet with fields `h`: applied in the ec after it is accepted (R172, R173). -/
def Ctl.curReleased (c : Ctl) (port h : Nat) : Ctl :=
  let k := hCurtain h
  if hEpoch h ≠ c.fld (oCurCfg k) curCfg_EPOCH ∨ port ≠ c.fld (oCurCfg k) curCfg_PARENT then c.curStale k port
  else c.setCurtain k { c.curtain k with rel := (c.curtain k).rel ++ [(hParity h, hScope h, c.ec + 1)] }

/-- A curtain packet with fields `h` on a link port: a port with ENABLE = 0 refuses it with kind CLOSED (MIO_LINK_CFG_n), and in safe
state it is not processed (R307). -/
def Ctl.curPacket (c : Ctl) (port h : Nat) : Ctl :=
  if c.blackout then c
  else if !c.linkEnabled port then c.portRefuse port 3
  else if hKind h = 3 then c.curArrived port h else c.curReleased port h

/-- The curtain is idle (R175). -/
def Ctl.curIdle (c : Ctl) (k : Nat) : Bool :=
  let u := c.curtain k
  decide (u.round0.total = 0) && decide (u.round1.total = 0) && u.parts.all fun e => decide (e.2.state = .out)

/-- A write of MIO_CUR_CFG_c (R175): a refused write sets BUSY; an accepted one sets every participant to OUT(0). -/
def Ctl.curCfgWrite (c : Ctl) (k : Nat) (be : BitVec 2) (data : Word) : Ctl :=
  let c := c.curSettle k c.ec
  let v := merge (c.reg (oCurCfg k)) be data
  if !c.curIdle k || decide (0x10 < bits v.toNat 16 5) then c.flag (oCurStat k) curStat_BUSY
  else
    let mask : Word := 0x0000FFFFFF1FFFFF
    (c.setReg (oCurCfg k) (v &&& mask)).setCurtain k { coming := (c.curtain k).coming, rel := (c.curtain k).rel }

/-- RESET of a curtain (R175). -/
def Ctl.curReset (c : Ctl) (k : Nat) : Ctl := c.setCurtain k { coming := (c.curtain k).coming }

/-- CUR_ARRIVE. -/
def execCurArrive (port : Nat) (beat : LinkBeat) (s : State) : Out :=
  onUnit (decide (port < Config.linkPorts)) s fun c => c.ctlArrives port 3 beat fun c h => c.curPacket port h

/-- CUR_RELEASE. -/
def execCurRelease (port : Nat) (beat : LinkBeat) (s : State) : Out :=
  onUnit (decide (port < Config.linkPorts)) s fun c => c.ctlArrives port 4 beat fun c h => c.curPacket port h

/-- CURTAIN_CFG_WRITE. -/
def execCurtainCfgWrite (k : Nat) (be : BitVec 2) (data : Word) (s : State) : Out :=
  onUnit (decide (k < Config.curtains)) s fun c => c.ctlWrite (.curtainCfgWrite k be data) be fun c => c.curCfgWrite k be data

/-- CURTAIN_RESET. -/
def execCurtainReset (k : Nat) (s : State) : Out :=
  onUnit (decide (k < Config.curtains)) s fun c => c.ctlWrite (.curtainReset k) 3 fun c => c.curReset k

end Sys2Proof.Machine
end

