-- ==== Sys2Proof/Machine/Rehearsal.lean ====
section
/-! DEFINITION. Dress rehearsal (R234, R293 to R295): events, signatures, their exchange and the first mismatch. -/

namespace Sys2Proof.Machine

/-- The twin port is in REHEARSAL. -/
def Ctl.rehearsing (c : Ctl) : Bool := decide (c.fld oTwinCfg twinCfg_MODE = 2)

/-- Group under rehearsal. -/
def Ctl.rehGroup (c : Ctl) : Nat := c.fld oRehCfg rehCfg_GROUP

/-- Ec in one interval. -/
def Ctl.rehStep (c : Ctl) : Nat := 2 ^ c.fld oRehCfg rehCfg_SUB_EXP

/-- The running signature of a quadrant. -/
def Ctl.rehSig (c : Ctl) (q : Nat) : BitVec 64 := Tab.get 0xFFFFFFFFFFFFFFFF c.reh.sigs q

/-! ### Events (R293) -/

/-- The 16 bytes of a head condition met at the scene's start. -/
def headEvent (n pos wt : Nat) (h : HeadCond) (parity : Bool) : List Byte :=
  leBytes 4 0 ++ leBytes 4 (if h.curtain then parity.toNat else wt) ++ leBytes 1 n ++ leBytes 1 pos
    ++ leBytes 1 (if h.curtain then 0x81 else 0x80) ++ leBytes 2 h.target ++ leBytes 3 0

/-- The head conditions with which sequencer `n` starts a scene in ec `e`, with the values of its WT registers. -/
def Ctl.rehHead (c : Ctl) (n e : Nat) (head : List HeadCond) (wts : List Nat) : Ctl :=
  if c.rehearsing ∧ c.groupOf n = c.rehGroup then
    let ev := head.mapIdx fun k h => (⟨e, 0, n * 8 + k, seqQuad n, headEvent n k (wts.getD k 0) h ((c.curtain h.target).part n).parity⟩ : RehEvent)
    { c with reh := { c.reh with events := c.reh.events ++ ev } }
  else c

/-- The 48 bytes of a sampled write lane. The data bits are those on the channel (log entry 23). -/
def laneEvent (off n opmode code : Nat) (l : WLane) : List Byte :=
  leBytes 4 off ++ leBytes 4 l.gi ++ leBytes 1 n ++ leBytes 1 l.lane ++ leBytes 1 code ++ leBytes 1 opmode ++ leBytes 4 0 ++ granuleBytes l.seen

/-- The lanes of a write access, once their status codes are known. -/
def Ctl.rehWrite (c : Ctl) (n : Nat) (a : WAccess) (code : WLane → Nat) : Ctl :=
  if c.rehearsing ∧ c.groupOf n = c.rehGroup then
    let mode := if a.index then 5 else if a.acc.isSome then 4 else 0
    let ev := a.lanes.map fun l => (⟨a.ec0, a.w - a.ec0, 0x10000 + n * 8 + l.lane, seqQuad n, laneEvent (a.w - a.ec0) n mode (code l) l⟩ : RehEvent)
    { c with reh := { c.reh with events := c.reh.events ++ ev } }
  else c

/-- Length of the scene with ec 0 `e` of the rehearsed group, as its sequencers have ended it. -/
def Ctl.rehLength (c : Ctl) (e : Nat) : Nat :=
  ((c.members c.rehGroup).filter fun n => decide ((c.seq n).ec0 = e)).foldl (fun m n => max m (c.seq n).offset) 0

/-- A scene of group `g` begins in ec `e` with sequencers `who`: scenes before it have their length, and it takes its number
from the first of them. -/
def Ctl.rehBegin (c : Ctl) (g e : Nat) (who : List Nat) : Ctl :=
  if c.rehearsing ∧ g = c.rehGroup then
    let old := c.reh.scenes.map fun (s : RehScene) => if s.len.isNone then { s with len := some (c.rehLength s.ec0) } else s
    { c with reh := { c.reh with scenes := old ++ [{ sceneNo := (c.seq (who.headD 0)).nextNo, ec0 := e }] } }
  else c

/-! ### Mismatches (R295) -/

/-- A mismatch of KIND 1 SIG, 2 STEP or 3 LOST: the first is latched and raised, a later one sets OVERFLOW. -/
def Ctl.rehMismatch (c : Ctl) (q kind : Nat) (scene : BitVec 32) (off : Nat) : Ctl :=
  if c.fld oRehDiv1 rehDiv1_VALID = 1 then c.flag oRehDiv1 rehDiv1_OVERFLOW
  else
    let c := (c.setFld oRehDiv rehDiv_SCENE_NO scene.toNat).setFld oRehDiv rehDiv_EC_OFFSET off
    let c := ((c.setFld oRehDiv1 rehDiv1_QUAD q).setFld oRehDiv1 rehDiv1_KIND kind).flag oRehDiv1 rehDiv1_VALID
    let c := if c.fld oTableauCfg ⟨0, 0, 1⟩ = 1 ∧ c.clk.tabReq.isNone then { c with clk := { c.clk with tabReq := some c.tbc } } else c
    c.raise 19 0

/-- Remove the first signature of a quadrant. -/
def dropFirst (q : Nat) : List RSig → List RSig
  | [] => []
  | s :: t => if s.quad = q then t else s :: dropFirst q t

/-- Pair the oldest unpaired signatures of a quadrant, if both sides have one. -/
def Ctl.rehPair (c : Ctl) (q : Nat) : Ctl :=
  match c.reh.sent.find? fun s => decide (s.quad = q), c.reh.got.find? fun s => decide (s.quad = q) with
  | some a, some b =>
    let c : Ctl := { c with reh := { c.reh with sent := dropFirst q c.reh.sent, got := dropFirst q c.reh.got } }
    if a.sceneNo ≠ b.sceneNo then c.rehMismatch q 2 a.sceneNo a.offset
    else if a.sig ≠ b.sig then c.rehMismatch q 1 a.sceneNo a.offset
    else c
  | _, _ => c

/-- Own signatures of a quadrant that are unpaired. -/
def Ctl.rehOpen (c : Ctl) (q : Nat) : Nat := (c.reh.sent.filter fun s => decide (s.quad = q)).length

/-- t_up falls in REHEARSAL: LOST at the oldest unpaired interval. With none unpaired the manual names no place: free values. -/
def Ctl.rehLost (c : Ctl) : Ctl :=
  if !c.rehearsing then c
  else match c.reh.sent.head? with
    | some s => c.rehMismatch s.quad 3 s.sceneNo s.offset
    | none =>
      let v := c.draw
      let x := v.1.toNat
      v.2.rehMismatch (bits x 0 2) 3 (BitVec.ofNat 32 (bits x 2 32)) (bits x 34 32)

/-! ### Sending (R294) -/

/-- The data bits of an RSIG (R212). -/
def rsigHeader (q : Nat) (scene : BitVec 32) (sig : BitVec 64) : Nat := 8 + (q <<< 4) + (scene.toNat <<< 32) + (sig.toNat <<< 64)

/-- Insert an event in ascending (offset, place). -/
def insEvent (e : RehEvent) : List RehEvent → List RehEvent
  | [] => [e]
  | f :: t => if e.off < f.off ∨ (e.off = f.off ∧ e.key < f.key) then e :: f :: t else f :: insEvent e t

/-- Absorb the events of a scene below offset `hi`, in order, into the signature of quadrant q. -/
def Ctl.rehAbsorb (c : Ctl) (e0 hi q : Nat) : BitVec 64 :=
  ((c.reh.events.filter fun e => decide (e.ec0 = e0 ∧ e.off < hi ∧ e.quad = q)).foldr insEvent []).foldl (fun s e => crc64 s e.bytes) (c.rehSig q)

/-- Every event of a scene below offset `hi` is known: no write access of the group in it awaits its status. -/
def Ctl.rehKnown (c : Ctl) (e0 hi : Nat) : Bool :=
  (c.members c.rehGroup).all fun n => (c.seq n).writes.all fun a => a.told || decide (a.ec0 ≠ e0 ∨ e0 + hi ≤ a.w)

/-- One RSIG of a quadrant leaves for the twin; with 64 unpaired the partner is LOST. -/
def Ctl.rehSendOne (c : Ctl) (s : RehScene) (hi off q : Nat) : Ctl :=
  let v := c.rehAbsorb s.ec0 hi q
  let c := (c.setReg (oRehSig q) v).sendCtl 16 (rsigHeader q s.sceneNo v)
  let c : Ctl := { c with reh := { c.reh with sigs := Tab.set 0xFFFFFFFFFFFFFFFF c.reh.sigs q v, sent := c.reh.sent ++ [{ quad := q, sceneNo := s.sceneNo, offset := off, sig := v }] } }
  let c := if c.rehOpen q = 64 then
      match c.reh.sent.find? fun s => decide (s.quad = q) with
      | some o => c.rehMismatch q 3 o.sceneNo o.offset
      | none => c
    else c
  c.rehPair q

/-- RSIG_SEND: the next interval of the oldest scene, once it has ended and its events are known. A scene has intervals 0 to
floor((L − 1) / 2^SUB_EXP), and an empty body has interval 0: where none is left the scene is done. -/
def Ctl.rehSend (c : Ctl) : Ctl :=
  match c.reh.scenes with
  | [] => c
  | s :: t =>
    let done := (c.members c.rehGroup).all fun n => !(c.seq n).inScene || decide ((c.seq n).ec0 ≠ s.ec0)
    let len := match s.len with | some l => some l | none => if done then some (c.rehLength s.ec0) else none
    let off := s.next * c.rehStep
    let hi := off + c.rehStep
    let ended := len.isSome || decide (s.ec0 + hi ≤ c.ec)
    let spent := decide (s.next ≠ 0) && (match len with | some l => decide (l ≤ off) | none => false)
    if !c.rehearsing || c.blackout || !c.sysReady then c
    else if spent then { c with reh := { c.reh with scenes := t } }
    else if !ended || !c.rehKnown s.ec0 hi then c
    else
      let c := forAll (List.range 4) (fun q c => c.rehSendOne s hi off q) c
      let last := match len with | some l => decide (l ≤ hi) | none => false
      let c : Ctl := { c with reh := { c.reh with events := c.reh.events.filter fun e => decide (e.ec0 ≠ s.ec0 ∨ hi ≤ e.off) } }
      { c with reh := { c.reh with scenes := if last then t else { s with next := s.next + 1, len := len } :: t } }

/-- A received RSIG with fields `h`. -/
def Ctl.rehTake (c : Ctl) (h : Nat) : Ctl :=
  if !c.rehearsing then c
  else
    let q := bits h 4 2
    let s : RSig := { quad := q, sceneNo := BitVec.ofNat 32 (bits h 32 32), offset := 0, sig := BitVec.ofNat 64 (bits h 64 64) }
    ({ c with reh := { c.reh with got := c.reh.got ++ [s] } } : Ctl).rehPair q

/-- A twin-only packet without payload (R212): in safe state it changes nothing (R307). -/
def Ctl.twinCtl (c : Ctl) (kind : Nat) (b : LinkBeat) (f : Ctl → Nat → Ctl) : Ctl :=
  c.ctlArrives 16 kind b fun c h => if c.blackout then c else f c h

/-- RSIG_SEND. -/
def execRsigSend (s : State) : Out := onUnit true s fun c => c.rehSend
/-- RSIG. -/
def execRsig (beat : LinkBeat) (s : State) : Out := onUnit true s fun c => c.twinCtl 8 beat fun c h => c.rehTake h

end Sys2Proof.Machine
end

