-- ==== Sys2Proof/Machine/Heads.lean ====
section
/-! DEFINITION. Fetch, traps, scene heads and the commands of a sequencer (R65, R69, R72 to R85, R101, R159, R164, R177 to R179). -/

namespace Sys2Proof.Machine

/-! ### What leaves the units of a sequencer -/

/-- An entry of the read-ahead wing leaves it at the end of ec `w`. -/
def RaEntry.leave (w : Nat) (e : RaEntry) : RaEntry := { e with gone := some (min w (e.gone.getD w)) }

/-- A gather unit has made its last fetch and delivered its last output by ec `e` (R129). -/
def Gather.over (g : Gather) (e : Nat) : Bool := decide (g.busyTo < e) && g.outs.isEmpty

/-- The gather unit of a sequencer has nothing in flight in ec `e`. -/
def Seq.gatherOver (q : Seq) (e : Nat) : Bool := match q.gather with | some g => g.over e | none => true

/-! ### Fetch (R76, R77, R256) -/

/-- The place of a script-store granule in the log table (MIO_ECC_LOG_e, PATH 4). REQ has no meaning stated there: a free value. -/
def storeSite (k : Nat) (req : BitVec 8) : EccSite :=
  { cnt := 6, path := 4, req := req.toNat, bank := k % 16, row := (k / 32768) * 2048 + k % 32768 / 16 }

/-- Count, log and raise a script-store granule in error once for each content (R77, R256), and note the correction rewrite. -/
def Ctl.storeRecord (c : Ctl) (k : Nat) (d : Decoded) : Ctl :=
  if (d.fixed = 0 ∧ ¬ d.bad ∧ ¬ d.pois) ∨ k ∈ c.storeSeen then c
  else
    let v := c.draw
    let c := v.2.eccRecord (storeSite k (v.1.setWidth 8)) d
    { c with storeSeen := k :: c.storeSeen, storeFix := if d.fixed ≠ 0 ∧ ¬ d.bad then k :: c.storeFix else c.storeFix }

/-- A fetch of word `i` of a half: the word, and whether it is poisoned (R76, R77). How far the fetch path runs ahead of the words that
are evaluated or executed the manual leaves open: the model fetches, and so counts and logs, those words alone (DESIGN CHOICE, log
entry 96). -/
def Ctl.fetch (c : Ctl) (half : Bool) (i : Nat) : Ctl × Nat × Bool :=
  let k := half.toNat * 32768 + i / 2 % 32768
  let d := decodeG false (Tab.get fillGranule c.store k)
  (c.storeRecord k d, bits (gData d.word) (128 * (i % 2)) 128, d.bad || d.pois)

/-! ### Traps (R79, R80) -/

/-- The scene of a sequencer ends in ec `e`: EC_OFFSET stops (MIO_SEQ_SCENE_n). -/
def Seq.endScene (q : Seq) (e : Nat) : Seq :=
  if q.inScene then { q with inScene := false, offset := e - q.ec0 } else q

/-- Sequencer `n` traps in ec `e` at word `pc` (R79, R80). -/
def Ctl.trap (c : Ctl) (n cause pc e : Nat) : Ctl :=
  let q := (c.seq n).endScene e
  let c := c.setSeq n { q with state := .trapped, pc := pc, lastPc := pc, head := [], evaluated := false, parkPend := false, parkAt := none, loadHold := false, lend := false }
  let c := [(seqTrap_CAUSE, cause), (seqTrap_HALF, q.half.toNat), (seqTrap_PC, pc), (seqTrap_SCENE_NO, q.sceneNo.toNat)].foldl
    (fun c x => c.setFld (oSeqTrap n) x.1 x.2) c
  c.raise 9 (seqUnit (c.groupOf n) n)

/-! ### Heads (R69, R72, R164) -/

/-- Place of WTk in MIO_SEQ_WT_n (R69). -/
def wtPos (k : Nat) : FieldPos := ⟨k / 2, 32 * (k % 2), 32⟩

/-- WTk of sequencer `n`. -/
def Ctl.wt (c : Ctl) (n k : Nat) : Nat := c.fld (oSeqWt n) (wtPos k)

/-- What the evaluation of a head came to: the words after it, or a trap (cause, word). -/
structure HeadEval where
  conds : List HeadCond := []
  body  : Nat := 0
  loops : List LoopEntry := []
  trap  : Option (Nat × Nat) := none
  deriving DecidableEq, Repr

/-- Evaluation of the head words from position `k` on, at most `fuel` of them. A poisoned word belongs to the head when
its corrected bits still decode as WAIT (log entry 11). -/
def Ctl.evalHead (c : Ctl) (n : Nat) (q : Seq) : Nat → Nat → Nat → List LoopEntry → List HeadCond → Ctl × HeadEval
  | 0, _, pc, loops, acc => (c, { conds := acc, body := pc, loops := loops })
  | fuel + 1, k, pc, loops, acc =>
    if 65535 < pc then (c, { conds := acc, body := pc, loops := loops })
    else
      let r := c.fetch q.half pc
      let c := r.1
      let w := r.2.1
      if wOp w ≠ 4 then (c, { conds := acc, body := pc, loops := loops })
      else
        let cause := q.trapCause n pc w r.2.2 true
        if cause ≠ 0 then (c, { conds := acc, body := pc, loops := loops, trap := some (cause, pc) })
        else
          let c := if wKind w = 1 then c
            else c.setFld (oSeqWt n) (wtPos k) (if wMode w = 1 then c.wt n k + wValue w else wValue w)
          let nx := nextPc pc loops
          Ctl.evalHead c n q fuel (k + 1) nx.1 nx.2
            (acc ++ [{ curtain := decide (wKind w = 1), target := wTarget w, scope := wScope w }])

/-- The word at index `pc` opens a scene for a WAITING sequencer: evaluation in ec `e` of the SCENE word and of its
head. After START or a group swap the word may be another one and traps (R79 cause ENTRY, R102). Where a load has put another word in
the place of the SCENE word of a held sequencer the manual names no outcome: the model traps with ENTRY too (DESIGN CHOICE, log
entry 98). -/
def Ctl.evalScene (c : Ctl) (n e : Nat) : Ctl :=
  let q := c.seq n
  let r := c.fetch q.half q.pc
  let c := r.1
  let w := r.2.1
  let cause := q.trapCause n q.pc w r.2.2 false
  let cause := if wOp w = 5 then cause else if cause = 0 then 9 else min cause 9
  if cause ≠ 0 then c.trap n cause q.pc e
  else
    let nx := nextPc q.pc q.loops
    let h := Ctl.evalHead c n q 8 0 (nx.1 % 65536) nx.2 []
    let c := h.1
    match h.2.trap with
    | some (cause, pc) => c.trap n cause pc e
    | none =>
      let q : Seq := { q with head := h.2.conds, bodyPc := h.2.body, bodyLoops := h.2.loops }
      let q : Seq := { q with evaluated := true, evalEc := e }
      c.setSeq n { q with nextNo := if wInc w then q.baseNo + 1 else BitVec.ofNat 32 (wSceneNo w) }

/-- One head condition, sampled in ec `x` (R164). -/
def Ctl.condMet (c : Ctl) (n k x : Nat) (h : HeadCond) : Bool :=
  if h.curtain then c.curMet h.target n x else reached (c.cntAt h.target x) (c.wt n k)

/-- The scope recorded by the release that met a condition, seen in ec `x`. -/
def Ctl.condScope (c : Ctl) (x : Nat) (h : HeadCond) : Nat :=
  if h.curtain then c.fld (oCurStat h.target) curStat_REL_SCOPE else c.cntScopeAt h.target x

/-- Sample head conditions from position `k` on in ec `x`: a met condition stays met, and a scope mismatch is recorded (R155). -/
def Ctl.sampleConds (c : Ctl) (n x : Nat) : Nat → List HeadCond → Ctl × List HeadCond
  | _, [] => (c, [])
  | k, h :: t =>
    let now := !h.met && c.condMet n k x h
    let c := if now then c.scopeEvent (c.condScope x h) h.scope h.curtain.toNat h.target 0 n else c
    let r := Ctl.sampleConds c n x (k + 1) t
    (r.1, { h with met := h.met || now } :: r.2)

/-- Sample the head of a WAITING sequencer in ec `x`, from the ec after its evaluation on. -/
def Ctl.sampleHead (c : Ctl) (n x : Nat) : Ctl :=
  let q := c.seq n
  if q.state = .waiting ∧ q.evaluated ∧ q.evalEc < x ∧ ¬ c.blackout then
    let r := c.sampleConds n x 0 q.head
    r.1.setSeq n { q with head := r.2 }
  else c

/-- Every head condition is met (MIO_SEQ_STAT_n.HEAD_MET). -/
def Seq.headMet (q : Seq) : Bool := decide (q.state = .waiting) && q.evaluated && q.head.all fun h => h.met

/-- The sequencer is ready in ec `x` (R73, R164). -/
def Seq.readyAt (q : Seq) (x : Nat) : Bool := q.headMet && decide (q.evalEc < x) && !q.loadHold

/-! ### Scene starts (R73, R84 to R86, R98) -/

/-- HOLD of a quadrant that the group uses keeps it from starting (R98). -/
def Ctl.groupHeld (c : Ctl) (g : Nat) : Bool :=
  (List.range 4).any fun q => Nat.testBit (c.fld oCsCtrl ⟨0, 0, 4⟩) q && c.groupUses g q

/-- Every required sequencer of group `g` is ready in ec `x`, and nothing holds the group. -/
def Ctl.groupReady (c : Ctl) (g x : Nat) : Bool :=
  let ms := (c.members g).map c.seq
  c.sysReady && !c.blackout && !(c.group g).intmHeld && !c.groupBusy g && !c.groupHeld g
    && decide (c.boot.pause = none) && decide (c.fld oPwrMode pwrMode_STATE = 0)
    && ms.any (fun q => decide (q.state ≠ .halted)) && ms.all fun q => decide (q.state = .halted) || q.readyAt x

/-- Sample the heads of a group in ec `x`, and note the first ec in which it is ready. -/
def Ctl.groupSample (c : Ctl) (g x : Nat) : Ctl :=
  let c := forAll (c.members g) (fun n c => c.sampleHead n x) c
  let u := c.group g
  c.setGroup g { u with ready := if c.groupReady g x then some (u.ready.getD x) else none }

/-- First ec at or after m + 4 whose first bc has a slot index that is a multiple of 2^ALIGN_LOG (R85). -/
def sceneEc (m align : Nat) : Nat :=
  let h := 2 ^ (align - 1)
  (m + 4 + h - 1) / h * h

/-- An armed intermission takes effect at the start decision that group `g` comes to (R277): the next one, or the one of the scene with
the number AT_SCENE. The number of a scene of a group is that of its lowest-numbered sequencer that takes part (R74, log entry 27). -/
def Ctl.intmStops (c : Ctl) (g : Nat) : Bool :=
  decide (c.fld oIntmStat intmStat_PHASE = 1) && Nat.testBit (c.fld oIntmCfg intmCfg_GROUPS) g
    && (match c.audit.saveAt with
        | none => true
        | some k => (match (c.members g).find? fun n => decide ((c.seq n).state ≠ .halted) with
          | some n => decide ((c.seq n).nextNo = k)
          | none => false))

/-- The start decision of group `g` (R85): taken in its first ready ec; the pwr_lend bits of the sequencers that take part fall in the
ec after it (R179); those of HALTED sequencers of the group stay, as they stay parked (DEDUCED, log entry 134). An armed intermission holds the
group instead (R277). -/
def Ctl.startDecision (c : Ctl) (g : Nat) : Ctl :=
  let c := c.groupSample g c.ec
  match (c.group g).ready with
  | none => c
  | some m =>
    if c.intmStops g then c.setGroup g { c.group g with intmHeld := true, ready := none }
    else
    let who := (c.members g).filter fun n => decide ((c.seq n).state ≠ .halted)
    let c := forAll who (fun n c => c.setSeq n { c.seq n with lendOff := some (m + 1) }) c
    c.setGroup g { c.group g with decided := some (sceneEc m (c.fld (oGrpCfg g) grpCfg_ALIGN_LOG)), who := who, ready := none }

/-- Sequencer `n` begins its scene in ec `e`: met curtains are consumed (R170), which in safe state do not change (R307), and the body
begins. -/
def Ctl.seqSceneStart (c : Ctl) (n e : Nat) : Ctl :=
  let q := c.seq n
  if q.state ≠ .waiting then c
  else
    let c := c.rehHead n e q.head ((List.range 8).map (c.wt n))
    let c := if c.blackout then c else forAll ((q.head.filter fun h => h.curtain).map fun h => h.target) (fun k c => c.curConsume k n) c
    let q : Seq := { q with state := .running, sceneNo := q.nextNo, baseNo := q.nextNo, ec0 := e, inScene := true, offset := 0 }
    c.setSeq n { q with pc := q.bodyPc, lastPc := q.bodyPc, loops := q.bodyLoops, wordEc := e, head := [], evaluated := false }

/-- The scene-start broadcast of group `g`, once its ec 0 has come (R73). A scene that starts under a brownout is marked (R292). -/
def Ctl.sceneStart (c : Ctl) (g : Nat) : Ctl :=
  let u := c.group g
  match u.decided with
  | none => c
  | some e =>
    if c.sysReady ∧ e ≤ c.ec then
      let c := c.rehBegin g e u.who
      let c := forAll u.who (fun n c => c.seqSceneStart n e) c
      let c := if c.fld oPwrOp pwrOp_BROWNOUT = 1 then c.flag (oProvGflag g) provGflag_TIMING_SUSPENDED else c
      c.setGroup g { u with decided := none, who := [], ready := none }
    else c

/-! ### Commands (R81, R82, R159) -/

/-- A command or a configuration write is refused (R82). -/
def Ctl.seqRefuse (c : Ctl) (n : Nat) : Ctl := c.flag (oSeqStat n) seqStat_CMD_REFUSED

/-- A load into a half is in progress (MIO_SS_STAT). -/
def Ctl.loading (c : Ctl) (half : Bool) : Bool := decide (c.fld oSsStat (if half then ssStat_LOAD_B else ssStat_LOAD_A) = 1)

/-- START: WAITING at the entry word, which the SCENE command then evaluates; the read-ahead wing is emptied (R82, R159). The write wing is
empty by then unless START comes soon after a HALT or a trap: groups that it still holds stay, and issue at their due ec (DESIGN CHOICE,
log entry 130). -/
def Ctl.seqStart (c : Ctl) (n : Nat) : Ctl :=
  let q := c.seq n
  if q.state ≠ .halted then c.seqRefuse n
  else
    let half := decide (c.fld (oSeqCfg n) seqCfg_ENTRY_HALF = 1)
    let pc := c.fld (oSeqCfg n) seqCfg_ENTRY_PC
    let q : Seq := { q with state := .waiting, half := half, pc := pc, lastPc := pc, loops := [], baseNo := 0, head := [] }
    c.setSeq n { q with evaluated := false, waitSince := c.ec, parkPend := false, parkAt := none, loadHold := c.loading half, ra := q.ra.map (RaEntry.leave c.ec) }

/-- A sequencer enters HALTED from WAITING, as when a PARK takes effect. -/
def Seq.halt (q : Seq) : Seq := { q with state := .halted, head := [], evaluated := false, parkPend := false, parkAt := none, loadHold := false }

/-- A start decision of its group stands for sequencer n (R86). -/
def Ctl.startStands (c : Ctl) (n : Nat) : Bool :=
  let u := c.group (c.groupOf n)
  decide (u.decided.isSome ∧ n ∈ u.who)

/-- PARK (R82, R86): a WAITING sequencer with no start decision shows its outcome at the end of the cc, since a decision taken in
that cc still stands. -/
def Ctl.seqPark (c : Ctl) (n : Nat) : Ctl :=
  let q := c.seq n
  if q.state = .running then c.setSeq n { q with parkPend := true }
  else if q.state = .waiting then
    if c.startStands n then c.setSeq n { q with parkPend := true } else c.setSeq n { q with parkAt := some (4 * (c.cc + 1)) }
  else c.seqRefuse n

/-- The end of the cc of a PARK in WAITING, in ec `x`: a scene that was decided meanwhile runs, else the sequencer is HALTED. -/
def Ctl.parkSettle (c : Ctl) (n x : Nat) : Ctl :=
  let q := c.seq n
  match q.parkAt with
  | none => c
  | some d =>
    if x < d then c
    else if q.state = .running ∨ (q.state = .waiting ∧ c.startStands n) then c.setSeq n { q with parkAt := none, parkPend := true }
    else if q.state = .waiting then c.setSeq n q.halt
    else c.setSeq n { q with parkAt := none }

/-- The PARKs that settle in ec `x`. -/
def Ctl.parksSettle (c : Ctl) (x : Nat) : Ctl :=
  forAll ((c.seqs.filter fun e => e.2.parkAt.isSome).map fun e => e.1) (fun n c => c.parkSettle n x) c

/-- RESET (R82, R159). Groups that the write wing still holds stay, as at START (log entry 130). -/
def Ctl.seqReset (c : Ctl) (n : Nat) : Ctl :=
  let q := c.seq n
  if q.state = .halted ∨ q.state = .trapped then
    let since := if q.state = .halted then q.parkedSince else c.ec
    let c := c.setSeq n { q.halt with ag0 := {}, ag1 := {}, loops := [], ra := q.ra.map (RaEntry.leave c.ec), parkedSince := since }
    forAll (List.range 8) (fun k c => c.setFld (oSeqWt n) (wtPos k) 0) c
  else c.seqRefuse n

/-- A write of MIO_SEQ_CTRL_n (R82). -/
def Ctl.seqCtrl (c : Ctl) (n cmd : Nat) : Ctl :=
  if cmd = 1 then c.seqStart n else if cmd = 2 then c.seqPark n else if cmd = 3 then c.seqReset n else c

/-! ### Hang reports and the watchdog (R177, R178) -/

/-- The entry of sequencer `n` in a hang report. -/
def Ctl.hangSeq (c : Ctl) (n : Nat) : Ctl :=
  let q := c.seq n
  let wait := if q.state = .waiting then min (c.ec - q.waitSince) (2 ^ 32 - 1) else 0
  let st := match q.state with | .halted => 0 | .waiting => 1 | .running => 2 | .trapped => 3
  let k := q.head.findIdx fun h => !h.met
  let u : Option HeadCond := q.head.find? fun h => !h.met
  let x := match u with
    | none => (0, 0, 0, 0, 0)
    | some h =>
      if h.curtain then
        let p := (c.curtain h.target).part n
        let s := match p.state with | .out => 0 | .entered => 1 | .latched => 2
        (k, 1, h.target, p.parity.toNat + 2 * s, ((c.curtain h.target).round p.parity).total % 65536)
      else (k, 0, h.target, c.wt n k, c.cntAt h.target c.ec)
  let c := c.setReg (oHangSeq n) 0
  let c := [(hangSeq_STATE, st), (hangSeq_HEAD_MET, q.headMet.toNat), (hangSeq_GROUP, c.groupOf n), (hangSeq_UNMET_POS, x.1),
    (hangSeq_UNMET_KIND, x.2.1), (hangSeq_TARGET, x.2.2.1), (hangSeq_WAIT_EC, wait)].foldl (fun c y => c.setFld (oHangSeq n) y.1 y.2) c
  (c.setFld (oHangSeqv n) hangSeqv_WT x.2.2.2.1).setFld (oHangSeqv n) hangSeqv_VALUE x.2.2.2.2

/-- The entry of an armed stream context in a hang report. -/
def Ctl.hangStr (c : Ctl) (j x : Nat) : Ctl :=
  let k := c.fld (oStrCtx x) strCtx_TRIG_CNT
  [(hangStr_CONTEXT, x), (hangStr_COUNTER, k), (hangStr_TARGET, c.fld (oStrCtx x) strCtx_TRIG_TARGET),
    (hangStr_VALUE, c.cntAt k c.ec)].foldl (fun c y => c.setFld (oHangStr j) y.1 y.2) c

/-- A hang report (R178): REASON 1 WATCHDOG or 2 TAG_STALL. While one is held it only sets OVERFLOW. Entries MIO_HANG_STR_j from STR_COUNT on, and
MIO_HANG_TAG in a report of a watchdog, keep what an earlier report left there: the manual gives them no value (DESIGN CHOICE, log entry
133). -/
def Ctl.hangReport (c : Ctl) (reason g n : Nat) : Ctl :=
  if c.fld oHangHdr hangHdr_VALID = 1 then c.flag oHangHdr hangHdr_OVERFLOW
  else
    let ws := c.liveCtxs.filter fun x => decide (c.ctxState x = 1)
    let c := forAll (List.range Config.seqs) (fun n c => c.hangSeq n) c
    let c := forAll (List.range (min 256 ws.length)) (fun j c => c.hangStr j (ws.getD j 0)) c
    [(hangHdr_REASON, reason), (hangHdr_GROUP, g), (hangHdr_SEQ, n), (hangHdr_STR_COUNT, min 256 ws.length),
      (hangHdr_STR_OMIT, (decide (256 < ws.length)).toNat), (hangHdr_FRAME, frameOf c.bc)].foldl
      (fun c x => c.setFld oHangHdr x.1 x.2) (c.flag oHangHdr hangHdr_VALID)

/-- The sequencers of group `g` whose count of ec in WAITING has reached LIMIT (R177). -/
def Ctl.overdue (c : Ctl) (g : Nat) : List Nat :=
  let limit := c.fld (oWdog g) wdog_LIMIT
  if limit = 0 then [] else
    (c.members g).filter fun n => decide ((c.seq n).state = .waiting ∧ limit ≤ c.ec - (c.seq n).waitSince)

/-- The watchdog of group `g` expires (R177), unless its start decision has been taken or is taken in this ec. R307 does not name it: it expires
in safe state too (DEDUCED, log entry 82). -/
def Ctl.watchdog (c : Ctl) (g : Nat) : Ctl :=
  let c := c.groupSample g c.ec
  match c.overdue g with
  | [] => c
  | n :: _ =>
    if (c.group g).decided.isSome ∨ ¬ c.sysReady ∨ ((c.group g).ready.isSome ∧ ¬ c.intmStops g) then c
    else
      let c := (c.hangReport 1 g n).raise 11 (seqUnit g n)
      forAll (c.members g) (fun n c => if (c.seq n).state = .waiting then c.setSeq n (c.seq n).halt else c) c

/-- A sequencer is parked with nothing in flight in ec `e` (R179). -/
def Seq.idle (q : Seq) (e : Nat) : Bool :=
  decide (q.state = .halted ∨ q.state = .waiting) && (q.reads.all fun r => r.done) && (q.writes.all fun w => w.done)
    && q.gatherOver e

/-- LEND_ASSERT (R179). -/
def Ctl.lendAssert (c : Ctl) (n : Nat) : Ctl :=
  let q := c.seq n
  let t := c.fld oSyncCfg syncCfg_LEND_THRESH
  if c.sysReady ∧ t ≠ 0 ∧ q.idle c.ec ∧ t ≤ c.ec - q.parkedSince ∧ (c.group (c.groupOf n)).decided = none then
    c.setSeq n { q with lend := true, lendOff := none }
  else c

/-! ### The commands -/

/-- START. -/
def execStart (n : Nat) (s : State) : Out := onUnit (decide (n < Config.seqs)) s fun c => c.ctlWrite (.start n) 3 fun c => c.seqStart n
/-- PARK. -/
def execPark (n : Nat) (s : State) : Out := onUnit (decide (n < Config.seqs)) s fun c => c.ctlWrite (.park n) 3 fun c => c.seqPark n
/-- RESET. -/
def execReset (n : Nat) (s : State) : Out := onUnit (decide (n < Config.seqs)) s fun c => c.ctlWrite (.reset n) 3 fun c => c.seqReset n
/-- START_DECISION. -/
def execStartDecision (g : Nat) (s : State) : Out := onUnit (decide (g < Config.groups)) s fun c => c.startDecision g
/-- SCENE_START. -/
def execSceneStart (g : Nat) (s : State) : Out := onUnit (decide (g < Config.groups)) s fun c => c.sceneStart g
/-- WATCHDOG_EXPIRY. -/
def execWatchdogExpiry (g : Nat) (s : State) : Out := onUnit (decide (g < Config.groups)) s fun c => c.watchdog g
/-- LEND_ASSERT. -/
def execLendAssert (n : Nat) (s : State) : Out := onUnit (decide (n < Config.seqs)) s fun c => c.lendAssert n

end Sys2Proof.Machine
end

