-- ==== Sys2Proof/Machine/Wing.lean ====
section
/-! DEFINITION. The write wing, the issue of accesses by RUN, and FLUSH (R39, R44, R68, R139 to R145, R124 to R129). -/

namespace Sys2Proof.Machine

/-! ### Profiles and times of a write access (R92, R139, R142) -/

/-- The lanes of a group that were not absorbed into an older entry. -/
def WAccess.own (a : WAccess) : List WLane := a.lanes.filter fun l => decide (l.follow = none)

/-- First, or only, bank-access bc (R92, R139). -/
def WAccess.firstBc (a : WAccess) : Nat :=
  if a.profile < 3 then 2 * a.t + 2 + 2 * a.profile
  else if a.acc.isSome then 2 * a.t + 2 + 2 * (a.profile - 3) else 2 * a.t + 10 + 2 * (a.profile - 3)

/-- Last bank-access bc. -/
def WAccess.lastBc (a : WAccess) : Nat :=
  if a.profile < 3 then 2 * a.t + 2 + 2 * a.profile else 2 * a.t + 10 + 2 * (a.profile - 3)

/-- Commit latency W of a profile (R32, R139). -/
def Ctl.commitLat (c : Ctl) (p : Nat) : Nat := c.writeLat (p % 3) + (if p < 3 then 0 else c.fld oLatMap latMap_ADD_ACC)

/-- The ec from which the access is visible (R33). -/
def Ctl.visibleEc (c : Ctl) (a : WAccess) : Nat := a.t + c.commitLat a.profile

/-- Status ec (R46). -/
def Ctl.statusEc (c : Ctl) (a : WAccess) : Nat := a.t + c.writeLat 2 + c.fld oLatMap latMap_ADD_ACC + 1

/-- Two groups name a common granule. -/
def WAccess.meets (a b : WAccess) : Bool := a.own.any fun x => b.own.any fun y => decide (x.gi = y.gi)

/-- The profile of an access after the earlier accesses `prior` of its channel (R139). An earlier access whose last
bank-access bc is the first bc of ec t has not passed it (log entry 12). -/
def Ctl.profileOf (c : Ctl) (n : Nat) (prior : List WAccess) (a : WAccess) : Nat :=
  let p0 := c.accessClass n (a.own.map fun l => l.gi) + (if a.acc.isSome then 3 else 0)
  prior.foldl (fun p b => if !b.index && a.meets b && decide (2 * a.t ≤ b.lastBc) then max p b.profile else p) p0

/-- Recompute the profiles of the accesses that are not issued by ec `f`. -/
def Ctl.reprofile (c : Ctl) (n f : Nat) : List WAccess → List WAccess → List WAccess
  | prior, [] => prior
  | prior, a :: t =>
    Ctl.reprofile c n f (prior ++ [if f < a.t ∧ ¬ a.index then { a with profile := c.profileOf n prior a } else a]) t

/-! ### Sampling (R44, R142) -/

/-- The newest entry for a granule in the groups not issued by ec `w`: access, lane, whether it is plain. -/
def Seq.newestEntry (q : Seq) (w gi : Nat) : Option (Nat × Nat × Bool) :=
  match q.writes.reverse.find? fun a => !a.index && decide (w < a.t) && a.own.any fun l => decide (l.gi = gi) with
  | none => none
  | some a => match a.own.reverse.find? fun l => decide (l.gi = gi) with
    | none => none
    | some l => some (a.id, l.lane, decide (a.acc = none))

/-- Replace the data of a held entry. -/
def Seq.replaceEntry (q : Seq) (id lane : Nat) (g : Granule) (fault : Bool) : Seq :=
  { q with writes := q.writes.map fun a =>
      if a.id = id then { a with lanes := a.lanes.map fun l => if l.lane = lane then { l with granule := g, fault := fault } else l } else a }

/-- The check of one sampled lane at the write channel (R47, R249, R256): the granule that goes on, and whether it is at
fault. A lane that the engine did not drive is supplied by the block (R44) and counted as POISONED (log entry 13). -/
def Ctl.writeCheck (c : Ctl) (n gi : Nat) (rep : Bool) (g : Option Granule) : Ctl × Granule × Bool :=
  let site := { c.portSite 7 5 n gi with unit := 0x00FF }
  match g with
  | none => (c.eccRecord site ⟨false, 0, 0x1FF, true, poisonGranule rep⟩, poisonGranule rep, true)
  | some g =>
    let d := decodeG rep g
    (c.eccRecord site d, d.word, d.bad || d.pois)

/-- The granule that the engine drives on lane `k`. -/
def driven (d : EngineDrive) (k : Nat) : Option Granule :=
  if d.valid && d.lanes.getLsbD k then some (d.data.getD k 0) else none

/-- Lanes that the engine drives although the sequencer did not issue them are counted (R44). -/
def Ctl.countStray (c : Ctl) (n : Nat) (issued : Nat) (d : EngineDrive) : Ctl :=
  c.satAdd (oPstat n) pstat_STRAY (if d.valid then ((List.range 8).filter fun k => d.lanes.getLsbD k && decide (issued ≤ k)).length else 0)

/-- Sample lane `k` of the access `id` in write ec `w`. -/
def Ctl.sampleLane (c : Ctl) (n w : Nat) (plain : Bool) (d : EngineDrive) (k gi : Nat) : Ctl × WLane :=
  let r := c.writeCheck n gi (c.repOf gi) (driven d k)
  let c := r.1
  let g := r.2.1
  let fault := r.2.2
  let raw := (driven d k).getD g
  match (c.seq n).newestEntry w gi with
  | some (id, lane, true) =>
    if plain then
      (c.setSeq n ((c.seq n).replaceEntry id lane g fault), { lane := k, gi := gi, granule := g, fault := fault, follow := some (id, lane), seen := raw })
    else (c, { lane := k, gi := gi, granule := g, fault := fault, seen := raw })
  | _ => (c, { lane := k, gi := gi, granule := g, fault := fault, seen := raw })

/-- Sample the lanes of one access in ascending order. -/
def Ctl.sampleLanes (c : Ctl) (n w : Nat) (plain : Bool) (d : EngineDrive) : Nat → List Nat → Ctl × List WLane
  | _, [] => (c, [])
  | k, gi :: t =>
    let r := c.sampleLane n w plain d k gi
    let r2 := Ctl.sampleLanes r.1 n w plain d (k + 1) t
    (r2.1, r.2 :: r2.2)

/-- Read-ahead entries for granules in `gis` are removed at the end of ec `w` (R148). -/
def raDrop (w : Nat) (gis : List Nat) (l : List RaEntry) : List RaEntry :=
  l.map fun e => if gis.contains e.gi ∧ e.since ≤ w then e.leave w else e

/-- A write access in write ec `w` (R44, R46, R142). -/
def Ctl.issueWrite (c : Ctl) (n w : Nat) (gis : List Nat) (acc : Option Nat) (d : EngineDrive) : Ctl :=
  let c := c.countStray n gis.length d
  let r := c.sampleLanes n w (decide (acc = none)) d 0 gis
  let c := r.1
  let q := c.seq n
  let due := w + 1 + c.fld (oWing n) wingCfg_LINGER
  let t := max due (q.lastT + 1)
  let a : WAccess := { id := q.writeCount, seqNo := q.seqCount, w := w, due := due, t := t, acc := acc, lanes := r.2, mask := BitVec.ofNat 8 (2 ^ gis.length - 1) }
  let a : WAccess := { a with sceneNo := q.sceneNo, ec0 := q.ec0 }
  let a : WAccess := { a with profile := c.profileOf n q.writes a }
  let q : Seq := { q with writes := q.writes ++ [a], lastT := t, writeCount := q.writeCount + 1, seqCount := q.seqCount + 1 }
  c.setSeq n { q with ra := raDrop w gis q.ra }

/-! ### Reads (R31, R40, R41, R108, R110, R116, R141) -/

/-- The write access and lane that a read lane issued in ec `e` forwards from: the newest pending write of the granule (R141). Where a write of
the read's own ec has been absorbed into an entry held from before, the entry holds the new data alone: R141 names the value from before that
write and R143 hides replaced data from every reader, and the model lets the read forward the entry (DESIGN CHOICE, log entry 129). -/
def Ctl.forwardOf (c : Ctl) (n e gi : Nat) : Option (Nat × Nat) :=
  let q := c.seq n
  let home := fun (x : Nat × Nat) => q.writes.find? fun a => decide (a.id = x.1)
  let all := q.writes.reverse.flatMap fun a =>
    if a.index ∨ e ≤ a.w then [] else (a.lanes.reverse.filter fun l => decide (l.gi = gi)).map fun l => l.follow.getD (a.id, l.lane)
  all.find? fun x => match home x with | some a => decide (e < c.visibleEc a) | none => false

/-- The scale granule of an MX access (R116). -/
def scaleGi (opmode oparg : Nat) (gis : List Nat) : List Nat :=
  if opmode = 1 ∧ srcMx (argSrc oparg) then [gis.headD 0 / mxGroup (argSrc oparg) * mxGroup (argSrc oparg)] else []

/-- Latency adders of an OPMODE (R32). -/
def Ctl.readAdd (c : Ctl) (opmode : Nat) : Nat :=
  (if opmode = 1 ∨ opmode = 3 then c.fld oLatMap latMap_ADD_CONV else 0) + (if opmode = 2 ∨ opmode = 3 then c.fld oLatMap latMap_ADD_TRANS else 0)

/-- The fetch whose output granule a gather unit delivers in ec `d`, `lat` ec after its issue (R127). -/
def Gather.outAt (g : Gather) (lat d : Nat) : Option Nat :=
  if d < lat + g.s + 1 then none
  else
    let f := d - lat - g.s - 1
    if f < g.limit ∧ f / g.nRow % g.bag = g.bag - 1 then some f else none

/-- Latency of a gather output from the fetch it counts as issued in: READ_C + ADD_ACC (R127). -/
def Ctl.gatherLat (c : Ctl) : Nat := c.readLat 2 + c.fld oLatMap latMap_ADD_ACC

/-- A read access issued in ec `e` with class `cls`. Of two reads with one delivery ec the later-issued one is discarded (R41). -/
def Ctl.issueRead (c : Ctl) (n e : Nat) (gis : List Nat) (ag : AddrGen) (cls : Nat) (tile : Option (Nat × Nat)) : Ctl :=
  let q := c.seq n
  let m := ag.opmode.toNat
  let lane := fun (sc : Bool) gi => { gi := gi, scale := sc, fwd := if isVector n then c.forwardOf n e gi else none : RLane }
  let lanes := gis.map (lane false) ++ (scaleGi m ag.oparg.toNat gis).map (lane true)
  let d := e + c.readLat cls + c.readAdd m
  let taken := q.reads.any (fun r => decide (r.deliver = d) && !r.dropped) ||
    (match q.gather with
      | some g => (match g.outAt c.gatherLat d with | some f => decide (g.s + 1 + f < e) | none => false)
      | none => false)
  let r : RAccess := { id := q.readCount, issue := e, deliver := d, bankBc := 2 * e + 4 + 2 * cls, opmode := ag.opmode, oparg := ag.oparg, lanes := lanes }
  let r : RAccess := { r with tile := tile, dropped := taken, via := c.routeOf n (lanes.map fun l => l.gi), sceneNo := q.sceneNo, ec0 := q.ec0 }
  c.setSeq n { q with reads := q.reads ++ [r], readCount := q.readCount + 1, lastReadBc := max q.lastReadBc r.bankBc }

/-- The class of the read that starts at the generator's position: over the four accesses of a tile for a transposed
read (R110), else over the access and its scale granule (R31, R116). -/
def Ctl.readClass (c : Ctl) (n : Nat) (ag : AddrGen) : Nat :=
  let m := ag.opmode.toNat
  if m = 2 ∨ m = 3 then c.accessClass n (AddrGen.take 32 ag).1
  else
    let gis := ag.access.1
    c.accessClass n (gis ++ scaleGi m ag.oparg.toNat gis)

/-! ### Gather index granules (R124 to R129) -/

/-- One index granule on lane `k`: it is checked under the working code; its words, and whether it is at fault. -/
def Ctl.indexLane (c : Ctl) (n k : Nat) (d : EngineDrive) : Ctl × Granule × Bool :=
  match driven d k with
  | none => (c.eccRecord { cnt := 7, path := 5, req := n } ⟨false, 0, 0x1FF, true, poisonGranule false⟩, poisonGranule false, true)
  | some g =>
    let x := decodeG false g
    (c.eccRecord { cnt := 7, path := 5, req := n } x, x.word, x.bad || x.pois)

/-- The eight index words of a granule (R125). -/
def indexWords (g : Granule) : List Nat := (List.range 8).map fun w => bits (gData g) (32 * w) 32

/-- A null index contributes nothing (R125). -/
def nullIndex (i : Nat) : Bool := decide (i = 0xFFFFFFFF)

/-- Status code of an index lane (R128); `busy`: the RUN is suppressed under R129. For a lane that is poisoned and also holds an
out-of-table word the manual ranks no status: the model takes them in the order of its list, POISON_IN first (DESIGN CHOICE, log
entry 92). -/
def indexCode (busy fault : Bool) (rows : Nat) (ws : List Nat) : BitVec 2 :=
  if busy then 1 else if fault then 3 else if ws.any fun i => !nullIndex i && decide (rows ≤ i) then 2 else 0

/-- Count one write-lane status in MIO_PSTAT_n. -/
def Ctl.countStatus (c : Ctl) (n : Nat) (code : BitVec 2) : Ctl :=
  if code = 2 then c.satAdd (oPstat n) pstat_OWNF 1
  else if code = 1 then c.satAdd (oPstat n) pstat_COLL 1
  else if code = 3 then c.satAdd (oPstat n) pstat_POIS 1
  else c

/-- The index lanes of one access, in ascending order: their status lanes and their words. -/
def Ctl.indexLanes (c : Ctl) (n : Nat) (busy : Bool) (rows : Nat) (d : EngineDrive) : List Nat → Ctl × List WLane × List (Nat × Bool)
  | [] => (c, [], [])
  | k :: t =>
    let r := c.indexLane n k d
    let ws := indexWords r.2.1
    let code := indexCode busy r.2.2 rows ws
    let c := r.1.countStatus n code
    let oor := (ws.filter fun i => !nullIndex i && decide (rows ≤ i)).length
    let c := c.satAdd (oMsoStat (seqQuad n)) msoStat_GATHER_OOR oor
    let r2 := Ctl.indexLanes c n busy rows d t
    (r2.1, { lane := k, gi := 0, granule := r.2.1, fault := r.2.2, code := code, seen := (driven d k).getD r.2.1 } :: r2.2.1, ws.map (fun i => (i, r.2.2)) ++ r2.2.2)

/-- A gather access of a RUN suppressed under R129 is a cue violation with cause DELIVERY: counted and raised. It reaches
no bank, so the place that MIO_CV_REC0 and MIO_CV_REC2 would name is a free value. The manual gives its record no lane and no bc
either: the model shows the write channel, lane 0 and the first bc of the access's ec (DESIGN CHOICE, log entry 78). -/
def Ctl.gatherBusy (c : Ctl) (n e : Nat) (q : Seq) : Ctl :=
  let c := c.satAdd (oMsoStat (seqQuad n)) msoStat_GATHER_BUSY 1
  let c := c.satAdd oCvCount ⟨0, 0, 32⟩ 1
  let c := if c.fld oCvRec0 cvRec0_VALID = 1 then c.flag oCvRec0 cvRec0_OVERFLOW
    else
      let v := c.draw
      let x := v.1.toNat
      let c := [(cvRec0_PORT, n), (cvRec0_CAUSE, 5), (cvRec0_LANE, 0), (cvRec0_WRITE, 1), (cvRec0_QUAD, bits x 0 2), (cvRec0_CLUSTER, bits x 2 6),
        (cvRec0_BANK, bits x 8 4), (cvRec0_SLOT, slotOf (2 * e))].foldl (fun c y => c.setFld oCvRec0 y.1 y.2) (v.2.flag oCvRec0 cvRec0_VALID)
      let c := (c.setFld oCvRec1 cvRec1_SCENE_NO q.sceneNo.toNat).setFld oCvRec1 cvRec1_EC_OFFSET (e - q.ec0)
      (c.setFld oCvRec2 cvRec2_GI (bits x 12 27)).setFld oCvRec2 cvRec2_FRAME (frameOf (2 * e))
  c.raiseAt (e / 4 + 1) 10 (seqUnit (c.groupOf n) n)

/-- One index access of a gather RUN in ec `w`: sampled, and its status due in (w + 1) + WRITE_C + ADD_ACC + 1 (R128). -/
def Ctl.issueIndex (c : Ctl) (n w : Nat) (busy : Bool) (d : EngineDrive) : Ctl :=
  let q := c.seq n
  let k := q.ag1.lanes
  let c := c.countStray n k d
  let r := c.indexLanes n busy (q.ag1.count.headD 1) d (List.range k)
  let c := if busy then r.1.gatherBusy n w q else r.1
  let q := c.seq n
  let a : WAccess := { id := q.writeCount, seqNo := q.seqCount, w := w, due := w + 1, t := w + 1, acc := none, lanes := r.2.1, mask := BitVec.ofNat 8 (2 ^ k - 1) }
  let a : WAccess := { a with issued := true, first := true, done := true, index := true, sceneNo := q.sceneNo, ec0 := q.ec0 }
  let gt := if busy then q.gather else q.gather.map fun (g : Gather) => { g with words := g.words ++ r.2.2 }
  c.setSeq n { q with writes := q.writes ++ [a], writeCount := q.writeCount + 1, seqCount := q.seqCount + 1, gather := gt }

/-- The gather unit of port `n` is busy in ec `e` (R129). -/
def Seq.gatherBusyAt (q : Seq) (e : Nat) : Bool := match q.gather with | some g => decide (e ≤ g.busyTo) | none => false

/-- The gather unit takes up a RUN of `count` accesses that begins in ec `s` (R124, R126, R127). -/
def Ctl.gatherBegin (c : Ctl) (n s count : Nat) : Ctl :=
  let q := c.seq n
  let ag := q.ag1
  let arg := ag.oparg.toNat
  let words := count * ag.lanes * 8
  let nRow := argNrow arg
  let last := s + 1 + words * nRow - 1
  let g : Gather := { s := s, nRow := nRow, bag := argBag arg, rowType := argRowtype arg, base := ag.base.toNat, pitch := ag.stride.headD 0, rows := ag.count.headD 1, words := [], limit := words * nRow, busyTo := last + c.gatherLat }
  c.setSeq n { q with gather := some { g with sceneNo := q.sceneNo, ec0 := q.ec0 }, lastReadBc := max q.lastReadBc (2 * last + 8) }

/-! ### RUN (R68) -/

/-- Accumulation type of a write generator (R107). -/
def AddrGen.accType (a : AddrGen) : Option Nat := if a.opmode.toNat = 4 then some (bits a.oparg.toNat 0 2) else none

/-- The read channel's access of a RUN in ec `e`, the `i`-th, with the class of its tile. -/
def Ctl.runRead (c : Ctl) (n e i cls : Nat) : Ctl :=
  let q := c.seq n
  let r := q.ag0.access
  let m := q.ag0.opmode.toNat
  let tile := if m = 2 ∨ m = 3 then some (q.readCount - i % 4, i % 4) else none
  let c := c.issueRead n e r.1 q.ag0 cls tile
  c.setSeq n { c.seq n with ag0 := r.2 }

/-- The write channel's access of a RUN in ec `e`. -/
def Ctl.runWrite (c : Ctl) (n e : Nat) (d : EngineDrive) : Ctl :=
  let q := c.seq n
  let ag := q.writeAg n
  let r := ag.access
  let c := c.issueWrite n e r.1 ag.accType d
  let q := c.seq n
  c.setSeq n (if isVector n then { q with ag1 := r.2 } else { q with ag0 := r.2 })

/-- `k` accesses of a RUN from ec `e` on, one every `step` ec; `rd`, `wr`, `gt`: the channels used. -/
def Ctl.runAccesses (n step : Nat) (rd wr gt busy : Bool) : Nat → Nat → Nat → Nat → List EngineDrive → Ctl → Ctl
  | 0, _, _, _, _, c => c
  | k + 1, i, e, cls, ds, c =>
    let d := ds.headD { valid := false, lanes := 0, data := [] }
    let m := (c.seq n).ag0.opmode.toNat
    let cls := if rd then (if (m = 2 ∨ m = 3) ∧ i % 4 ≠ 0 then cls else c.readClass n (c.seq n).ag0) else 0
    let c := if rd then c.runRead n e i cls else c
    let c := if gt then c.issueIndex n e busy d else if wr then c.runWrite n e d else c
    Ctl.runAccesses n step rd wr gt busy k (i + 1) (e + step) cls ds.tail c

/-- RUN (R68): every access of the word, in its ec. -/
def Ctl.wordRun (c : Ctl) (n e w : Nat) (drives : List EngineDrive) : Ctl :=
  let q := c.seq n
  let gt := q.isGather n w
  let rd := q.runReads n w
  let wr := runWrites w && !gt
  let busy := gt && q.gatherBusyAt e
  let a0 := if wRestart w ∧ (rd ∨ (wr ∧ ¬ isVector n)) then q.ag0.restart else q.ag0
  let a1 := if wRestart w ∧ (gt ∨ (wr ∧ isVector n)) then q.ag1.restart else q.ag1
  let q : Seq := { q with ag0 := a0, ag1 := a1 }
  let c := c.setSeq n { q with runRec := some { startEc := e, gap := wGap w, count := wN w, ag0 := a0, ag1 := a1, use0 := rd || (wr && !isVector n), use1 := wr && isVector n } }
  let c := if gt ∧ ¬ busy then c.gatherBegin n e (wN w) else c
  Ctl.runAccesses n (wGap w + 1) rd wr gt busy (wN w) 0 e 0 drives c

/-! ### FLUSH (R144, R145) -/

/-- A granule lies in the range of a FLUSH or ACQUIRE word. -/
def inRangeOf (w gi : Nat) : Bool := decide (wBase w ≤ gi ∧ gi ≤ wBase w + wLen w)

/-- Groups take their issue ec in sampled order (R142). -/
def reissue (f : Nat) : Nat → List WAccess → List WAccess
  | _, [] => []
  | last, a :: t =>
    if a.index ∨ a.t ≤ f then a :: reissue f (if a.index then last else max last a.t) t
    else
      let t' := max a.due (last + 1)
      { a with t := t' } :: reissue f t' t

/-- The lanes of an access lie in the range of `w`; `q` none for any quadrant. -/
def Ctl.touches (c : Ctl) (w : Nat) (quad : Option Nat) (a : WAccess) : Bool :=
  a.lanes.any fun l => inRangeOf w l.gi && (match quad with | none => true | some q => decide ((c.place l.gi).quad = q))

/-- The ec in which the data of an access are visible, through the entries that absorbed its lanes. -/
def Ctl.lanesVisible (c : Ctl) (all : List WAccess) (a : WAccess) : Nat :=
  a.lanes.foldl (fun m l => max m (match l.follow with
    | none => c.visibleEc a
    | some x => match all.find? fun b => decide (b.id = x.1) with | some b => c.visibleEc b | none => 0)) 0

/-- What executed FLUSHes wait for, as the write accesses now stand: groups that are gone count no more, and one that a later FLUSH has
moved counts where it now stands (R145). -/
def Ctl.flushNow (c : Ctl) (ws : List WAccess) (l : List FlushWait) : List FlushWait :=
  l.filterMap fun y => (ws.find? fun a => decide (a.id = y.id)).map fun a => { y with ec := c.lanesVisible ws a }

/-- A FLUSH that begins in ec `f`: held groups up to the newest one in its range take d' = min(d, f + 1), and the write accesses of an
earlier write ec that touch the range are noted: a release waits for all of them at scope block, and for those that touch the port's
quadrant at scope quadrant. -/
def Ctl.wordFlush (c : Ctl) (n f w : Nat) : Ctl :=
  let q := c.seq n
  let held := fun (a : WAccess) => !a.index && decide (f < a.t)
  let newest := (q.writes.filter fun a => held a && a.own.any fun l => inRangeOf w l.gi).getLast?
  let ws := match newest with
    | none => q.writes
    | some b => c.reprofile n f [] (reissue f 0 (q.writes.map fun a =>
        if held a ∧ a.id ≤ b.id then { a with due := min a.due (f + 1) } else a))
  let lastT := ws.foldl (fun m a => if a.index then m else max m a.t) 0
  let earlier := ws.filter fun a => !a.index && decide (a.w < f)
  let new := (earlier.filter (c.touches w none)).map fun a =>
    { id := a.id, quad := c.touches w (some (seqQuad n)) a, ec := c.lanesVisible ws a : FlushWait }
  let old := (c.flushNow ws q.flushes).filter fun y => decide (f < y.ec)
  let q : Seq := { q with writes := ws, lastT := if newest.isNone then q.lastT else lastT, flushPort := max q.flushPort (f + 1) }
  c.setSeq n { q with flushes := old ++ new }

end Sys2Proof.Machine
end

