-- ==== Sys2Proof/Machine/Words.lean ====
section
/-! DEFINITION. The cue words (R66 to R72, R79 to R81, R144, R149 to R152): a sequencer comes to execute the word at its PC. -/

namespace Sys2Proof.Machine

/-- The sequencer goes on to the word after `pc`, which begins `cost` ec after ec `e` (R67, R71). -/
def Seq.next (q : Seq) (pc e cost : Nat) : Seq :=
  let nx := nextPc pc q.loops
  { q with pc := nx.1, loops := nx.2, lastPc := pc, lastLoops := q.loops, wordEc := e + cost }

/-- What a word command does to sequencer `n` (R79): when the word at its PC has begun, it is fetched; a word that traps
traps; a word of the opcode and kind of the command has its effect `f` on the units, the sequencer number, the ec in which
the word begins and the word. A word of another opcode leaves everything unchanged, and so does a word not yet begun. -/
def Ctl.word (c : Ctl) (n : Nat) (mine : Nat → Bool) (f : Ctl → Nat → Nat → Ctl) : Ctl :=
  let q := c.seq n
  if ¬ c.sysReady ∨ q.state ≠ .running ∨ c.ec < q.wordEc then c
  else if 65535 < q.pc then c.trap n 8 65535 q.wordEc
  else
    let r := c.fetch q.half q.pc
    let w := r.2.1
    let cause := q.trapCause n q.pc w r.2.2 false
    if cause ≠ 0 ∧ (r.2.2 ∨ cause = 1 ∨ mine w) then r.1.trap n cause q.pc q.wordEc
    else if cause = 0 ∧ mine w then f r.1 q.wordEc w
    else c

/-- The word has opcode `op`. -/
def isOp (op : Nat) (w : Nat) : Bool := decide (wOp w = op)

/-- The word is a SIG of kind `k`, or of the reserved kind, which traps. -/
def isSig (k : Nat) (w : Nat) : Bool := decide (wOp w = 3) && (decide (wKind w = k) || decide (wKind w = 3))

/-- SET: one part of a generator is loaded (R66, R70). -/
def Ctl.wordSet (c : Ctl) (n e w : Nat) : Ctl :=
  let q := (c.seq n).next (c.seq n).pc e 1
  c.setSeq n (if wAg w = 0 then { q with ag0 := q.ag0.load w } else { q with ag1 := q.ag1.load w })

/-- RUN: N accesses; the word costs N + (N - 1) G ec (R67, R68). -/
def Ctl.wordRunNext (c : Ctl) (n e w : Nat) (drives : List EngineDrive) : Ctl :=
  let c := c.wordRun n e w drives
  c.setSeq n ((c.seq n).next (c.seq n).pc e (wN w + (wN w - 1) * wGap w))

/-- The FLUSH completion that a SIG waits for at its scope (R145, R150, R151): a stream start uses scope block. -/
def Seq.flushed (q : Seq) (kind scope : Nat) : Nat :=
  if kind ≠ 2 ∧ scope = 0 then q.flushPort
  else (q.flushes.filter fun y => y.quad || decide (kind = 2 ∨ scope ≠ 1)).foldl (fun m y => max m y.ec) q.flushPort

/-- Release point X of a SIG that begins in ec `s` (R150). -/
def Seq.releasePoint (q : Seq) (s kind scope : Nat) : Nat :=
  max (max (s + 1) (q.flushed kind scope)) (max (if q.lastReadBc = 0 then 0 else q.lastReadBc / 2 + 1) q.lastX)

/-- The kind of a pending release. -/
def relKind (k : Nat) : RelKind := if k = 0 then .counterAdd else if k = 1 then .curtainEntry else .streamStart

/-- SIG: the release is queued for its release point (R150, R152). -/
def Ctl.wordSig (c : Ctl) (n e w : Nat) : Ctl :=
  let q := (c.seq n).next (c.seq n).pc e 1
  let x := q.releasePoint e (wKind w) (wScope w)
  let r : Release := { kind := relKind (wKind w), target := wTarget w, value := BitVec.ofNat 32 (wValue w), scope := wScope w, x := x }
  c.setSeq n { q with releases := q.releases ++ [r], lastX := x }

/-- SCENE: the scene ends; the sequencer halts if a PARK is pending, else it is WAITING and evaluates its head (R72, R82). -/
def Ctl.wordScene (c : Ctl) (n e : Nat) : Ctl :=
  let q := (c.seq n).endScene e
  let q : Seq := { q with parkedSince := e, lastPc := q.pc }
  if q.parkPend then c.setSeq n q.halt
  else
    let hold := c.loading q.half
    let c := c.setSeq n { q with state := .waiting, waitSince := e, evaluated := false, head := [], loadHold := hold }
    if hold then c else c.evalScene n e

/-- SCENE of a WAITING sequencer that has not evaluated its head: the entry word after START (R82, R164). -/
def Ctl.entryScene (c : Ctl) (n : Nat) : Ctl :=
  let q := c.seq n
  if c.sysReady ∧ q.state = .waiting ∧ ¬ q.evaluated ∧ ¬ q.loadHold then c.evalScene n q.waitSince else c

/-- ACQUIRE: read-ahead entries of the range are removed at the end of ec `a` (R149). -/
def Ctl.wordAcquire (c : Ctl) (n a w : Nat) : Ctl :=
  let q := (c.seq n).next (c.seq n).pc a 1
  let ra := q.ra.map fun e => if inRangeOf w e.gi ∧ e.since ≤ a then e.leave a else e
  let live := q.acquires.filter fun x => decide (a < x.1 + 64)
  c.setSeq n { q with ra := ra, acquires := live ++ [(a, wBase w, wBase w + wLen w)] }

/-- LOOP (R71). -/
def Ctl.wordLoop (c : Ctl) (n e w : Nat) : Ctl :=
  let q := c.seq n
  let l : LoopEntry := { first := q.pc + 1, last := q.pc + wBody w + 1, left := wTrips w }
  c.setSeq n { q with loops := l :: q.loops, pc := q.pc + 1, lastPc := q.pc, lastLoops := q.loops, wordEc := e + 1 }

/-- JUMP (R67). -/
def Ctl.wordJump (c : Ctl) (n e w : Nat) : Ctl :=
  let q := c.seq n
  c.setSeq n { q with pc := wDest w, lastPc := q.pc, lastLoops := q.loops, wordEc := e + 12 }

/-- HALT (R81). -/
def Ctl.wordHalt (c : Ctl) (n e : Nat) : Ctl :=
  let q := (c.seq n).endScene e
  c.setSeq n { q.halt with parkedSince := e, lastPc := q.pc }

/-! ### The commands -/

/-- SET. -/
def execSet (n : Nat) (s : State) : Out :=
  onUnit (decide (n < Config.seqs)) s fun c => c.word n (isOp 1) fun c e w => c.wordSet n e w
/-- RUN. -/
def execRun (n : Nat) (drives : List EngineDrive) (s : State) : Out :=
  onUnit (decide (n < Config.seqs)) s fun c => c.word n (isOp 2) fun c e w => c.wordRunNext n e w drives
/-- SIG counter add. -/
def execSigCounterAdd (n : Nat) (s : State) : Out :=
  onUnit (decide (n < Config.seqs)) s fun c => c.word n (isSig 0) fun c e w => c.wordSig n e w
/-- SIG curtain entry. -/
def execSigCurtainEntry (n : Nat) (s : State) : Out :=
  onUnit (decide (n < Config.seqs)) s fun c => c.word n (isSig 1) fun c e w => c.wordSig n e w
/-- SIG stream start. -/
def execSigStreamStart (n : Nat) (s : State) : Out :=
  onUnit (decide (n < Config.seqs)) s fun c => c.word n (isSig 2) fun c e w => c.wordSig n e w
/-- WAIT: outside a head it traps (R72); of a WAITING sequencer the head is sampled in this ec (R164). -/
def execWait (n : Nat) (s : State) : Out :=
  onUnit (decide (n < Config.seqs)) s fun c =>
    if (c.seq n).state = .waiting then (if c.sysReady then c.sampleHead n c.ec else c) else c.word n (isOp 4) fun c _ _ => c
/-- SCENE. -/
def execScene (n : Nat) (s : State) : Out :=
  onUnit (decide (n < Config.seqs)) s fun c =>
    if (c.seq n).state = .waiting then c.entryScene n else c.word n (isOp 5) fun c e _ => c.wordScene n e
/-- FLUSH. -/
def execFlush (n : Nat) (s : State) : Out :=
  onUnit (decide (n < Config.seqs)) s fun c => c.word n (isOp 6) fun c e w =>
    let c := c.wordFlush n e w
    c.setSeq n ((c.seq n).next (c.seq n).pc e 1)
/-- ACQUIRE. -/
def execAcquire (n : Nat) (s : State) : Out :=
  onUnit (decide (n < Config.seqs)) s fun c => c.word n (isOp 7) fun c e w => c.wordAcquire n e w
/-- LOOP. -/
def execLoop (n : Nat) (s : State) : Out :=
  onUnit (decide (n < Config.seqs)) s fun c => c.word n (isOp 8) fun c e w => c.wordLoop n e w
/-- JUMP. -/
def execJump (n : Nat) (s : State) : Out :=
  onUnit (decide (n < Config.seqs)) s fun c => c.word n (isOp 9) fun c e w => c.wordJump n e w
/-- DELAY. -/
def execDelay (n : Nat) (s : State) : Out :=
  onUnit (decide (n < Config.seqs)) s fun c => c.word n (isOp 0xA) fun c e w =>
    c.setSeq n ((c.seq n).next (c.seq n).pc e (wDelay w))
/-- HALT. -/
def execHalt (n : Nat) (s : State) : Out :=
  onUnit (decide (n < Config.seqs)) s fun c => c.word n (isOp 0xB) fun c e _ => c.wordHalt n e

end Sys2Proof.Machine
end

