-- ==== Sys2Proof/Machine/Halves.lean ====
section
/-! DEFINITION. Half swaps of the cast groups (R101 to R103). -/

namespace Sys2Proof.Machine

/-- A swap of group `g` can take effect in the present ec (R101): no start of the group is decided, every sequencer of it that
is not HALTED is WAITING, and no load into the target half is in progress (log entry 25). -/
def Ctl.swapReady (c : Ctl) (g : Nat) : Bool :=
  decide (c.fld (oGrpSwap g) grpSwap_PENDING = 1) && (c.group g).decided.isNone
    && ((c.members g).all fun n => decide ((c.seq n).state = .halted ∨ (c.seq n).state = .waiting))
    && !c.loading (decide (c.fld (oGrpSwap g) grpSwap_PEND_HALF = 1))

/-- The entry index of sequencer `n` in the directory of a half, and whether its granule is poisoned or uncorrectable (R102). -/
def Ctl.dirEntry (c : Ctl) (half : Bool) (n : Nat) : Ctl × Nat × Bool :=
  let r := c.fetch half (n / 8)
  (r.1, bits r.2.1 (16 * (n % 8)) 16, r.2.2)

/-- A WAITING sequencer moves to the target half in ec `e` (R101, R102). For the trap of a directory granule that cannot be read the
manual names no PC: the model records the index n / 8 of its word (DESIGN CHOICE, log entry 100). -/
def Ctl.seqSwap (c : Ctl) (n e : Nat) (half : Bool) : Ctl :=
  let q := c.seq n
  if q.state ≠ .waiting then c
  else
    let r := c.dirEntry half n
    let q : Seq := { q with half := half, loops := [], head := [], evaluated := false, loadHold := false }
    if r.2.2 then (r.1.setSeq n q).trap n 4 (n / 8) e
    else (r.1.setSeq n { q with pc := r.2.1, lastPc := r.2.1 }).evalScene n e

/-- The swap of group `g` takes effect: a CANCEL of the same cc is refused (R103). -/
def Ctl.swapNow (c : Ctl) (g : Nat) : Ctl :=
  let half := decide (c.fld (oGrpSwap g) grpSwap_PEND_HALF = 1)
  let c := forAll (c.members g) (fun n c => c.seqSwap n c.ec half) c
  let c := c.setFld (oGrpSwap g) grpSwap_PENDING 0
  let c := if (c.group g).swapCancel.isSome then c.flag (oGrpSwap g) grpSwap_REFUSED else c
  c.setGroup g { c.group g with swapCancel := none, swapCc := some c.cc }

/-- GROUP_SWAP_EFFECT. Whether a pending swap takes effect, and a CANCEL settles, in safe state the manual does not say (R307 names no half
swap): the model holds both (DESIGN CHOICE, log entry 99). -/
def Ctl.swapEffect (c : Ctl) (g : Nat) : Ctl := if c.swapReady g ∧ c.sysReady ∧ ¬ c.blackout then c.swapNow g else c

/-- A GO (R101, R103). A group with every sequencer HALTED swaps in the cc of the write. -/
def Ctl.swapGo (c : Ctl) (g : Nat) (half : Bool) : Ctl :=
  let o := oGrpSwap g
  if c.fld o grpSwap_PENDING = 1 then c.flag o grpSwap_REFUSED
  else
    let c := (c.setFld o grpSwap_PENDING 1).setFld o grpSwap_PEND_HALF half.toNat
    if (c.members g).all fun n => decide ((c.seq n).state = .halted) then c.swapNow g else c

/-- A CANCEL (R103): the swap is cleared at the end of the cc unless it takes effect in it. With no swap pending, one that took
effect in this cc refuses it. -/
def Ctl.swapCancel (c : Ctl) (g : Nat) : Ctl :=
  if c.fld (oGrpSwap g) grpSwap_PENDING = 1 then c.setGroup g { c.group g with swapCancel := some (4 * (c.cc + 1)) }
  else if (c.group g).swapCc = some c.cc then c.flag (oGrpSwap g) grpSwap_REFUSED
  else c

/-- The end of the completion cc of a CANCEL, in ec `x`. -/
def Ctl.swapSettle (c : Ctl) (x : Nat) : Ctl :=
  if c.blackout then c
  else forAll ((c.groups.filter fun g => g.2.swapCancel.isSome).map fun g => g.1) (fun g c =>
    match (c.group g).swapCancel with
    | some d => if d ≤ x then (c.setFld (oGrpSwap g) grpSwap_PENDING 0).setGroup g { c.group g with swapCancel := none } else c
    | none => c) c

/-- GROUP_SWAP_GO. -/
def execGroupSwapGo (g : Nat) (half : Bool) (s : State) : Out :=
  onUnit (decide (g < Config.groups)) s fun c => c.ctlWrite (.groupSwapGo g half) 3 fun c => c.swapGo g half
/-- GROUP_SWAP_CANCEL. -/
def execGroupSwapCancel (g : Nat) (s : State) : Out :=
  onUnit (decide (g < Config.groups)) s fun c => c.ctlWrite (.groupSwapCancel g) 3 fun c => c.swapCancel g
/-- GROUP_SWAP_EFFECT. -/
def execGroupSwapEffect (g : Nat) (s : State) : Out := onUnit (decide (g < Config.groups)) s fun c => c.swapEffect g

end Sys2Proof.Machine
end

