-- ==== Sys2Proof/Machine/March.lean ====
section
/-! DEFINITION. The march tests: elements, backgrounds, durations, what a row holds while a test runs, and the verdict (R264, R265). -/

namespace Sys2Proof.Machine

/-- An element of a march algorithm: its direction (true ascending; the model takes ascending for either, log entry 104), and its operations
in order: whether one writes, and whether it is of the complement. -/
structure MarchElem where
  up  : Bool
  ops : List (Bool × Bool)
  deriving DecidableEq, Repr

/-- The elements of March C- and March SS (12_integrity_and_repair). -/
def marchElems (ss : Bool) : List MarchElem :=
  let r0 := (false, false)
  let r1 := (false, true)
  let w0 := (true, false)
  let w1 := (true, true)
  if ss then
    [⟨true, [w0]⟩, ⟨true, [r0, r0, w0, r0, w1]⟩, ⟨true, [r1, r1, w1, r1, w0]⟩, ⟨false, [r0, r0, w0, r0, w1]⟩, ⟨false, [r1, r1, w1, r1, w0]⟩,
      ⟨true, [r0]⟩]
  else [⟨true, [w0]⟩, ⟨true, [r0, w1]⟩, ⟨true, [r1, w0]⟩, ⟨false, [r0, w1]⟩, ⟨false, [r1, w0]⟩, ⟨true, [r0]⟩]

/-- The elements of the test pass of a transparent test (R265): the background is the row's own content. -/
def transpElems : List MarchElem :=
  [⟨true, [(false, false), (true, true)]⟩, ⟨true, [(false, true), (true, false)]⟩, ⟨false, [(false, false), (true, true)]⟩,
    ⟨false, [(false, true), (true, false)]⟩, ⟨true, [(false, false)]⟩]

/-- bc that one run over the 4,096 rows of a bank takes: one operation per bc. -/
def elemsTime (l : List MarchElem) : Nat := (l.map fun e => e.ops.length * 4096).sum

/-- The elements of a test in progress. -/
def March.elems (m : March) : List MarchElem := if m.transp then transpElems else marchElems m.alg

/-- bc from the start of a test on request to its end (R264, R265): two backgrounds and the fill, or the prediction pass and the test pass. -/
def March.time (m : March) : Nat := if m.transp then 4096 + elemsTime transpElems else 2 * elemsTime (marchElems m.alg) + 4096

/-- The background of a row (R264): solid 0, or the checkerboard whose bit j of row n is (j + n) mod 2. -/
def marchBack (checker : Bool) (row : Nat) : Granule :=
  if !checker then 0
  else (List.range 288).foldl (fun g j => if (j + row) % 2 = 1 then g ||| (1#288 <<< j) else g) 0

/-- A background or its complement. -/
def marchWord (g : Granule) (inv : Bool) : Granule := if inv then ~~~ g else g

/-- The bc within an element in which it comes to a row. -/
def MarchElem.rowAt (e : MarchElem) (row : Nat) : Nat := (if e.up then row else 4095 - row) * e.ops.length

/-- What the last write of a row among the operations made in the first `t` bc has stored: none before the first, else whether it is the
complement. -/
def marchHeld (row : Nat) : List MarchElem → Nat → Option Bool
  | [], _ => none
  | e :: l, t =>
    let mine := (e.ops.mapIdx fun i o => (i, o)).foldl (fun h x => if x.2.1 && decide (e.rowAt row + x.1 < t) then some x.2.2 else h) none
    (marchHeld row l (t - e.ops.length * 4096)).or mine

/-- What a row holds `t` bc after the start of a test, where it held `old` before. -/
def March.rowNow (m : March) (t row : Nat) (old : Granule) : Granule :=
  if m.transp then (match marchHeld row transpElems (t - 4096) with | some inv => marchWord old inv | none => old)
  else
    let run := elemsTime (marchElems m.alg)
    if 2 * run + row < t then fillGranule
    else match (if run ≤ t then marchHeld row (marchElems m.alg) (t - run) else none) with
      | some inv => marchWord (marchBack true row) inv
      | none => match marchHeld row (marchElems m.alg) t with
        | some inv => marchWord (marchBack false row) inv
        | none => old

/-! ### The verdict -/

/-- The operation that a reading names: its element is one of the test's, and it is a read. -/
def March.reads (m : March) (d : MarchRead) : Option Bool :=
  match m.elems[d.elem]? with
  | none => none
  | some e => match e.ops[d.op]? with
    | some (false, inv) => if d.bank < 16 ∧ d.row < 4096 then some inv else none
    | _ => none

/-- The bc of a read from the start of its background. -/
def March.readTime (m : March) (d : MarchRead) : Nat :=
  match m.elems[d.elem]? with
  | some e => ((m.elems.take d.elem).map fun x => x.ops.length * 4096).sum + e.rowAt d.row + d.op
  | none => 0

/-- A reading of a destructive test differs from what the background gives. -/
def March.wrong (m : March) (d : MarchRead) : Bool :=
  match m.reads d with
  | some inv => decide (d.value ≠ marchWord (marchBack d.second d.row) inv)
  | none => false

/-- The earliest of the readings of a list. -/
def March.earliest (m : March) : List MarchRead → Option MarchRead
  | [] => none
  | d :: t => match March.earliest m t with
    | none => some d
    | some e => if (d.second.toNat, m.readTime d) = (e.second.toNat, m.readTime e) ∨ d.second.toNat < e.second.toNat
        ∨ (d.second = e.second ∧ m.readTime d < m.readTime e) then some d else some e

/-- The values that the test pass of a transparent test reads in the 16 banks, in order: `at_` gives what a row of a bank is read as. -/
def transpReads (at_ : Nat → Nat → Nat → Nat → Bool → Granule) : List Granule :=
  (transpElems.mapIdx fun k e => (k, e)).flatMap fun x =>
    (List.range 4096).flatMap fun i =>
      let row := if x.2.up then i else 4095 - i
      (x.2.ops.mapIdx fun j o => (j, o)).flatMap fun y =>
        if y.2.1 then [] else (List.range 16).map fun bank => at_ bank row x.1 y.1 y.2.2

/-- A transparent test fails when the signature of its test pass differs from the prediction (R265): `old` gives what each row holds, and the
readings of `l` (second: of the test pass, else of the prediction pass) are the reads that gave another value. -/
def transpFails (old : Nat → Nat → Granule) (l : List MarchRead) : Bool :=
  let seen := fun (bank row : Nat) => ((l.find? fun d => !d.second && decide (d.bank = bank ∧ d.row = row)).map fun d => d.value).getD (old bank row)
  let want := transpReads fun bank row _ _ inv => marchWord (seen bank row) inv
  let got := transpReads fun bank row k j inv =>
    ((l.find? fun d => d.second && decide (d.bank = bank ∧ d.row = row ∧ d.elem = k ∧ d.op = j)).map fun d => d.value).getD (marchWord (old bank row) inv)
  decide (Config.marchSignature got ≠ Config.marchSignature want)

end Sys2Proof.Machine
end

