-- ==== Sys2Proof/Machine/Image.lean ====
section
/-! DEFINITION. The layout of the image of an intermission (R280, R281). The arrangement inside a sequencer entry is the model's (log entry 28). -/

namespace Sys2Proof.Machine

/-- Fields packed from bit 0 upward: (width, value). -/
def packBits : List (Nat × Nat) → Nat
  | [] => 0
  | (w, v) :: t => v % 2 ^ w + 2 ^ w * packBits t

/-- Values of packed fields of given widths. -/
def unpackBits : List Nat → Nat → List Nat
  | [], _ => []
  | w :: t, v => v % 2 ^ w :: unpackBits t (v / 2 ^ w)

/-- Widths of a saved address generator. -/
def agWidths : List Nat := [27, 3, 4, 16, 16, 16, 16, 16, 27, 27, 27, 27, 16, 16, 16, 16]

/-- Widths of the state of a sequencer: 4,095 bits. -/
def seqWidths : List Nat :=
  agWidths ++ agWidths ++ List.replicate 8 32 ++ [16, 1, 32, 1] ++ (List.replicate 4 [6, 6, 24]).flatten ++ [1] ++ List.replicate 128 24

/-- The data bytes of granules. -/
def dataBytes (l : List Granule) : List Byte := l.flatMap granuleBytes

/-- Field of `n` bytes at offset `o` of the header. -/
def headField (h o n : Nat) : Nat := bits h (8 * o) (8 * n)

/-- The parts of an image before its banks: first granule and length of each section (R280). -/
structure ImgPlan where
  seqs  : Nat
  ctxs  : Nat
  wins  : Nat
  sends : Nat
  cnts  : Nat
  curs  : Nat
  banks : Nat
  deriving DecidableEq, Repr

/-- Where the sections of an image with header h begin. -/
def imgPlan (h : Nat) : ImgPlan :=
  let seqs := 8 + 16 + 2 * Config.cpq + 1024
  let ctxs := seqs + 144 * headField h 0x28 4
  let wins := ctxs + 64 + 2 * headField h 0x2C 4
  let sends := wins + 4 + headField h 0x30 4
  let cnts := sends + 1 + 2 * headField h 0x34 4
  let curs := cnts + (headField h 0x1E 2 + 7) / 8
  { seqs := seqs, ctxs := ctxs, wins := wins, sends := sends, cnts := cnts, curs := curs,
    banks := curs + 8 * ((List.range 64).filter (Nat.testBit (headField h 0x20 8))).length }

/-- `n` granules of an image from granule i, as one number of data bits. -/
def imgNat (img : List Granule) (i n : Nat) : Nat := leNat (dataBytes (((img.drop i).take n).map fun g => (decodeG false g).word))

/-- Those of the first `n` granules of the image that have come. -/
def RestRun.image (r : RestRun) (n : Nat) : List Granule := (r.got.filter fun e => decide (e.1 < n)).map fun e => e.2.1

/-- One of the first `n` granules came in a beat with an error, which makes it uncorrectable (R57). -/
def RestRun.erred (r : RestRun) (n : Nat) : Bool := r.got.any fun e => decide (e.1 < n) && e.2.2

/-- Length of the part before the banks as the header gives it, once the header is there; the header alone where its MAGIC differs. -/
def RestRun.front (r : RestRun) : Option Nat :=
  let h := r.image 8
  if h.length < 8 then none
  else if headField (imgNat h 0 8) 0 4 = 0x4D494E54 ∧ ¬ r.erred 8 then some (imgPlan (imgNat h 0 8)).banks
  else some 8

/-- The `n` granules of the image from granule i on, as far as they have come. -/
def RestRun.part (r : RestRun) (i n : Nat) : List Granule := (List.range n).map fun k => (Tab.get (0, false) r.got (i + k)).1

/-- Granule i of the image has come. -/
def RestRun.has (r : RestRun) (i : Nat) : Bool := r.got.any fun e => decide (e.1 = i)

/-- Where the sections of the image lie that is being read, once its header is there. -/
def RestRun.plan (r : RestRun) : ImgPlan := imgPlan (imgNat (r.part 0 8) 0 8)

/-- Place of granule i in the entry of its sequencer; 0 for a granule of another section. -/
def RestRun.seqPlace (r : RestRun) (i : Nat) : Nat :=
  if r.plan.seqs ≤ i ∧ i < r.plan.ctxs then (i - r.plan.seqs) % 144 else 0

/-- Granules of the image that can be checked with the coming of granule i: itself, unless it is a read-ahead entry (R280) whose index has not
come; and with the last granule of a sequencer's state the entries that wait for their index. -/
def RestRun.checkable (r : RestRun) (i : Nat) : List Nat :=
  let j := r.seqPlace i
  let known := (List.range 16).all fun k => r.has (i - j + k)
  let inSeq := decide (r.plan.seqs ≤ i ∧ i < r.plan.ctxs)
  if inSeq && decide (16 ≤ j) then (if known then [i] else [])
  else i :: (if inSeq && known then ((List.range 128).map fun k => i - j + 16 + k).filter r.has else [])

/-- Granule i has come with the last block before the bank section, and lies in it. -/
def RestRun.early (r : RestRun) (i : Nat) : Bool := r.front.any fun m => decide (8 < m ∧ m ≤ i)

/-- What has come and waits for its code to be known. -/
def RestRun.unchecked (r : RestRun) : List Nat := (r.got.map fun e => e.1).filter fun i => r.early i || !(r.checkable i).contains i

end Sys2Proof.Machine
end

