-- ==== Sys2Proof/Machine/Access.lean ====
section
/-! DEFINITION. Scheduled accesses at their bank-access bc: checks, cue violations, bank reads and writes, accumulation (R33, R42, R47, R48, R92 to R95, R122, R123, R141, R147, R166 to R168, R315). -/

namespace Sys2Proof.Machine

/-! ### Who uses a bank in a bc (R93) -/

/-- A lane of a scheduled access that uses its bank in a bc. -/
structure BankUse where
  port    : Nat
  write   : Bool
  id      : Nat
  lane    : Nat
  gi      : Nat
  acc     : Option Nat := none
  issue   : Nat
  granule : Granule := 0
  fault   : Bool := false
  deriving DecidableEq, Repr

/-- A lane of a scheduled access of group `g` passes OWNER and SLOT for a granule in a bc, an accumulating one for both of its slots (R93). -/
def Ctl.mayUse (c : Ctl) (g gi bc : Nat) (acc : Bool) : Bool :=
  let p := c.place gi
  c.ownsSched g gi && decide (c.classAt p.quad p.cluster bc = 0) && (!acc || decide (c.classAt p.quad p.cluster (bc + 8) = 0))

/-- A kill suppresses an access in this bc (R315). -/
def cutBy (cut : Option Nat) (bc : Nat) : Bool := match cut with | some k => decide (k ≤ bc) | none => false

/-- The fetch of a gather unit whose bank-access bc is `bc` (R126): its number, word index, word and granule in the row. -/
def Gather.fetchAt (g : Gather) (bc : Nat) : Option (Nat × Nat × Nat) :=
  if bc < 2 * (g.s + 1) + 8 ∨ (bc - 2 * (g.s + 1) - 8) % 2 ≠ 0 then none
  else
    let f := (bc - 2 * (g.s + 1) - 8) / 2
    if g.limit ≤ f then none else some (f, f / g.nRow, f % g.nRow)

/-- The granule index of granule `j` of row `i` (R124). -/
def Gather.gi (g : Gather) (i j : Nat) : Nat := (((g.base : Int) + (i : Int) * g.pitch + (j : Int)) % 2 ^ 27).toNat

/-- The granule that fetch (m, j) reads: none for a null, faulty or out-of-table index. -/
def Gather.target (g : Gather) (m j : Nat) : Option Nat :=
  match g.words[m]? with
  | none => none
  | some w => if w.2 ∨ nullIndex w.1 ∨ g.rows ≤ w.1 then none else some (g.gi w.1 j)

/-- The lanes of sequencer `n` that would use a bank in `bc`, before OWNER and SLOT. -/
def Seq.lanesAt (q : Seq) (n bc : Nat) : List BankUse :=
  let rd := q.reads.flatMap fun r =>
    if r.bankBc = bc ∧ ¬ cutBy r.cut bc then r.lanes.mapIdx fun k l => { port := n, write := false, id := r.id, lane := k, gi := l.gi, issue := r.issue : BankUse } else []
  let wr := q.writes.flatMap fun a =>
    if !a.index ∧ a.firstBc = bc ∧ ¬ cutBy a.cut bc then
      a.own.map fun l => { port := n, write := true, id := a.id, lane := l.lane, gi := l.gi, acc := a.acc, issue := a.t, granule := l.granule, fault := l.fault : BankUse } else []
  let gt := match q.gather with
    | none => []
    | some g => match g.fetchAt bc with
      | none => []
      | some (f, m, j) => match g.target m j with
        | none => []
        | some gi => if cutBy g.cut bc ∨ f ∈ g.turned then [] else [{ port := n, write := false, id := 2 ^ 64 + f, lane := 0, gi := gi, issue := g.s + 1 + f : BankUse }]
  rd ++ wr ++ gt

/-- The lanes that use bank `pb` in `bc` (R93). -/
def Ctl.bankUses (c : Ctl) (bc pb : Nat) : List BankUse :=
  c.seqs.flatMap fun e => (e.2.lanesAt e.1 bc).filter fun u => decide ((c.place u.gi).pbank = pb) && c.mayUse (c.groupOf e.1) u.gi bc u.acc.isSome

/-- A second slot of an accumulating write that passed falls on bank `pb` in `bc` (R93). -/
def Ctl.secondAt (c : Ctl) (bc pb : Nat) : Bool :=
  c.seqs.any fun e => e.2.writes.any fun a => a.acc.isSome && a.first && decide (a.lastBc = bc)
    && a.own.any fun l => l.passed && decide ((c.place l.gi).pbank = pb)

/-- The uses of one bank in one bc do not collide: one granule, and one read access, the plain lanes of one access, or
accumulating lanes of one type (R48, R93). -/
def usesAgree : List BankUse → Bool
  | [] => true
  | u :: t =>
    t.all (fun v => decide (v.gi = u.gi)) &&
      (t.all (fun v => decide (v.port = u.port ∧ v.write = u.write ∧ v.id = u.id ∧ v.acc = u.acc)) ||
       (u.write && u.acc.isSome && t.all fun v => v.write && decide (v.acc = u.acc)))

/-- OWNER, SLOT or BANK of one lane of group `g` in `bc` (R93), 0 for none. -/
def Ctl.pathCause (c : Ctl) (g gi bc : Nat) : Cause :=
  let p := c.place gi
  if !c.ownsSched g gi then 1
  else if c.classAt p.quad p.cluster bc ≠ 0 then 2
  else if c.secondAt bc p.pbank || !usesAgree (c.bankUses bc p.pbank) then 3
  else 0

/-- The same for an accumulating lane, which is checked at its first slot for both slots. The second falls 8 bc later: its slot class
is checked here, and a later access whose bank access falls on it is the one that collides (R93). -/
def Ctl.accCause (c : Ctl) (g gi bc : Nat) : Cause :=
  let x := c.pathCause g gi bc
  let p := c.place gi
  if x = 1 ∨ x = 2 then x
  else if c.classAt p.quad p.cluster (bc + 8) ≠ 0 then 2
  else x

/-! ### Cue violations (R94, R95) -/

/-- The bc of the held record, modulo 2^40. -/
def Ctl.cvBc (c : Ctl) : Nat := 256 * c.fld oCvRec2 cvRec2_FRAME + c.fld oCvRec0 cvRec0_SLOT

/-- The held record is of an access behind this one: of a later bc, or of the same bc and behind it in the order of R95. -/
def Ctl.cvReplaces (c : Ctl) (n : Nat) (write : Bool) (bc : Nat) : Bool :=
  let p := c.fld oCvRec0 cvRec0_PORT
  let d := (c.cvBc + 2 ^ 40 - bc % 2 ^ 40) % 2 ^ 40
  decide (d ≠ 0 ∧ d < 2 ^ 39)
    || (decide (d = 0) && (decide (n < p) || (decide (n = p) && !write && decide (c.fld oCvRec0 cvRec0_WRITE = 1))))

/-- Fill MIO_CV_REC0 to MIO_CV_REC2. -/
def Ctl.cvFill (c : Ctl) (n : Nat) (write : Bool) (lane cause gi bc sceneNo off : Nat) : Ctl :=
  let p := c.place gi
  let c := [(cvRec0_PORT, n), (cvRec0_CAUSE, cause), (cvRec0_LANE, lane), (cvRec0_WRITE, write.toNat), (cvRec0_QUAD, p.quad),
    (cvRec0_CLUSTER, p.cluster), (cvRec0_BANK, p.bank), (cvRec0_SLOT, slotOf bc)].foldl (fun c x => c.setFld oCvRec0 x.1 x.2) (c.flag oCvRec0 cvRec0_VALID)
  let c := (c.setFld oCvRec1 cvRec1_SCENE_NO sceneNo).setFld oCvRec1 cvRec1_EC_OFFSET (min off (2 ^ 32 - 1))
  (c.setFld oCvRec2 cvRec2_GI gi).setFld oCvRec2 cvRec2_FRAME (frameOf bc)

/-- One violating access: counted, recorded, and raised once in the cc after its bank access (R94, R95). A second access that violates in
the bc of the recorded one sets OVERFLOW too, and of two that come to be known out of their order the record takes the earlier one: the manual
says neither in so many words (DESIGN CHOICE, log entry 123). -/
def Ctl.cueViolation (c : Ctl) (n : Nat) (write : Bool) (lane cause gi bc sceneNo off : Nat) : Ctl :=
  let c := c.satAdd oCvCount ⟨0, 0, 32⟩ 1
  let c := if c.fld oCvRec0 cvRec0_VALID = 0 then c.cvFill n write lane cause gi bc sceneNo off
    else (if c.cvReplaces n write bc then c.cvFill n write lane cause gi bc sceneNo off else c).flag oCvRec0 cvRec0_OVERFLOW
  c.raiseAt (bc / 8 + 1) 10 (seqUnit (c.groupOf n) n)

/-- A further violating lane of a read access that has been counted: the record takes it where it names this access with a higher lane, or
an access behind it. -/
def Ctl.cvFurther (c : Ctl) (n lane cause gi bc sceneNo off : Nat) : Ctl :=
  let same := decide (c.cvBc = bc % 2 ^ 40 ∧ c.fld oCvRec0 cvRec0_PORT = n ∧ c.fld oCvRec0 cvRec0_WRITE = 0 ∧ lane < c.fld oCvRec0 cvRec0_LANE)
  if c.fld oCvRec0 cvRec0_VALID = 1 ∧ (same ∨ c.cvReplaces n false bc) then c.cvFill n false lane cause gi bc sceneNo off else c

/-- A cause of R93. -/
def isViolation (x : Cause) : Bool := decide (1 ≤ x ∧ x ≤ 5)

/-- Count a read lane's violation in MIO_PSTAT_n. -/
def Ctl.countRead (c : Ctl) (n : Nat) (x : Cause) : Ctl :=
  if x = 1 then c.satAdd (oPstat n) pstat_OWNF 1 else if isViolation x then c.satAdd (oPstat n) pstat_COLL 1 else c

/-- The status of a write lane with a cause (R47, R307, R315). -/
def causeStatus (x : Cause) (fault : Bool) : BitVec 2 :=
  if x = 1 ∨ x = 6 ∨ x = 7 then 2 else if isViolation x then 1 else if fault then 3 else 0

/-! ### Reads -/

/-- The read-ahead entry that a plain lane hits in its issue ec (R146, R147). -/
def Seq.raHit (q : Seq) (gi issue : Nat) : Option RaEntry :=
  q.ra.find? fun e => decide (e.gi = gi ∧ e.since < issue) && (match e.gone with | some x => decide (issue ≤ x) | none => true)

/-- The write lane that a forwarded lane takes its granule from. -/
def Seq.source (q : Seq) (x : Nat × Nat) : Option (WAccess × WLane) :=
  match q.writes.find? fun a => decide (a.id = x.1) with
  | none => none
  | some a => (a.lanes.find? fun l => decide (l.lane = x.2)).map fun l => (a, l)

/-- A write, as it stands, passes its last bank-access bc too late for a read delivered in ec `d`: not before ec d - 2 (R141). -/
def WAccess.lateFor (a : WAccess) (d : Nat) : Bool := decide (2 * (d - 2) ≤ a.lastBc)

/-- A write that is late for a read stays late: its issue ec has come, or a FLUSH that begins in ec `e` or later brings it too late as well
(R141, R144). -/
def WAccess.staysLate (a : WAccess) (d e : Nat) : Bool :=
  a.lateFor d && (a.issued || decide (a.t ≤ e) || decide (2 * (d - 2) ≤ 2 * (e + 1) + if a.acc.isSome then 10 else 2))

/-- A forwarded lane of a read whose bank access has been made, once its outcome is known (R141): the granule as the write left it, with the TAG
check against its tags; or cause DELIVERY, for a value that is not formed in time and for a read that is discarded (R41). `upto`: bank accesses
before this bc are over; `e`: the first ec in which a FLUSH can still begin. Of a write that a kill has discarded nothing is left to
forward: the lane is poisoned. -/
def Ctl.forwardLane (c : Ctl) (q : Seq) (r : RAccess) (upto e : Nat) (l : RLane) : RLane :=
  match l.fwd with
  | none => l
  | some x =>
    if l.cause ≠ 0 ∨ l.got then l
    else
      let fail := fun (k : Cause) => { l with cause := k, got := true, bad := true, granule := poisonGranule l.rep : RLane }
      match q.source x with
      | none => if r.dropped then fail 5 else fail 0
      | some y =>
        if y.1.lateFor r.deliver then (if y.1.staysLate r.deliver e then fail 5 else l)
        else if y.1.done ∧ y.1.lastBc < upto then
          let g := y.2.after
          if c.tagChecked l.gi ∧ ¬ gPoison g ∧ ¬ gFull g then fail 4
          else if r.dropped then fail 5
          else { l with got := true, granule := g, bad := gPoison g }
        else l

/-- The granule from before the write that the port sampled in a read's issue ec, once that write has passed its bank access: the
read returns the value from before it (R141). -/
def Seq.sameEc (q : Seq) (issue gi : Nat) : Option Granule :=
  (q.writes.find? fun a => !a.index && a.done && decide (a.w = issue)).bind fun a =>
    (a.own.find? fun l => l.passed && decide (l.gi = gi)).map fun l => l.before

/-- What a lane reads from its bank: what a lower lane of the access has read, the granule from before the port's own write of the
issue ec, or the stored granule through the correction stage. -/
def Ctl.laneRead (c : Ctl) (b : Tab Granule) (n : Nat) (r : RAccess) (seen : List (Nat × Decoded)) (gi : Nat) : Ctl × Decoded :=
  match seen.find? fun y => decide (y.1 = gi) with
  | some y => (c, y.2)
  | none => match (if isVector n then (c.seq n).sameEc r.issue gi else none) with
    | some g => (c, ⟨false, 0, 0x1FF, gPoison g, g⟩)
    | none => c.bankRead b 0 n gi r.bankBc

/-- One lane of a read access at its bank-access bc. `seen`: granules that lower lanes of the access have read. -/
def Ctl.readLane (c : Ctl) (b : Tab Granule) (n : Nat) (r : RAccess) (seen : List (Nat × Decoded)) (l : RLane) : Ctl × RLane × List (Nat × Decoded) :=
  let rep := c.repOf l.gi
  if c.blackout then (c, { l with cause := 7, bad := true, granule := poisonGranule rep, rep := rep }, seen)
  else if cutBy r.cut r.bankBc then (c, { l with cause := 6, bad := true, granule := poisonGranule rep, rep := rep }, seen)
  else
    let x := c.pathCause (c.groupOf n) l.gi r.bankBc
    let hit := if l.fwd.isNone ∧ r.opmode.toNat = 0 then (c.seq n).raHit l.gi r.issue else none
    if x ≠ 0 then (c, { l with cause := x, hit := hit.isSome, bad := true, granule := poisonGranule rep, rep := rep }, seen)
    else if l.fwd.isSome then
      (c, { l with rep := rep }, seen)
    else
      match hit with
      | some e =>
        let tag := c.tagChecked l.gi && !gFull e.granule
        let x := if tag then 4 else if r.dropped then 5 else 0
        (c, if x = 0 then { l with hit := true, granule := e.granule, rep := e.rep } else { l with hit := true, cause := x, bad := true, granule := poisonGranule rep, rep := rep }, seen)
      | none =>
        let r2 := c.laneRead b n r seen l.gi
        let d := r2.2
        let tag := c.tagChecked l.gi && !tagReadOk (if d.bad ∨ d.pois then none else some (gFull d.word))
        let x := if tag then 4 else if r.dropped then 5 else 0
        (r2.1, if x = 0 then { l with granule := d.word, rep := rep, bad := d.bad || d.pois } else { l with cause := x, bad := true, granule := poisonGranule rep, rep := rep },
          (l.gi, d) :: seen)

/-- The lanes of a read access in order. -/
def Ctl.readLanes (b : Tab Granule) (n : Nat) (r : RAccess) : List RLane → List (Nat × Decoded) → Ctl → Ctl × List RLane
  | [], _, c => (c, [])
  | l :: t, seen, c =>
    let x := c.readLane b n r seen l
    let y := Ctl.readLanes b n r t x.2.2 x.1
    (y.1, x.2.1 :: y.2)

/-- The lane, cause and granule that a violating access is recorded under: the lowest lane, a scale granule counting as
the lowest element lane (R95, R116). -/
def firstViolation (lanes : List (Nat × Bool × Cause × Nat)) : Option (Nat × Cause × Nat) :=
  let bad := lanes.filter fun x => isViolation x.2.2.1
  let scale := bad.find? fun x => x.2.1
  match bad.find? (fun x => !x.2.1), scale with
  | some l, some s => if l.1 = 0 then some (0, l.2.2.1, l.2.2.2) else some (0, s.2.2.1, (lanes.headD l).2.2.2)
  | some l, none => some (l.1, l.2.2.1, l.2.2.2)
  | none, some s => some (0, s.2.2.1, (lanes.headD s).2.2.2)
  | none, none => none

/-- The oldest read access of a sequencer whose bank access is due by `bc`. -/
def Seq.dueRead (q : Seq) (bc : Nat) : Option RAccess := q.reads.find? fun r => !r.checked && decide (r.bankBc ≤ bc)

/-- The cause that a lane counts under: a forwarded lane of a discarded read whose value is still to come violates DELIVERY at least. -/
def RAccess.causeOf (r : RAccess) (l : RLane) : Cause :=
  if l.cause = 0 ∧ r.checked ∧ r.dropped ∧ l.fwd.isSome ∧ ¬ l.got then 5 else l.cause

/-- The bc that a lane's check counts as made in (R94, R141): of the TAG check of a forwarded lane, the last bank-access bc of its write. -/
def Seq.checkBc (q : Seq) (r : RAccess) (l : RLane) : Nat :=
  match l.fwd with
  | some x => if l.cause = 4 then (match q.source x with | some y => y.1.lastBc | none => r.bankBc) else r.bankBc
  | none => r.bankBc

/-- Put back a read access of sequencer `n`. -/
def Ctl.putRead (c : Ctl) (n : Nat) (r : RAccess) : Ctl :=
  c.setSeq n { c.seq n with reads := (c.seq n).reads.map fun y => if y.id = r.id then r else y }

/-- The lanes of a read access go from those of `r` to those of `r'`: each that has come to a cause is counted in MIO_PSTAT_n, and the access
is counted, recorded and raised once, by the violation of the earliest bc and of its lanes the lowest (R94, R95, R116, R141). -/
def Ctl.readJudge (c : Ctl) (n : Nat) (r r' : RAccess) : Ctl :=
  let q := c.seq n
  let new := (List.zip r.lanes r'.lanes).mapIdx fun k x => (k, x.1, x.2)
  let c := (new.filter fun x => decide (x.2.1.cause = 0) && !x.2.2.scale).foldl (fun c x => c.countRead n x.2.2.cause) c
  let bad := new.filter fun x => decide (r.causeOf x.2.1 = 0) && isViolation (r'.causeOf x.2.2)
  match (bad.map fun x => q.checkBc r' x.2.2).min? with
  | none => c.putRead n r'
  | some bc =>
    match firstViolation ((bad.filter fun x => decide (q.checkBc r' x.2.2 = bc)).map fun x => (x.1, x.2.2.scale, r'.causeOf x.2.2, x.2.2.gi)) with
    | none => c.putRead n r'
    | some v =>
      let off := r.issue - r.ec0
      (if r.viol then c.cvFurther n v.1 v.2.1 v.2.2 bc r.sceneNo.toNat off
        else c.cueViolation n false v.1 v.2.1 v.2.2 bc r.sceneNo.toNat off).putRead n { r' with viol := true }

/-- A read access at its bank-access bc. -/
def Ctl.readAccess (c : Ctl) (b : Tab Granule) (n : Nat) (r : RAccess) : Ctl :=
  let x := Ctl.readLanes b n r r.lanes [] c
  let c := x.1
  let q := c.seq n
  let gone := (x.2.filter fun l => l.hit && isViolation l.cause).map fun l => l.gi
  let c := c.setSeq n { q with ra := q.ra.map fun e => if gone.contains e.gi then e.leave (r.bankBc / 2) else e }
  let lanes := if c.blackout then x.2 else x.2.map (c.forwardLane q r c.bc c.ec)
  c.readJudge n r { r with lanes := lanes, checked := true }

/-- A read that has made its bank access and waits for a forwarded value. -/
def RAccess.waits (r : RAccess) : Bool := r.checked && !r.done && r.lanes.any fun l => l.fwd.isSome && decide (l.cause = 0) && !l.got

/-- The reads of port `n` that wait for forwarded values, with bank accesses before bc `upto` over and ec `e` the first in which a FLUSH can
still begin. -/
def Ctl.forwardsOf (c : Ctl) (upto e n : Nat) : Ctl :=
  ((c.seq n).reads.filter RAccess.waits).foldl (fun c r => c.readJudge n r { r with lanes := r.lanes.map (c.forwardLane (c.seq n) r upto e) }) c

/-- At the end of a bc: forwarded values that have been formed in it are taken, and those that will not be formed in time are lost. -/
def Ctl.forwardsEnd (c : Ctl) : Ctl :=
  if c.blackout then c
  else forAll ((c.seqs.filter fun e => e.2.reads.any RAccess.waits).map fun e => e.1) (fun n c => c.forwardsOf (c.bc + 1) ((c.bc + 1) / 2) n) c

/-! ### Writes -/

/-- Asynchronous merges of a granule that a scheduled write overtakes start again (R62). -/
def Ctl.restartMerges (c : Ctl) (gi : Nat) : Ctl :=
  { c with areqs := c.areqs.map fun (a : AReq) => if a.gi = gi ∧ a.base.isSome then { a with second := none, base := none, since := c.bc } else a }

/-- A scheduled write commits. -/
def Ctl.schedCommit (c : Ctl) (gi : Nat) (g : Granule) : Ctl × List BankOp := (c.restartMerges gi).commit .other gi g

/-- The stored granule as a scheduled lane's tag check sees it. -/
def Ctl.storedAt (c : Ctl) (b : Tab Granule) (gi : Nat) : Option Bool := storedFull (c.repOf gi) (rowAt b (c.keyOf (c.place gi)))

/-- The decision on one plain lane. -/
def Ctl.plainLane (c : Ctl) (b : Tab Granule) (n : Nat) (a : WAccess) (l : WLane) : Cause :=
  if c.blackout then 7
  else if cutBy a.cut a.firstBc then 6
  else
    let x := c.pathCause (c.groupOf n) l.gi a.firstBc
    if x ≠ 0 then x
    else if c.tagChecked l.gi && !tagWriteOk (c.storedAt b l.gi) (if l.fault then none else some (gFull l.granule)) then 4 else 0

/-- The decision on one accumulating lane. -/
def Ctl.accLane (c : Ctl) (b : Tab Granule) (n : Nat) (a : WAccess) (l : WLane) : Cause :=
  if c.blackout then 7
  else if cutBy a.cut a.firstBc then 6
  else
    let x := c.accCause (c.groupOf n) l.gi a.firstBc
    if x ≠ 0 then x else if c.tagChecked l.gi && !tagAccOk (c.storedAt b l.gi) l.fault then 4 else 0

/-- The lane whose data a bank write of granule `gi` takes: the highest passing lane (R48). -/
def writerOf (dec : List (WLane × Cause)) (gi : Nat) : Option WLane :=
  ((dec.filter fun x => decide (x.2 = 0) && decide (x.1.gi = gi)).getLast?).map fun x => x.1

/-- A stored granule as the correction stage would pass it on. -/
def Ctl.storedWord (c : Ctl) (b : Tab Granule) (gi : Nat) : Granule := (decodeG (c.repOf gi) (rowAt b (c.keyOf (c.place gi)))).word

/-- The lanes of a plain access of port n after its bank access: status codes, and the granule as it stands before and afterwards
(R47, R141). -/
def Ctl.plainResult (c : Ctl) (b : Tab Granule) (n : Nat) (dec : List (WLane × Cause)) (l : WLane) : WLane :=
  if l.follow.isSome then l
  else
    let x := (dec.find? fun y => decide (y.1.lane = l.lane)).map fun y => y.2
    match writerOf dec l.gi with
    | some w =>
      { l with code := causeStatus (x.getD 0) w.fault, passed := decide (x = some 0), after := w.granule, before := if isVector n then c.storedWord b l.gi else 0 }
    | none => { l with code := causeStatus (x.getD 0) l.fault, after := c.storedWord b l.gi }

/-- Put back an access of sequencer `n`. -/
def Ctl.putWrite (c : Ctl) (n : Nat) (a : WAccess) : Ctl :=
  c.setSeq n { c.seq n with writes := (c.seq n).writes.map fun y => if y.id = a.id then a else y }

/-- Record the violations of a write access (R95: EC_OFFSET counts to the ec t of crossbar issue, log entry 15). -/
def Ctl.writeViolation (c : Ctl) (n : Nat) (a : WAccess) (dec : List (WLane × Cause)) : Ctl :=
  match firstViolation (dec.map fun x => (x.1.lane, false, x.2, x.1.gi)) with
  | none => c
  | some v => c.cueViolation n true v.1 v.2.1 v.2.2 a.firstBc a.sceneNo.toNat (a.t - a.ec0)

/-- Commit one granule for every granule index that a plain access writes. -/
def Ctl.plainCommit (dec : List (WLane × Cause)) : List Nat → Ctl → Ctl × List BankOp
  | [], c => (c, [])
  | gi :: t, c => match writerOf dec gi with
    | none => Ctl.plainCommit dec t c
    | some w =>
      let r := c.schedCommit gi w.granule
      let r2 := Ctl.plainCommit dec t r.1
      (r2.1, r.2 ++ r2.2)

/-- A plain write access at its bank-access bc. -/
def Ctl.plainAccess (c : Ctl) (b : Tab Granule) (n : Nat) (a : WAccess) : Ctl × List BankOp :=
  let dec := a.own.map fun l => (l, c.plainLane b n a l)
  let lanes := a.lanes.map (c.plainResult b n dec)
  let r := Ctl.plainCommit dec (dec.map fun x => x.1.gi).eraseDups c
  let c := (lanes.filter fun l => l.follow.isNone).foldl (fun c l => c.countStatus n l.code) r.1
  let c := c.putWrite n { a with lanes := lanes, issued := true, first := true, done := true }
  (c.writeViolation n a dec, r.2)

/-- Results of accumulations of granule `gi` that hold their second slot after `bc`: first-slot bc and result (R123). -/
def Ctl.chainResults (c : Ctl) (gi bc : Nat) : List (Nat × Granule) :=
  (c.seqs.flatMap fun e => e.2.writes.flatMap fun a =>
    if a.acc.isSome ∧ a.first ∧ ¬ a.done ∧ a.firstBc < bc ∧ bc < a.lastBc then
      (a.own.filter fun l => l.passed && decide (l.gi = gi)).map fun l => (a.firstBc, l.prior)
    else []) ++
  c.areqs.flatMap fun r => if r.acc.isSome ∧ r.gi = gi then (match r.second with | some x => [(x.1 - 8, x.2)] | none => []) else []

/-- The granule that an accumulation starts from: the newest pending result of the chain, else the stored granule. -/
def Ctl.chainBase (c : Ctl) (gi bc : Nat) (stored : Granule) : Granule :=
  ((c.chainResults gi bc).foldl (fun m x => match m with | some y => if y.1 ≤ x.1 then some x else some y | none => some x) none).elim stored
    (fun x => x.2)

/-- The contributions of the step of granule `gi` in `bc`: every accumulating lane of every port that uses the bank and
passes its tag check, in port and lane order (R48). -/
def Ctl.stepUses (c : Ctl) (b : Tab Granule) (gi bc : Nat) : List BankUse :=
  (c.bankUses bc (c.place gi).pbank).filter fun u =>
    u.write && u.acc.isSome && decide (u.gi = gi) && (!c.tagChecked gi || tagAccOk (c.storedAt b gi) u.fault)

/-- One passing lane of an accumulating access at its first slot: the result of its step. The first lane of the step reads
the bank through the correction stage. -/
def Ctl.accFirstLane (c : Ctl) (b : Tab Granule) (n : Nat) (a : WAccess) (l : WLane) : Ctl × WLane :=
  let bc := a.firstBc
  let us := c.stepUses b l.gi bc
  let lead := match us with | u :: _ => decide (u.port = n ∧ u.id = a.id ∧ u.lane = l.lane) | [] => true
  let r := if lead then c.bankRead b 0 n l.gi bc else (c, decodeG (c.repOf l.gi) (rowAt b (c.keyOf (c.place l.gi))))
  let base := c.chainBase l.gi bc r.2.word
  let res := accStep (c.repOf l.gi) (a.acc.getD 0) base (us.map fun u => u.granule) (us.any fun u => u.fault)
  (r.1, { l with passed := true, prior := res, code := causeStatus 0 l.fault })

/-- The lanes of an accumulating access at its first slot. -/
def Ctl.accFirstLanes (b : Tab Granule) (n : Nat) (a : WAccess) : List (WLane × Cause) → Ctl → Ctl × List WLane
  | [], c => (c, [])
  | x :: t, c =>
    let r := if x.2 = 0 then c.accFirstLane b n a x.1
      else (c, { x.1 with code := causeStatus x.2 x.1.fault, after := c.storedWord b x.1.gi })
    let r2 := Ctl.accFirstLanes b n a t r.1
    (r2.1, r.2 :: r2.2)

/-- An accumulating access at its first slot (R122). Without a passing lane it is done. -/
def Ctl.accAccess (c : Ctl) (b : Tab Granule) (n : Nat) (a : WAccess) : Ctl :=
  let dec := a.own.map fun l => (l, c.accLane b n a l)
  let r := Ctl.accFirstLanes b n a dec c
  let c := r.2.foldl (fun c l => c.countStatus n l.code) r.1
  let c := c.putWrite n { a with lanes := r.2, issued := true, first := true, done := r.2.all fun l => !l.passed }
  c.writeViolation n a dec

/-- The suppressed lanes of an access whose last bank-access bc is over. -/
def WAccess.resettle (word : Nat → Granule) (a : WAccess) : WAccess :=
  { a with lanes := a.lanes.map fun l => if l.passed || l.follow.isSome then l else { l with after := word l.gi } }

/-- At the end of the last bank-access bc of a write: a suppressed lane forwards the granule as it stands then (R141). -/
def Ctl.suppressedAfter (c : Ctl) (b : Tab Granule) : Ctl :=
  let ends := fun (a : WAccess) => !a.index && a.first && decide (a.lastBc = c.bc) && a.own.any fun l => !l.passed
  let hits := c.seqs.filter fun e => e.2.writes.any ends
  hits.foldl (fun c e => c.setSeq e.1 { e.2 with writes := e.2.writes.map fun a => if ends a then a.resettle (c.storedWord b) else a }) c

/-- The oldest write access of a sequencer whose first bank access is due by `bc`. -/
def Seq.dueWrite (q : Seq) (bc : Nat) : Option WAccess := q.writes.find? fun a => !a.first && decide (a.firstBc ≤ bc)

/-- SCHEDULED_BANK_ACCESS: the oldest due access of a channel of sequencer `n`. -/
def Ctl.bankAccess (c : Ctl) (b : Tab Granule) (n : Nat) (write : Bool) : Ctl × List BankOp :=
  if !c.sysReady then (c, [])
  else if write then
    match (c.seq n).dueWrite c.bc with
    | none => (c, [])
    | some a => if a.acc.isSome then (c.accAccess b n a, []) else c.plainAccess b n a
  else
    match (c.seq n).dueRead c.bc with
    | none => (c, [])
    | some r => (c.readAccess b n r, [])

/-- A poisoned result is counted once for its step: by the first lane in port and lane order (MIO_MSO_STAT_q.ACC_POIS). -/
def Ctl.leadsStep (c : Ctl) (n : Nat) (a : WAccess) (l : WLane) : Bool :=
  !(a.own.any fun m => m.passed && decide (m.gi = l.gi ∧ m.lane < l.lane)) &&
  !(c.seqs.any fun e => decide (e.1 < n) && e.2.writes.any fun x => x.acc.isSome && x.first && decide (x.firstBc = a.firstBc)
      && x.own.any fun m => m.passed && decide (m.gi = l.gi))

/-- An accumulation whose first slot was in `bc` has written the chain's result: an asynchronous one that began before it and holds its
second slot later writes that result in its place, so no contribution is lost (R123). -/
def Ctl.chainPass (c : Ctl) (gi bc : Nat) (res : Granule) : Ctl :=
  { c with areqs := c.areqs.map fun (r : AReq) =>
      match r.second with
      | some x => if r.acc.isSome ∧ r.gi = gi ∧ x.1 < bc + 8 then { r with second := some (x.1, res) } else r
      | none => r }

/-- The second slot of one passing lane. -/
def Ctl.accSecondLane (c : Ctl) (n : Nat) (a : WAccess) (l : WLane) : Ctl × List BankOp :=
  let lead := c.leadsStep n a l
  let q := (c.place l.gi).quad
  let c := if lead ∧ gPoison l.prior ∧ ¬ c.blackout then c.satAdd (oMsoStat q) msoStat_ACC_POIS 1 else c
  if lead then (c.chainPass l.gi a.firstBc l.prior).schedCommit l.gi l.prior else (c, [])

/-- The second slots of the lanes of one access. -/
def Ctl.accSecondLanes (n : Nat) (a : WAccess) : List WLane → Ctl → Ctl × List BankOp
  | [], c => (c, [])
  | l :: t, c =>
    let r := if l.passed then c.accSecondLane n a l else (c, [])
    let r2 := Ctl.accSecondLanes n a t r.1
    (r2.1, r.2 ++ r2.2)

/-- ACC_WRITEBACK: the second slot of the oldest due accumulating write writes the result of its step (R122). In safe state
nothing is written, and its lanes report OWNER_FAULT (R307). -/
def Ctl.accWriteback (c : Ctl) (n : Nat) : Ctl × List BankOp :=
  if !c.sysReady then (c, [])
  else
    match (c.seq n).writes.find? fun a => a.acc.isSome && a.first && !a.done && decide (a.lastBc ≤ c.bc) with
    | none => (c, [])
    | some a =>
      let r := Ctl.accSecondLanes n a a.lanes c
      let dark := c.blackout
      let lanes := a.lanes.map fun l => if l.passed then { l with after := l.prior, code := if dark then 2 else l.code } else l
      (r.1.putWrite n { a with lanes := lanes, done := true }, r.2)

/-! ### The commands -/

/-- SCHEDULED_BANK_ACCESS. -/
def execScheduledBankAccess (n : Nat) (write : Bool) (s : State) : Out :=
  onBanks (decide (n < Config.seqs)) s fun b c => c.bankAccess b n write
/-- ACC_WRITEBACK. -/
def execAccWriteback (n : Nat) (s : State) : Out := onBanks (decide (n < Config.seqs)) s fun _ c => c.accWriteback n

end Sys2Proof.Machine
end

