-- ==== Sys2Proof/Machine/Arb.lean ====
section
/-! DEFINITION. Arbitration of the unscheduled slots (R235 to R245), and who waits behind a merge, a chain or a tag stall (R62, R123, R167). -/

namespace Sys2Proof.Machine

/-! ### Requests (R235, R236) -/

/-- Class of a requester (R235): 1 stream, 2 link/twin, 3 service. -/
def reqClass (r : Nat) : Nat := if r < 24 then 1 else if r < 45 then 2 else 3

/-- The party of R167: the stream context, the descriptor, or the unit itself. -/
def AReq.party (a : AReq) : Nat × Nat :=
  match a.kind with
  | .streamLand x _ _ => (0, x)
  | .stageHold x _ _ => (0, x)
  | .spillRead x _ => (0, x)
  | .sendRead e _ => (1, e)
  | _ => (2, a.req)

/-- A counted landing (R241): every link/twin request but a send-descriptor source read. -/
def AReq.counted (a : AReq) : Bool :=
  match a.kind with
  | .sendRead _ _ => false
  | _ => decide (reqClass a.req = 2)

/-- The context of a landing that takes no slot: into the script store, or with a mask that writes nothing (R60, R194). -/
def Ctl.slotless (c : Ctl) (a : AReq) : Bool :=
  match a.kind with
  | .streamLand x _ _ => decide (c.fld (oStrCtx x) strCtx_DIR = 2) || decide (a.mask = 0)
  | .linkLand _ _ => decide (a.mask = 0)
  | .stageApply _ _ => decide (a.mask = 0)
  | _ => false

/-- Where a request goes: the place of its granule, or the row of a bank that an intermission names. -/
def Ctl.reqPlace (c : Ctl) (a : AReq) : Place :=
  match a.kind with
  | .imgRead _ pb row => { region := 0, slot := 0, quad := pbQuad pb, cluster := pbCluster pb, bank := pb % 16, row := row }
  | .imgLand _ pb row => { region := 0, slot := 0, quad := pbQuad pb, cluster := pbCluster pb, bank := pb % 16, row := row }
  | _ => c.place a.gi

/-- The bank of a request. -/
def Ctl.reqBank (c : Ctl) (a : AReq) : Nat := (c.reqPlace a).pbank

/-- The bc is a slot of the request's class in its cluster (R89). -/
def Ctl.reqSlot (c : Ctl) (a : AReq) : Bool :=
  let p := c.reqPlace a
  decide (c.classAt p.quad p.cluster c.bc = reqClass a.req)

/-- A partial merge between its slots whose granule a chain of accumulations is changing: its second slot waits until the chain's last one has
passed (R123), and then starts again over the result (R62). -/
def Ctl.chainHolds (c : Ctl) (a : AReq) : Bool := a.base.isSome && !(c.chainResults a.gi c.bc).isEmpty

/-- Another access to the granule stands between its two slots, so the request waits: a partial merge for every access, an
accumulation for a plain write or merge (R62, R123). -/
def Ctl.reqHeld (c : Ctl) (a : AReq) : Bool :=
  (c.areqs.any fun b => decide (b.id ≠ a.id ∧ b.gi = a.gi) && b.base.isSome && b.second.isSome)
    || (a.write && a.acc.isNone && !(c.chainResults a.gi c.bc).isEmpty)

/-- The request waits behind a stalled access of its party in its cluster (R167). -/
def Ctl.reqBehind (c : Ctl) (a : AReq) : Bool :=
  let p := c.reqPlace a
  a.stall.isNone && c.areqs.any fun b => b.stall.isSome && b.second.isNone && decide (b.party = a.party) &&
    (let r := c.reqPlace b
     decide (r.quad = p.quad ∧ r.cluster = p.cluster))

/-- A request of the reorder stage for a contribution that has not reached its target (R135, R197). -/
def AReq.staged (a : AReq) : Bool :=
  match a.kind with
  | .osetRead _ _ => true
  | .osetApply _ _ => true
  | .stageRead _ _ => true
  | .stageApply _ _ => true
  | _ => false

/-- The request is not yet the next in the order that its target needs: of an accumulating context, ascending stack
granules (R191); of the reorder stage, ascending key for each target granule (R135, R197). -/
def Ctl.reqAhead (c : Ctl) (a : AReq) : Bool :=
  match a.kind with
  | .streamLand x s _ => a.acc.isSome && decide ((c.ctx x).accNext ≠ s)
  | .osetApply _ _ => c.areqs.any fun b => b.staged && b.second.isNone && decide (b.id < a.id ∧ b.dest = a.dest)
  | .stageApply _ _ => c.areqs.any fun b => b.staged && b.second.isNone && decide (b.id < a.id ∧ b.dest = a.dest)
  | _ => false

/-- The request competes in the present bc for its first slot. -/
def Ctl.presented (c : Ctl) (a : AReq) : Bool :=
  a.second.isNone && decide (a.since ≤ c.bc) && !c.slotless a && c.reqSlot a && !c.reqHeld a && !c.reqBehind a && !c.reqAhead a

/-- The requests of class `cls` that compete for a bank in the present bc. -/
def Ctl.rivals (c : Ctl) (cls pb : Nat) : List AReq :=
  c.areqs.filter fun a => decide (reqClass a.req = cls ∧ c.reqBank a = pb) && c.presented a

/-- Settings of a requester. -/
def Ctl.priOf (c : Ctl) (r : Nat) : Nat := c.fld (oArbReq r) arbReq_PRI
/-- HOLD, fixed at 1 for the link/twin class (R239). -/
def Ctl.holdOf (c : Ctl) (r : Nat) : Nat := if reqClass r = 2 then 1 else c.fld (oArbReq r) arbReq_HOLD + 1
def Ctl.limitOf (c : Ctl) (r : Nat) : Nat := c.fld (oArbReq r) arbReq_WAIT_LIMIT

/-! ### The decision (R237) -/

/-- The request of a list that comes first under a strict order, the earlier of equals. -/
def firstBy (lt : AReq → AReq → Bool) : List AReq → Option AReq
  | [] => none
  | a :: t => match firstBy lt t with
    | some b => if lt b a then some b else some a
    | none => some a

/-- Step 3: the counted landings of earliest acceptance, when any is presented (R241). -/
def oldestCounted (rs : List AReq) : List AReq :=
  let cs := rs.filter AReq.counted
  match firstBy (fun a b => decide (a.order < b.order)) cs with
  | none => []
  | some a => cs.filter fun b => decide (b.order = a.order)

/-- Wait counter of a requester in quadrant `q` (R242). -/
def Ctl.waitOf (c : Ctl) (q r : Nat) : Nat := Tab.get 0 (c.arb q).wait r

/-- Step 4: the forced requester with the largest count, then the lowest number (R242). Counts change at the end of a bc. -/
def Ctl.forcedWin (c : Ctl) (q : Nat) (rs : List AReq) : Option AReq :=
  firstBy (fun a b => decide (c.waitOf q b.req < c.waitOf q a.req ∨ (c.waitOf q a.req = c.waitOf q b.req ∧ a.req < b.req)))
    (rs.filter fun a => decide (c.limitOf a.req ≠ 0 ∧ c.limitOf a.req ≤ c.waitOf q a.req))

/-- Step 5: the holder, if its grant continues (R239). A grant that a slot of the class has passed by is gone at the end of that bc. -/
def Ctl.holderWin (c : Ctl) (q pb cls : Nat) (rs : List AReq) : Option AReq :=
  match (c.arb q).grants.find? fun e => decide (e.1 = pb * 4 + cls) with
  | none => none
  | some e =>
    let g := e.2
    if g.taken < c.holdOf g.req ∧ (rs.all fun a => decide (a.req = g.req ∨ c.priOf a.req ≤ c.priOf g.req))
    then rs.find? fun a => decide (a.req = g.req) else none

/-- A link-port unit in back-off at a bank (R243). -/
def Ctl.backedOff (c : Ctl) (q pb r : Nat) : Bool := decide (Tab.get 0 (c.arb q).heldBack (r * 4096 + pb) ≠ 0)

/-- Step 6: highest PRI, then lowest number. Units in back-off are left out unless no other requester is there (R243). -/
def Ctl.plainWin (c : Ctl) (q pb : Nat) (rs : List AReq) : Option AReq :=
  let free := rs.filter fun a => !c.backedOff q pb a.req
  firstBy (fun a b => decide (c.priOf b.req < c.priOf a.req ∨ (c.priOf a.req = c.priOf b.req ∧ a.req < b.req))) (if free.isEmpty then rs else free)

/-- Steps 3 to 6 over the requests presented at one bank: the winner and its step. Requests stand in the order of their age. -/
def Ctl.choose (c : Ctl) (q pb cls : Nat) (rs : List AReq) : Option (AReq × Nat) :=
  let old := if cls = 2 then oldestCounted rs else []
  match old with
  | a :: t => if t.all fun b => decide (b.req = a.req) then some (a, 3)
    else match c.forcedWin q old with
      | some w => some (w, 4)
      | none => (c.plainWin q pb old).map fun w => (w, 6)
  | [] => match c.forcedWin q rs with
    | some w => some (w, 4)
    | none => match c.holderWin q pb cls rs with
      | some w => some (w, 5)
      | none => (c.plainWin q pb rs).map fun w => (w, 6)

/-- The outcome of a slot: the winner with its step, and the requester that a forced loss of MIO_PERT_ARB left out (R319). -/
structure SlotWin where
  win  : Option (AReq × Nat)
  lost : Option Nat := none
  deriving DecidableEq, Repr

/-- The decision with the forced losses of R319. -/
def Ctl.decideSlot (c : Ctl) (q pb cls : Nat) (rs : List AReq) : SlotWin :=
  let r := c.fld oPertArb pertArb_REQ
  match c.choose q pb cls rs with
  | none => { win := none }
  | some w =>
    if w.1.req = r ∧ c.fld oPertArb pertArb_LOSE ≠ 0 ∧ Tab.get 0 (c.arb q).forced r ≠ 0
    then { win := c.choose q pb cls (rs.filter fun a => decide (a.req ≠ r)), lost := some r }
    else { win := some w }

/-! ### The account of a slot (R239, R242, R243) -/

/-- Mark a bank as used in the present bc. -/
def Ctl.useBank (c : Ctl) (pb : Nat) : Ctl := { c with busy := (c.bc, pb) :: c.busy.filter fun u => decide (u.1 = c.bc) }

/-- A bank has been used in the present bc. -/
def Ctl.bankUsed (c : Ctl) (pb : Nat) : Bool := c.busy.any fun u => u == (c.bc, pb)

/-- The oldest request of a requester in a quadrant that has not had its first slot. -/
def Ctl.oldestOf (c : Ctl) (q r : Nat) : Option AReq :=
  c.areqs.find? fun a => decide (a.req = r) && a.second.isNone && !c.slotless a && decide ((c.reqPlace a).quad = q)

/-- The request is the oldest of its requester in the quadrant. -/
def Ctl.isOldest (c : Ctl) (q : Nat) (a : AReq) : Bool :=
  if reqClass a.req = 3 then a.first else match c.oldestOf q a.req with | some o => decide (o.id = a.id) | none => false

/-- One more slot waited: the counter and LONGEST of its requester. -/
def Ctl.waited (c : Ctl) (q r : Nat) : Ctl :=
  let n := min 0xFFFF (c.waitOf q r + 1)
  let c := c.setArb q { c.arb q with wait := Tab.set 0 (c.arb q).wait r n }
  c.hwFld (oArbWait r) arbWait_LONGEST (max n (c.fld (oArbWait r) arbWait_LONGEST))

/-- A burst is granted to a requester (MIO_ARB_GNT_r). -/
def Ctl.countGrant (c : Ctl) (r : Nat) : Ctl := c.satAdd (oArbGnt r) arbGnt_GRANTS 1

/-- Every requester whose oldest request in the quadrant is among those presented and is not granted waits (R242): its counter rises at
the end of the bc. -/
def Ctl.waitLosers (c : Ctl) (q : Nat) (rs : List AReq) (win : Option AReq) : Ctl :=
  let l := (rs.filter fun a => c.isOldest q a && decide ((win.map fun w => w.id) ≠ some a.id)).map fun a => a.req
  c.setArb q { c.arb q with losers := (c.arb q).losers ++ l }

/-- A slot of the class passes at a bank: the back-off counts of the link-port units run down where another requester is presented (R243). -/
def Ctl.runDown (c : Ctl) (q pb : Nat) (rs : List AReq) : Ctl :=
  let units := (rs.map fun a => a.req).eraseDups
  forAll ((List.range 16).map fun i => 24 + i) (fun r c =>
    if units.any (fun u => decide (u ≠ r)) ∧ c.backedOff q pb r then
      let a := c.arb q
      c.setArb q { a with heldBack := Tab.set 0 a.heldBack (r * 4096 + pb) (Tab.get 0 a.heldBack (r * 4096 + pb) - 1) }
    else c) c

/-- The requests that the steps after step 3 choose from: those tied at step 3 where counted landings are presented (R241). -/
def contenders (cls : Nat) (rs : List AReq) : List AReq :=
  match (if cls = 2 then oldestCounted rs else []) with
  | [] => rs
  | old => old

/-- Back-off of the link-port units presented at a bank (R243): a unit that loses at step 6 backs off. One that step 3 has left out has lost
no decision there. -/
def Ctl.backOff (c : Ctl) (q pb cls : Nat) (rs : List AReq) (win : AReq) (step : Nat) : Ctl :=
  let rs6 := (contenders cls rs).filter fun a => !c.backedOff q pb a.req
  let c := c.runDown q pb rs
  if step ≠ 6 then c
  else forAll ((rs6.map fun a => a.req).eraseDups) (fun r c =>
    if r < 24 ∨ 40 ≤ r ∨ r = win.req then c
    else
      let a := c.arb q
      let n := Tab.get 0 a.loss r + 1
      let cap := c.fld oArbCfg arbCfg_BACKOFF_CAP
      c.setArb q { a with loss := Tab.set 0 a.loss r n, heldBack := Tab.set 0 a.heldBack (r * 4096 + pb) (min (2 ^ (n - 1)) (2 ^ cap)) }) c

/-- The grant at a bank after a win: a win at step 5 goes on with it, one at step 2 only suspends it, any other begins a new one (R239, R240). -/
def grantAfter (g : Grant) (r step bc : Nat) : Grant :=
  if step = 5 then { g with taken := g.taken + 1, bc := bc } else if step = 2 then (if g = ⟨0, 0, 0⟩ then g else { g with bc := bc }) else ⟨r, 1, bc⟩

/-- The winner's counts: its losses, its grant, the losses forced on it from now on, and the bank's slot. Its wait counter returns to 0 at
the end of the bc when its oldest request is granted. -/
def Ctl.grantTo (c : Ctl) (q pb cls : Nat) (w : AReq) (step : Nat) : Ctl :=
  let a := c.arb q
  let a : Arbiter := if c.isOldest q w then { a with winners := w.req :: a.winners } else a
  let g := grantAfter (Tab.get ⟨0, 0, 0⟩ a.grants (pb * 4 + cls)) w.req step c.bc
  let a : Arbiter := { a with loss := Tab.set 0 a.loss w.req 0, grants := Tab.set ⟨0, 0, 0⟩ a.grants (pb * 4 + cls) g }
  let lose := c.fld oPertArb pertArb_LOSE
  let a : Arbiter := if w.req = c.fld oPertArb pertArb_REQ then { a with forced := Tab.set 0 a.forced w.req lose } else a
  ((c.setArb q a).countGrant w.req).useBank pb

/-- The account of a decided slot. -/
def Ctl.account (c : Ctl) (q pb cls : Nat) (rs : List AReq) (d : SlotWin) : Ctl :=
  let c := c.waitLosers q rs (d.win.map fun w => w.1)
  let c := match d.lost with
    | some r => c.setArb q { c.arb q with forced := Tab.set 0 (c.arb q).forced r (Tab.get 0 (c.arb q).forced r - 1) }
    | none => c
  match d.win with
  | some w => (c.backOff q pb cls rs w.1 w.2).grantTo q pb cls w.1 w.2
  | none => c.useBank pb

/-- The counters of an arbiter at the end of a bc (R242): a requester whose oldest request was granted returns to 0, one whose oldest
request lost counts one more. -/
def Ctl.waitsEnd (c : Ctl) (q : Nat) : Ctl :=
  let a := c.arb q
  let c := c.setArb q { a with losers := [], winners := [], wait := a.winners.foldl (fun w r => Tab.set 0 w r 0) a.wait }
  forAll (a.losers.eraseDups.filter fun r => !a.winners.contains r) (fun r c => c.waited q r) c

/-- A grant ends with a slot of its class at its bank that it has not gone on in (R239). -/
def Ctl.grantsEnd (c : Ctl) (q : Nat) : Ctl :=
  let a := c.arb q
  let on := fun (e : Nat × Grant) =>
    let pb := e.1 / 4
    decide (e.2.bc = c.bc) || decide (c.classAt (pb / (16 * Config.cpq)) (pb / 16 % Config.cpq) c.bc ≠ e.1 % 4)
  c.setArb q { a with grants := a.grants.filter on }

/-- The end of a bc at the four arbiters. -/
def Ctl.arbsEnd (c : Ctl) : Ctl := forAll (c.arbs.map fun e => e.1) (fun q c => (c.waitsEnd q).grantsEnd q) c

/-- The slot that the requester of `w` wins can go to its request `a`. The rules order the requests of one stack port at a bank only within
one stack request, by arrival (R190): of different ones the command names the one that takes the slot (log entry 74). -/
def AReq.takes (rs : List AReq) (w a : AReq) : Bool :=
  decide (w.id = a.id) ||
    (decide (w.req = a.req ∧ a.req < 24) && rs.all fun b => decide (b.id < a.id → b.party = a.party → b.order ≠ a.order))

/-- What a first slot came to for a request: nothing, or the state after the account of the slot and whether it is granted. -/
def Ctl.firstSlot (c : Ctl) (a : AReq) : Option (Ctl × Bool) :=
  let p := c.reqPlace a
  let pb := p.pbank
  let cls := reqClass a.req
  if c.blackout ∨ ¬ c.active ∨ ¬ c.presented a ∨ c.bankUsed pb then none
  else if (c.areqs.any fun b => decide (reqClass b.req = cls ∧ c.reqBank b = pb) && !c.chainHolds b && match b.second with | some x => decide (x.1 ≤ c.bc) | none => false) then none
  else
    let rs := c.rivals cls pb
    let d := c.decideSlot p.quad pb cls rs
    match d.win with
    | some w => if AReq.takes rs w.1 a then some (c.account p.quad pb cls rs { d with win := some (a, w.2) }, true) else none
    | none => if d.lost = some a.req then some (c.account p.quad pb cls rs d, false) else none

/-- The booked second slot of a request, if it falls in the present bc (R238): of several due bookings of a bank the oldest
takes the slot. Its grant goes on, and whoever is presented there waits (R242, R243). A merge waits for the end of a chain (R123). -/
def Ctl.secondSlot (c : Ctl) (a : AReq) : Option Ctl :=
  let p := c.reqPlace a
  let pb := p.pbank
  let cls := reqClass a.req
  let e := match a.second with | some x => x.1 | none => c.bc + 1
  if c.blackout ∨ ¬ c.active ∨ c.bc < e ∨ ¬ c.reqSlot a ∨ c.bankUsed pb ∨ c.chainHolds a then none
  else if (c.areqs.any fun b => decide (reqClass b.req = cls ∧ c.reqBank b = pb) && !c.chainHolds b &&
      match b.second with | some x => decide (x.1 < e ∨ (x.1 = e ∧ b.id < a.id)) | none => false) then none
  else
    let rs := c.rivals cls pb
    let c := (c.waitLosers p.quad rs none).runDown p.quad pb rs
    let ar := c.arb p.quad
    let ar : Arbiter := { ar with grants := ar.grants.map fun (g : Nat × Grant) => if g.1 = pb * 4 + cls then (g.1, { g.2 with bc := c.bc }) else g }
    some ((c.setArb p.quad ar).useBank pb)

/-! ### Requests come and go -/

/-- Add a request. -/
def Ctl.request (c : Ctl) (a : AReq) : Ctl := { c with areqs := c.areqs ++ [{ a with id := c.nextReq }], nextReq := c.nextReq + 1 }

/-- The request with an id. -/
def Ctl.reqOf (c : Ctl) (id : Nat) : Option AReq := c.areqs.find? fun a => decide (a.id = id)

/-- Replace a request. -/
def Ctl.putReq (c : Ctl) (a : AReq) : Ctl := { c with areqs := c.areqs.map fun b => if b.id = a.id then a else b }

/-- Remove a request. -/
def Ctl.dropReq (c : Ctl) (id : Nat) : Ctl := { c with areqs := c.areqs.filter fun b => decide (b.id ≠ id) }

/-- The slot that a request about to be withdrawn would win goes unused (R244): the requesters presented with it wait, and
the grant ends. -/
def Ctl.withdrawWin (c : Ctl) (a : AReq) : Ctl :=
  match c.firstSlot a with
  | some (_, true) =>
    let p := c.reqPlace a
    let rs := c.rivals (reqClass a.req) p.pbank
    if ((c.decideSlot p.quad p.pbank (reqClass a.req) rs).win.map fun w => w.1.id) = some a.id then
      let c := (c.waitLosers p.quad (rs.filter fun b => decide (b.req ≠ a.req)) none).runDown p.quad p.pbank rs
      let ar := c.arb p.quad
      (c.setArb p.quad { ar with grants := Tab.drop (p.pbank * 4 + reqClass a.req) ar.grants }).useBank p.pbank
    else c
  | _ => c

/-- Withdraw every request that satisfies `p` and has not had its first slot (R244, R238). -/
def Ctl.withdraw (c : Ctl) (p : AReq → Bool) : Ctl :=
  let gone := fun (a : AReq) => p a && a.second.isNone
  let c := (c.areqs.filter gone).foldl Ctl.withdrawWin c
  { c with areqs := c.areqs.filter fun a => !gone a }

/-! ### The tag stall (R167, R169) -/

/-- The tag check of a request at its first slot: `full` none for an incoming granule that bypasses it (R168). -/
def Ctl.reqTagOk (c : Ctl) (b : Tab Granule) (a : AReq) (full : Option Bool) (fault : Bool) : Bool :=
  !c.tagChecked a.gi ||
    (let st := c.storedAt b a.gi
     if !a.write then tagReadOk st else if a.acc.isSome then tagAccOk st fault else tagWriteOk st full)

/-- The request stalls: it keeps the bc of its first failure. -/
def Ctl.stallReq (c : Ctl) (a : AReq) : Ctl := c.putReq { a with stall := some (a.stall.getD c.bc) }

/-- REQ of MIO_HANG_TAG: the stream context, the link port, 0x10 for the twin port. For the reorder stage none is stated:
a free value. -/
def Ctl.hangReq (c : Ctl) (a : AReq) : Ctl × Nat :=
  if a.party.1 = 0 then (c, a.party.2)
  else if a.req ≤ 40 then (c, a.req - 24)
  else
    let d := c.draw
    (d.2, d.1.toNat % 2 ^ 14)

/-- MIO_HANG_TAG of a report (R178). -/
def Ctl.hangTag (c : Ctl) (a : AReq) : Ctl :=
  let r := c.hangReq a
  [(hangTag_GI, a.gi), (hangTag_WRITE, a.write.toNat), (hangTag_CLASS, reqClass a.req), (hangTag_REQ, r.2)].foldl
    (fun c x => c.setFld oHangTag x.1 x.2) r.1

/-- TAG_STALL_LIMIT: once for each stalled access (R169). The fault's UNIT is the cast group, with sequencer 0x7F. R307 does not name it: it
reports in safe state too (DEDUCED, log entry 82). -/
def Ctl.tagStallLimit (c : Ctl) (id : Nat) : Ctl :=
  match c.reqOf id with
  | none => c
  | some a => match a.stall with
    | none => c
    | some t =>
      let e := c.fld oSyncCfg syncCfg_TAGSTALL_EXP
      if e = 0 ∨ a.reported ∨ ¬ c.sysReady ∨ c.bc < t + 2 ^ e then c
      else
        let c := if c.fld oHangHdr hangHdr_VALID = 1 then c else c.hangTag a
        ((c.putReq { a with reported := true }).hangReport 2 a.group 0x7F).raise 11 (seqUnit a.group 0x7F)

/-- TAG_STALL_LIMIT. -/
def execTagStallLimit (id : Nat) (s : State) : Out := onUnit true s fun c => c.tagStallLimit id

end Sys2Proof.Machine
end

