-- ==== Sys2Proof/Machine/StreamCtx.lean ====
section
/-! DEFINITION. Stream contexts (R180 to R186, R192, R195 to R206): placement, start checks, commands, counting, completion, halts, drains, ordered sets and the deadlock detector. -/

namespace Sys2Proof.Machine

/-! ### Placement (R180, R192) -/

/-- A field of context x. -/
def Ctl.cx (c : Ctl) (x : Nat) (f : FieldPos) : Nat := c.fld (oStrCtx x) f

/-- Widths under conversion: stack side and destination side. -/
def Ctl.cxIn (c : Ctl) (x : Nat) : Nat := if c.cx x strCtx_XOP = 1 then srcWidth (c.cx x strCtx_SRC) else 1
def Ctl.cxOut (c : Ctl) (x : Nat) : Nat :=
  if c.cx x strCtx_XOP = 1 then (match dstOf (c.cx x strCtx_DST) with | some d => d.width | none => 0) else 1

/-- dst(s) of R192. -/
def Ctl.dstCount (c : Ctl) (x s : Nat) : Nat := s * c.cxOut x / c.cxIn x

/-- r of R184: stack granules for one destination granule, 1 unless the conversion narrows. -/
def Ctl.narrow (c : Ctl) (x : Nat) : Nat := max 1 (c.cxIn x / c.cxOut x)

/-- Destination granules of stack granule s, for a conversion that does not narrow. -/
def Ctl.dstsOf (c : Ctl) (x s : Nat) : List Nat := (List.range (c.dstCount x (s + 1) - c.dstCount x s)).map fun i => c.dstCount x s + i

/-- D_total (R180). -/
def Ctl.dTotal (c : Ctl) (x : Nat) : Nat := c.dstCount x (c.cx x strCtx_LEN)

/-- Granule index of destination or source granule d (R180). -/
def Ctl.ringGi (c : Ctl) (x d : Nat) : Nat :=
  let rs := c.cx x strCtx_RING_SIZE
  (c.cx x strCtx_RING_BASE + (if rs = 0 then d else d % rs)) % 2 ^ 27

/-- Granules of the extent of R183. -/
def Ctl.cxExtent (c : Ctl) (x : Nat) : Nat :=
  let rs := c.cx x strCtx_RING_SIZE
  if rs = 0 then c.dTotal x else min (c.dTotal x) rs

/-- The regions that the extent of a context touches: none for an SSLOAD. -/
def Ctl.cxRegions (c : Ctl) (x : Nat) : List Nat :=
  if c.cx x strCtx_DIR = 2 then [] else (List.range 64).filter (touchesRegion (c.cx x strCtx_RING_BASE) (c.cxExtent x))

/-- Granules whose checks decide for a whole extent below 2^24: a run of 127 granules in one region meets each of its banks. -/
def extentSample (base n : Nat) : List Nat :=
  (List.range 64).flatMap fun r =>
    let lo := max base (r * 2 ^ 18)
    let hi := min (base + n) ((r + 1) * 2 ^ 18)
    (List.range (min 127 (hi - lo))).map fun i => lo + i

/-- Every granule of an extent passes R20 and R25 for group `g`. -/
def Ctl.ownsExtent (c : Ctl) (g base n : Nat) (write : Bool) : Bool :=
  decide (base + n ≤ 2 ^ 24) && (extentSample base n).all fun gi => c.ownsAsync g gi write

/-! ### Start checks (R183, R184, R131, R100, R197) -/

/-- The request shaping of R187 leaves a request of one granule. -/
def oneGranule (saddr len req : Nat) : Bool :=
  let b := min len (128 - saddr % 128)
  let rest := len - b
  decide (b % req = 1) || (decide (128 ≤ rest) && decide (128 % req = 1)) || decide (rest % 128 % req = 1)

/-- A condition of R184 holds. -/
def Ctl.badShape (c : Ctl) (x : Nat) : Bool :=
  let f := c.cx x
  let rs := c.cxRegions x
  let rep := rs.any c.regionRep
  let work := rs.any fun r => !c.regionRep r
  let len := f strCtx_LEN
  let rq := f strCtx_REQ_LEN + 1
  let dir := f strCtx_DIR
  let xop := f strCtx_XOP
  let d := f strCtx_RING_BASE % 2 ^ 16
  let ring := f strCtx_RING_SIZE
  decide (len = 0 ∨ rq = 1 ∨ dir = 3 ∨ xop = 3 ∨ f strCtx_RECODE = 3)
    || (decide (xop ≠ 0) && decide (dir ≠ 0))
    || (decide (xop = 1) && (decide (6 < f strCtx_SRC) || decide (srcWidth (f strCtx_SRC) = 0) || (dstOf (f strCtx_DST)).isNone || rep))
    || (decide (xop = 1) && decide (1 < c.narrow x) && decide (f strCtx_SADDR % c.narrow x ≠ 0 ∨ len % c.narrow x ≠ 0 ∨ rq % c.narrow x ≠ 0))
    || (decide (f strCtx_SKIP_FIRST ≠ 0 ∨ f strCtx_SKIP_LAST ≠ 0) && decide (xop ≠ 0 ∨ dir ≠ 0))
    || (decide (f strCtx_TAG_STAMP = 1) && (rep || decide (xop ≠ 0)))
    || (decide (f strCtx_FMT_MODE ≠ 0) && (work || decide (xop ≠ 0)))
    || (decide (f strCtx_FMT_MODE = 2) && decide (f strCtx_FMT < 2 ∨ 5 < f strCtx_FMT))
    || (decide (f strCtx_OSET ≠ 0) && decide (dir ≠ 0 ∨ xop ≠ 2))
    || (decide (ring ≠ 0) && decide (ring < f strCtx_RSV))
    || (decide (dir = 2) && decide (d % 2 = 1 ∨ 32768 < d / 2 + len ∨ f strCtx_CREDIT_EN = 1 ∨ ring ≠ 0))
    || (decide (dir = 1) && oneGranule (f strCtx_SADDR) len rq)

/-- Half that an SSLOAD loads. -/
def Ctl.cxHalf (c : Ctl) (x : Nat) : Bool := Nat.testBit (c.cx x strCtx_RING_BASE) 16

/-- R100: a load into the half is in progress, or a sequencer of the half is RUNNING or TRAPPED. -/
def Ctl.halfBusy (c : Ctl) (h : Bool) : Bool :=
  c.loading h || c.seqs.any fun e => decide (e.2.half = h) && decide (e.2.state = .running ∨ e.2.state = .trapped)

/-- R131: the extents of two contexts share a granule. -/
def Ctl.extentsMeet (c : Ctl) (x y : Nat) : Bool :=
  let a := c.cx x strCtx_RING_BASE
  let b := c.cx y strCtx_RING_BASE
  decide (a < b + c.cxExtent y ∧ b < a + c.cxExtent x)

/-- Granules of the reorder stage in quadrant q (R133). -/
def Ctl.stageCapacity (c : Ctl) (q : Nat) : Nat :=
  (((List.range 64).filter fun r => decide (c.fld (oRegion r) region_VALID = 1 ∧ c.fld (oRegion r) region_USE = 1)).flatMap fun r =>
    (List.range 4).filter fun j => decide (c.slotCluster r j / 64 = q)).length * 65536

/-- Granules reserved in every quadrant by open ordered windows and active sets (R133, R197). -/
def Ctl.stageReserved (c : Ctl) : Nat :=
  ((c.liveWins.filter fun w => decide (c.fld (oWin w) win_ORDERED = 1)).map fun w => c.fld (oWin w) win_ORD_RESERVE).sum
    + (((List.range 15).filter fun k => decide ((c.oset (k + 1)).started ≠ [])).map fun k => c.fld (oStrOset (k + 1)) strOset_RESERVE).sum

/-- A further reservation of `n` granules in every quadrant would exceed the stage (R133). -/
def Ctl.stageFull (c : Ctl) (n : Nat) : Bool := (List.range 4).any fun q => decide (c.stageCapacity q < c.stageReserved + n)

/-- The ORDER check of R183. -/
def Ctl.badOrder (c : Ctl) (x : Nat) : Bool :=
  let k := c.cx x strCtx_OSET
  decide (k ≠ 0) &&
    (let o := c.oset k
     decide (c.fld (oStrOset k) strOset_MEMBERS ≤ o.started.length)
       || (o.started.isEmpty && c.stageFull (c.fld (oStrOset k) strOset_RESERVE)))

/-- The refusal code of a start (R183), 0 for none; `idle` is the state a start of this kind needs. -/
def Ctl.startCode (c : Ctl) (x : Nat) (sig : Bool) : Nat :=
  let f := c.cx x
  if c.ctxState x ≠ (if sig then 0 else 1) then 1
  else if Config.stackPorts ≤ f strCtx_SPORT then 2
  else if c.badShape x then 3
  else if f strCtx_DIR ≠ 2 ∧ ¬ c.ownsExtent (f strCtx_GROUP) (f strCtx_RING_BASE) (c.cxExtent x) (f strCtx_DIR = 0) then 4
  else if f strCtx_DIR = 2 ∧ c.halfBusy (c.cxHalf x) then 5
  else if f strCtx_XOP = 2 ∧ (c.liveCtxs.any fun y => decide (y ≠ x ∧ c.ctxState y = 2 ∧ c.cx y strCtx_XOP = 2) && c.extentsMeet x y
      && !(decide (f strCtx_OSET ≠ 0 ∧ f strCtx_OSET = c.cx y strCtx_OSET))) then 6
  else if c.badOrder x then 7
  else 0

/-! ### Small updates -/

def Ctl.setCx (c : Ctl) (x : Nat) (f : FieldPos) (v : Nat) : Ctl := c.setFld (oStrCtx x) f v

/-- RESULT of MIO_STR_CMD_STAT when it shows command `cmd` of context x. -/
def Ctl.cmdResult (c : Ctl) (x cmd r : Nat) : Ctl :=
  if c.fld oStrCmdStat strCmdStat_CTX = x ∧ c.fld oStrCmdStat strCmdStat_CMD = cmd then c.setFld oStrCmdStat strCmdStat_RESULT r else c

/-- Stack granules below this count; at or after it they are discarded: 0 after a CANCEL or a kill (R201, R202). -/
def CtxRun.limit (r : CtxRun) : Option Nat :=
  match r.drain with
  | some .cancelled => some 0
  | some .killed => some 0
  | _ => r.fail

/-- A stack granule lies below the limit. -/
def CtxRun.below (r : CtxRun) (s : Nat) : Bool := match r.limit with | some l => decide (s < l) | none => true

/-! ### Script-store loads (R78, R100, R194, R285) -/

/-- WAITING sequencers of a half. -/
def Ctl.waiters (c : Ctl) (h : Bool) : List Nat :=
  (c.seqs.filter fun e => decide (e.2.state = .waiting ∧ e.2.half = h)).map fun e => e.1

def loadField (h : Bool) : FieldPos := if h then ssStat_LOAD_B else ssStat_LOAD_A

/-- A load into a half begins. -/
def Ctl.loadBegin (c : Ctl) (h : Bool) : Ctl :=
  let c := (c.setFld oSsStat (loadField h) 1).setFld (oProgDig h.toNat) progDig_VALID 0
  forAll (c.waiters h) (fun n c => c.setSeq n { c.seq n with loadHold := true }) c

/-- A load into a half ends: LOAD_HOLD falls, and the held sequencers fetch and evaluate their heads again, but for those whose scene start
is decided (R78, R86). The manual says so of a load that completes: the model does the same where one ends by a cancel, a halt or a
kill (DESIGN CHOICE, log entry 97). For a sequencer whose start is decided R78 evaluates the head anew and R86 leaves the start unchanged: the
model keeps the old head and the index of the first body word, and the sequencer executes the words that the store then holds (DESIGN CHOICE,
log entry 127). A completed load starts the program digest (R285). -/
def Ctl.loadEnd (c : Ctl) (h done : Bool) : Ctl :=
  let c := c.setFld oSsStat (loadField h) 0
  let held := (c.seqs.filter fun e => decide (e.2.half = h) && e.2.loadHold).map fun e => e.1
  let c := forAll held (fun n c => c.setSeq n { c.seq n with loadHold := false }) c
  let c := forAll ((c.waiters h).filter fun n => !c.startStands n) (fun n c =>
    let c := c.setSeq n { c.seq n with head := [], evaluated := false }
    c.evalScene n c.ec) c
  if done then
    let o := oProgDig h.toNat
    let c := (c.setFld o progDig_LOADS (c.fld o progDig_LOADS + 1)).setFld o progDig_BUSY 1
    { c with audit := { c.audit with hashing := c.audit.hashing ||| (1#2 <<< h.toNat) } }
  else c

/-! ### Ordered sets (R197, R198) -/

/-- A member has ended: the set becomes inactive with its last. -/
def Ctl.osetEnd (c : Ctl) (x : Nat) : Ctl :=
  let k := c.cx x strCtx_OSET
  if k = 0 then c
  else
    let o := c.oset k
    if x ∈ o.started then
      let o : OSet := { o with ended := x :: o.ended }
      c.setOset k (if o.started.all (fun y => o.ended.contains y) then {} else o)
    else c

/-! ### Starts (R183, R185) -/

/-- A refused start (R183). -/
def Ctl.startRefused (c : Ctl) (x code : Nat) : Ctl :=
  let c := ((c.setFld oStrStat strStat_REF_CTX x).setFld oStrStat strStat_REF_CODE code).flag oStrStat strStat_REFUSED
  let c := (c.satAdd oStrStat strStat_REFUSALS 1).raise 14 x
  let c := if code = 5 then (c.flag oSsStat ssStat_REFUSED).setFld oSsStat ssStat_REF_CTX x else c
  if code = 1 then c else (c.setCx x strCtx_STATUS 3).setCx x strCtx_STATE 0

/-- An accepted start in ec `e` (R185). -/
def Ctl.startAccepted (c : Ctl) (x e : Nat) : Ctl :=
  let r := c.ctx x
  let c := c.setCx x strCtx_EPOCH (c.cx x strCtx_EPOCH + 1)
  let c := (c.setCx x strCtx_ISSUED 0).setCx x strCtx_COUNTED 0
  let c := c.setCx x strCtx_CREDIT_START (c.cntAt (c.cx x strCtx_CREDIT_CNT) e)
  let c := ((c.setCx x strCtx_STATUS 0).setCx x strCtx_STATE 2).setCx x strCtx_OUTST 0
  let c := c.setCtx x { startBc := 2 * (e + 2), movedCc := e / 4, cancelAt := r.cancelAt, trigCc := r.trigCc, doneCc := r.doneCc }
  let k := c.cx x strCtx_OSET
  let c := if k = 0 then c else c.setOset k { c.oset k with started := (c.oset k).started ++ [x] }
  if c.cx x strCtx_DIR = 2 then c.loadBegin (c.cxHalf x) else c

/-! ### Counting and completion (R192, R196) -/

/-- The prefix counted from stack granule `s` on, with at most `fuel` steps of `n` granules. -/
def prefixFrom (ok : Nat → Bool) (n : Nat) : Nat → Nat → Nat
  | 0, s => s
  | fuel + 1, s => if ok s then prefixFrom ok n fuel (s + n) else s

/-- Stack granule `s` has all its destination granules committed, or is acknowledged. -/
def Ctl.granuleDone (c : Ctl) (x : Nat) (r : CtxRun) (s : Nat) : Bool :=
  if c.cx x strCtx_DIR = 1 then r.acked.any fun a => decide (a.1 ≤ s ∧ s < a.1 + a.2)
  else if 1 < c.narrow x then r.committed.contains (s / c.narrow x)
  else (c.dstsOf x s).all r.committed.contains

/-- The cc of the latest change of the credit counter of a context, plus 1; 0 where none is known. -/
def Ctl.creditMoved (c : Ctl) (x : Nat) : Nat :=
  match (Tab.get [] c.cntHist (c.cx x strCtx_CREDIT_CNT)).getLast? with | some h => h.ec / 4 + 1 | none => 0

/-- Context x has issued a request or seen its credit counter change since the latest deadlock report of its wait set (R206). -/
def Ctl.dlMoved (c : Ctl) (x : Nat) : Bool :=
  let told := Tab.get 0 c.dlTold (c.cx x strCtx_WSET)
  decide (told ≤ (c.ctx x).reqCc ∨ told ≤ c.creditMoved x)

/-- Context x stops RUNNING: where it has moved since the latest report of its wait set, the set can be reported again (R206). -/
def Ctl.dlLeave (c : Ctl) (x : Nat) : Ctl := if c.dlMoved x then { c with dlTold := Tab.set 0 c.dlTold (c.cx x strCtx_WSET) 0 } else c

/-- Natural completion in ec `e` (R196): a CANCEL of the same cc comes LATE (R203). -/
def Ctl.ctxDone (c : Ctl) (x e : Nat) : Ctl :=
  let r := c.ctx x
  let c := (c.dlLeave x).setCx x strCtx_STATUS 1
  let c := if r.cancelAt.isSome then c.cmdResult x 3 2 else c
  let c := c.osetEnd x
  let c := if c.cx x strCtx_REARM = 1 then
      ((c.setCx x strCtx_TRIG_TARGET (c.cx x strCtx_TRIG_TARGET + c.cx x strCtx_TRIG_VALUE)).setCx x strCtx_STATE 1).setCtx x { armedAt := e + 1, doneCc := some (e / 4) }
    else (c.setCx x strCtx_STATE 0).setCtx x { doneCc := some (e / 4) }
  let c := if c.cx x strCtx_DIR = 2 then c.loadEnd (c.cxHalf x) true else c
  if c.cx x strCtx_CUR_EN = 1 then c.curEntry (c.cx x strCtx_CUR_NO) (0x4000 + x) 2 (e + 1) else c

/-- Advance COUNTED over what has committed (R192): the arrival counter follows in the next ec, and at LEN the transfer
completes. -/
def Ctl.ctxAdvance (c : Ctl) (x : Nat) : Ctl :=
  let r := c.ctx x
  let s0 := c.cx x strCtx_COUNTED
  let len := c.cx x strCtx_LEN
  let s := prefixFrom (fun s => decide (s < len) && r.below s && c.granuleDone x r s) (c.narrow x) (len - s0) s0
  if s ≤ s0 then c
  else
    let e := c.ec
    let c := (c.setCx x strCtx_COUNTED s).cntChange (c.cx x strCtx_ARR_CNT) (e + 1) 2 (c.dstCount x s - c.dstCount x s0) 2
    let c := c.setCtx x { r with committed := r.committed.filter fun d => decide (c.dstCount x s ≤ d), acked := r.acked.filter fun a => decide (s < a.1 + a.2) }
    if s = len then c.ctxDone x e else c

/-- Destination granule `d` has committed. -/
def Ctl.ctxCommit (c : Ctl) (x d : Nat) : Ctl :=
  let r := c.ctx x
  (c.setCtx x { r with committed := d :: r.committed }).ctxAdvance x

/-! ### Halts and drains (R198, R199, R201 to R204) -/

/-- Landing-buffer space that accumulating landings give back (R191): contexts outside ordered sets only. -/
def Ctl.unreserve (c : Ctl) (x n : Nat) : Ctl :=
  if c.cx x strCtx_XOP = 2 ∧ c.cx x strCtx_OSET = 0 then
    let p := c.sport (c.cx x strCtx_SPORT)
    c.setSport (c.cx x strCtx_SPORT) { p with reserved := p.reserved - n }
  else c

/-- A landing of context x at or after the limit, which is discarded unless it is the failing granule itself. -/
def AReq.voidOf (r : CtxRun) (x : Nat) (a : AReq) : Bool :=
  match a.kind with
  | .streamLand y s _ => decide (y = x) && !r.below s && !(a.keep && decide (r.limit = some s))
  | .stageHold y s _ => decide (y = x) && !r.below s && !(a.keep && decide (r.limit = some s))
  | _ => false

/-- Discard the landings that lie at or after the limit and have not reached a bank slot. -/
def Ctl.purge (c : Ctl) (x : Nat) : Ctl :=
  let r := c.ctx x
  let gone := (c.areqs.filter fun a => a.voidOf r x && a.second.isNone).length
  let c := c.withdraw (AReq.voidOf r x)
  let c := c.unreserve x gone
  { c with landed := c.landed.filter fun l => decide (l.ctx ≠ x) || r.below l.s }

/-- Context x begins to drain, or a halt at a lower position lowers the limit of its drain. -/
def Ctl.drainOne (c : Ctl) (x : Nat) (goal : DrainTo) (pos : Nat) : Ctl :=
  let r := c.ctx x
  if c.ctxState x = 2 then (((c.dlLeave x).setCx x strCtx_STATE 3).setCtx x { r with drain := some goal, fail := some pos }).purge x
  else if c.ctxState x = 3 ∧ !(r.limit.getD 0 ≤ pos : Bool) then (c.setCtx x { r with fail := some pos }).purge x
  else c

/-- The other members of the context's ordered set drain and halt with status `st`, and what they hold is discarded;
once a round is being applied it is applied whole (log entry 16). -/
def Ctl.osetVoid (c : Ctl) (k st : Nat) : Ctl :=
  let o := c.oset k
  if k = 0 ∨ o.started = [] ∨ o.applying then c
  else
    let c := c.setOset k { o with failed := some (BitVec.ofNat 4 st) }
    forAll o.started (fun y c =>
      let c := c.drainOne y (.halted (BitVec.ofNat 4 st)) 0
      c.setCtx y { c.ctx y with osetHeld := [] }) c

/-- A context drains, and with it its ordered set (R198: SET_VOID). -/
def Ctl.ctxDrain (c : Ctl) (x : Nat) (goal : DrainTo) (pos : Nat) : Ctl :=
  let run := decide (c.ctxState x = 2)
  let c := c.drainOne x goal pos
  if run then c.osetVoid (c.cx x strCtx_OSET) 0xA else c

/-- A halt under R199. -/
def Ctl.ctxHalt (c : Ctl) (x st pos : Nat) : Ctl := c.ctxDrain x (.halted (BitVec.ofNat 4 st)) pos

/-- A request that lands a granule of context x from the reorder stage (R197). -/
def AReq.appliesTo (a : AReq) (x : Nat) : Bool :=
  match a.kind with
  | .osetRead y _ => decide (y = x)
  | .osetApply y _ => decide (y = x)
  | _ => false

/-- Nothing of context x is in flight (R201 step 3). -/
def Ctl.ctxIdle (c : Ctl) (x : Nat) : Bool :=
  decide (c.cx x strCtx_OUTST = 0) && (c.areqs.all fun a => decide (a.party ≠ (0, x)) && !a.appliesTo x)
    && c.landed.all fun l => decide (l.ctx ≠ x)

/-- DRAIN_COMPLETE (R201 step 3, R202). -/
def Ctl.drainDone (c : Ctl) (x : Nat) : Ctl :=
  if c.ctxState x ≠ 3 ∨ ¬ c.ctxIdle x ∨ c.blackout ∨ ¬ c.sysReady then c
  else
    let st := match (c.ctx x).drain with | some .cancelled => 2 | some .killed => 8 | some (.halted s) => s.toNat | none => 2
    let halted := match (c.ctx x).drain with | some (.halted _) => true | _ => false
    let c := c.setFld oStrCmdStat strCmdStat_DRAIN_CNT (c.cx x strCtx_ISSUED - c.cx x strCtx_COUNTED)
    let c := (c.setCx x strCtx_STATUS st).setCx x strCtx_STATE (if halted then 4 else 0)
    let c := (c.osetEnd x).setCtx x {}
    if c.cx x strCtx_DIR = 2 then c.loadEnd (c.cxHalf x) false else c

/-- A start is presented in ec `e` (R183): by a SIG word, or by the trigger. A member that joins a failed set is void. -/
def Ctl.streamStart (c : Ctl) (x : Nat) (sig : Bool) (e : Nat) : Ctl :=
  let code := c.startCode x sig
  if code ≠ 0 then c.startRefused x code
  else
    let c := c.startAccepted x e
    if (c.oset (c.cx x strCtx_OSET)).failed.isSome ∧ c.cx x strCtx_OSET ≠ 0 then c.drainOne x (.halted 0xA) 0 else c

/-- TRIGGER_START (R186): the trigger of an ARMED context is met in the present ec. -/
def Ctl.trigger (c : Ctl) (x : Nat) : Ctl :=
  let k := c.cx x strCtx_TRIG_CNT
  let r := c.ctx x
  if c.ctxState x ≠ 1 ∨ c.blackout ∨ ¬ c.sysReady ∨ c.ec < r.armedAt ∨ ¬ reached (c.cntAt k c.ec) (c.cx x strCtx_TRIG_TARGET) then c
  else
    let c := if r.disarmAt.isSome then c.cmdResult x 2 2 else c
    let c := c.setCtx x { r with disarmAt := none, trigCc := some c.cc }
    (c.scopeEvent (c.cntScopeAt k c.ec) 2 0 k 1 x).streamStart x false c.ec

/-! ### Commands (R181, R186, R199, R201, R203) -/

/-- A write of a word of a context (R181). RO fields keep their value. -/
def Ctl.ctxWriteWord (c : Ctl) (x w : Nat) (be : BitVec 2) (data : Word) : Ctl :=
  let keep : Word := if w = 0 then 0xBFF000000001FFFF else if w = 4 then 0x0000000080000000 else if w = 6 then 0xFFFFFFFF00000000 else if w = 7 then 0xFFFFFFFFFFFFFFFF else 0
  if beMask be &&& ~~~ keep = 0 then c
  else if c.ctxState x ≠ 0 then c.flag oStrStat strStat_CFG_REFUSED
  else
    let o := oStrCtx x + 8 * w
    let old := c.reg o
    c.setReg o ((merge old be data &&& ~~~ keep) ||| (old &&& keep))

/-- MIO_STR_CMD_STAT shows the latest command with its result. -/
def Ctl.cmdShow (c : Ctl) (x cmd r : Nat) : Ctl :=
  ((c.setFld oStrCmdStat strCmdStat_CTX x).setFld oStrCmdStat strCmdStat_CMD cmd).setFld oStrCmdStat strCmdStat_RESULT r

/-- ARM (R186). -/
def Ctl.ctxArm (c : Ctl) (x : Nat) : Ctl :=
  if c.ctxState x ≠ 0 then c.cmdShow x 1 1
  else
    let c := c.cmdShow x 1 0
    let v := c.cx x strCtx_TRIG_VALUE
    let t := if c.cx x strCtx_TRIG_REL = 1 then c.cx x strCtx_TRIG_TARGET + v else v
    ((c.setCx x strCtx_TRIG_TARGET t).setCx x strCtx_STATE 1).setCtx x { armedAt := 4 * (c.cc + 1) }

/-- DISARM (R186): the trigger is still sampled in the completion cc, and one met earlier in that cc makes it LATE. -/
def Ctl.ctxDisarm (c : Ctl) (x : Nat) : Ctl :=
  if (c.ctx x).trigCc = some c.cc then c.cmdShow x 2 2
  else if c.ctxState x ≠ 1 then c.cmdShow x 2 1
  else (c.cmdShow x 2 0).setCtx x { c.ctx x with disarmAt := some (4 * (c.cc + 1)) }

/-- CANCEL (R201): it takes effect at the end of its completion cc; a natural completion earlier in that cc makes it LATE (R203). -/
def Ctl.ctxCancel (c : Ctl) (x : Nat) : Ctl :=
  if (c.ctx x).doneCc = some c.cc then c.cmdShow x 3 2
  else if c.ctxState x ≠ 1 ∧ c.ctxState x ≠ 2 then c.cmdShow x 3 1
  else (c.cmdShow x 3 0).setCtx x { c.ctx x with cancelAt := some (4 * (c.cc + 1)) }

/-- CLEAR (R199). -/
def Ctl.ctxClear (c : Ctl) (x : Nat) : Ctl :=
  if c.ctxState x ≠ 4 then c.cmdShow x 4 1 else (c.cmdShow x 4 0).setCx x strCtx_STATE 0

/-- The end of the completion cc of a DISARM or CANCEL, in ec `e` (R186, R201, R203). -/
def Ctl.ctxSettle (c : Ctl) (x e : Nat) : Ctl :=
  let r := c.ctx x
  let c := match r.disarmAt with
    | some d => if d ≤ e then
        let c := c.setCtx x { r with disarmAt := none }
        if c.ctxState x = 1 then c.setCx x strCtx_STATE 0 else c.cmdResult x 2 1
      else c
    | none => c
  match r.cancelAt with
  | none => c
  | some d =>
    if d ≤ e then
      let c := c.setCtx x { c.ctx x with cancelAt := none }
      if c.ctxState x = 1 then (c.setCx x strCtx_STATUS 2).setCx x strCtx_STATE 0
      else if c.ctxState x = 2 then c.ctxDrain x .cancelled 0
      else c.cmdResult x 3 1
    else c

/-- Every context whose command has come to the end of its cc. Contexts do not change in safe state (R307). -/
def Ctl.ctxsSettle (c : Ctl) (e : Nat) : Ctl :=
  if c.blackout then c
  else forAll ((c.ctxs.filter fun r => r.2.cancelAt.isSome || r.2.disarmAt.isSome).map fun r => r.1) (fun x c => c.ctxSettle x e) c

/-- Kill of group `g` (R204); the sets of its running contexts are void (R198). -/
def Ctl.ctxsKill (c : Ctl) (g : Nat) : Ctl :=
  let xs := c.liveCtxs.filter fun x => decide (c.cx x strCtx_GROUP = g)
  let run := xs.filter fun x => decide (c.ctxState x = 2)
  let c := forAll xs (fun x c =>
    if c.ctxState x = 1 then ((c.setCx x strCtx_STATUS 8).setCx x strCtx_STATE 0).setCtx x {}
    else if c.ctxState x = 2 then c.drainOne x .killed 0 else c) c
  forAll run (fun x c => c.osetVoid (c.cx x strCtx_OSET) 0xA) c

/-! ### Credits and the deadlock detector (R195, R206) -/

/-- Length of the next request (R187). -/
def Ctl.nextLen (c : Ctl) (x : Nat) : Nat :=
  let s := c.cx x strCtx_ISSUED
  min (min (c.cx x strCtx_REQ_LEN + 1) (c.cx x strCtx_LEN - s)) (128 - (c.cx x strCtx_SADDR + s) % 128)

/-- Granules that the credit limit must reach for the next request: dst(ISSUED + n). -/
def Ctl.creditNeed (c : Ctl) (x : Nat) : Nat := c.dstCount x (c.cx x strCtx_ISSUED + c.nextLen x)

/-- The standing part of the credit limit. -/
def Ctl.creditBase (c : Ctl) (x : Nat) : Nat :=
  c.cx x strCtx_RSV + (if c.cx x strCtx_DIR = 0 then c.cx x strCtx_RING_SIZE else 0)

/-- credit_ok (R195), with the credit counter as seen in ec `e`. -/
def Ctl.creditOk (c : Ctl) (x e : Nat) : Bool :=
  decide (c.cx x strCtx_CREDIT_EN = 0) ||
    (let k := (c.cntAt (c.cx x strCtx_CREDIT_CNT) e + 2 ^ 32 - c.cx x strCtx_CREDIT_START) % 2 ^ 32
     let units := if k < 2 ^ 31 then k else 0
     decide (c.creditNeed x ≤ units * (c.cx x strCtx_CREDIT_UNIT + 1) + c.creditBase x))

/-- NEED of MIO_DL_MEM_j: the smallest credit-counter value at which the next request passes. -/
def Ctl.creditTarget (c : Ctl) (x : Nat) : Nat :=
  let u := c.cx x strCtx_CREDIT_UNIT + 1
  (c.cx x strCtx_CREDIT_START + (c.creditNeed x - c.creditBase x + u - 1) / u) % 2 ^ 32

/-- The cc since which a member of a wait set has not moved: its latest start or request, and the latest change of its
credit counter. -/
def Ctl.stillSince (c : Ctl) (x : Nat) : Nat := max (c.ctx x).movedCc (c.creditMoved x - 1)

/-- The members of wait set w (R206). -/
def Ctl.waitSet (c : Ctl) (w : Nat) : List Nat :=
  c.liveCtxs.filter fun x => decide (c.ctxState x = 2 ∧ c.cx x strCtx_WSET = w)

/-- DEADLOCK_DETECT (R206). -/
def Ctl.deadlock (c : Ctl) (w : Nat) : Ctl :=
  let e := c.fld oStrCfg strCfg_DL_EXP
  let ms := c.waitSet w
  let stuck := ms.all fun x => decide (c.cx x strCtx_ISSUED < c.cx x strCtx_LEN) && !c.creditOk x c.ec && decide (c.stillSince x + 2 ^ e ≤ c.cc)
  let told := Tab.get 0 c.dlTold w
  let fresh := decide (told = 0) || ms.any c.dlMoved
  if w = 0 ∨ e = 0 ∨ ms = [] ∨ ¬ stuck ∨ ¬ fresh ∨ c.blackout ∨ ¬ c.sysReady then c
  else
    let c := if c.fld oDlHdr dlHdr_VALID = 1 then c.flag oDlHdr dlHdr_OVERFLOW
      else
        let c := forAll (List.range (min 32 ms.length)) (fun j c =>
          let x := ms.getD j 0
          ((c.setFld (oDlMem j) dlMem_CONTEXT x).setFld (oDlMem j) dlMem_CREDIT_CNT (c.cx x strCtx_CREDIT_CNT)).setFld (oDlMem j) dlMem_NEED (c.creditTarget x)) c
        [(dlHdr_WSET, w), (dlHdr_MEM_COUNT, min 32 ms.length), (dlHdr_OMIT, (decide (32 < ms.length)).toNat), (dlHdr_FRAME, frameOf c.bc)].foldl
          (fun c y => c.setFld oDlHdr y.1 y.2) (c.flag oDlHdr dlHdr_VALID)
    { c.raise 15 w with dlTold := Tab.set 0 c.dlTold w (c.cc + 1) }

/-! ### The commands -/

/-- Whether a context exists. -/
def isCtx (x : Nat) : Bool := decide (x < Config.contexts)

/-- CTX_WRITE. -/
def execCtxWrite (x word : Nat) (be : BitVec 2) (data : Word) (s : State) : Out :=
  onUnit (isCtx x && decide (word < 8)) s fun c => c.ctlWrite (.ctxWrite x word be data) be fun c => c.ctxWriteWord x word be data
/-- ARM. -/
def execArm (x : Nat) (s : State) : Out := onUnit (isCtx x) s fun c => c.ctlWrite (.arm x) 3 fun c => c.ctxArm x
/-- DISARM. -/
def execDisarm (x : Nat) (s : State) : Out := onUnit (isCtx x) s fun c => c.ctlWrite (.disarm x) 3 fun c => c.ctxDisarm x
/-- CANCEL. -/
def execCancel (x : Nat) (s : State) : Out := onUnit (isCtx x) s fun c => c.ctlWrite (.cancel x) 3 fun c => c.ctxCancel x
/-- CLEAR. -/
def execClear (x : Nat) (s : State) : Out := onUnit (isCtx x) s fun c => c.ctlWrite (.clear x) 3 fun c => c.ctxClear x
/-- TRIGGER_START. -/
def execTriggerStart (x : Nat) (s : State) : Out := onUnit (isCtx x) s fun c => c.trigger x
/-- DRAIN_COMPLETE. -/
def execDrainComplete (x : Nat) (s : State) : Out := onUnit (isCtx x) s fun c => c.drainDone x
/-- DEADLOCK_DETECT. -/
def execDeadlockDetect (w : Nat) (s : State) : Out := onUnit (decide (w < 64)) s fun c => c.deadlock w

end Sys2Proof.Machine
end

