-- ==== Sys2Proof/Machine/Landing.lean ====
section
/-! DEFINITION. Landings: the slots of a write to a bank from a stream, a packet or the reorder stage (R60 to R62, R122, R123, R166, R167, R190), and the granules of the reorder stage (R133, R197). -/

namespace Sys2Proof.Machine

/-! ### The reorder stage (R133) -/

/-- Slots of the stage regions that lie in quadrant q, in ascending region and slot. -/
def Ctl.stageSlots (c : Ctl) (q : Nat) : List (Nat × Nat) :=
  ((List.range 64).filter fun r => decide (c.fld (oRegion r) region_VALID = 1 ∧ c.fld (oRegion r) region_USE = 1)).flatMap fun r =>
    ((List.range 4).filter fun j => decide (c.slotCluster r j / 64 = q)).map fun j => (r, j)

/-- Granule index of granule n of the stage of a quadrant: the lower-numbered region first. -/
def stageGi (slots : List (Nat × Nat)) (n : Nat) : Nat :=
  let s := slots.getD (n / 65536) (0, 0)
  s.1 * 2 ^ 18 + n % 65536 * 4 + s.2

/-- Granule indices that hold contributions now. -/
def Ctl.stageUsed (c : Ctl) : List Nat :=
  (c.ctxs.flatMap fun r => r.2.osetHeld.map fun h => h.2.2) ++ (c.packets.flatMap fun p => p.stage)
    ++ ((c.areqs.filter fun a => match a.kind with | .stageHold _ _ _ => true | _ => false).map fun a => a.gi)

/-- The first granule of the stage from number n on that holds nothing. -/
def stageFree (slots : List (Nat × Nat)) (used : List Nat) : Nat → Nat → Nat
  | 0, n => stageGi slots n
  | fuel + 1, n => if used.contains (stageGi slots n) then stageFree slots used fuel (n + 1) else stageGi slots n

/-- A free granule of the stage of quadrant q, beside those of `more`. -/
def Ctl.stageAlloc (c : Ctl) (q : Nat) (more : List Nat) : Nat :=
  let used := c.stageUsed ++ more
  stageFree (c.stageSlots q) used used.length 0

/-! ### The slots of a landing -/

/-- What a landing's slot came to: it is not its slot, the slot was used or lost without an end, the ownership check failed,
or the granule has committed. -/
inductive LandRes where
  | none | waits | fails | lands
  deriving DecidableEq, Repr

/-- Bytes of `new` where the mask is 1, of `old` elsewhere (R60, R61). -/
def mergeBytes (mask : BitVec 32) (new old : Nat) : Nat :=
  packElems 8 ((List.range 32).map fun k => bits (if mask.getLsbD k then new else old) (8 * k) 8)

/-- The result of a partial merge (R61): tags of the incoming granule, poisoned if either granule is. -/
def mergeGranule (rep : Bool) (mask : BitVec 32) (new old : Granule) : Granule :=
  let m := putBits (gMsg rep new) 0 256 (mergeBytes mask (gData new) (gData old))
  let g := encode rep m
  if gPoison new || gPoison old then setPoison rep g else g

/-- The first slot of a landing, granted: the ownership and tag checks, then a plain write, the read of a partial merge, or
the read and sum of an accumulation (R61, R122, R123). Requester `0x80 + req` in the log. -/
def Ctl.landFirst (c : Ctl) (b : Tab Granule) (a : AReq) (who : Writer) : Ctl × List BankOp × LandRes :=
  let rep := c.repOf a.gi
  let fault := gPoison a.granule
  if !c.ownsAsync a.group a.gi true then (c.dropReq a.id, [], .fails)
  else if !c.reqTagOk b a (if fault then none else some (gFull a.granule)) fault then (c.stallReq a, [], .waits)
  else
    match a.acc with
    | some t =>
      let r := c.bankRead b 0 (0x80 + a.req) a.gi c.bc
      let res := accStep rep t (r.1.chainBase a.gi c.bc r.2.word) [a.granule] fault
      (r.1.putReq { a with stall := none, second := some (c.bc + 8, res) }, [], .waits)
    | none =>
      if a.mask = 0xFFFFFFFF then
        let r := (c.dropReq a.id).commit who a.gi a.granule
        (r.1, r.2, .lands)
      else
        let r := c.bankRead b 0 (0x80 + a.req) a.gi c.bc
        (r.1.putReq { a with stall := none, second := some (c.bc + 8, mergeGranule rep a.mask a.granule r.2.word), base := some r.2.word }, [], .waits)

/-- A landing in the present bc: without a slot where it needs none, in its first slot, or in the booked second slot of an
accumulation. -/
def Ctl.land (c : Ctl) (b : Tab Granule) (a : AReq) (who : Writer) : Ctl × List BankOp × LandRes :=
  if c.slotless a then
    if a.since ≤ c.bc ∧ ¬ c.blackout ∧ c.active then (c.dropReq a.id, [], .lands) else (c, [], .none)
  else if a.second.isSome then
    if a.base.isSome then (c, [], .none)
    else match c.secondSlot a with
      | none => (c, [], .none)
      | some c =>
        let g := match a.second with | some x => x.2 | none => a.granule
        let c := if gPoison g then c.satAdd (oMsoStat (c.place a.gi).quad) msoStat_ACC_POIS 1 else c
        let first := match a.second with | some x => x.1 - 8 | none => c.bc
        let r := ((c.dropReq a.id).chainPass a.gi first g).commit who a.gi g
        (r.1, r.2, .lands)
  else match c.firstSlot a with
    | none => (c, [], .none)
    | some (c, false) => (c, [], .waits)
    | some (c, true) => c.landFirst b a who

/-- The second slot of a partial merge (R61). -/
def Ctl.mergeSecond (c : Ctl) (a : AReq) (who : Writer) : Ctl × List BankOp × LandRes :=
  if a.base.isNone then (c, [], .none)
  else match c.secondSlot a, a.second with
    | some c, some x =>
      let r := (c.dropReq a.id).commit who a.gi x.2
      (r.1, r.2, .lands)
    | _, _ => (c, [], .none)

/-! ### Holding and reading back (R133, R135, R197) -/

/-- Holding: the contribution is written to its granule of the stage, as any access to it under the tag check (R166, R167). -/
def Ctl.holdSlot (c : Ctl) (b : Tab Granule) (a : AReq) : Ctl × List BankOp × LandRes :=
  let fault := gPoison a.granule
  match c.firstSlot a with
  | none => (c, [], .none)
  | some (c, false) => (c, [], .waits)
  | some (c, true) =>
    if !c.ownsUnit 1 a.gi then (c.dropReq a.id, [], .fails)
    else if !c.reqTagOk b a (if fault then none else some (gFull a.granule)) fault then (c.stallReq a, [], .waits)
    else
      let r := (c.dropReq a.id).commit .other a.gi a.granule
      (r.1, r.2, .lands)

/-- Reading back: the stage granule is decoded under the code kind of its own region (R249, log entry 17), and the request goes on to its
target with the contribution, keeping its place in the order. -/
def Ctl.readBack (c : Ctl) (b : Tab Granule) (a : AReq) (kind : AKind) (acc : Option Nat) : Ctl × LandRes :=
  match c.firstSlot a with
  | none => (c, .none)
  | some (c, false) => (c, .waits)
  | some (c, true) =>
    if !c.ownsUnit 1 a.gi then (c.dropReq a.id, .fails)
    else if !c.reqTagOk b a none false then (c.stallReq a, .waits)
    else
      let r := c.bankRead b 0 (0x80 + a.req) a.gi c.bc
      (r.1.putReq { a with kind := kind, gi := a.dest, granule := r.2.word, acc := acc, write := true, stall := none, reported := false }, .lands)

end Sys2Proof.Machine
end

