-- ==== Sys2Proof/Machine/Blocks.lean ====
section
/-! DEFINITION. Stack requests that no context makes: the read-back of weight images (R286), and the image of an intermission (R280, R282). -/

namespace Sys2Proof.Machine

/-! ### Striping (R280) -/

/-- The built ports of a mask, in ascending order. -/
def portsOf (mask : Nat) : List Nat := (List.range Config.stackPorts).filter (Nat.testBit mask)

/-- Port and stack granule address of granule i of what is striped over the ports of a mask from an address on. -/
def stripePlace (mask base i : Nat) : Nat × Nat :=
  let ps := portsOf mask
  (ps.getD (i / 128 % ps.length) 0, base + i / (128 * ps.length) * 128 + i % 128)

/-- A request of the block itself: its owner, the first granule of the image that it covers, how many, and the stack address of the first. -/
structure SysNext where
  sys   : SysReq
  first : Nat
  n     : Nat
  gaddr : Nat
  deriving DecidableEq, Repr

/-- The request for the block of 128 granules number m of port n, of an image of `len` granules. The manual gives the size of the requests of an
intermission no rule: the model takes the same blocks (DESIGN CHOICE, log entry 107). -/
def sysBlock (sys : SysReq) (mask base len n m : Nat) : Option SysNext :=
  let ps := portsOf mask
  let i := 128 * (m * ps.length + ps.findIdx fun p => p == n)
  if ps.contains n ∧ i < len then some { sys := sys, first := i, n := min 128 (len - i), gaddr := (stripePlace mask base i).2 } else none

/-! ### The next request of each owner -/

/-- The hash requests in flight on port n. -/
def StackPort.hashes (p : StackPort) : Nat :=
  (p.tags.filter fun t => match t.sys with | some (.hash _) => true | _ => false).length

/-- The next request of the hash of an image on port n. -/
def Ctl.hashBlock (c : Ctl) (n k : Nat) (h : HashRun) : Option SysNext :=
  if h.failed ∨ c.fld (oWimg k) wimg_KIND ≠ 1 then none
  else sysBlock (.hash k) (c.fld (oWimg k) wimg_PORTS) (c.fld (oWimg k) wimg_ADDR) (c.fld (oWimg k) wimg_LEN) n (Tab.get 0 h.asked n)

/-- The next hash request on port n, of the lowest image that has one, and the bc from which its 64 bc count: at most 16 are in flight (R286). -/
def Ctl.hashNext (c : Ctl) (n : Nat) : Option (SysNext × Nat) :=
  if 16 ≤ (c.sport n).hashes then none
  else c.audit.hashes.findSome? fun e => match e.2 with
    | some h => (c.hashBlock n e.1 h).map fun x => (x, max h.since (c.sport n).hashBc)
    | none => none

/-- The next hash request on port n must go in the present bc, whatever context is issuable (R286). -/
def Ctl.hashDue (c : Ctl) (n : Nat) : Option SysNext :=
  match c.hashNext n with
  | some x => if x.2 + 64 ≤ c.bc then some x.1 else none
  | none => none

/-- A request of an intermission on port n for a block of its image. -/
def Ctl.intmBlock (c : Ctl) (sys : SysReq) (len n : Nat) (asked : Tab Nat) : Option SysNext :=
  sysBlock sys (c.fld oIntmCfg intmCfg_PORTS) (c.fld oIntmAddr intmAddr_SADDR) len n (Tab.get 0 asked n)

/-- Length of the image that a SAVE writes. -/
def SaveRun.len (r : SaveRun) : Nat := r.front.length + 4096 * r.banks.length

/-- The next request of an intermission on port n: none once one has failed. -/
def Ctl.intmNext (c : Ctl) (n : Nat) : Option SysNext :=
  match c.audit.save, c.audit.rest with
  | some r, _ => if r.failed then none else c.intmBlock .save r.len n r.asked
  | none, some r => if r.failed then none else c.intmBlock .restore r.len n r.asked
  | none, none => none

/-- The request of the block itself on port n in a bc in which no context is issuable there. An intermission has no rule beside contexts: the
model lets it wait for them, as a hash does, and puts it before a hash (DESIGN CHOICE, log entry 107). -/
def Ctl.sysNext (c : Ctl) (n : Nat) : Option SysNext := (c.intmNext n).or ((c.hashNext n).map fun x => x.1)

/-! ### Owners -/

/-- Replace the read-back of image k. -/
def Ctl.setHash (c : Ctl) (k : Nat) (h : Option HashRun) : Ctl := { c with audit := { c.audit with hashes := Tab.set none c.audit.hashes k h } }
def Ctl.setSave (c : Ctl) (r : Option SaveRun) : Ctl := { c with audit := { c.audit with save := r } }
def Ctl.setRest (c : Ctl) (r : Option RestRun) : Ctl := { c with audit := { c.audit with rest := r } }

/-- Change what the owner of a request holds, where it still has something. -/
def Ctl.onOwner (c : Ctl) (s : SysReq) (h : HashRun → HashRun) (v : SaveRun → SaveRun) (r : RestRun → RestRun) : Ctl :=
  match s with
  | .hash k => c.setHash k ((Tab.get none c.audit.hashes k).map h)
  | .save => c.setSave (c.audit.save.map v)
  | .restore => c.setRest (c.audit.rest.map r)

/-- One more number of a port. -/
def oneMore (t : Tab Nat) (n : Nat) : Tab Nat := Tab.set 0 t n (Tab.get 0 t n + 1)

/-- A request has been made for its owner on port n. -/
def Ctl.sysAsked (c : Ctl) (s : SysReq) (n : Nat) : Ctl :=
  c.onOwner s (fun h => { h with asked := oneMore h.asked n }) (fun v => { v with asked := oneMore v.asked n }) (fun r => { r with asked := oneMore r.asked n })

/-- A request of the owner has failed: refused by the stack, or timed out (R56, R57, R283, R286). -/
def Ctl.sysFail (c : Ctl) (s : SysReq) : Ctl := c.onOwner s (fun h => { h with failed := true }) (fun v => { v with failed := true }) (fun r => { r with failed := true })

/-- The owner has no further use for its requests in flight: they complete and are discarded (R286). -/
def Ctl.sysDead (c : Ctl) (s : SysReq) : Ctl :=
  let dead := fun (t : StackTag) => if t.sys = some s then { t with live := false } else t
  { c with sports := c.sports.map fun e => (e.1, { e.2 with tags := e.2.tags.map dead, shown := e.2.shown.map dead }) }

/-- A request of the owner that it still wants is presented or in flight. -/
def Ctl.sysFlying (c : Ctl) (s : SysReq) : Bool :=
  c.sports.any fun e => (e.2.shown.toList ++ e.2.tags).any fun t => t.live && decide (t.sys = some s)

/-! ### The image of a SAVE -/

/-- Granule i of the image that a SAVE writes, where it lies before the banks; else the bank and row that hold it. -/
def SaveRun.at_ (r : SaveRun) (i : Nat) : Granule ⊕ (Nat × Nat) :=
  if i < r.front.length then .inl (r.front.getD i 0) else .inr (r.banks.getD ((i - r.front.length) / 4096) 0, (i - r.front.length) % 4096)

/-- The request to read a row of a bank for the image (R280). -/
def Ctl.imgReadReq (c : Ctl) (n tag i place pb row : Nat) : AReq :=
  let a : AReq := { id := 0, req := n, kind := .imgRead i pb row, gi := c.giOf (pbQuad pb) (pbCluster pb) (pb % 16) row, group := 0, write := false }
  { a with order := tag, since := c.bc, dest := place }

/-! ### Arrivals -/

/-- A granule of a weight image arrives at place i (R286). -/
def Ctl.hashArrive (c : Ctl) (n k i : Nat) (g : Granule) (err : Bool) : Ctl :=
  match Tab.get none c.audit.hashes k with
  | none => c
  | some h =>
    if h.failed then c
    else if err then c.sysFail (.hash k)
    else
      let v := c.freeSite n
      let d := decodeG (decide (c.fld (oWimg k) wimg_CODE = 1)) g
      (v.1.eccRecord v.2 d).setHash k (some { h with got := Tab.put d.word i h.got, failed := d.bad || d.pois })

/-- bc from which a granule arrived on port n may land (R319). -/
def Ctl.landSince (c : Ctl) (n : Nat) : Nat :=
  if Nat.testBit (c.fld oPertStream pertStream_PORTS) n then c.bc + c.fld oPertStream pertStream_DELAY else c.bc

/-- Present the landing of granule i of the image of a RESTORE, which lies in the bank section: it is checked at port n under the code of its
bank, and one that is uncorrectable lands poisoned (R249, R282). -/
def Ctl.imgPresent (c : Ctl) (n i : Nat) (r : RestRun) (g : Granule) (err : Bool) : Ctl :=
  let pb := r.banks.getD ((i - r.base) / 4096) 0
  let row := (i - r.base) % 4096
  let q := pbQuad pb
  let cl := pbCluster pb
  let rep := c.clusterRep q cl
  let d := decodeG rep g
  let c := if err then c else c.eccRecord { cnt := 4, path := 2, req := n, us := decide (c.built q cl = 64), quad := q, cluster := cl, bank := pb % 16, row := row } d
  let c := if err || d.bad then c.setRest (some { r with pois := true }) else c
  let a : AReq := { id := 0, req := n, kind := .imgLand i pb row, gi := c.giOf q cl (pb % 16) row, group := 0, since := c.landSince n }
  c.request { a with granule := if err then poisonGranule rep else d.word }

/-- The code of granule i of the part before the banks: a read-ahead entry is in the code of its granule's region. -/
def Ctl.frontRep (c : Ctl) (r : RestRun) (i : Nat) : Bool :=
  let j := r.seqPlace i
  decide (16 ≤ j) && c.repOf ((unpackBits seqWidths (imgNat (r.part (i - j) 16) 0 16)).getD (57 + j - 16) 0)

/-- A granule without a destination bank passes the check point of port n (R249). -/
def Ctl.freeCheck (c : Ctl) (n : Nat) (rep : Bool) (g : Granule) : Ctl :=
  let d := decodeG rep g
  if d.bad ∨ d.pois ∨ d.fixed ≠ 0 then (c.freeSite n).1.eccRecord (c.freeSite n).2 d else c

/-- The check points of the stack ports decode granules of the part before the banks (R249). Those that came in a beat with an error carry no code to
decode (R57). -/
def Ctl.frontCheck (c : Ctl) (r : RestRun) (l : List Nat) (rep : Nat → Bool) : Ctl :=
  forAll (l.filter fun k => !(Tab.get (0, false) r.got k).2) (fun k c =>
    c.freeCheck (stripePlace (c.fld oIntmCfg intmCfg_PORTS) 0 k).1 (rep k) (Tab.get (0, false) r.got k).1) c

/-- A granule of the image of a RESTORE arrives at place i: one of the part before the banks is checked and kept; one of the bank section is checked
and lands. -/
def Ctl.restArrive (c : Ctl) (n i : Nat) (g : Granule) (err : Bool) : Ctl :=
  match c.audit.rest with
  | none => c
  | some r =>
    if r.groups.isSome ∧ r.base ≤ i then (if i < r.len then c.imgPresent n i r g err else c)
    else
      let r : RestRun := { r with got := Tab.put (g, err) i r.got }
      if r.early i then c.setRest (some r) else (c.setRest (some r)).frontCheck r (r.checkable i) (c.frontRep r)

/-- The granules of a beat of a request of the block itself: those that it wants, in order, from number `off` of the request on. -/
def Ctl.sysArrive (n : Nat) (t : StackTag) (s : SysReq) (err : Bool) : Nat → List Granule → Ctl → Ctl
  | _, [], c => c
  | off, g :: l, c =>
    let c := if decide (t.n ≤ off) then c
      else if !t.live then (if s = .restore ∧ ¬ err then c.freeCheck n false g else c)
      else match s with
        | .hash k => c.hashArrive n k (t.from_ + off) g err
        | .restore => c.restArrive n (t.from_ + off) g err
        | .save => c
    Ctl.sysArrive n t s err (off + 1) l c

end Sys2Proof.Machine
end

