-- ==== Sys2Proof/Machine/Streams.lean ====
section
/-! DEFINITION. Stream traffic: requests, stack beats, landings, spills, timeouts and the rounds of ordered sets (R50 to R59, R187 to R194, R197 to R202). -/

namespace Sys2Proof.Machine

/-! ### The landing buffer and the tags of a port (R51, R54, R56) -/

/-- Landings of context x use space reserved under R191. -/
def Ctl.reserves (c : Ctl) (x : Nat) : Bool := decide (c.cx x strCtx_XOP = 2 ∧ c.cx x strCtx_OSET = 0)

/-- Granules of the landing buffer of port n that hold unreserved beat data. -/
def Ctl.portHeld (c : Ctl) (n : Nat) : Nat :=
  let l := c.areqs.filterMap fun a => match a.kind with
    | .streamLand x s _ => if a.req = n ∧ a.second.isNone ∧ ¬ c.reserves x then some (x, s) else none
    | .stageHold x s _ => if a.req = n then some (x, s) else none
    | _ => none
  let img := c.areqs.filter fun a => match a.kind with | .imgLand _ _ _ => decide (a.req = n) | _ => false
  img.length + (l.eraseDups.map fun k => c.narrow k.1).sum + (c.landed.filter fun k => decide (c.cx k.ctx strCtx_SPORT = n)).length

/-- Free granules of the landing buffer. -/
def Ctl.portFree (c : Ctl) (n : Nat) : Nat := 256 - c.portHeld n - (c.sport n).reserved

/-- sN_rsp_ready (R54): in safe state it stays 1 (R307), and in a tableau, where nothing changes, it holds its last value (R296). -/
def Ctl.rspReady (c : Ctl) (n : Nat) : Bool := c.sysReady && (c.blackout || decide (32 ≤ c.portFree n))

/-- Tags in use, quarantined ones included (MIO_SPORT_STAT_n.OUTSTANDING). -/
def StackPort.inUse (p : StackPort) : Nat := p.tags.length + p.quar.length

/-- The request of context x in use longest on its port. -/
def Ctl.oldestTag (c : Ctl) (x : Nat) : Option StackTag := (c.sport (c.cx x strCtx_SPORT)).tags.find? fun t => decide (t.ctx = x)

/-- A tag leaves use: OUTST of its context falls, and a context whose late request it was is eligible again (R189). -/
def Ctl.tagEnds (c : Ctl) (n : Nat) (t : StackTag) : Ctl :=
  let p := c.sport n
  let oldest := match c.oldestTag t.ctx with | some o => decide (o.tag = t.tag) | none => false
  let c := c.setSport n { p with tags := p.tags.filter fun u => decide (u.tag ≠ t.tag) }
  if t.sys.isSome then c
  else
    let c := c.setCx t.ctx strCtx_OUTST (c.cx t.ctx strCtx_OUTST - 1)
    if oldest then c.setCtx t.ctx { c.ctx t.ctx with late := false } else c

/-- A refused event on a stack port (R55): KIND 1 unknown tag, 2 beat after last, 3 misplaced last, 4 lanes. -/
def Ctl.stackRefuse (c : Ctl) (n tag kind : Nat) : Ctl :=
  let c := c.satAdd (oSportStat n) sportStat_PROTO_ERR 1
  ((c.setFld (oSportStat n) sportStat_LAST_TAG tag).setFld (oSportStat n) sportStat_LAST_KIND kind).raise 16 n

/-! ### Requests (R187 to R189, R191, R205) -/

/-- Granules that a request of context x asks for on the wire (R187). -/
def Ctl.wireLen (c : Ctl) (x : Nat) : Nat := max 2 (c.nextLen x)

/-- The reservation of R191 succeeds for the next request. -/
def Ctl.reserveOk (c : Ctl) (x : Nat) : Bool :=
  !c.reserves x ||
    (let p := c.sport (c.cx x strCtx_SPORT)
     decide (p.reserved + c.wireLen x ≤ 128 ∧ c.wireLen x ≤ c.portFree (c.cx x strCtx_SPORT)))

/-- The port can present a request (R51, R188, R307, R313). -/
def Ctl.portReady (c : Ctl) (n : Nat) : Bool :=
  let p := c.sport n
  c.sysReady && !c.blackout && !c.clk.frozen && !p.removed && decide (c.fld (oSportCfg n) sportCfg_ENABLE = 1)
    && decide (p.inUse < c.fld (oSportCfg n) sportCfg_MAX_OUT) && decide (p.issueBc ≠ some c.bc)

/-- The port can issue for a context (R188, R205). -/
def Ctl.portIssues (c : Ctl) (n : Nat) : Bool := c.portReady n && decide (c.fld oStrCfg strCfg_ISSUE_PAUSE = 0)

/-- Context x is issuable on its port in the present bc (R188), port conditions apart. -/
def Ctl.issuable (c : Ctl) (x : Nat) : Bool :=
  decide (c.ctxState x = 2 ∧ c.cx x strCtx_ISSUED < c.cx x strCtx_LEN ∧ c.cx x strCtx_OUTST < c.cx x strCtx_MAX_OUT + 1 ∧ (c.ctx x).startBc ≤ c.bc)
    && c.creditOk x c.ec && c.reserveOk x && !Nat.testBit c.audit.quiet.toNat (c.cx x strCtx_GROUP)

/-- The context that port n selects among issuable ones (R188, R189). -/
def Ctl.select (c : Ctl) (n : Nat) : Option Nat :=
  let p := c.sport n
  let xs := c.liveCtxs.filter fun x => decide (c.cx x strCtx_SPORT = n) && c.issuable x
  let timely := xs.filter fun x => !(c.ctx x).late
  let xs := if timely.isEmpty then xs else timely
  let top := xs.foldl (fun m x => max m (c.cx x strCtx_PRI)) 0
  let xs := xs.filter fun x => decide (c.cx x strCtx_PRI = top)
  match p.runCtx with
  | some y => if xs.contains y ∧ p.runLen < 4 then some y
      else match xs.find? fun x => decide (Tab.get 0 p.lastSel top ≤ x) with
        | some x => some x
        | none => xs.head?
  | none => match xs.find? fun x => decide (Tab.get 0 p.lastSel top ≤ x) with
      | some x => some x
      | none => xs.head?

/-- Target granules per quadrant that the members of an ordered set have asked for, with those of `x` up to `to_` (R198). -/
def Ctl.osetLoad (c : Ctl) (k x to_ q : Nat) : Nat :=
  ((c.oset k).started.map fun y =>
    ((List.range (if y = x then to_ else c.cx y strCtx_ISSUED)).filter fun d => decide ((c.place (c.ringGi y d)).quad = q)).length).sum

/-- The next request of context x would exceed the RESERVE of its set in some quadrant (R198). -/
def Ctl.osetOver (c : Ctl) (x : Nat) : Bool :=
  let k := c.cx x strCtx_OSET
  decide (k ≠ 0) && (List.range 4).any fun q =>
    decide (c.fld (oStrOset k) strOset_RESERVE < c.osetLoad k x (c.cx x strCtx_ISSUED + c.nextLen x) q)

/-- A stack write request acts on every stack image that it covers (R280, R287). -/
def Ctl.wimgStackWrite (c : Ctl) (n gaddr : Nat) (staging : Bool) : Ctl :=
  forAll (List.range Config.wimgs) (fun k c =>
    let ports := c.fld (oWimg k) wimg_PORTS
    let np := ((List.range 24).filter fun i => Nat.testBit ports i).length
    let j := ((List.range n).filter fun i => Nat.testBit ports i).length
    let base := c.fld (oWimg k) wimg_ADDR
    let rel := gaddr - base
    if c.fld (oWimg k) wimg_KIND = 1 ∧ Nat.testBit ports n ∧ base ≤ gaddr ∧ (rel / 128 * np + j) * 128 + rel % 128 < c.fld (oWimg k) wimg_LEN
    then c.wimgWritten k staging else c) c

/-- The first granule of the next request of context x in the stack. -/
def Ctl.requestGaddr (c : Ctl) (x : Nat) : Nat := (c.cx x strCtx_SADDR + c.cx x strCtx_ISSUED) % 2 ^ 36

/-- The next request of one granule reads the granule before it as well (R187). -/
def Ctl.requestBack (c : Ctl) (x : Nat) : Bool := decide (c.nextLen x = 1 ∧ c.requestGaddr x % 128 = 127)

/-- The next request of context x, under a tag (R187). -/
def Ctl.nextRequest (c : Ctl) (tag x : Nat) : StackTag :=
  let k := c.nextLen x
  let skip := if k = 1 then (if c.requestBack x then 1 else 2) else 0
  let t : StackTag := { tag := tag, ctx := x, from_ := c.cx x strCtx_ISSUED, n := k, skip := skip, total := c.wireLen x, write := decide (c.cx x strCtx_DIR = 1), useBc := c.bc }
  { t with seqIdx := (c.ctx x).reqIdx }

/-- A request that needs credit units has met a condition on its credit counter, at scope block (R155, R195). MIO_SCOPE_REC has two
sources, a WAIT and a stream trigger: the model shows the stream's (DEDUCED, log entry 102). -/
def Ctl.creditEvent (c : Ctl) (x : Nat) : Ctl :=
  let k := c.cx x strCtx_CREDIT_CNT
  if c.cx x strCtx_CREDIT_EN = 1 ∧ c.creditBase x < c.creditNeed x then c.scopeEvent (c.cntScopeAt k c.ec) 2 0 k 1 x else c

/-- The port presents the next request `t` of the selected context (R50, R187): the context counts it from here on, and what R191
reserves is reserved. -/
def Ctl.requestShow (c : Ctl) (n : Nat) (t : StackTag) : Ctl :=
  let x := t.ctx
  let ga := c.requestGaddr x
  let r := c.ctx x
  let p := c.sport n
  let run := if p.runCtx = some x then p.runLen + 1 else 1
  let o := c.sout n
  let o : StackOut := { o with reqValid := true, write := t.write, tag := BitVec.ofNat 11 t.tag, gaddr := BitVec.ofNat 36 (if c.requestBack x then ga - 1 else ga) }
  let p : StackPort := { p with shown := some t, issueBc := some c.bc, lastSel := Tab.set 0 p.lastSel (c.cx x strCtx_PRI) (x + 1) }
  let p : StackPort := { p with runCtx := some x, runLen := if run = 5 then 1 else run }
  let p : StackPort := { p with reserved := if c.reserves x then p.reserved + t.total else p.reserved }
  let c := (c.setSport n p).setCtx x { r with reqIdx := r.reqIdx + 1, movedCc := c.cc, reqCc := c.cc + 1 }
  let c := c.creditEvent x
  let c := (c.setCx x strCtx_ISSUED (t.from_ + t.n)).setCx x strCtx_OUTST (c.cx x strCtx_OUTST + 1)
  c.setSout n { o with len := BitVec.ofNat 7 (t.total - 1) }

/-- A granule joins its write burst. -/
def Ctl.spillInto (c : Ctl) (n tag place : Nat) (g : Granule) : Ctl :=
  let p := c.sport n
  c.setSport n { p with bursts := p.bursts.map fun u => if u.tag = tag then { u with data := Tab.put g place u.data } else u }

/-- The granules of a write request of a SAVE: what lies before the banks is there, rows of banks are to be read in stream slots. A last block of
one granule has a second one on the wire, which the image does not hold: a free value (log entry 107). -/
def Ctl.saveGather (c : Ctl) (n : Nat) (t : StackTag) (r : SaveRun) : Ctl :=
  let c := forAll (List.range t.n) (fun i c =>
    match r.at_ (t.from_ + i) with
    | .inl g => c.spillInto n t.tag i g
    | .inr x => c.request (c.imgReadReq n t.tag (t.from_ + i) i x.1 x.2)) c
  if t.n < t.total then let v := c.draw
    v.2.spillInto n t.tag t.n v.1
  else c

/-- The port presents a request of the block itself (R50, R280, R282, R286). -/
def Ctl.sysShow (c : Ctl) (n tag : Nat) (x : SysNext) : Ctl :=
  let p := c.sport n
  let t : StackTag := { tag := tag, ctx := Config.contexts, sys := some x.sys, from_ := x.first, n := x.n, total := max 2 x.n, write := decide (x.sys = .save), useBc := c.bc }
  let hash := match x.sys with | .hash _ => true | _ => false
  let o : StackOut := { c.sout n with reqValid := true, write := t.write, tag := BitVec.ofNat 11 tag, gaddr := BitVec.ofNat 36 x.gaddr }
  let c := c.setSport n { p with shown := some t, issueBc := some c.bc, runCtx := p.runCtx.filter c.issuable, hashBc := if hash then c.bc else p.hashBc }
  (c.setSout n { o with len := BitVec.ofNat 7 (t.total - 1) }).sysAsked x.sys n

/-- The presented request `t` of port n transfers (R50, R51): its tag comes into use in this bc. The source reads of a SPILL, and those of a
SAVE, are presented from here on. -/
def Ctl.requestGoes (c : Ctl) (n : Nat) (t : StackTag) : Ctl :=
  let x := t.ctx
  let p := c.sport n
  let p : StackPort := { p with shown := none, issueBc := some c.bc, tags := p.tags ++ [{ t with useBc := c.bc }] }
  let p : StackPort := if t.write then { p with bursts := p.bursts ++ [{ tag := t.tag, n := if t.sys.isSome then t.total else t.n }] } else p
  let c := c.setSport n p
  if !t.write then c
  else if t.sys.isSome then
    let c := c.wimgStackWrite n (c.sout n).gaddr.toNat false
    match c.audit.save with | some r => c.saveGather n t r | none => c
  else
    let c := c.wimgStackWrite n ((c.cx x strCtx_SADDR + t.from_) % 2 ^ 36) (decide (c.cx x strCtx_DIGEST = 1))
    forAll (List.range t.n) (fun i c =>
      let a : AReq := { id := 0, req := n, kind := .spillRead x (t.from_ + i), gi := c.ringGi x (t.from_ + i), group := c.cx x strCtx_GROUP, write := false }
      c.request { a with order := t.tag, since := c.bc, dest := i }) c

/-- A presented request is withdrawn with its port (R313): its owner takes the handling of a timeout. Its valid falls at the end of the bc. -/
def Ctl.requestWithdraw (c : Ctl) (n : Nat) (t : StackTag) : Ctl :=
  let c := c.setSport n { c.sport n with shown := none }
  match t.sys with
  | some s => if t.live then c.sysFail s else c
  | none =>
    let c := c.setCx t.ctx strCtx_OUTST (c.cx t.ctx strCtx_OUTST - 1)
    let c := if t.write then c else c.unreserve t.ctx t.total
    c.ctxHalt t.ctx 5 t.from_

/-- A port with nothing presented selects and presents (R188, R198, R286): a hash request that has waited its 64 bc, else the next of the
selected context, else one of the block's own. A context's request that would exceed the reservation of its ordered set ends the set instead
(R198: STAGE_FULL). -/
def Ctl.requestNext (c : Ctl) (n tag : Nat) : Ctl :=
  match c.hashDue n with
  | some x => c.sysShow n tag x
  | none => match (if c.fld oStrCfg strCfg_ISSUE_PAUSE = 0 then c.select n else none) with
    | some x => if c.osetOver x then c.osetVoid (c.cx x strCtx_OSET) 9 else c.requestShow n (c.nextRequest tag x)
    | none => match c.sysNext n with
      | some x => c.sysShow n tag x
      | none => c

/-- STREAM_REQUEST_ISSUE: a request that the port presents transfers when sN_req_ready is 1, and stays presented else (R50). With none
presented, the next request is presented with a free tag, and transfers at once when sN_req_ready is 1 (R51, R188). -/
def Ctl.requestIssue (c : Ctl) (n tag : Nat) (ready : Bool) : Ctl :=
  let p := c.sport n
  match p.shown with
  | some t => if ready && c.sysReady && !c.clk.frozen && decide (p.issueBc ≠ some c.bc) then c.requestGoes n t else c
  | none =>
    if !c.portReady n || p.tags.any (fun t => decide (t.tag = tag)) || p.quar.contains tag then c
    else
      let c := c.requestNext n tag
      match (c.sport n).shown with
      | some t => if ready then c.requestGoes n t else c
      | none => c

/-- CONTEXT_LATE (R189). -/
def Ctl.contextLate (c : Ctl) (x : Nat) : Ctl :=
  match c.oldestTag x with
  | none => c
  | some t => if t.useBc + 2 ^ c.fld oStrCfg strCfg_LATE_EXP ≤ c.bc ∧ c.sysReady ∧ ¬ c.blackout then c.setCtx x { c.ctx x with late := true } else c

/-! ### Arrivals (R57, R58, R190) -/

/-- Code kind of the destination of context x: the script store keeps the working code. -/
def Ctl.cxRep (c : Ctl) (x gi : Nat) : Bool := decide (c.cx x strCtx_DIR ≠ 2) && c.repOf gi

/-- Code kind on the stack side (R190). -/
def Ctl.stackRep (c : Ctl) (x gi : Nat) : Bool :=
  let k := c.cx x strCtx_RECODE
  if k = 0 then c.cxRep x gi else decide (k = 2)

/-- Granule of the script store that destination granule d of an SSLOAD writes (R78). -/
def Ctl.storeKey (c : Ctl) (x d : Nat) : Nat := (c.cxHalf x).toNat * 32768 + (c.cx x strCtx_RING_BASE % 2 ^ 16 / 2 + d) % 32768

/-- The check of an arriving granule. For an SSLOAD the manual names no destination bank for the log: free values. -/
def Ctl.arrivalCheck (c : Ctl) (x gi : Nat) (g : Granule) : Ctl × Decoded :=
  let n := c.cx x strCtx_SPORT
  if c.cx x strCtx_DIR = 2 then
    let v := c.freeSite n
    let d := decodeG (c.stackRep x gi) g
    (v.1.eccRecord v.2 d, d)
  else c.portCheck 4 2 n gi (c.stackRep x gi) g

/-- Format code that FMT_MODE gives destination granule index `gi` (R190): none keeps it. The reserved mode gives a free value. -/
def Ctl.fmtOf (c : Ctl) (x gi : Nat) : Ctl × Option Nat :=
  let m := c.cx x strCtx_FMT_MODE
  let f := c.cx x strCtx_FMT
  if m = 0 then (c, none)
  else if m = 1 then (c, some f)
  else if m = 2 then (c, some (if gi % (if f = 2 ∨ f = 5 then 32 else 16) = 0 then 1 else f))
  else
    let v := c.draw
    (v.2, some (v.1.toNat % 8))

/-- The granule as it lands, plain or accumulating, from its decode (R190): RECODE, TAG_STAMP, FMT_MODE. The granule that
the block forms for an uncorrectable one keeps the tags of R252. -/
def Ctl.landForm (c : Ctl) (x gi : Nat) (d : Decoded) : Ctl × Granule :=
  let rep := c.cxRep x gi
  if d.bad then (c, poisonGranule rep)
  else
    let w := if c.stackRep x gi = rep then d.word
      else if rep then mkRep (gData d.word) d.pois 0 else mkWorking (gData d.word) d.pois true 0
    let w := if c.cx x strCtx_TAG_STAMP = 1 then mkWorking (gData w) d.pois true (c.cx x strCtx_EPOCH) else w
    let f := c.fmtOf x gi
    (f.1, match f.2 with | some k => mkRep (gData w) d.pois k | none => w)

/-- Bytes of destination granule d that are written (R181, R60). -/
def Ctl.skipMask (c : Ctl) (x d : Nat) : BitVec 32 :=
  ~~~ ((if d = 0 then BitVec.ofNat 32 (c.cx x strCtx_SKIP_FIRST) else 0) ||| (if d + 1 = c.dTotal x then BitVec.ofNat 32 (c.cx x strCtx_SKIP_LAST) else 0))

/-- Present the landing of destination granule d of stack granule s: into the bank, or into the reorder stage (R197). -/
def Ctl.present (c : Ctl) (x s d idx : Nat) (g : Granule) (keep : Bool) : Ctl :=
  let n := c.cx x strCtx_SPORT
  let gi := c.ringGi x d
  let a : AReq := { id := 0, req := n, kind := .streamLand x s d, gi := gi, group := c.cx x strCtx_GROUP, granule := g, mask := c.skipMask x d }
  let a : AReq := { a with since := c.landSince n, order := idx, keep := keep }
  if c.cx x strCtx_DIR = 2 then c.request { a with gi := c.storeKey x d }
  else if c.cx x strCtx_OSET ≠ 0 then
    c.request { a with kind := .stageHold x s d, gi := c.stageAlloc (c.place gi).quad [], dest := gi }
  else if c.cx x strCtx_XOP = 2 then c.request { a with acc := some (c.cx x strCtx_ACC_TYPE) }
  else c.request a

/-- Converted data of a group of stack granules: delivered granule j (R113, R117). -/
def Ctl.streamConv (c : Ctl) (x : Nat) (data : List Nat) (j : Nat) : Nat :=
  match dstOf (c.cx x strCtx_DST) with
  | some d => convGranule (c.cx x strCtx_SRC) d (decide (c.cx x strCtx_SAT = 1)) (packData data) [] 0 j
  | none => 0

/-- A granule that the conversion of a stream forms (R106, R118). -/
def Ctl.convForm (c : Ctl) (x : Nat) (data : List Nat) (bad : Bool) (j : Nat) : Granule :=
  if bad then mkWorking 0 true true 0 else mkWorking (c.streamConv x data j) false true 0

/-- A granule of a narrowing conversion arrives: it waits for the rest of its group. A failing granule lands at once. -/
def Ctl.arriveNarrow (c : Ctl) (x s idx : Nat) (d : Decoded) (bad fail : Bool) : Ctl :=
  let r := c.narrow x
  let s0 := s - s % r
  let mine := fun (l : Landed) => decide (l.ctx = x ∧ s0 ≤ l.s ∧ l.s < s0 + r)
  if fail then
    let c : Ctl := { c with landed := c.landed.filter fun l => !mine l }
    (c.present x s0 (s / r) idx (c.convForm x [] true 0) true).ctxHalt x 4 s0
  else
    let c : Ctl := { c with landed := c.landed ++ [{ ctx := x, s := s, granule := d.word, bad := bad }] }
    let g := c.landed.filter mine
    if g.length < r then c
    else
      let word := fun i => match g.find? fun (l : Landed) => decide (l.s = s0 + i) with | some l => gData l.granule | none => 0
      let c : Ctl := { c with landed := c.landed.filter fun l => !mine l }
      c.present x s0 (s / r) idx (c.convForm x ((List.range r).map word) (g.any fun l => l.bad) 0) false

/-- Stack granule s of context x arrives, in request number idx: checked, transformed, and presented for landing. At or
after the limit it is discarded without a check (R202). -/
def Ctl.arrive (c : Ctl) (x s idx : Nat) (g : Granule) (err : Bool) : Ctl :=
  if !(c.ctx x).below s then c.unreserve x 1
  else
    let gi := c.ringGi x (if 1 < c.narrow x then s / c.narrow x else c.dstCount x s)
    let r := if err then (c, ⟨true, 0, 0x1FF, false, poisonGranule (c.cxRep x gi)⟩) else c.arrivalCheck x gi g
    let c := r.1
    let d := r.2
    let bad := d.bad || d.pois
    let fail := bad && decide (c.cx x strCtx_POIS_PASS = 0)
    if c.cx x strCtx_XOP = 1 then
      if 1 < c.narrow x then c.arriveNarrow x s idx d bad fail
      else
        let c := (c.dstsOf x s).foldl (fun c k => c.present x s k idx (c.convForm x [gData d.word] bad (k - c.dstCount x s)) fail) c
        if fail then c.ctxHalt x 4 s else c
    else
      let f := c.landForm x gi d
      let c := f.1.present x s s idx f.2 fail
      if fail then c.ctxHalt x 4 s else c

/-- The granules of a beat: those that the request wants, in order. -/
def Ctl.arriveAll (x : Nat) (t : StackTag) (err : Bool) : Nat → List Granule → Ctl → Ctl
  | _, [], c => c
  | off, g :: l, c =>
    let c := if t.skip = off + 1 then c.unreserve x 1
      else c.arrive x (t.from_ + (if t.n = 1 then 0 else off)) t.seqIdx g err
    Ctl.arriveAll x t err (off + 1) l c

/-- Lanes of beat `b` of a request of `total` granules (R52). -/
def beatLanes (total b : Nat) : Nat := 2 ^ min 32 (total - 32 * b) - 1

/-- Refusal kind of a beat for a tag in use by a read (R55), 0 for none. For a beat that breaks both the last rule and the lane rule the
manual does not say which kind is recorded: the model tests last before lanes, so that such a final beat also leaves the tag broken
(DESIGN CHOICE, log entry 95). -/
def beatKind (t : StackTag) (lanes : Nat) (last : Bool) : Nat :=
  let n := (t.total + 31) / 32
  if t.broken ∨ n ≤ t.beats then 2
  else if last ≠ decide (t.beats + 1 = n) then 3
  else if lanes ≠ beatLanes t.total t.beats then 4
  else 0

/-- STACK_RSP_BEAT (R53 to R58). -/
def Ctl.rspBeat (c : Ctl) (n tag : Nat) (lanes : BitVec 32) (last err : Bool) (data : List Granule) : Ctl :=
  if !c.rspReady n || c.blackout || c.clk.frozen then c
  else
    let p := c.sport n
    if p.quar.contains tag then
      if last then c.setSport n { p with quar := p.quar.filter fun t => decide (t ≠ tag) } else c
    else match p.tags.find? fun t => decide (t.tag = tag) && !t.write with
      | none => c.stackRefuse n tag 1
      | some t =>
        let k := beatKind t lanes.toNat last
        if k ≠ 0 then
          let c := c.stackRefuse n tag k
          let p := c.sport n
          if k = 3 ∧ ¬ last then c.setSport n { p with tags := p.tags.map fun u => if u.tag = tag then { u with broken := true } else u } else c
        else
          let count := min 32 (t.total - 32 * t.beats)
          let c := c.setSport n { p with tags := p.tags.map fun u => if u.tag = tag then { u with beats := u.beats + 1 } else u }
          let c := if last then c.tagEnds n t else c
          let gs := (List.range count).map fun i => data.getD i 0
          match t.sys with
          | some s => Ctl.sysArrive n t s err (32 * t.beats) gs c
          | none => Ctl.arriveAll t.ctx t err (32 * t.beats) gs c

/-- STACK_WACK (R53, R57, R193). -/
def Ctl.wack (c : Ctl) (n tag : Nat) (err : Bool) : Ctl :=
  if !c.sysReady || c.blackout || c.clk.frozen then c
  else
    let p := c.sport n
    if p.quar.contains tag then c.setSport n { p with quar := p.quar.filter fun t => decide (t ≠ tag) }
    else match p.tags.find? fun t => decide (t.tag = tag) && t.write with
      | none => c.stackRefuse n tag 1
      | some t =>
        let c := c.tagEnds n t
        if t.sys.isSome then (if err then c.sysFail .save else c)
        else if err then c.ctxHalt t.ctx 6 t.from_
        else
          let r := c.ctx t.ctx
          (c.setCtx t.ctx { r with acked := (t.from_, t.n) :: r.acked }).ctxAdvance t.ctx

/-- A tag times out (R56): it is quarantined, and its owner takes its handling; a context halts at the first granule of the request. Reserved
space that no beat will fill is given back. -/
def Ctl.tagOut (c : Ctl) (n : Nat) (t : StackTag) : Ctl :=
  let c := c.satAdd (oSportStat n) sportStat_TIMEOUTS 1
  let c := (c.setFld (oSportStat n) sportStat_LAST_TAG t.tag).setFld (oSportStat n) sportStat_LAST_KIND 5
  let c := c.tagEnds n t
  let c := c.setSport n { c.sport n with quar := t.tag :: (c.sport n).quar }
  match t.sys with
  | some s => if t.live then c.sysFail s else c
  | none => (if t.write then c else c.unreserve t.ctx (t.total - 32 * t.beats)).ctxHalt t.ctx 5 t.from_

/-- TAG_TIMEOUT (R56). Timeouts stop in safe state. -/
def Ctl.tagTimeout (c : Ctl) (n tag : Nat) : Ctl :=
  let e := c.fld (oSportCfg n) sportCfg_TIMEOUT_EXP
  match (c.sport n).tags.find? fun t => decide (t.tag = tag) with
  | none => c
  | some t => if e = 0 ∨ c.blackout ∨ ¬ c.sysReady ∨ c.bc < t.useBc + 2 ^ e then c else c.tagOut n t

/-! ### Landings (R190 to R194) -/

/-- The writer of a context's landings (R286). -/
def Ctl.cxWriter (c : Ctl) (x : Nat) : Writer := if c.cx x strCtx_DIGEST = 1 then .staging else .other

/-- A landing of a context has come to its end. -/
def Ctl.streamLanded (c : Ctl) (x s d : Nat) (res : LandRes) : Ctl :=
  match res with
  | .lands => (c.unreserve x 1).ctxCommit x d
  | .fails => (c.unreserve x 1).ctxHalt x 7 s
  | _ => c

/-- The script-store write of an SSLOAD landing (R78, R194): a new content. -/
def Ctl.storeWrite (c : Ctl) (k : Nat) (g : Granule) : Ctl :=
  { c with store := Tab.set fillGranule c.store k g, storeSeen := c.storeSeen.filter fun i => decide (i ≠ k), storeFix := c.storeFix.filter fun i => decide (i ≠ k) }

/-- The first slot of an accumulating landing frees the next of its context (R191). -/
def Ctl.accGoes (c : Ctl) (a : AReq) (x s : Nat) (res : LandRes) : Ctl :=
  let taken : Bool := match c.reqOf a.id with
    | some b => b.second.isSome
    | none => decide (res = .fails)
  if a.acc.isSome && a.second.isNone && taken then c.setCtx x { c.ctx x with accNext := s + 1 } else c

/-- A granule of the image of a RESTORE comes to its stream slot: the row is written, whoever owns it (R282, log entry 107), and no tag of it is
checked (DESIGN CHOICE, log entry 131). At a bank that is striking it does not reach the bank (R25, R314). -/
def Ctl.imgLanding (c : Ctl) (a : AReq) (pb row : Nat) : Ctl × List BankOp :=
  match c.firstSlot a with
  | some (c, true) =>
    let c := c.dropReq a.id
    let c := match c.audit.rest with | some r => c.setRest (some { r with landed := r.landed + 1 }) | none => c
    let q := pbQuad pb
    let cl := c.built q (pbCluster pb)
    let key := rowKey q cl (pb % 16) row
    if c.striking pb then (c, [])
    else if a.gi < 2 ^ 24 then c.commit .other a.gi a.granule
    else ((c.cancelWb q fun k => k == key).cancelScrub q cl fun k => k == key, c.putAt key a.granule)
  | some (c, false) => (c, [])
  | none => (c, [])

/-- STREAM_LANDING. -/
def Ctl.streamLanding (c : Ctl) (b : Tab Granule) (id : Nat) : Ctl × List BankOp :=
  match c.reqOf id with
  | none => (c, [])
  | some a => match a.kind with
    | .streamLand x s d =>
      let r := c.land b a (c.cxWriter x)
      let c := if r.2.2 = .lands ∧ c.cx x strCtx_DIR = 2 then r.1.storeWrite a.gi a.granule else r.1
      ((c.accGoes a x s r.2.2).streamLanded x s d r.2.2, r.2.1)
    | .stageHold x s d =>
      let r := c.holdSlot b a
      match r.2.2 with
      | .lands =>
        let q := r.1.ctx x
        (r.1.setCtx x { q with osetHeld := q.osetHeld ++ [(a.order, d, a.gi)] }, r.2.1)
      | .fails => (r.1.ctxHalt x 7 s, r.2.1)
      | _ => (r.1, r.2.1)
    | .osetRead x d =>
      let r := c.readBack b a (.osetApply x d) (some (c.cx x strCtx_ACC_TYPE))
      (if r.2 = .fails then r.1.ctxHalt x 7 d else r.1, [])
    | .osetApply x d =>
      let r := c.land b a (c.cxWriter x)
      match r.2.2 with
      | .lands =>
        let q := r.1.ctx x
        ((r.1.setCtx x { q with osetHeld := q.osetHeld.filter fun h => decide (h.2.1 ≠ d) }).ctxCommit x d, r.2.1)
      | .fails => (r.1.ctxHalt x 7 d, r.2.1)
      | _ => (r.1, r.2.1)
    | .imgLand _ pb row => c.imgLanding a pb row
    | _ => (c, [])

/-- A granule that leaves for the stack, from its decode in the bank (R193). -/
def Ctl.spillForm (c : Ctl) (x gi : Nat) (d : Decoded) : Granule :=
  let rep := c.stackRep x gi
  if d.bad then poisonGranule rep
  else if c.repOf gi = rep then d.word
  else if rep then mkRep (gData d.word) d.pois 0 else mkWorking (gData d.word) d.pois true 0

/-- SPILL_SOURCE_READ (R193), and the reads of banks for an image, corrected or poisoned (R280). A source granule that fails R25 is suppressed and the context halts; a poisoned granule goes
out in its place (log entry 18), and so it is for a row of an image whose bank is striking (R25, R314, log entry 131). -/
def Ctl.spillRead (c : Ctl) (b : Tab Granule) (id : Nat) : Ctl :=
  match c.reqOf id with
  | none => c
  | some a => match a.kind with
    | .spillRead x s =>
      match c.firstSlot a with
      | none => c
      | some (c, false) => c
      | some (c, true) =>
        let c := c.dropReq id
        if !c.ownsAsync a.group a.gi false then
          (c.spillInto a.req a.order a.dest (poisonGranule (c.stackRep x a.gi))).ctxHalt x 7 s
        else
          let r := c.bankRead b 0 (0x80 + a.req) a.gi c.bc
          let c := if r.2.bad ∨ r.2.pois then r.1.satAdd oStrStat strStat_SPILL_POIS 1 else r.1
          c.spillInto a.req a.order a.dest (c.spillForm x a.gi r.2)
    | .imgRead _ pb row => match c.firstSlot a with
      | some (c, true) =>
        if c.striking pb then (c.dropReq id).spillInto a.req a.order a.dest (poisonGranule (c.clusterRep (pbQuad pb) (pbCluster pb)))
        else
          let r := (c.dropReq id).rowRead b 0 (0x80 + a.req) (pbQuad pb) (pbCluster pb) (pb % 16) row
          r.1.spillInto a.req a.order a.dest r.2.word
      | some (c, false) => c
      | none => c
    | _ => c

/-- The granules of the next beat of a burst, by place. -/
def WriteBurst.places (u : WriteBurst) : List Nat := (List.range (min 32 (u.n - u.sent))).map fun i => u.sent + i

/-- The port presents the next beat of its oldest burst (R50, R52). -/
def Ctl.beatShow (c : Ctl) (n : Nat) (u : WriteBurst) : Ctl :=
  let k := u.places.length
  let c := c.setSport n { c.sport n with beat := true, beatBc := some c.bc }
  let o : StackOut := { c.sout n with wdValid := true, wdData := u.places.map fun i => Tab.get 0 u.data i, wdLanes := BitVec.ofNat 32 (2 ^ k - 1) }
  c.setSout n { o with wdLast := decide (u.sent + k = u.n) }

/-- The presented beat transfers. -/
def Ctl.beatGoes (c : Ctl) (n : Nat) (u : WriteBurst) (t : List WriteBurst) : Ctl :=
  let k := u.places.length
  let left := if u.sent + k = u.n then t else { u with sent := u.sent + k } :: t
  c.setSport n { c.sport n with bursts := left, beat := false, beatBc := some c.bc }

/-- STACK_WRITE_BEAT (R50, R52): a presented beat transfers when sN_wd_ready is 1, and stays presented else. With none presented, the next
beat of the oldest burst is presented once its granules have been read, and transfers at once when sN_wd_ready is 1. In safe state no
further beat is presented (R307). -/
def Ctl.writeBeat (c : Ctl) (n : Nat) (ready : Bool) : Ctl :=
  let p := c.sport n
  match p.bursts with
  | [] => c
  | u :: t =>
    if !c.sysReady || c.clk.frozen || p.removed then c
    else if p.beat then (if ready ∧ p.beatBc ≠ some c.bc then c.beatGoes n u t else c)
    else if c.blackout || decide (p.beatBc = some c.bc) || !u.places.all (fun i => u.data.any fun e => decide (e.1 = i)) then c
    else if ready then (c.beatShow n u).beatGoes n u t
    else c.beatShow n u

/-- At the end of a bc: what has transferred is no longer presented, and a context that has stopped being issuable gives up its turn on
its port (R50, R188). -/
def Ctl.sportsBc (c : Ctl) : Ctl :=
  let c := forAll (c.sOut.map fun e => e.1) (fun n c =>
    c.setSout n { c.sout n with reqValid := (c.sport n).shown.isSome, wdValid := (c.sport n).beat }) c
  forAll (c.sports.map fun e => e.1) (fun n c =>
    let p := c.sport n
    match p.runCtx with
    | some x => if p.shown.isSome ∨ p.issueBc = some c.bc ∨ (c.portIssues n ∧ c.issuable x) then c else c.setSport n { p with runCtx := none, runLen := 0 }
    | none => c) c

/-! ### Rounds of ordered sets (R197) -/

/-- Every member has started and holds all its granules. -/
def Ctl.osetComplete (c : Ctl) (k : Nat) : Bool :=
  let o := c.oset k
  decide (o.started.length = c.fld (oStrOset k) strOset_MEMBERS) && !o.started.isEmpty && !o.applying && o.failed.isNone &&
    o.started.all fun x => decide (c.ctxState x = 2 ∧ (c.ctx x).osetHeld.length = c.dTotal x)

/-- Contributions of a member in ascending (request index, destination granule). -/
def insHeld (h : Nat × Nat × Nat) : List (Nat × Nat × Nat) → List (Nat × Nat × Nat)
  | [] => [h]
  | g :: t => if h.1 < g.1 ∨ (h.1 = g.1 ∧ h.2.1 < g.2.1) then h :: g :: t else g :: insHeld h t

def sortHeld : List (Nat × Nat × Nat) → List (Nat × Nat × Nat)
  | [] => []
  | h :: t => insHeld h (sortHeld t)

/-- OSET_ROUND_APPLY: the contributions are read back and applied in ascending (context, request, destination). -/
def Ctl.osetApply (c : Ctl) (k : Nat) : Ctl :=
  if !c.osetComplete k || c.blackout || !c.sysReady then c
  else
    let xs := c.liveCtxs.filter fun x => (c.oset k).started.contains x
    let c := c.setOset k { c.oset k with applying := true }
    forAll xs (fun x c => (sortHeld (c.ctx x).osetHeld).foldl (fun c h =>
      let gi := c.ringGi x h.2.1
      let a : AReq := { id := 0, req := 41 + (c.place h.2.2).quad, kind := .osetRead x h.2.1, gi := h.2.2, group := c.cx x strCtx_GROUP, write := false }
      c.request { a with order := c.ec, since := c.bc, dest := gi }) c) c

/-! ### Removal of a stack port (R313) -/

/-- A stack port is removed: its tags time out at once, write data and a presented request are withdrawn; what it shows falls in the bc after. -/
def Ctl.sportRemove (c : Ctl) (n : Nat) : Ctl :=
  if (c.sport n).removed then c
  else
    let off := fun (l : Nat × Word × Word) =>
      if l.1 = oSportCfg n then (l.1, l.2.1, BitVec.ofNat 64 (putBits l.2.2.toNat sportCfg_ENABLE.lo sportCfg_ENABLE.width 0)) else l
    let c : Ctl := { c with later := c.later.map off }
    let c := (c.setFld (oSportCfg n) sportCfg_ENABLE 0).setSport n { c.sport n with removed := true, bursts := [], beat := false }
    let c := c.withdraw fun a => decide (a.req = n) && match a.kind with | .spillRead _ _ => true | _ => false
    let c := match (c.sport n).shown with | some t => c.requestWithdraw n t | none => c
    (c.sport n).tags.foldl (fun c t => c.tagOut n t) c

/-! ### Releases (R150 to R152) -/

/-- A release of sequencer n takes effect at its release point (R151): in safe state it changes nothing (R307). -/
def Ctl.applyRelease (c : Ctl) (n : Nat) (r : Release) : Ctl :=
  if c.blackout then c
  else match r.kind with
    | .counterAdd => c.cntChange r.target r.x 1 r.value.toNat r.scope
    | .curtainEntry => c.curEntry r.target n r.scope r.x
    | .streamStart => c.streamStart r.target true r.x

/-- RELEASE_APPLY: the oldest pending release of sequencer n, once its release point has come. -/
def Ctl.releaseApply (c : Ctl) (n : Nat) : Ctl :=
  let q := c.seq n
  match q.releases with
  | [] => c
  | r :: t => if r.x ≤ c.ec ∧ c.sysReady then (c.setSeq n { q with releases := t }).applyRelease n r else c

/-! ### The commands -/

/-- RELEASE_APPLY. -/
def execReleaseApply (n : Nat) (s : State) : Out := onUnit (decide (n < Config.seqs)) s fun c => c.releaseApply n

/-- STREAM_REQUEST_ISSUE. -/
def execStreamRequestIssue (port tag : Nat) (ready : Bool) (s : State) : Out :=
  onUnit (decide (port < Config.stackPorts ∧ tag < 2048)) s fun c => c.requestIssue port tag ready
/-- STACK_WRITE_BEAT. -/
def execStackWriteBeat (port : Nat) (ready : Bool) (s : State) : Out :=
  onUnit (decide (port < Config.stackPorts)) s fun c => c.writeBeat port ready
/-- CONTEXT_LATE. -/
def execContextLate (x : Nat) (s : State) : Out := onUnit (isCtx x) s fun c => c.contextLate x
/-- STACK_RSP_BEAT. -/
def execStackRspBeat (port tag : Nat) (lanes : BitVec 32) (last err : Bool) (data : List Granule) (s : State) : Out :=
  onUnit (decide (port < Config.stackPorts ∧ tag < 2048)) s fun c => c.rspBeat port tag lanes last err data
/-- STACK_WACK. -/
def execStackWack (port tag : Nat) (err : Bool) (s : State) : Out :=
  onUnit (decide (port < Config.stackPorts ∧ tag < 2048)) s fun c => c.wack port tag err
/-- TAG_TIMEOUT. -/
def execTagTimeout (port tag : Nat) (s : State) : Out :=
  onUnit (decide (port < Config.stackPorts ∧ tag < 2048)) s fun c => c.tagTimeout port tag
/-- STREAM_LANDING. -/
def execStreamLanding (id : Nat) (s : State) : Out := onBanks true s fun b c => c.streamLanding b id
/-- SPILL_SOURCE_READ. -/
def execSpillSourceRead (id : Nat) (s : State) : Out := onUnit true s fun c => c.spillRead s.banks id
/-- OSET_ROUND_APPLY. -/
def execOsetRoundApply (k : Nat) (s : State) : Out := onUnit (decide (1 ≤ k ∧ k < 16)) s fun c => c.osetApply k

end Sys2Proof.Machine
end

