-- ==== Sys2Proof/Machine/Windows.lean ====
section
/-! DEFINITION. Windows: descriptors and commands, the checks of an arriving DATA packet, landings, ordered rounds, the journal's entries (R133 to R136, R211 to R220, R226 to R230). -/

namespace Sys2Proof.Machine

/-! ### Small readers -/

/-- A field of window w. -/
def Ctl.wn (c : Ctl) (w : Nat) (f : FieldPos) : Nat := c.fld (oWin w) f

/-- Group that owns the window. -/
def Ctl.winOwner (c : Ctl) (w : Nat) : Nat := c.wn w win_OWNER

/-- MIO_TWIN_CFG.MODE: 0 OFF, 1 MIRROR, 2 REHEARSAL. -/
def Ctl.twinMode (c : Ctl) : Nat := c.fld oTwinCfg twinCfg_MODE

/-- MIO_TWIN_STAT.PHASE: 0 OFF, 1 PAIRED, 2 SOLO, 3 RESYNC. -/
def Ctl.twinPhase (c : Ctl) : Nat := c.fld oTwinStat twinStat_PHASE

/-- Outcome of a window or send command (MIO_WIN_CMD): 0 OK, 1 STATE, 2 RANGE, 3 MODE, 4 STAGE, 5 LATE, 6 BAD_CMD. -/
def Ctl.winResult (c : Ctl) (r : Nat) : Ctl :=
  let c := c.setFld oWinCmd winCmd_RESULT r
  if r = 0 then c else c.flag oWinCmd winCmd_REFUSED

/-- Granule index of payload granule k of a packet for window w at OFFSET `off` (R218). -/
def Ctl.pktGi (c : Ctl) (w off k : Nat) : Nat := (c.wn w win_BASE + off + k) % 2 ^ 27

/-- Tracking entry of a window and rank (R227). -/
def trackKey (w rank : Nat) : Nat := w * 65536 + rank
def Ctl.track (c : Ctl) (w rank : Nat) : Track := Tab.get {} c.twin.tracks (trackKey w rank)
def Ctl.setTrack (c : Ctl) (w rank : Nat) (t : Track) : Ctl :=
  { c with twin := { c.twin with tracks := Tab.set {} c.twin.tracks (trackKey w rank) t } }

/-- The packet with an id. -/
def Ctl.packet (c : Ctl) (id : Nat) : Option Accepted := c.packets.find? fun p => decide (p.id = id)
def Ctl.putPacket (c : Ctl) (p : Accepted) : Ctl := { c with packets := c.packets.map fun q => if q.id = p.id then p else q }
def Ctl.dropPacket (c : Ctl) (id : Nat) : Ctl := { c with packets := c.packets.filter fun q => decide (q.id ≠ id) }

/-- The journal entry with an id. -/
def Ctl.entry (c : Ctl) (id : Nat) : Option JEntry := c.twin.journal.find? fun j => decide (j.id = id)
def Ctl.putEntry (c : Ctl) (j : JEntry) : Ctl :=
  { c with twin := { c.twin with journal := c.twin.journal.map fun i => if i.id = j.id then j else i } }

/-! ### The journal ring (R226) -/

/-- Regions of the ring, in ascending number. -/
def Ctl.journalRegions (c : Ctl) : List Nat :=
  (List.range 64).filter fun r => decide (c.fld (oRegion r) region_VALID = 1 ∧ c.fld (oRegion r) region_USE = 2)

/-- Granules of the ring. -/
def Ctl.journalSize (c : Ctl) : Nat := c.journalRegions.length * 2 ^ 18

/-- Granule index of a ring position. -/
def Ctl.journalGi (c : Ctl) (pos : Nat) : Nat :=
  let p := pos % max 1 c.journalSize
  c.journalRegions.getD (p / 2 ^ 18) 0 * 2 ^ 18 + p % 2 ^ 18

/-- Granules of an entry: header and payload. -/
def JEntry.size (j : JEntry) : Nat := j.payload.length + 1

/-- Free journal granules (MIO_TWIN_STAT.JFREE): an entry keeps its place until a checkpoint frees it (R230). -/
def Ctl.journalFree (c : Ctl) : Nat := c.journalSize - (c.twin.journal.map JEntry.size).sum

/-- Tracking entries in use: ORD_RANKS of every journaled window that is not CLOSED. -/
def Ctl.tracksUsed (c : Ctl) : Nat :=
  ((c.liveWins.filter fun w => decide (c.wn w win_JOURNALED = 1)).map fun w => c.wn w win_ORD_RANKS).sum

/-! ### OPEN, CLOSE and the end of a window (R213 to R215) -/

/-- The MODE check of R214. -/
def Ctl.openMode (c : Ctl) (w : Nat) : Bool :=
  let f := c.wn w
  let ord := decide (f win_ORDERED = 1)
  let jour := decide (f win_JOURNALED = 1)
  let acc := decide (f win_ACC_EN = 1)
  (ord && jour) || (acc && decide (f win_ACC_TYPE = 1) && !ord) || (jour && acc && decide (f win_ACC_TYPE ≠ 0))
    || (jour && decide (c.twinMode ≠ 1)) || ((ord || jour) && decide (f win_ORD_RANKS = 0)) || (ord && decide (f win_ORD_PER_RANK = 0))

/-- The result of an OPEN (R214). -/
def Ctl.openCode (c : Ctl) (w : Nat) : Nat :=
  let f := c.wn w
  if f win_STATE ≠ 0 then 1
  else if f win_SIZE = 0 ∨ ¬ c.ownsExtent (f win_OWNER) (f win_BASE) (f win_SIZE) true then 2
  else if c.openMode w then 3
  else if (f win_ORDERED = 1 ∧ c.stageFull (f win_ORD_RESERVE)) ∨ (f win_JOURNALED = 1 ∧ 4096 < c.tracksUsed + f win_ORD_RANKS) then 4
  else 0

/-- Tracking entries of a window leave the table. -/
def Ctl.dropTracks (c : Ctl) (w : Nat) : Ctl :=
  { c with twin := { c.twin with tracks := c.twin.tracks.filter fun t => decide (t.1 / 65536 ≠ w) } }

/-- OPEN (R214). -/
def Ctl.winOpen (c : Ctl) (w : Nat) : Ctl :=
  let r := c.openCode w
  let c := c.winResult r
  if r ≠ 0 then c
  else (((c.setFld (oWin w) win_STATE 1).setWin w {}).dropTracks w).setFld (oInDig w) inDig_VALID 0

/-- Discard the contributions of a window that the reorder stage holds and that are not being applied (R215). -/
def Ctl.dropHeld (c : Ctl) (w : Nat) : Ctl :=
  let held := fun (p : Accepted) => decide (p.window = w ∧ (p.phase = .staging ∨ p.phase = .held))
  let ids := (c.packets.filter held).map fun p => p.id
  let c := c.withdraw fun a => match a.kind with | .stageWrite id _ => ids.contains id | _ => false
  { c with packets := c.packets.filter fun p => !held p }

/-- Discard the journal entries of a window that satisfy `p` (R215). -/
def Ctl.voidEntries (c : Ctl) (w : Nat) (p : JEntry → Bool) : Ctl :=
  let gone := fun (j : JEntry) => decide (hWindow j.header = w) && !j.landed && p j
  let ids := (c.twin.journal.filter gone).map fun j => j.id
  let c := c.withdraw fun a => match a.kind with | .journalWrite id _ => ids.contains id | _ => false
  { c with twin := { c.twin with journal := c.twin.journal.map fun (j : JEntry) => if gone j then { j with void := true, confirm := none } else j } }

/-- The window enters CLOSING (R215): what is held or journaled and not being landed is discarded (log entry 19). -/
def Ctl.winClosing (c : Ctl) (w : Nat) : Ctl :=
  ((c.setFld (oWin w) win_STATE 2).dropHeld w).voidEntries w fun j => !j.landing

/-- CLOSE (R215). -/
def Ctl.winClose (c : Ctl) (w : Nat) : Ctl :=
  if c.wn w win_STATE ≠ 1 then c.winResult 1 else (c.winResult 0).winClosing w

/-- Landings of a packet that have not ended. -/
def Ctl.pktReqs (c : Ctl) (id : Nat) : Nat :=
  (c.areqs.filter fun a => match a.kind with
    | .linkLand p _ => decide (p = id)
    | .stageRead p _ => decide (p = id)
    | .stageApply p _ => decide (p = id)
    | .journalRead p _ => decide (p = id)
    | _ => false).length

/-- A kill of the owner (R215): landings that have not reached a bank slot are discarded, and a packet of which one is discarded is not
counted. A packet all of whose landings have reached a slot completes. -/
def Ctl.winKill (c : Ctl) (w : Nat) : Ctl :=
  if c.wn w win_STATE = 0 then c
  else
    let c := ((c.setFld (oWin w) win_STATE 2).dropHeld w).voidEntries w fun _ => true
    let ids := (c.packets.filter fun p => decide (p.window = w)).map fun p => p.id
    let c := c.withdraw fun a => match a.kind with
      | .linkLand p _ => ids.contains p
      | .stageRead p _ => ids.contains p
      | .stageApply p _ => ids.contains p
      | .journalRead p _ => ids.contains p
      | _ => false
    let c : Ctl := { c with packets := c.packets.map fun (p : Accepted) =>
      if p.window = w then { p with dropped := p.dropped || decide (c.pktReqs p.id ≠ p.left), left := c.pktReqs p.id } else p }
    { c with packets := c.packets.filter fun p => decide (p.window ≠ w ∨ p.left ≠ 0) }

/-- Every window of a killed group (R215). -/
def Ctl.winsKill (c : Ctl) (g : Nat) : Ctl := forAll (c.liveWins.filter fun w => decide (c.winOwner w = g)) (fun w c => c.winKill w) c

/-- WINDOW_CLOSED (R215): nothing of a CLOSING window remains to land. -/
def Ctl.winClosed (c : Ctl) (w : Nat) : Ctl :=
  if c.wn w win_STATE ≠ 2 ∨ c.blackout ∨ ¬ c.active ∨ (c.packets.any fun p => decide (p.window = w)) then c
  else ((c.setFld (oWin w) win_STATE 0).setWin w {}).dropTracks w

/-- Writable bits of the words of a window (R213). -/
def winMask (word : Nat) : Word :=
  if word = 0 then 0x07FFFFFF0FFF1FFC else if word = 1 then 0x00FFFFFFFFFFFFFF else if word = 2 then 0x00000003FFFFFFFF else 0xFFFFFFFF0000FFFF

/-- A write of a word of a window (R213). -/
def Ctl.winWrite (c : Ctl) (w word : Nat) (be : BitVec 2) (data : Word) : Ctl :=
  if word < 3 ∧ c.wn w win_STATE ≠ 0 then c.winResult 1
  else
    let o := oWin w + 8 * word
    let old := c.reg o
    c.setReg o ((merge old be data &&& winMask word) ||| (old &&& ~~~ winMask word))

/-! ### Counting a packet (R220, R276, R288, R289) -/

/-- A packet is counted in the ec after the present one: its window's arrival counter advances, and the digest unit takes it. -/
def Ctl.countPacket (c : Ctl) (p : Accepted) : Ctl :=
  let w := p.window
  let k := c.wn w win_ARR_CNT
  let c := c.cntChange k (c.ec + 1) 3 (hLen p.header) 3
  let v := BitVec.ofNat 32 (c.fld (oCnt k) cnt_VALUE)
  let r := c.win w
  let old := r.latest.filter fun l => decide (c.ec < l.2.1)
  let c := c.setWin w { r with latest := (p.id, c.ec + 1, v) :: (old ++ (r.latest.drop old.length).take 1) }
  if c.wn w win_DIGEST = 1 then
    let c := c.setFld (oInDig w) inDig_PENDING 1
    { c with audit := { c.audit with queue := c.audit.queue ++ [{ id := p.id, window := w, header := p.header, data := p.data, count := v }] } }
  else c

/-- The accumulation type of a landing of a packet. -/
def Ctl.pktAcc (c : Ctl) (w h : Nat) : Option Nat := if hOpn h = 1 then some (c.wn w win_ACC_TYPE) else none

/-- FP_UNORDERED of the owner, when a normal-mode accumulation into a floating-point target commits (R276). -/
def Ctl.fpUnordered (c : Ctl) (p : Accepted) : Ctl :=
  if hOpn p.header = 1 ∧ p.phase = .landing ∧ 2 ≤ c.wn p.window win_ACC_TYPE then
    c.flag (oProvGflag (c.winOwner p.window)) provGflag_FP_UNORDERED
  else c

/-! ### Landing from the journal (R228) -/

/-- Byte mask of payload granule k (R218). -/
def pktMask (h k : Nat) : BitVec 32 :=
  if hMasked h then
    (if k = 0 then BitVec.ofNat 32 (hMaskFirst h) else 0xFFFFFFFF) &&& (if k + 1 = hLen h then BitVec.ofNat 32 (hMaskLast h) else 0xFFFFFFFF)
  else 0xFFFFFFFF

/-- The next accepted entry of a (WINDOW, RANK), if it is at NEXT and landing is not paused: its granules are read from the
journal (R228, R230). -/
def Ctl.landNext (c : Ctl) (w rank : Nat) : Ctl :=
  let t := c.track w rank
  match c.twin.journal.find? fun j => decide (hWindow j.header = w ∧ hRank j.header = rank ∧ BitVec.ofNat 64 (hSeq j.header) = t.next) && !j.void && !j.landed with
  | none => c
  | some j =>
    if !j.accepted || j.landing || decide (c.fld oTwinCfg twinCfg_LAND_PAUSE = 1) then c
    else
      let c := c.putEntry { j with landing := true }
      let id := c.nextPkt
      let p : Accepted := { id := id, port := j.port, header := j.header, window := w, left := j.size, phase := .landing, taken := j.taken, data := j.payload }
      let c : Ctl := { c with packets := c.packets ++ [{ p with journal := some j.id }], nextPkt := id + 1 }
      forAll (List.range j.size) (fun k c =>
        let a : AReq := { id := 0, req := 40, kind := .journalRead id k, gi := c.journalGi (j.pos + k), group := c.winOwner w, write := false }
        c.request { a with order := j.taken, since := c.bc, dest := if k = 0 then c.journalGi j.pos else c.pktGi w (hOffset j.header) (k - 1) }) c

/-- Every (WINDOW, RANK) whose next entry may land. -/
def Ctl.landAll (c : Ctl) : Ctl :=
  ((c.twin.journal.filter fun j => j.accepted && !j.landing && !j.void).map fun j => (hWindow j.header, hRank j.header)).eraseDups.foldl
    (fun c k => c.landNext k.1 k.2) c

/-- A packet that lands from the journal is done: NEXT moves on, and the next entry may land (R228). -/
def Ctl.journalDone (c : Ctl) (p : Accepted) : Ctl :=
  match p.journal with
  | none => c
  | some id =>
    let c := match c.entry id with | some j => c.putEntry { j with landing := false, landed := true } | none => c
    if p.dropped then c
    else
      let w := p.window
      let rank := hRank p.header
      let t := c.track w rank
      (c.setTrack w rank { next := t.next + 1, held := t.held.filter fun s => s != t.next }).landNext w rank

/-! ### The end of a granule -/

/-- Every packet of the present round of an ordered window has been applied: the next round is the one being applied. -/
def Ctl.roundEnd (c : Ctl) (w : Nat) : Ctl :=
  if c.packets.any fun p => decide (p.window = w ∧ p.phase = .applying) then c
  else c.setWin w { c.win w with round := (c.win w).round + 1 }

/-- A granule of a packet has reached the end of its phase. A packet whose last granule has been written to the stage is held;
one whose last granule has committed is counted, unless a granule failed. -/
def Ctl.pktStep (c : Ctl) (id : Nat) : Ctl :=
  match c.packet id with
  | none => c
  | some p =>
    if 1 < p.left then c.putPacket { p with left := p.left - 1 }
    else if p.phase = .staging then c.putPacket { p with left := 0, phase := .held }
    else
      let c := c.dropPacket id
      let c := if p.dropped then c else c.countPacket p
      let c := c.journalDone p
      if p.phase = .applying then c.roundEnd p.window else c

/-- A granule that failed R20 or R25 at its slot (R219): the packet is not counted, and the window closes. -/
def Ctl.pktFail (c : Ctl) (id : Nat) : Ctl :=
  match c.packet id with
  | none => c
  | some p =>
    let c := if p.dropped then c else (c.putPacket { p with dropped := true }).winRefuse p.port p.window 10
    let c := if c.wn p.window win_STATE = 1 then c.winClosing p.window else c
    c.pktStep id

/-! ### Checks of an arriving packet (R217, R134, R227) -/

/-- The round to which a packet of an ordered window belongs. -/
def Ctl.pktRound (c : Ctl) (w h : Nat) : Nat := hSeq h / max 1 (c.wn w win_ORD_PER_RANK)

/-- A packet of this rank and sequence number is held, or its round has been applied (R134; log entry 20). -/
def Ctl.ordDup (c : Ctl) (w h : Nat) : Bool :=
  decide (c.pktRound w h < (c.win w).round) ||
    c.packets.any fun p => decide (p.window = w ∧ hRank p.header = hRank h ∧ hSeq p.header = hSeq h)

/-- Granules of a packet in quadrant q. -/
def Ctl.pktIn (c : Ctl) (w h q : Nat) : Nat :=
  ((List.range (hLen h)).filter fun k => decide ((c.place (c.pktGi w (hOffset h) k)).quad = q)).length

/-- The packet would exceed the reservation of its window in some quadrant (R134). -/
def Ctl.ordFull (c : Ctl) (w h : Nat) : Bool :=
  (List.range 4).any fun q =>
    let n := ((c.packets.filter fun p => decide (p.window = w)).map fun p => c.pktIn w p.header q).sum
    decide (c.wn w win_ORD_RESERVE < n + c.pktIn w h q)

/-- Refusal kinds 3 to 9 of a DATA header for its window, 0 for none (R217). -/
def Ctl.dataKind (c : Ctl) (port h : Nat) : Nat :=
  let w := hWindow h
  let f := c.wn w
  let ord := decide (f win_ORDERED = 1)
  let jour := decide (f win_JOURNALED = 1)
  let acc := decide (hOpn h = 1)
  if f win_STATE ≠ 1 ∨ ¬ c.linkEnabled port ∨ c.blackout then 3
  else if f win_SIZE < hOffset h + hLen h then 4
  else if hOrdered h ≠ ord ∨ hJournaled h ≠ jour ∨ (acc ∧ f win_ACC_EN = 0) ∨ (acc ∧ hMasked h) then 5
  else if (ord ∨ jour) ∧ (hRank h < f win_ORD_RANK_BASE ∨ f win_ORD_RANK_BASE + f win_ORD_RANKS ≤ hRank h) then 6
  else if ord then
    if c.ordDup w h then 7
    else if (c.win w).round + 2 ≤ c.pktRound w h then 8
    else if c.ordFull w h then 9
    else 0
  else 0

/-- MIO_REORD_STAT_q.LAST_KIND of the quadrants that a refused packet of an ordered window names (R134). The manual does not say in which quadrants the
kind is recorded: the model writes it in each that holds a target granule of the packet (DESIGN CHOICE, log entry 128). -/
def Ctl.reordKind (c : Ctl) (h kind : Nat) : Ctl :=
  let w := hWindow h
  if c.wn w win_ORDERED = 1 ∧ 6 ≤ kind ∧ kind ≤ 9 then
    forAll ((List.range 4).filter fun q => decide (c.pktIn w h q ≠ 0)) (fun q c => c.setFld (oReordStat q) reordStat_LAST_KIND (kind - 5)) c
  else c

/-- A packet of kind DATA is refused (R217): counted, and answered when it is journaled. In safe state there is no answer (R307). -/
def Ctl.refuseData (c : Ctl) (port h kind : Nat) : Ctl :=
  let c := (c.winRefuse port (hWindow h) kind).reordKind h kind
  if hJournaled h ∧ ¬ c.blackout ∧ port ≠ 16 then c.ackFor port h (if kind = 8 ∨ kind = 9 then 3 else 2) else c

/-- The payload through the link unit's check point, each granule under the code of its destination (R58, R218). -/
def Ctl.checkPayload (c : Ctl) (port w off : Nat) : Nat → List Granule → Ctl × List Granule
  | _, [] => (c, [])
  | k, g :: t =>
    let gi := c.pktGi w off k
    let rep := c.repOf gi
    let r := c.portCheck 5 3 (if port = 16 then 0x10 else port) gi rep g
    let bad := r.2.bad || r.2.pois
    let c := if bad && decide (port ≠ 16) then r.1.satAdd (oLinkStat port) linkStat_POIS 1 else r.1
    let rest := c.checkPayload port w off (k + 1) t
    (rest.1, (if r.2.bad then poisonGranule rep else r.2.word) :: rest.2)

/-! ### Acceptance -/

/-- The window counts an accepted packet. -/
def Ctl.countAccepted (c : Ctl) (w : Nat) : Ctl := c.setFld (oWin w) win_ACCEPTED (c.wn w win_ACCEPTED + 1)

/-- An accepted packet of a normal window, whose last beat came in ec `x`: its granules are presented for landing (R218). -/
def Ctl.acceptNormal (c : Ctl) (port h x : Nat) (data : List Granule) : Ctl :=
  let w := hWindow h
  let id := c.nextPkt
  let p : Accepted := { id := id, port := port, header := h, window := w, left := hLen h, phase := .landing, taken := x, data := data }
  let c : Ctl := { c with packets := c.packets ++ [p], nextPkt := id + 1 }
  forAll (List.range data.length) (fun k c =>
    let a : AReq := { id := 0, req := 24 + port, kind := .linkLand id k, gi := c.pktGi w (hOffset h) k, group := c.winOwner w }
    c.request { a with granule := data.getD k 0, mask := pktMask h k, acc := c.pktAcc w h, order := x, since := c.bc }) c

/-- An accepted packet of an ordered window, whose last beat came in ec `x`: its granules are presented for writing into the stage of their quadrants (R133). -/
def Ctl.acceptOrdered (c : Ctl) (port h x : Nat) (data : List Granule) : Ctl :=
  let w := hWindow h
  let id := c.nextPkt
  let stage := (List.range data.length).foldl (fun l k => l ++ [c.stageAlloc (c.place (c.pktGi w (hOffset h) k)).quad l]) []
  let p : Accepted := { id := id, port := port, header := h, window := w, left := hLen h, phase := .staging, taken := x, data := data }
  let c : Ctl := { c with packets := c.packets ++ [{ p with stage := stage }], nextPkt := id + 1 }
  forAll (List.range data.length) (fun k c =>
    let gi := c.pktGi w (hOffset h) k
    let a : AReq := { id := 0, req := 41 + (c.place gi).quad, kind := .stageWrite id k, gi := stage.getD k 0, group := c.winOwner w }
    c.request { a with granule := data.getD k 0, order := x, since := c.bc, dest := gi }) c

/-! ### Rounds of ordered windows (R135) -/

/-- The packets of the round being applied of window w that are held. -/
def Ctl.roundHeld (c : Ctl) (w : Nat) : List Accepted :=
  c.packets.filter fun p => decide (p.window = w ∧ p.phase = .held ∧ c.pktRound w p.header = (c.win w).round)

/-- Insert a packet in ascending (rank, sequence). -/
def insPacket (p : Accepted) : List Accepted → List Accepted
  | [] => [p]
  | q :: t => if hRank p.header < hRank q.header ∨ (hRank p.header = hRank q.header ∧ hSeq p.header < hSeq q.header) then p :: q :: t
      else q :: insPacket p t

/-- ROUND_APPLY (R135): every packet of the round is held, so its granules are read back in ascending (rank, sequence, offset). -/
def Ctl.roundApply (c : Ctl) (w : Nat) : Ctl :=
  let ps := c.roundHeld w
  if c.blackout ∨ ¬ c.active ∨ c.wn w win_STATE ≠ 1 ∨ c.wn w win_ORDERED ≠ 1 ∨ ps.length ≠ c.wn w win_ORD_RANKS * c.wn w win_ORD_PER_RANK ∨ ps = [] then c
  else (ps.foldr insPacket []).foldl (fun c p =>
    let c := c.putPacket { p with phase := .applying, left := hLen p.header }
    forAll (List.range (hLen p.header)) (fun k c =>
      let gi := c.pktGi w (hOffset p.header) k
      let a : AReq := { id := 0, req := 41 + (c.place gi).quad, kind := .stageRead p.id k, gi := p.stage.getD k 0, group := c.winOwner w, write := false }
      c.request { a with mask := pktMask p.header k, order := p.taken, since := c.bc, dest := gi }) c) c

/-! ### Slots of the link/twin class -/

/-- A granule of an entry has been written: with the last one the entry is written. -/
def Ctl.entryWritten (c : Ctl) (id : Nat) (f : Ctl → JEntry → Ctl) : Ctl :=
  match c.entry id with
  | none => c
  | some j =>
    let j : JEntry := { j with left := j.left - 1 }
    let c := c.putEntry j
    if j.left = 0 ∧ ¬ j.void then f c j else c

/-- A journal write that fails its range check: the entry is discarded, so that the sender resends it (log entry 21). -/
def Ctl.entryFails (c : Ctl) (id : Nat) : Ctl :=
  match c.entry id with
  | none => c
  | some j =>
    let w := hWindow j.header
    let rank := hRank j.header
    let t := c.track w rank
    let c := c.setTrack w rank { t with held := t.held.filter fun s => s != BitVec.ofNat 64 (hSeq j.header) }
    let c := c.withdraw fun a => match a.kind with | .journalWrite i _ => decide (i = id) | _ => false
    c.putEntry { j with void := true, confirm := none }

/-- The slot of a landing of a packet. -/
def Ctl.linkSlot (c : Ctl) (id : Nat) (r : Ctl × List BankOp × LandRes) : Ctl × List BankOp :=
  match r.2.2 with
  | .lands =>
    let c' := match c.packet id with | some p => r.1.fpUnordered p | none => r.1
    (c'.pktStep id, r.2.1)
  | .fails => (r.1.pktFail id, r.2.1)
  | _ => (r.1, r.2.1)

/-- LINK_LANDING: the slot of a request of a link port or of the reorder stage for a packet (R218, R133, R135). -/
def Ctl.linkLanding (c : Ctl) (b : Tab Granule) (id : Nat) : Ctl × List BankOp :=
  match c.reqOf id with
  | none => (c, [])
  | some a => match a.kind with
    | .linkLand p _ => if a.req = 40 then (c, []) else c.linkSlot p (c.land b a .other)
    | .stageApply p _ => c.linkSlot p (c.land b a .other)
    | .stageWrite p _ =>
      let r := c.holdSlot b a
      match r.2.2 with
      | .lands => (r.1.pktStep p, r.2.1)
      | .fails => (r.1.pktFail p, r.2.1)
      | _ => (r.1, r.2.1)
    | .stageRead p k =>
      match c.packet p with
      | none => (c, [])
      | some q =>
        let r := c.readBack b a (.stageApply p k) (c.pktAcc q.window q.header)
        (if r.2 = .fails then r.1.pktFail p else r.1, [])
    | _ => (c, [])

/-! ### The commands -/

/-- A window exists. -/
def isWin (w : Nat) : Bool := decide (w < Config.windows)

/-- OPEN of a window. -/
def execOpenWin (w : Nat) (s : State) : Out := onUnit (isWin w) s fun c => c.ctlWrite (.openWin w) 3 fun c => c.winOpen w
/-- CLOSE of a window. -/
def execCloseWin (w : Nat) (s : State) : Out := onUnit (isWin w) s fun c => c.ctlWrite (.closeWin w) 3 fun c => c.winClose w
/-- WINDOW_CLOSED. -/
def execWindowClosed (w : Nat) (s : State) : Out := onUnit (isWin w) s fun c => c.winClosed w
/-- WINDOW_WRITE. -/
def execWindowWrite (w word : Nat) (be : BitVec 2) (data : Word) (s : State) : Out :=
  onUnit (isWin w && decide (word < 4)) s fun c => c.ctlWrite (.windowWrite w word be data) be fun c => c.winWrite w word be data
/-- BAD_CMD (R214, MIO_WIN_CMD): a command that does not fit SEND, or a reserved CMD. A command that fits is another row's. -/
def execBadCmd (idx : Nat) (send : Bool) (cmd : BitVec 3) (s : State) : Out :=
  onUnit (decide (idx < 1024)) s fun c => c.ctlWrite (.badCmd idx send cmd) 3 fun c =>
    if cmd.toNat = 0 ∨ (!send ∧ (cmd.toNat = 1 ∨ cmd.toNat = 2)) ∨ (send ∧ 3 ≤ cmd.toNat ∧ cmd.toNat ≤ 5) then c else c.winResult 6
/-- LINK_LANDING. -/
def execLinkLanding (id : Nat) (s : State) : Out := onBanks true s fun b c => c.linkLanding b id
/-- ROUND_APPLY. -/
def execRoundApply (w : Nat) (s : State) : Out := onUnit (isWin w) s fun c => c.roundApply w

end Sys2Proof.Machine
end

