-- ==== Sys2Proof/Machine/Regions.lean ====
section
/-! DEFINITION. The region map, the bank-owner table and hand-over (R20 to R28). -/

namespace Sys2Proof.Machine

/-! ### Fills (R17, R23, R261) -/

/-- Fill one bank of a cluster by name, stored in `built`: write-backs are discarded, weight images are told, and an armed
injection into the bank acts on the fill (R255, R287, R321). -/
def Ctl.fillBank (c : Ctl) (q cl built b : Nat) : Ctl × List BankOp :=
  let lo := rowKey q built b 0
  let mine := fun k => decide (lo ≤ k ∧ k < lo + 4096)
  let c := ((c.cancelWb q mine).cancelScrub q built mine).wimgBankFilled q cl b
  let gi := c.fld oInjBank injBank_GI
  let p := c.place gi
  let armed := decide (c.fld oInjBank injBank_ARM = 1 ∧ p.quad = q ∧ p.cluster = cl ∧ p.bank = b) && c.boot.factory
  let i := c.inject gi (c.repOf gi) fillGranule
  let ops : List BankOp := if (c.under q).copying = some built then [.clear lo 4096, .clear (rowKey q 64 b 0) 4096] else [.clear lo 4096]
  if armed then (i.1, ops ++ c.putAt (c.keyOf p) i.2) else (c, ops)

/-- Fill the 16 banks of a cluster. -/
def Ctl.fillCluster (c : Ctl) (q cl built : Nat) : Ctl × List BankOp :=
  (List.range 16).foldl (fun r b => let x := r.1.fillBank q cl built b; (x.1, r.2 ++ x.2)) (c, [])

/-- The fill of a physical bank that is under way. -/
def Ctl.fillOf (c : Ctl) (pb : Nat) : Option BankFill := Tab.get none c.fills pb
def Ctl.setFill (c : Ctl) (pb : Nat) (f : Option BankFill) : Ctl := { c with fills := Tab.set none c.fills pb f }

/-- Fills of banks begin at row 0. -/
def Ctl.fillsBegin (c : Ctl) (pbs : List Nat) (strike : Bool) : Ctl := forAll pbs (fun pb c => c.setFill pb (some { strike := strike, since := c.bc })) c

/-- The physical banks of a region. -/
def Ctl.regionBanks (c : Ctl) (r : Nat) : List Nat :=
  (List.range 4).flatMap fun j => (List.range 16).map fun b => bankNo (c.slotCluster r j / 64) (c.slotCluster r j % 64) b

/-! ### MIO_REGION_STAT -/

/-- Record an outcome: 0 OK, 1 MISMATCH, 2 STRIKING, 3 BUSY, 4 BAD_MAP, 5 LOCKED, 6 INVALID; OP 1 region map, 2 hand-over, 3 owner table. -/
def Ctl.regionResult (c : Ctl) (op region st : Nat) (noReg : Bool) : Ctl :=
  let c := [(regionStat_REGION, region), (regionStat_NOREG, noReg.toNat), (regionStat_OP, op), (regionStat_STATUS, st)].foldl
    (fun c x => c.setFld oRegionStat x.1 x.2) c
  if st = 0 then c else c.flag oRegionStat regionStat_REFUSED

/-- MIO_CTRL.LOCK. -/
def Ctl.locked (c : Ctl) : Bool := decide (c.fld oCtrl ctrl_LOCK = 1)

/-- A cluster, by name, is fenced and has no understudy (R34, R270). -/
def Ctl.isFenced (c : Ctl) (q cl : Nat) : Bool := c.fenced.any fun k => k == q * 65 + cl

/-! ### The region map (R21 to R23) -/

/-- Fields of an entry of the region map. -/
def mapSlot (v j : Nat) : Nat := bits v (8 * j) 8
def mapLocal (v : Nat) : Bool := Nat.testBit v 32
def mapUse (v : Nat) : Nat := bits v 34 2
def mapValid (v : Nat) : Bool := Nat.testBit v 48

/-- Bits of an entry that can be written. -/
def mapMask : Word := 0x0001000FFFFFFFFF

/-- The clusters that an entry names. -/
def mapClusters (v : Nat) : List Nat := (List.range 4).map (mapSlot v)

/-- R21 for one entry. -/
def mapShape (v : Nat) : Bool :=
  decide (mapClusters v).Nodup && (List.range 4).all fun j =>
    if mapLocal v then decide (mapSlot v j / 64 = mapSlot v 0 / 64) else decide (mapSlot v j / 64 = j)

/-- The entries of the map with entry n replaced by v. -/
def Ctl.mapWith (c : Ctl) (n : Nat) (v : Nat) : List Nat := (List.range 64).map fun r => if r = n then v else (c.reg (oRegion r)).toNat

/-- A further condition of R22 on the new entry and on the whole map. -/
def Ctl.badMap (c : Ctl) (n v : Nat) : Bool :=
  let all := c.mapWith n v
  let count := fun u => (all.filter fun x => mapValid x && decide (mapUse x = u)).length
  (mapValid v && (!mapShape v
      || (mapClusters v).any (fun s => decide (Config.cpq ≤ s % 64) || c.isFenced (s / 64) (s % 64))
      || (List.range 64).any fun r => decide (r ≠ n) && mapValid (c.reg (oRegion r)).toNat &&
          (mapClusters (c.reg (oRegion r)).toNat).any (mapClusters v).contains))
    || decide (mapUse v = 3) || decide (2 < count 1) || decide (4 < count 2)
    || all.any fun x => mapValid x && decide (mapUse x = 1 ∨ mapUse x = 2) && mapLocal x

/-- A bank of some built cluster of the list has an owner, or is striking. -/
def Ctl.anyOwned (c : Ctl) (l : List Nat) : Bool :=
  l.any fun s => decide (s % 64 < Config.cpq) && (List.range 16).any fun b =>
    decide (c.owner (bankNo (s / 64) (s % 64) b) ≠ 0)

/-- Stage regions must not change while an ordered window or set uses them, nor journal regions in MIRROR (R22). -/
def Ctl.mapInUse (c : Ctl) (old v : Nat) : Bool :=
  decide (old ≠ v) &&
    ((decide (mapUse old = 1 ∨ mapUse v = 1) && ((c.liveWins.any fun w => decide (c.wn w win_ORDERED = 1)) ||
        (List.range 15).any fun k => decide ((c.oset (k + 1)).started ≠ [])))
      || (decide (mapUse old = 2 ∨ mapUse v = 2) && decide (c.twinMode = 1)))

/-- The clusters that no valid entry named before and the new entry names: with AUTO_OFF they are powered up and filled (R336). -/
def Ctl.powersUp (c : Ctl) (v : Nat) : Bool :=
  decide (c.fld oPwrOp pwrOp_AUTO_OFF = 1) && (mapClusters v).any fun s =>
    !(List.range 64).any fun r => mapValid (c.reg (oRegion r)).toNat && (mapClusters (c.reg (oRegion r)).toNat).contains s

/-- The status of a write of entry n (R22). Where several conditions fail at once the manual does not say which status is recorded: the
model takes the first in the order of the table (DESIGN CHOICE, log entry 94). -/
def Ctl.regionCode (c : Ctl) (n v : Nat) : Nat :=
  let old := (c.reg (oRegion n) &&& mapMask).toNat
  if c.locked then 5
  else if c.fld (oRegion n) region_BUSY = 1 ∨ c.mapInUse old v then 3
  else if c.anyOwned (mapClusters old ++ mapClusters v) then 1
  else if c.badMap n v then 4
  else 0

/-- A write of MIO_REGION_n (R22, R23, R374). Before sys_ready a valid entry needs no refill, as init fill follows (R261); an entry
left invalid with a new place or code waits for its refill (R23, R351). -/
def Ctl.regionWrite (c : Ctl) (n : Nat) (be : BitVec 2) (data : Word) : Ctl :=
  let reg := c.reg (oRegion n)
  let old := (reg &&& mapMask).toNat
  let v := (merge reg be data &&& mapMask).toNat
  let st := c.regionCode n v
  let c := c.regionResult 1 n st false
  let c := if c.locked then c.flag oStatus status_LOCK_WR else c
  if st ≠ 0 then c
  else
    let up := c.powersUp v
    let changed := decide (bits old 0 32 ≠ bits v 0 32) || decide (bits old 33 1 ≠ bits v 33 1)
    let pend := c.fillPend.getLsbD n
    let refill := mapValid v && (changed || (pend && !mapValid old) || up)
    let fenced := (mapClusters v).any fun s => c.isFenced (s / 64) (s % 64) || c.quadFenced (s / 64)
    let c := c.setReg (oRegion n) (BitVec.ofNat 64 v)
    let c := (c.setFld (oRegion n) region_FENCED fenced.toNat).setFld (oRegion n) region_BUSY refill.toNat
    let bit : BitVec 64 := 1#64 <<< n
    let pended : BitVec 64 := if mapValid v then c.fillPend &&& ~~~ bit else if changed then c.fillPend ||| bit else c.fillPend
    if !c.sysReady then { c.setFld (oRegion n) region_BUSY 0 with fillPend := pended }
    else if refill then ({ c with refills := c.refills ||| bit, fillPend := c.fillPend &&& ~~~ bit } : Ctl).fillsBegin (c.regionBanks n) false
    else if changed && !mapValid v then { c with fillPend := c.fillPend ||| bit }
    else c

/-- The fill of an understudy that replaces a cluster of region r is under way (R269). -/
def Ctl.fillBusy (c : Ctl) (r : Nat) : Bool :=
  (mapClusters (c.reg (oRegion r)).toNat).any fun s => (c.under (s / 64)).filling && decide ((c.under (s / 64)).map = some (s % 64))

/-- A bank still has rows to be filled. A fenced bank is filled no further (R271, R313). -/
def Ctl.fillLeft (c : Ctl) (pb : Nat) : Bool :=
  match c.fillOf pb with
  | some f => decide (f.row < 4096) && !c.quadFenced (pbQuad pb) && !c.isFenced (pbQuad pb) (pbCluster pb)
  | none => false

/-- REFILL_DONE: every row of the four clusters of a region has been written, and BUSY falls (R23, R90). -/
def Ctl.refillDone (c : Ctl) (r : Nat) : Ctl :=
  let pbs := c.regionBanks r
  if !c.refills.getLsbD r || c.blackout || !c.sysReady || pbs.any c.fillLeft then c
  else
    let c := forAll (pbs.filter fun pb => match c.fillOf pb with | some f => !f.strike | none => false) (fun pb c => c.setFill pb none) c
    let c : Ctl := { c with refills := c.refills &&& ~~~ (1#64 <<< r) }
    if c.fillBusy r then c else c.setFld (oRegion r) region_BUSY 0

/-! ### The bank-owner table (R26) -/

/-- A legal owner code: NONE or a cast group. -/
def ownerOk (o : Nat) : Bool := decide (o = 0 ∨ 0x20 ≤ o)

/-- Status of byte j of a write of MIO_BANK_OWN_k: none where nothing is asked of it. -/
def Ctl.ownByte (c : Ctl) (k : Nat) (be : BitVec 2) (data : Word) (j : Nat) : Option Nat :=
  let new := bits data.toNat (8 * j) 6
  if !be.getLsbD (j / 4) || decide (new = c.owner (8 * k + j)) then none
  else if c.striking (8 * k + j) then some 2
  else if ownerOk new then some 0
  else some 4

/-- A write of MIO_BANK_OWN_k (R26): registers above the built banks ignore it. -/
def Ctl.bankOwnWrite (c : Ctl) (k : Nat) (be : BitVec 2) (data : Word) : Ctl :=
  if Config.banks ≤ 8 * k then c
  else
    let js := List.range 8
    let bad := js.find? fun j => match c.ownByte k be data j with | some s => decide (s ≠ 0) | none => false
    let take := js.filter fun j => decide (c.ownByte k be data j = some 0)
    let c' := forAll take (fun j c => c.setOwner (8 * k + j) (bits data.toNat (8 * j) 6)) c
    match bad with
    | none => c'.regionResult 3 0 0 false
    | some j =>
      let pb := 8 * k + j
      let st := (c.ownByte k be data j).getD 0
      match c.regionOf (pb / (16 * Config.cpq)) (pb % (16 * Config.cpq) / 16) with
      | some r => c'.regionResult 3 r.1 st false
      | none => c'.regionResult 3 0 st true

/-! ### Hand-over (R27, R28) -/

/-- The status of a hand-over checked in the present cc. -/
def Ctl.handoverCode (c : Ctl) (r frm to_ : Nat) : Nat :=
  let f := c.fld (oRegion r)
  if f region_VALID = 0 ∨ f region_FENCED = 1 ∨ f region_BUSY = 1 ∨ ¬ ownerOk frm ∨ ¬ ownerOk to_ then 6
  else if (c.regionBanks r).any c.striking ∨ c.killCc = some c.cc then 2
  else if (c.regionBanks r).any fun b => decide (c.owner b ≠ frm) then 1
  else 0

/-- A write of MIO_HANDOVER: if the checks pass, the banks change owner at the start of the next cc. -/
def Ctl.handoverWrite (c : Ctl) (be : BitVec 2) (data : Word) : Ctl :=
  if !be.getLsbD 0 then c
  else
    let v := data.toNat
    let r := bits v 0 6
    let st := c.handoverCode r (bits v 8 6) (bits v 16 6)
    let c := c.regionResult 2 r st false
    let c : Ctl := if st = 6 then c else { c with handCc := some c.cc }
    if st = 0 then { c with handing := c.handing ++ [(r, bits v 16 6, c.cc)] } else c

/-- A checked hand-over takes effect at the start of the cc after its check (R27, R28). Where a write has changed the SLOT fields of the region
in between, the manual does not say which 64 banks change owner: the model takes those that the entry then names (DESIGN CHOICE, log
entry 126). -/
def Ctl.handoverEnd (c : Ctl) : Ctl :=
  let due := c.handing.filter fun h => decide (h.2.2 < c.cc)
  due.foldl (fun c h => forAll (c.regionBanks h.1) (fun b c => c.setOwner b h.2.1) c)
    { c with handing := c.handing.filter fun h => decide (c.cc ≤ h.2.2) }

/-- A kill applied in the cc of a hand-over check wins (R27): a hand-over that got as far as check 2 is refused there, also one that
had failed check 3. -/
def Ctl.killsHandover (c : Ctl) : Ctl :=
  let c : Ctl := { c with killCc := some c.cc }
  if c.handCc ≠ some c.cc then c
  else
    let c : Ctl := { c.flag oRegionStat regionStat_REFUSED with handing := c.handing.filter fun h => decide (h.2.2 < c.cc) }
    if c.fld oRegionStat regionStat_OP = 2 ∧ c.fld oRegionStat regionStat_STATUS < 2 then
      c.regionResult 2 (c.fld oRegionStat regionStat_REGION) 2 false
    else c

/-! ### The commands -/

/-- REGION_WRITE. -/
def execRegionWrite (n : Nat) (be : BitVec 2) (data : Word) (s : State) : Out :=
  onUnit (decide (n < Config.regions)) s fun c => c.ctlWrite (.regionWrite n be data) be fun c => c.regionWrite n be data
/-- REFILL_DONE. -/
def execRefillDone (r : Nat) (s : State) : Out := onUnit (decide (r < Config.regions)) s fun c => c.refillDone r
/-- BANK_OWN_WRITE. -/
def execBankOwnWrite (k : Nat) (be : BitVec 2) (data : Word) (s : State) : Out :=
  onUnit (decide (k < 512)) s fun c => c.ctlWrite (.bankOwnWrite k be data) be fun c => c.bankOwnWrite k be data
/-- HANDOVER. -/
def execHandover (be : BitVec 2) (data : Word) (s : State) : Out := onUnit true s fun c => c.ctlWrite (.handover be data) be fun c => c.handoverWrite be data

end Sys2Proof.Machine
end

