-- ==== Sys2Proof/Machine/Repair.lean ====
section
/-! DEFINITION. Correction write-back, the scrubber, march tests, understudies and fences (R254, R255, R259 to R273, R34). -/

namespace Sys2Proof.Machine

/-- A cluster of the block as built: 0 to CPQ - 1. -/
def isCluster (cl : Nat) : Bool := decide (cl < Config.cpq)

/-! ### What the service requesters ask for (R235, R254, R259, R260, R286) -/

/-- Scrub periods passed. -/
def Ctl.scrubPeriod (c : Ctl) : Nat := c.bc / 256 / 2 ^ c.fld oScrubCfg scrubCfg_DIV

/-- The scrubber's position in a cluster by name. -/
def Ctl.scrub (c : Ctl) (q cl : Nat) : Scrub := Tab.get {} c.scrubs (q * 65 + c.built q cl)
def Ctl.setScrub (c : Ctl) (q cl : Nat) (s : Scrub) : Ctl := { c with scrubs := Tab.set {} c.scrubs (q * 65 + c.built q cl) s }

/-- The clusters of a quadrant that the scrubber covers. -/
def Ctl.scrubbed (c : Ctl) (q : Nat) : List Nat := (List.range Config.cpq).filter fun cl => !c.isFenced q cl

/-- The oldest write-back queued for a bank (R254). -/
def Ctl.wbOldest (c : Ctl) (q cl b : Nat) : Option WbEntry :=
  let lo := rowKey q (c.built q cl) b 0
  (Tab.get [] c.wbq q).find? fun e => decide (lo ≤ e.bank ∧ e.bank < lo + 4096)

/-- The row that the scrubber asks for at a bank: of a MIGRATE copy, of a write-back due, or of its read. -/
def Ctl.scrubRow (c : Ctl) (q cl b : Nat) : Option Nat :=
  let s := c.scrub q cl
  let u := c.under q
  if c.isFenced q cl then none
  else match s.writes.find? fun w => decide (w.1 = b) with
    | some w => if w.2.2.1 ≤ c.bc then some w.2.1 else none
    | none =>
      if u.copying = some cl then (if u.copied.getLsbD b ∨ u.switchAt.isSome then none else some u.copyRow)
      else if c.fld oScrubCfg scrubCfg_EN = 0 ∨ s.read.getLsbD b ∨ (s.read = 0 ∧ s.period = some c.scrubPeriod) then none
      else some s.row

/-- The granule that the debug read path of a quadrant reads next: the lowest of a bank image in HASHING that lies in it (R286). Image, place
in the image, granule index. -/
def Ctl.debugNext (c : Ctl) (q : Nat) : Option (Nat × Nat × Nat) :=
  c.audit.hashes.findSome? fun e => match e.2 with
    | none => none
    | some h =>
      let base := c.fld (oWimg e.1) wimg_ADDR
      if h.failed ∨ c.fld (oWimg e.1) wimg_KIND ≠ 0 then none
      else ((List.range (c.fld (oWimg e.1) wimg_LEN)).find? fun n => decide ((c.place (base + n)).quad = q) && !(h.got.any fun g => decide (g.1 = n))).map
        fun n => (e.1, n, base + n)

/-- The bc from which the scrubber's request at a bank is presented: of a write-back due, of a copy row, or of the row to read. -/
def Ctl.scrubSince (c : Ctl) (q cl b : Nat) : Nat :=
  let s := c.scrub q cl
  match s.writes.find? fun w => decide (w.1 = b) with
  | some w => w.2.2.1
  | none =>
    if (c.under q).copying = some cl then (c.under q).copySince
    else if s.read = 0 then max s.since (256 * 2 ^ c.fld oScrubCfg scrubCfg_DIV * c.scrubPeriod)
    else s.since

/-- The first number of a list with the least time. -/
def oldestIn (age : Nat → Nat) (l : List Nat) : Option Nat :=
  match (l.map age).min? with
  | none => none
  | some t => l.find? fun k => decide (age k = t)

/-- The bank, cluster * 16 + bank, of the oldest request of a service requester in a quadrant (R242). Among requests that it has presented
from one bc on the manual names none as the oldest: the model takes the lowest bank (DESIGN CHOICE, log entry 106). -/
def Ctl.serviceHead (c : Ctl) (q r : Nat) : Option Nat :=
  if r = 45 + 4 * q then
    oldestIn (fun k => c.scrubSince q (k / 16) (k % 16))
      (((c.scrubbed q).flatMap fun cl => (List.range 16).map fun b => cl * 16 + b).filter fun k => (c.scrubRow q (k / 16) (k % 16)).isSome)
  else if r = 46 + 4 * q then
    (oldestIn (fun pb => ((c.fillOf pb).map fun f => f.since).getD 0) ((c.fills.map fun e => e.1).filter fun pb => decide (pbQuad pb = q) && c.fillLeft pb)).map
      fun pb => pb % (16 * Config.cpq)
  else if r = 47 + 4 * q then (Tab.get [] c.wbq q).head?.map fun e =>
    let k := e.bank / 4096 % (65 * 16)
    (if k / 16 = 64 then ((c.under q).map.getD 0) * 16 + k % 16 else k)
  else (c.debugNext q).map fun x => (c.place x.2.2).cluster * 16 + (c.place x.2.2).bank

/-- A partial merge holds the granule between its two slots: every other access to it waits (R62). -/
def Ctl.mergeHolds (c : Ctl) (gi : Nat) : Bool := c.areqs.any fun a => decide (a.gi = gi) && a.base.isSome && a.second.isSome

/-- The request of a service requester at a bank. -/
def Ctl.serviceReq (c : Ctl) (q r k gi : Nat) : AReq :=
  { id := 2 ^ 64 + r, req := r, kind := .service, gi := gi, group := 0, write := false, first := decide (c.serviceHead q r = some k) }

/-- The service requests presented at a bank in the present bc; `scrub`: the scrubber's among them. A striking bank takes no request but
the strike's (R314, R316). -/
def Ctl.serviceReqs (c : Ctl) (q cl b : Nat) (scrub : Bool) : List AReq :=
  let pb := bankNo q cl b
  let k := cl * 16 + b
  let ask := fun (r : Nat) (gi : Option Nat) => match gi with
    | some gi => if c.striking pb ∨ c.mergeHolds gi then [] else [c.serviceReq q r k gi]
    | none => []
  let dbg := match c.debugNext q with | some x => if (c.place x.2.2).pbank = pb then some x.2.2 else none | none => none
  (if scrub then ask (45 + 4 * q) ((c.scrubRow q cl b).map fun row => c.giOf q cl b row) else [])
    ++ (match c.fillOf pb with
      | some f =>
        let gi := c.giOf q cl b f.row
        if c.fillLeft pb ∧ ¬ c.mergeHolds gi then [c.serviceReq q (46 + 4 * q) k gi] else []
      | none => [])
    ++ ask (47 + 4 * q) ((c.wbOldest q cl b).map fun e => e.gi)
    ++ ask (48 + 4 * q) dbg

/-! ### Service slots (R236, R237, R240) -/

/-- A service slot at the banks of a cluster. -/
def Ctl.serviceSlot (c : Ctl) (q cl : Nat) : Bool :=
  c.sysReady && !c.blackout && decide (c.classAt q cl c.bc = 3) && !c.marching q (c.built q cl) && !c.quadFenced q

/-- The requesters that an emergency request sets aside: the holder of the bank, whose grant resumes, and a forced one, which keeps its count (R240). -/
def Ctl.setAside (c : Ctl) (q pb : Nat) (rs : List AReq) (win : AReq) : List Nat :=
  let others := rs.filter fun a => decide (a.req ≠ win.req)
  ((c.holderWin q pb 3 others).map fun a => a.req).toList ++ ((c.forcedWin q others).map fun a => a.req).toList

/-- The winner of a service slot among the requests presented, and its step: the emergency requester first (R237, R240). -/
def Ctl.serviceWin (c : Ctl) (q pb : Nat) (rs : List AReq) : Option (AReq × Nat) :=
  match rs.find? fun a => decide (a.req = 47 + 4 * q) with
  | some a => some (a, 2)
  | none => match (if c.fld oArbCfg arbCfg_DEBUG_EMERG = 1 then rs.find? fun a => decide (a.req = 48 + 4 * q) else none) with
    | some a => some (a, 2)
    | none => c.choose q pb 3 rs

/-- Requester r tries for the service slot of a bank in the present bc: the state after the account of the slot, and whether r has it. A loss
is counted, also to one that has used the bank in this bc; the slot itself is accounted for by the access of its winner. -/
def Ctl.serviceTry (c : Ctl) (q cl b r : Nat) : Ctl × Bool :=
  let pb := bankNo q cl b
  let rs := c.serviceReqs q cl b (decide (r = 45 + 4 * q))
  if !c.serviceSlot q cl || !rs.any (fun a => decide (a.req = r)) then (c, false)
  else if c.bankUsed pb then (c.waitLosers q (rs.filter fun a => decide (a.req = r)) none, false)
  else match c.serviceWin q pb rs with
    | none => (c, false)
    | some w =>
      let aside := if w.2 = 2 then c.setAside q pb rs w.1 else []
      let rs' := rs.filter fun a => !aside.contains a.req
      if w.1.req = r then (c.account q pb 3 rs' { win := some w }, true)
      else (c.waitLosers q (rs'.filter fun a => decide (a.req = r)) none, false)

/-- CORRECTION_WRITEBACK: the oldest entry of a bank, cluster * 16 + bank, is written in a service slot (R254). -/
def Ctl.correction (c : Ctl) (q bank : Nat) : Ctl × List BankOp :=
  let cl := bank / 16
  let b := bank % 16
  match c.wbOldest q cl b with
  | none => (c, [])
  | some e =>
    let t := c.serviceTry q cl b (47 + 4 * q)
    if !t.2 then (t.1, [])
    else
      let c : Ctl := { t.1 with wbq := Tab.set [] t.1.wbq q ((Tab.get [] t.1.wbq q).filter fun x => decide (x ≠ e)) }
      let i := c.inject e.gi (c.repOf e.gi) e.granule
      (i.1, i.1.putAt e.bank i.2)

/-! ### Fills by rows (R23, R90, R91, R316) -/

/-- One row of a bank takes the fill granule: write-backs of it are discarded, weight images are told, and an armed injection acts (R255, R287, R321). -/
def Ctl.fillRow (c : Ctl) (pb : Nat) (f : BankFill) : Ctl × List BankOp :=
  let q := pbQuad pb
  let cl := pbCluster pb
  let built := c.built q cl
  let key := rowKey q built (pb % 16) f.row
  let gi := c.giOf q cl (pb % 16) f.row
  let c := ((c.cancelWb q fun k => k == key).cancelScrub q built fun k => k == key).wimgTouch gi false
  let i := c.inject gi (c.repOf gi) fillGranule
  ((i.1.setFill pb (some { f with row := f.row + 1, lastBc := c.bc, since := c.bc + 1 })).useBank pb, i.1.putAt key i.2)

/-- The fill of a bank in the present bc: a wholly striking cluster is written at one row per bc, any other in the service slots that the fill
requester wins. -/
def Ctl.fillStep (c : Ctl) (pb : Nat) : Ctl × List BankOp :=
  match c.fillOf pb with
  | none => (c, [])
  | some f =>
    let q := pbQuad pb
    let cl := pbCluster pb
    if !c.fillLeft pb || c.blackout || !c.sysReady then (c, [])
    else if f.strike && c.strikeTakes q cl then c.fillRow pb f
    else
      let t := c.serviceTry q cl (pb % 16) (46 + 4 * q)
      if t.2 then t.1.fillRow pb f else (t.1, [])

/-- The fills of the present bc. -/
def Ctl.fillsStep (c : Ctl) : Ctl × List BankOp :=
  (c.fills.map fun e => e.1).foldl (fun x pb => let y := x.1.fillStep pb; (y.1, x.2 ++ y.2)) (c, [])

/-- The read of the debug path of a quadrant in the present bc (R286): a granule of an image goes to its hash, and one at fault ends it. -/
def Ctl.debugStep (b : Tab Granule) (q : Nat) (c : Ctl) : Ctl :=
  match c.debugNext q with
  | none => c
  | some (k, n, gi) =>
    let p := c.place gi
    let t := c.serviceTry q p.cluster p.bank (48 + 4 * q)
    if !t.2 then t.1
    else
      let r := t.1.bankRead b 0 (0x80 + 48 + 4 * q) gi c.bc
      let h := (Tab.get none r.1.audit.hashes k).getD {}
      r.1.setHash k (some { h with got := Tab.put r.2.word n h.got, failed := h.failed || r.2.bad || r.2.pois })

/-- SS_CORRECTION_REWRITE: a corrected script-store granule is written back, in a cc in which no load writes the half (MIO_ECC_WB_q). -/
def Ctl.storeRewrite (c : Ctl) (h g : Nat) : Ctl :=
  let k := h * 32768 + g
  if k ∉ c.storeFix ∨ c.loading (decide (h = 1)) ∨ ¬ c.sysReady then c
  else
    let d := decodeG false (Tab.get fillGranule c.store k)
    { c with store := Tab.set fillGranule c.store k d.word, storeFix := c.storeFix.filter fun i => decide (i ≠ k), storeSeen := c.storeSeen.filter fun i => decide (i ≠ k) }

/-! ### The scrubber (R259, R260) -/

/-- A service read of a row through the correction stage, on PATH 1 scrub or 6 understudy copy: counted and logged. -/
def Ctl.serviceRead (c : Ctl) (b : Tab Granule) (path q cl bank row : Nat) : Ctl × Decoded := c.rowDecode b path (0x80 + 45 + 4 * q) q cl bank row

/-- Laps completed by the slowest covered cluster of some quadrants. -/
def Ctl.slowestLap (c : Ctl) (qs : List Nat) : Nat :=
  let l := qs.flatMap fun q => (c.scrubbed q).map fun cl => (c.scrub q cl).laps
  match l with | [] => 0 | x :: t => t.foldl min x

/-- All 16 banks of the row have been read: the position moves on, and at row 0 a lap ends. -/
def Ctl.scrubNext (c : Ctl) (q cl : Nat) (s : Scrub) : Ctl :=
  if s.row < 4095 then c.setScrub q cl { s with row := s.row + 1, read := 0, since := c.bc + 1 }
  else
    let before := c.slowestLap [q]
    let len := c.bc / 256 - s.start
    let c := c.setScrub q cl { s with row := 0, read := 0, since := c.bc + 1, laps := s.laps + 1, start := c.bc / 256 }
    let c := c.setFld oScrubLap scrubLap_LAST (max (c.fld oScrubLap scrubLap_LAST) (min len 0xFFFFFF))
    let c := c.setFld oScrubLap scrubLap_LAPS (c.slowestLap (List.range 4))
    if before < c.slowestLap [q] then { c with lapCorr := Tab.set 0 c.lapCorr q 0, lapTold := c.lapTold.filter fun i => decide (i ≠ q) } else c

/-- A scrub read of the present row in one bank. -/
def Ctl.scrubStep (c : Ctl) (b : Tab Granule) (q cl bank : Nat) : Ctl :=
  let s := c.scrub q cl
  let fresh := decide (s.read = 0)
  let r := c.serviceRead b 1 q cl bank s.row
  let c := r.1
  let due := r.2.bad || decide (r.2.fixed ≠ 0)
  let s : Scrub := { s with read := s.read ||| (1#16 <<< bank), period := if fresh then some c.scrubPeriod else s.period }
  let s : Scrub := if due then { s with writes := Tab.put (s.row, c.bc + 8, r.2.word) bank s.writes } else s
  if s.read = 0xFFFF then c.scrubNext q cl s else c.setScrub q cl s

/-- A copy read of a MIGRATE in one bank of the present row: the corrected row goes to the understudy in the same bc (R269). -/
def Ctl.copyStep (c : Ctl) (b : Tab Granule) (q cl bank : Nat) : Ctl × List BankOp :=
  let u := c.under q
  let r := c.serviceRead b 6 q cl bank u.copyRow
  let key := rowKey q cl bank u.copyRow
  let c := if r.2.bad ∨ r.2.fixed ≠ 0 then r.1.queueWb q key (c.giOf q cl bank u.copyRow) r.2.word c.bc else r.1
  let u : Understudy := { u with copied := u.copied ||| (1#16 <<< bank) }
  let u : Understudy := if u.copied = 0xFFFF then { u with copied := 0, copyRow := u.copyRow + 1, copySince := c.bc + 1 } else u
  let u : Understudy := if u.copyRow = 4096 then { u with switchAt := some (c.bc / 256 + 1) } else u
  let c := (c.setUnder q u).setFld (oUsStat q) usStat_ROW (min u.copyRow 4095)
  (c, [.put (rowKey q 64 bank (key % 4096)) r.2.word])

/-- SCRUB_READ: where the scrubber wins a service slot at a bank it copies for a MIGRATE of the cluster, or scrubs. -/
def Ctl.scrubRead (c : Ctl) (b : Tab Granule) (q cl bank : Nat) : Ctl × List BankOp :=
  if (c.scrub q cl).writes.any fun w => decide (w.1 = bank) then (c, [])
  else
    let t := c.serviceTry q cl bank (45 + 4 * q)
    if !t.2 then (t.1, [])
    else if (c.under q).copying = some cl then t.1.copyStep b q cl bank
    else (t.1.scrubStep b q cl bank, [])

/-- SCRUB_WRITEBACK: the scrubber writes what its read corrected in the next slot that it wins (R260), once the correction stage has passed
the granule on, 8 bc after the read (R254). An entry of the correction queue for the
granule takes its place: then the scrubber writes nothing. -/
def Ctl.scrubWrite (c : Ctl) (q cl bank : Nat) : Ctl × List BankOp :=
  let s := c.scrub q cl
  match s.writes.find? fun w => decide (w.1 = bank) with
  | none => (c, [])
  | some w =>
    let key := rowKey q (c.built q cl) bank w.2.1
    let left := c.setScrub q cl { s with writes := Tab.drop bank s.writes }
    if c.bc < w.2.2.1 then (c, [])
    else if (Tab.get [] c.wbq q).any fun e => decide (e.bank = key) then (left, [])
    else
      let t := c.serviceTry q cl bank (45 + 4 * q)
      if !t.2 then (t.1, [])
      else
        let c := t.1.setScrub q cl { s with writes := Tab.drop bank s.writes }
        let gi := c.giOf q cl bank w.2.1
        let i := c.inject gi (c.repOf gi) w.2.2.2
        (i.1, i.1.putAt key i.2)

/-! ### Fences and substitution (R34, R269 to R271) -/

/-- A substitution is in progress in a quadrant. -/
def Understudy.busy (u : Understudy) : Bool := u.copying.isSome || u.filling

/-- RESULT of MIO_US_STAT_q: 0 OK, 1 BUSY, 2 NO_UNDERSTUDY, 3 FENCED, 4 ABORTED. -/
def Ctl.usResult (c : Ctl) (q r : Nat) : Ctl :=
  let c := c.setFld (oUsStat q) usStat_RESULT r
  if r = 0 ∨ r = 4 then c else c.flag (oUsStat q) usStat_REFUSED

/-- The repair record is to be rewritten (R272). -/
def Ctl.repairNote (c : Ctl) : Ctl := { c with boot := { c.boot with repairNew := true } }

/-- Discard the write-backs of a cluster as built. -/
def Ctl.dropWb (c : Ctl) (q built : Nat) : Ctl :=
  let lo := rowKey q built 0 0
  let mine := fun k => decide (lo ≤ k ∧ k < lo + 65536)
  (c.cancelWb q mine).cancelScrub q built mine

/-- A cluster, by name, is fenced (R34, R271): its regions are FENCED, and a MIGRATE of it stops. -/
def Ctl.fenceCluster (c : Ctl) (q cl : Nat) : Ctl :=
  if c.isFenced q cl then c
  else
    let c : Ctl := { c with fenced := (q * 65 + cl) :: c.fenced }
    let c := c.dropWb q (c.built q cl)
    let c := forAll (List.range 64) (fun r c =>
      if (mapClusters (c.reg (oRegion r)).toNat).contains (q * 64 + cl) then c.setFld (oRegion r) region_FENCED 1 else c) c
    let u := c.under q
    let c := if u.copying = some cl then
        let c := c.setUnder q { u with copying := none, copyRow := 0, copied := 0, switchAt := none }
        ((c.setFld (oUsStat q) usStat_STATE 0).setFld (oUsStat q) usStat_ROW 0).usResult q 4
      else c
    c.repairNote

/-- The result of MIGRATE or REPLACE (R270). An understudy under march test counts as unavailable, and a cluster that was not
built as fenced (log entry 26). -/
def Ctl.usCode (c : Ctl) (q cl : Nat) : Nat :=
  let u := c.under q
  if u.busy then 1
  else if u.map.isSome ∨ u.unavail ∨ c.marching q 64 then 2
  else if c.isFenced q cl ∨ ¬ isCluster cl ∨ c.marching q cl then 3
  else 0

/-- MIGRATE (R269). -/
def Ctl.migrateCmd (c : Ctl) (q cl : Nat) : Ctl :=
  let r := c.usCode q cl
  let c := c.usResult q r
  if r ≠ 0 then c
  else
    let c := c.setUnder q { copying := some cl, how := 2, copySince := c.bc }
    [(usStat_STATE, 1), (usStat_CLUSTER, cl), (usStat_ROW, 0), (usStat_LOST, 0)].foldl (fun c x => c.setFld (oUsStat q) x.1 x.2) c

/-- MIGRATE_SWITCH (R269): at the first bc of the frame after the last row. Queued write-backs carry over. -/
def Ctl.migrateSwitch (c : Ctl) (q : Nat) : Ctl :=
  let u := c.under q
  match u.copying, u.switchAt with
  | some cl, some f =>
    if c.bc / 256 < f ∨ c.blackout ∨ ¬ c.sysReady then c
    else
      let move := fun (e : WbEntry) => if e.bank / 65536 = q * 65 + cl then { e with bank := rowKey q 64 0 0 + e.bank % 65536 } else e
      let c : Ctl := { c with wbq := Tab.set [] c.wbq q ((Tab.get [] c.wbq q).map move), wbNew := Tab.set [] c.wbNew q ((Tab.get [] c.wbNew q).map move) }
      let c : Ctl := { c with scrubs := Tab.set {} c.scrubs (q * 65 + 64) (Tab.get {} c.scrubs (q * 65 + cl)) }
      let c := c.setUnder q { u with map := some cl, copying := none, switchAt := none, copyRow := 0 }
      ((c.setFld (oUsStat q) usStat_STATE 2).setFld (oUsStat q) usStat_ROW 0).repairNote
  | _, _ => c

/-- REPLACE begins (R269): the regions of the cluster are BUSY, and the understudy is filled from the next frame on. -/
def Ctl.replaceBegin (c : Ctl) (q cl how : Nat) : Ctl :=
  let f := c.bc / 256 + 1
  let c := c.setUnder q { map := none, filling := true, switchAt := some f, fillFrom := 256 * f, how := how, copying := none, lost := true, copyRow := cl }
  let c := forAll (List.range 64) (fun r c =>
    if (mapClusters (c.reg (oRegion r)).toNat).contains (q * 64 + cl) then c.setFld (oRegion r) region_BUSY 1 else c) c
  [(usStat_STATE, 1), (usStat_CLUSTER, cl), (usStat_ROW, 0), (usStat_LOST, 1)].foldl (fun c x => c.setFld (oUsStat q) x.1 x.2) c

/-- REPLACE (R269, R270). -/
def Ctl.replaceCmd (c : Ctl) (q cl : Nat) : Ctl :=
  let r := c.usCode q cl
  let c := c.usResult q r
  if r ≠ 0 then c else c.replaceBegin q cl 3

/-- The switch of a REPLACE, at the first bc of its frame. While a REPLACE runs, `copyRow` holds the cluster. The scrubber begins the
understudy at row 0 in that frame, and counts it with the laps of the cluster that it replaces (DESIGN CHOICE, log entry 125). -/
def Ctl.replaceSwitch (c : Ctl) (q : Nat) : Ctl :=
  let u := c.under q
  match u.switchAt with
  | some f =>
    if u.filling ∧ f ≤ c.bc / 256 then
      let s : Scrub := { start := c.bc / 256, laps := (c.scrub q u.copyRow).laps, since := c.bc }
      let c := (c.dropWb q u.copyRow).setUnder q { u with map := some u.copyRow, switchAt := none, copyRow := 0 }
      { c with scrubs := Tab.set {} c.scrubs (q * 65 + 64) s }
    else c
  | none => c

/-- US_FILL_DONE (R269): 4,096 bc after the switch the understudy holds the fill granule, and BUSY clears. -/
def Ctl.usFillDone (c : Ctl) (q : Nat) : Ctl × List BankOp :=
  let c := c.replaceSwitch q
  let u := c.under q
  match u.map with
  | some cl =>
    if !u.filling || decide (c.bc < u.fillFrom + 4096) || c.blackout || !c.sysReady then (c, [])
    else
      let x := c.fillCluster q cl 64
      let c := x.1.setUnder q { u with filling := false }
      let c := forAll (List.range 64) (fun r c =>
        if (mapClusters (c.reg (oRegion r)).toNat).contains (q * 64 + cl) ∧ ¬ c.refills.getLsbD r ∧ ¬ c.fillBusy r then c.setFld (oRegion r) region_BUSY 0 else c) c
      ((c.setFld (oUsStat q) usStat_STATE 2).repairNote, x.2)
  | none => (c, [])

/-- A failed cluster (R267, R270, R271): the free understudy replaces it, and without one it is fenced. -/
def Ctl.repairCluster (c : Ctl) (q cl how : Nat) : Ctl :=
  if c.usCode q cl = 0 then c.replaceBegin q cl how
  else if c.isFenced q cl then c
  else c.fenceCluster q cl

/-! ### March tests (R266, R267) -/

/-- The result of MIO_MARCH_CMD: 2 BUSY, 3 FENCED, 4 OWNED, 5 MODE, 0 accepted. The understudy in use or being given a cluster,
and a cluster that it carries or that was not built, count as FENCED (log entry 26). -/
def Ctl.marchCode (c : Ctl) (q cl : Nat) (us alg transp : Bool) : Nat :=
  let u := c.under q
  if c.marches.any fun m => decide (m.1 = q) then 2
  else if us && (u.map.isSome || u.busy || c.isFenced q 64) then 3
  else if !us && (c.isFenced q cl || !isCluster cl || decide (u.map = some cl)) then 3
  else if !us && (List.range 16).any fun b => decide (c.owner (bankNo q cl b) ≠ 0) || c.striking (bankNo q cl b) then 4
  else if transp && alg then 5
  else 0

/-- MARCH_CMD. -/
def Ctl.marchStart (c : Ctl) (q cl : Nat) (us alg transp : Bool) : Ctl :=
  let r := c.marchCode q cl us alg transp
  if r ≠ 0 then c.setFld (oMarchStat q) marchStat_RESULT r
  else
    let c : Ctl := { c with marches := Tab.put { us := us, cluster := cl, alg := alg, transp := transp, startBc := c.bc } q c.marches }
    [(marchStat_STATE, 1), (marchStat_RESULT, 0), (marchStat_US, us.toNat), (marchStat_CLUSTER, cl), (marchStat_FAIL_BANKS, 0), (marchStat_FIRST_ROW, 0),
      (marchStat_FIRST_ELEM, 0)].foldl (fun c x => c.setFld (oMarchStat q) x.1 x.2) c

/-- What a march test writes: a destructive one is followed by a fill, a transparent one leaves the contents; both are writes (R255, R287). -/
def Ctl.marchWrites (c : Ctl) (q : Nat) (m : March) : Ctl × List BankOp :=
  if m.us then (c, if m.transp then [] else [.clear (rowKey q 64 0 0) 65536])
  else
    let x := c.fillCluster q m.cluster m.cluster
    (x.1, if m.transp then [] else x.2)

/-- The outcome of a test with the reads that gave another value (R264, R265): failed, FAIL_BANKS, FIRST_ROW, FIRST_ELEM. -/
def Ctl.marchVerdict (b : Tab Granule) (q : Nat) (m : March) (l : List MarchRead) : Bool × Nat × Nat × Nat :=
  let cl := if m.us then 64 else m.cluster
  if m.transp then
    let fail := transpFails (fun bank row => rowAt b (rowKey q cl bank row)) l
    (fail, if fail then 0xFFFF else 0, 0, 0)
  else
    let bad := l.filter m.wrong
    let first := m.earliest bad
    (!bad.isEmpty, ((bad.map fun d => d.bank).eraseDups.map fun i => 2 ^ i).sum, (first.map fun d => d.row).getD 0, (first.map fun d => d.elem).getD 0)

/-- MARCH_DONE (R264 to R267): the test has run its course. FIRST_ELEM of a failed transparent test is a free value: the table gives it none. -/
def Ctl.marchEnd (c : Ctl) (b : Tab Granule) (q : Nat) (l : List MarchRead) : Ctl × List BankOp :=
  match c.marches.find? fun m => decide (m.1 = q) with
  | none => (c, [])
  | some (_, m) =>
    if c.blackout ∨ ¬ c.sysReady ∨ c.bc < m.startBc + m.time then (c, [])
    else
      let v := Ctl.marchVerdict b q m l
      let fail := v.1
      let x := c.marchWrites q m
      let c : Ctl := { x.1 with marches := Tab.drop q x.1.marches }
      let f := if m.transp && fail then c.draw else (0, c)
      let c := [(marchStat_STATE, 2), (marchStat_RESULT, fail.toNat), (marchStat_FAIL_BANKS, v.2.1), (marchStat_FIRST_ROW, v.2.2.1),
        (marchStat_FIRST_ELEM, if m.transp && fail then f.1.toNat % 8 else v.2.2.2)].foldl (fun c y => c.setFld (oMarchStat q) y.1 y.2) f.2
      let c := c.repairNote
      let c := if m.us then (if fail then (c.setUnder q { c.under q with unavail := true }).setFld (oUsStat q) usStat_STATE 3 else c)
        else
          let k := q * 65 + m.cluster
          let rest := c.boot.marchFail.filter fun i => decide (i ≠ k)
          let c : Ctl := { c with boot := { c.boot with marchFail := if fail then k :: rest else rest } }
          if fail then c.repairCluster q m.cluster 3 else c
      (c, x.2)

/-! ### The commands -/

/-- CORRECTION_WRITEBACK. -/
def execCorrectionWriteback (q bank : Nat) (s : State) : Out :=
  onBanks (decide (q < 4 ∧ bank < 16 * Config.cpq)) s fun _ c => c.correction q bank
/-- SS_CORRECTION_REWRITE. -/
def execSsCorrectionRewrite (h g : Nat) (s : State) : Out := onUnit (decide (h < 2 ∧ g < 32768)) s fun c => c.storeRewrite h g
/-- SCRUB_READ. -/
def execScrubRead (q cluster bank : Nat) (s : State) : Out :=
  onBanks (decide (q < 4 ∧ bank < 16) && isCluster cluster) s fun b c => c.scrubRead b q cluster bank
/-- SCRUB_WRITEBACK. -/
def execScrubWriteback (q cluster bank : Nat) (s : State) : Out :=
  onBanks (decide (q < 4 ∧ bank < 16) && isCluster cluster) s fun _ c => c.scrubWrite q cluster bank
/-- MARCH_CMD. -/
def execMarchCmd (q cluster : Nat) (us alg transp : Bool) (s : State) : Out :=
  onUnit (decide (q < 4 ∧ cluster < 64)) s fun c => c.ctlWrite (.marchCmd q cluster us alg transp) 3 fun c => c.marchStart q cluster us alg transp
/-- MARCH_DONE. -/
def execMarchDone (q : Nat) (reads : List MarchRead) (s : State) : Out := onBanks (decide (q < 4)) s fun b c => c.marchEnd b q reads
/-- MIGRATE. -/
def execMigrate (q cluster : Nat) (s : State) : Out := onUnit (decide (q < 4 ∧ cluster < 64)) s fun c => c.ctlWrite (.migrate q cluster) 3 fun c => c.migrateCmd q cluster
/-- MIGRATE_SWITCH. -/
def execMigrateSwitch (q : Nat) (s : State) : Out := onUnit (decide (q < 4)) s fun c => c.migrateSwitch q
/-- REPLACE. -/
def execReplace (q cluster : Nat) (s : State) : Out := onUnit (decide (q < 4 ∧ cluster < 64)) s fun c => c.ctlWrite (.replace q cluster) 3 fun c => c.replaceCmd q cluster
/-- US_FILL_DONE. -/
def execUsFillDone (q : Nat) (s : State) : Out := onBanks (decide (q < 4)) s fun _ c => c.usFillDone q
/-- FENCE. -/
def execFence (q cluster : Nat) (s : State) : Out :=
  onUnit (decide (q < 4 ∧ cluster < 64)) s fun c => c.ctlWrite (.fence q cluster) 3 fun c =>
    let c := c.usResult q 0
    if isCluster cluster then c.fenceCluster q cluster else c

end Sys2Proof.Machine
end

