-- ==== Sys2Proof/Machine/Live.lean ====
section
/-! DEFINITION. Registers whose value is read from the units: the geometry of the block (R22, R268, R270). -/

namespace Sys2Proof.Machine

/-- The understudy of a quadrant is available: no cluster carries its use, and it has not failed (R270). -/
def Ctl.usFree (c : Ctl) (q : Nat) : Bool :=
  let u := c.under q
  !u.map.isSome && !u.unavail && !u.busy

/-- MIO_GEOM as it reads now: the built configuration, the live regions, the understudies and the fenced quadrants. -/
def Ctl.geomWord (c : Ctl) : Nat :=
  let live := ((List.range 64).filter fun r => decide (c.fld (oRegion r) region_VALID = 1 ∧ c.fld (oRegion r) region_FENCED = 0)).length
  let free := ((List.range 4).filter fun q => c.usFree q).map fun q => 2 ^ q
  let used := ((List.range 4).filter fun q => (c.under q).map.isSome).map fun q => 2 ^ q
  Config.cpq + (live <<< 8) + (Config.stackPorts <<< 16) + (Config.linkPorts <<< 24) + (free.sum <<< 32) + (used.sum <<< 36)
    + (c.fld oGeom geom_QUAD_FENCED <<< 40)

end Sys2Proof.Machine
end

