-- ==== Sys2Proof/Machine/Sends.lean ====
section
/-! DEFINITION. Send descriptors and the transmit side of the ports: commands, source reads, packets, beats, acknowledgements, halts, the provenance record (R207 to R210, R222 to R225, R289 to R291). -/

namespace Sys2Proof.Machine

/-- A field of send descriptor e. -/
def Ctl.sd (c : Ctl) (e : Nat) (f : FieldPos) : Nat := c.fld (oLsend e) f
def Ctl.setSd (c : Ctl) (e : Nat) (f : FieldPos) (v : Nat) : Ctl := c.setFld (oLsend e) f v

/-- STATE: 0 IDLE, 1 ARMED, 2 RUNNING, 3 HALTED. -/
def Ctl.sdState (c : Ctl) (e : Nat) : Nat := c.sd e lsend_STATE

/-- A send descriptor exists. -/
def isSend (e : Nat) : Bool := decide (e < Config.sends)

/-! ### Source reads (R223) -/

/-- Source granules of the next packet. -/
def Ctl.sdNext (c : Ctl) (e : Nat) : Nat := min (c.sd e lsend_PKT_LEN + 1) (c.sd e lsend_LEN - c.sd e lsend_SENT)

/-- Granule index of source granule k. -/
def Ctl.sdGi (c : Ctl) (e k : Nat) : Nat := (c.sd e lsend_SRC_BASE + k) % 2 ^ 27

/-- Present the source reads of the next packet. -/
def Ctl.sdRead (c : Ctl) (e : Nat) : Ctl :=
  let s0 := c.sd e lsend_SENT
  forAll (List.range (c.sdNext e)) (fun i c =>
    let a : AReq := { id := 0, req := 24 + c.sd e lsend_PORT, kind := .sendRead e (s0 + i), gi := c.sdGi e (s0 + i), group := c.sd e lsend_GROUP, write := false }
    c.request { a with order := c.ec, since := c.bc }) c

/-! ### Commands (R213, R222) -/

/-- The last packet of a descriptor with PROV = 1 would exceed 256 granules. -/
def Ctl.provOver (c : Ctl) (e : Nat) : Bool :=
  let p := c.sd e lsend_PKT_LEN + 1
  let n := c.sd e lsend_LEN
  decide (c.sd e lsend_PROV = 1 ∧ 256 < (n - (n - 1) / p * p) + 4)

/-- ARM (R222). -/
def Ctl.sdArm (c : Ctl) (e : Nat) : Ctl :=
  let f := c.sd e
  if c.sdState e ≠ 0 then c.winResult 1
  else if Config.linkPorts ≤ f lsend_PORT ∨ Config.linkPorts ≤ f lsend_ALT_PORT ∨ ¬ c.ownsExtent (f lsend_GROUP) (f lsend_SRC_BASE) (f lsend_LEN) true then c.winResult 2
  else if c.provOver e then c.winResult 3
  else
    let c := c.winResult 0
    ((c.setSd e lsend_TRIG_TARGET (c.sd e lsend_TRIG_TARGET + c.sd e lsend_TRIG_VALUE)).setSd e lsend_STATE 1).setSend e { armedAt := 4 * (c.cc + 1) }

/-- DISARM (R222, R186): the trigger is still sampled in the completion cc. -/
def Ctl.sdDisarm (c : Ctl) (e : Nat) : Ctl :=
  if c.sdState e ≠ 1 then c.winResult 1 else (c.winResult 0).setSend e { c.send e with disarmAt := some (4 * (c.cc + 1)) }

/-- CLEAR (R222). -/
def Ctl.sdClear (c : Ctl) (e : Nat) : Ctl :=
  if c.sdState e ≠ 3 then c.winResult 1 else ((c.winResult 0).setSd e lsend_STATE 0).setSend e {}

/-- The end of the completion cc of every DISARM, in ec `x`. -/
def Ctl.sendsSettle (c : Ctl) (x : Nat) : Ctl :=
  if c.blackout then c
  else forAll ((c.sends.filter fun r => r.2.disarmAt.isSome).map fun r => r.1) (fun e c =>
    match (c.send e).disarmAt with
    | some d => if d ≤ x then
        let c := c.setSend e { c.send e with disarmAt := none }
        if c.sdState e = 1 then c.setSd e lsend_STATE 0 else c
      else c
    | none => c) c

/-! ### Start and completion (R222, R224, R289) -/

/-- The input packet that a start in ec `x` latches: the latest counted in or before that ec on INWIN (R289). -/
def Ctl.latchInput (c : Ctl) (e x : Nat) : Option (Nat × BitVec 32) :=
  if c.fld (oProvSrc e) provSrc_IN_EN = 0 ∨ c.sd e lsend_PROV = 0 then none
  else ((c.win (c.fld (oProvSrc e) provSrc_INWIN)).latest.find? fun l => decide (l.2.1 ≤ x)).map fun l => (l.1, l.2.2)

/-- The digest of a latched packet, if it is complete: MIO_IN_DIG_w holds it unless a later packet has replaced it. -/
def Ctl.digestOf (c : Ctl) (w : Nat) (l : Option (Nat × BitVec 32)) : Option (BitVec 256) :=
  match l with
  | none => none
  | some p =>
    if (c.audit.queue.any fun q => decide (q.id = p.1)) ∨ c.wn w win_DIGEST = 0 then none
    else some (BitVec.ofNat 256 (((List.range 4).map fun i => (c.reg (oInDig w + 8 * i)).toNat <<< (64 * i)).sum))

/-- The id of a counted packet that an image has brought back: its digest is in no section of the image (log entry 28). -/
def restoredId : Nat := 2 ^ 64

/-- The digest that a start finds for the packet it latches: a free value for one that an image has brought back, on a window that hashes. -/
def Ctl.startDigest (c : Ctl) (w : Nat) (l : Option (Nat × BitVec 32)) : Ctl × Option (BitVec 256) :=
  if (l.any fun p => decide (p.1 = restoredId)) ∧ c.wn w win_DIGEST = 1 then (c.draw.2, some (BitVec.ofNat 256 c.draw.1.toNat)) else (c, c.digestOf w l)

/-- Completion of a start (R224): with REARM it is armed again. -/
def Ctl.sdDone (c : Ctl) (e x : Nat) : Ctl :=
  let c := c.setSd e lsend_STATUS 1
  if c.sd e lsend_REARM = 1 then
    ((c.setSd e lsend_TRIG_TARGET (c.sd e lsend_TRIG_TARGET + c.sd e lsend_TRIG_VALUE)).setSd e lsend_STATE 1).setSend e { armedAt := x + 1 }
  else (c.setSd e lsend_STATE 0).setSend e {}

/-- `n` source granules are done in ec `x` (R224). LAST_SRC has no code for this operation: a free value (log entry 22). -/
def Ctl.sdCount (c : Ctl) (e n x : Nat) : Ctl :=
  let k := c.sd e lsend_DONE_CNT
  let c := (c.setSd e lsend_DONE (c.sd e lsend_DONE + n)).cntChange k x 3 n 2
  let v := c.draw
  let c := v.2.setFld (oCnt k) cnt_LAST_SRC (v.1.toNat % 8)
  if c.sdState e = 2 ∧ c.sd e lsend_DONE = c.sd e lsend_LEN then c.sdDone e x else c

/-- SEND_START (R222): the trigger of an ARMED descriptor is met in the present ec. -/
def Ctl.sdStart (c : Ctl) (e : Nat) : Ctl :=
  let k := c.sd e lsend_TRIG_CNT
  let r := c.send e
  if c.sdState e ≠ 1 ∨ c.blackout ∨ ¬ c.sysReady ∨ c.ec < r.armedAt ∨ ¬ reached (c.cntAt k c.ec) (c.sd e lsend_TRIG_TARGET) then c
  else
    let c := if r.disarmAt.isSome then c.winResult 5 else c
    let c := c.scopeEvent (c.cntScopeAt k c.ec) 2 0 k 1 e
    let c := (((c.setSd e lsend_STATE 2).setSd e lsend_SENT 0).setSd e lsend_DONE 0).setSd e lsend_STATUS 0
    let l := c.latchInput e c.ec
    let v := c.startDigest (c.fld (oProvSrc e) provSrc_INWIN) l
    let c := v.1.setSend e { latched := l, digest := v.2 }
    if c.sd e lsend_LEN = 0 then c.sdDone e c.ec else c.sdRead e

/-! ### The provenance record (R289 to R291) -/

/-- Four registers as one number, the first lowest. -/
def Ctl.reg256 (c : Ctl) (off : Nat) : Nat := ((List.range 4).map fun i => (c.reg (off + 8 * i)).toNat <<< (64 * i)).sum

/-- The half whose digest the record takes: of the lowest sequencer of the group that is neither HALTED nor TRAPPED. -/
def Ctl.provHalf (c : Ctl) (g : Nat) : Option Bool :=
  ((c.members g).find? fun n => decide ((c.seq n).state = .waiting ∨ (c.seq n).state = .running)).map fun n => (c.seq n).half

/-- The flags of R291 at formation. -/
def Ctl.provFlags (c : Ctl) (e : Nat) : Nat :=
  let g := c.sd e lsend_GROUP
  let src := c.fld (oProvSrc e)
  let noProg := match c.provHalf g with | none => true | some h => decide (c.fld (oProgDig h.toNat) progDig_VALID = 0)
  [ decide (c.fld (oProvGflag g) provGflag_TIMING_SUSPENDED = 1),
    decide (src provSrc_W_EN = 1 ∧ c.fld (oWimg (src provSrc_WIMG)) wimg_STATE ≠ 3),
    noProg,
    (c.send e).latched.isNone,
    decide (c.fld (oProvGflag g) provGflag_FP_UNORDERED = 1),
    decide (c.fld oTimeCtl timeCtl_STATE ≠ 2),
    decide (c.fld oStatus status_CFG_DEFAULTED = 1),
    (c.send e).poisSent,
    decide (c.fld oRehDiv1 rehDiv1_VALID = 1),
    decide (c.twinPhase = 2 ∨ c.twinPhase = 3),
    Nat.testBit c.audit.restored.toNat g ].reverse.foldl (fun v b => 2 * v + b.toNat) 0

/-- Granule 0 of the record (R290). -/
def Ctl.provHead (c : Ctl) (e : Nat) : Nat :=
  let sec := c.time.sec
  let ns := c.time.sub / 2 ^ 32
  let mode := 0x0201 + (c.twinMode <<< 16) + (c.sd e lsend_GROUP <<< 18) + (c.fld oPwrOp pwrOp_ACTIVE <<< 24) + (bits sec 32 16 <<< 32)
  let count := match (c.send e).latched with | some l => l.2.toNat | none => 0
  (c.reg oProvSeq).toNat + (ns <<< 64) + (bits sec 0 32 <<< 96) + (mode <<< 128) + (c.provFlags e <<< 192) + (count <<< 224)

/-- The four granules of the record. -/
def Ctl.provRecord (c : Ctl) (e : Nat) : List Granule :=
  let g := c.sd e lsend_GROUP
  let src := c.fld (oProvSrc e)
  let prog := match c.provHalf g with
    | some h => if c.fld (oProgDig h.toNat) progDig_VALID = 1 then c.reg256 (oProgDig h.toNat) else 0
    | none => 0
  let k := src provSrc_WIMG
  let weight := if src provSrc_W_EN = 1 ∧ Nat.testBit c.audit.wimgHashed.toNat k then c.reg256 (oWimg k + 32) else 0
  let input := match (c.send e).digest with | some d => d.toNat | none => 0
  [c.provHead e, prog, weight, input].map fun v => mkWorking v false true 0

/-- A record has been formed: the sequence number moves on, and RESTORED of the group ends (R289, R291). -/
def Ctl.provTaken (c : Ctl) (e : Nat) : Ctl :=
  let c := c.hwFld oProvSeq ⟨0, 0, 64⟩ ((c.reg oProvSeq).toNat + 1)
  { c with audit := { c.audit with restored := c.audit.restored &&& ~~~ (1#32 <<< c.sd e lsend_GROUP) } }

/-! ### Packets (R210, R223, R224) -/

/-- The next packet is the last of the start. -/
def Ctl.sdLast (c : Ctl) (e : Nat) : Bool := decide (c.sd e lsend_SENT + c.sdNext e = c.sd e lsend_LEN)

/-- The next packet carries the record. -/
def Ctl.sdProv (c : Ctl) (e : Nat) : Bool := decide (c.sd e lsend_PROV = 1) && c.sdLast e

/-- The next packet can be sent: its granules are read, at most 15 packets await an acknowledgement, the digest that the
record needs is complete, and its group is not quiesced. -/
def Ctl.sdReady (c : Ctl) (e : Nat) : Bool :=
  let r := c.send e
  let s0 := c.sd e lsend_SENT
  decide (c.sdState e = 2) && decide (s0 < c.sd e lsend_LEN)
    && ((List.range (c.sdNext e)).all fun i => r.gathered.any fun g => decide (g.1 = s0 + i))
    && decide (r.unacked.length < 16)
    && (!c.sdProv e || r.latched.isNone || r.digest.isSome)
    && !Nat.testBit c.audit.quiet.toNat (c.sd e lsend_GROUP)

/-- The descriptor that port n serves next: ascending after the one last served (R210). -/
def Ctl.sdTurn (c : Ctl) (n : Nat) : Option Nat :=
  let es := c.liveSends.filter fun e => decide (c.sd e lsend_PORT = n) && c.sdReady e
  match es.find? fun e => decide ((c.link n).served ≤ e) with
  | some e => some e
  | none => es.head?

/-- The data bits of the header of the next packet (R211, R223). -/
def Ctl.sdHeader (c : Ctl) (e : Nat) : Nat :=
  let f := c.sd e
  let len := c.sdNext e - 1 + (if c.sdProv e then 4 else 0)
  1 + (f lsend_ACCUM <<< 4) + (f lsend_JOURNALED <<< 6) + (f lsend_ORDERED <<< 7) + ((c.sdProv e).toNat <<< 9) + (f lsend_WINDOW <<< 16)
    + (((f lsend_R_OFFSET + f lsend_SENT) % 2 ^ 24) <<< 32) + (len <<< 64) + (f lsend_RANK <<< 80) + (f lsend_SEQ_NEXT <<< 96)

/-- The next packet of a descriptor goes to its port: SENT and SEQ_NEXT move on, and the reads of the packet after it begin. -/
def Ctl.sdEmit (c : Ctl) (e : Nat) : Ctl :=
  let r := c.send e
  let s0 := c.sd e lsend_SENT
  let n := c.sdNext e
  let prov := c.sdProv e
  let src := (List.range n).map fun i => Tab.get 0 r.gathered (s0 + i)
  let p : Packet := { header := mkHeader (c.sdHeader e), payload := if prov then src ++ c.provRecord e else src }
  let reps := (List.range n).map fun i => c.repOf (c.sdGi e (s0 + i))
  let port := c.sd e lsend_PORT
  let jour := decide (c.sd e lsend_JOURNALED = 1)
  let seq := BitVec.ofNat 64 (c.sd e lsend_SEQ_NEXT)
  let l := c.link port
  let c := c.setLink port { l with data := l.data ++ [{ pkt := p, desc := some e, done := if jour then 0 else n, reps := reps }], served := e + 1 }
  let c := if prov then c.provTaken e else c
  let un := if jour then r.unacked ++ [{ seq := seq, port := port, sent := c.ec, n := n, pkt := p, reps := reps }] else r.unacked
  let c := c.setSend e { r with unacked := un, gathered := r.gathered.filter fun g => decide (s0 + n ≤ g.1) }
  ((c.setSd e lsend_SENT (s0 + n)).setSd e lsend_SEQ_NEXT (c.sd e lsend_SEQ_NEXT + 1)).sdRead e

/-! ### Halts (R225) -/

/-- The rest of a packet whose first beat has been sent goes out as poisoned granules with data zero, each of the code kind of the granule
that it stands for (R225, R252). -/
def poisonRest (t : TxPkt) : TxPkt :=
  let n := 8 * t.sent - 1
  { t with pkt := { t.pkt with payload := t.pkt.payload.take n ++
      ((List.range t.pkt.payload.length).drop n).map fun k => poisonGranule (t.reps.getD k false) } }

/-- A descriptor halts with a status: packets not begun are withdrawn, a packet begun is finished poisoned. -/
def Ctl.sdHalt (c : Ctl) (e st : Nat) : Ctl :=
  if c.sdState e = 0 ∨ c.sdState e = 3 then c
  else
    let c := c.withdraw fun a => match a.kind with | .sendRead f _ => decide (f = e) | _ => false
    let c := forAll (List.range Config.linkPorts) (fun n c =>
      let l := c.link n
      let keep := (l.data.filter fun t => decide (t.desc ≠ some e ∨ t.sent ≠ 0)).map fun t => if t.desc = some e then poisonRest t else t
      c.setLink n { l with data := keep }) c
    let c := c.setSend e { c.send e with gathered := [], disarmAt := none }
    (c.setSd e lsend_STATUS st).setSd e lsend_STATE 3

/-- Every descriptor of a killed group (R225). -/
def Ctl.sendsKill (c : Ctl) (g : Nat) : Ctl := forAll (c.liveSends.filter fun e => decide (c.sd e lsend_GROUP = g)) (fun e c => c.sdHalt e 5) c

/-- The slots that the source reads of a descriptor have in the present bc (R223): a granule that fails R25 halts it. -/
def Ctl.sdSlots (c : Ctl) (b : Tab Granule) (e : Nat) : Ctl :=
  (c.areqs.filter fun a => match a.kind with | .sendRead f _ => decide (f = e) | _ => false).foldl (fun c a =>
    match c.reqOf a.id, a.kind with
    | some a, .sendRead _ k =>
      match c.firstSlot a with
      | none => c
      | some (c, false) => c
      | some (c, true) =>
        if !c.ownsAsync a.group a.gi false then (c.dropReq a.id).sdHalt e 4
        else
          let full := storedFull (c.repOf a.gi) (rowAt b (c.keyOf (c.place a.gi)))
          if c.tagChecked a.gi && !tagReadOk full then c.stallReq a
          else
            let r := (c.dropReq a.id).bankRead b 0 (0x80 + a.req) a.gi c.bc
            let g := if r.2.bad then poisonGranule (c.repOf a.gi) else r.2.word
            let q := r.1.send e
            r.1.setSend e { q with gathered := Tab.put g k q.gathered, poisSent := q.poisSent || r.2.bad || r.2.pois }
    | _, _ => c) c

/-- SEND_PACKET (R223): the source reads that have their slot are made, and the next packet goes to its port when it is the
descriptor's turn there and the port has sent the one before. -/
def Ctl.sendPacket (c : Ctl) (b : Tab Granule) (e : Nat) : Ctl :=
  if c.blackout ∨ ¬ c.sysReady then c
  else
    let c := c.sdSlots b e
    let n := c.sd e lsend_PORT
    if c.linkLive n ∧ (c.link n).data = [] ∧ c.sdReady e ∧ c.sdTurn n = some e then c.sdEmit e else c

/-! ### Beats (R207, R209, R210) -/

/-- The transmit credit count under the cap of MIO_PERT_LINK (R319). -/
def Ctl.capCredits (c : Ctl) (n v : Nat) : Nat :=
  let cap := c.fld oPertLink pertLink_CAP
  if Nat.testBit (c.fld oPertLink pertLink_PORTS) n ∧ cap ≠ 0 then min cap v else v

/-- One ec of the transmit side of a port: at most one beat, control packets first, and a beat of a packet with payload only
while more than four credits are there. The second part is the packet whose last beat was sent. -/
def LinkPort.beatOut (l : LinkPort) : LinkPort × Option TxPkt :=
  if l.credits = 0 then ({ l with beat := none }, none)
  else match l.wait with
    | p :: t => ({ l with beat := some (p.beat 0), wait := t, credits := l.credits - 1 }, none)
    | [] => match l.data with
      | [] => ({ l with beat := none }, none)
      | d :: t =>
        if l.credits ≤ 4 then ({ l with beat := none }, none)
        else
          let l : LinkPort := { l with beat := some (d.pkt.beat d.sent), credits := l.credits - 1 }
          if d.sent + 1 = packetBeats d.pkt.payload.length then ({ l with data := t }, some d)
          else ({ l with data := { d with sent := d.sent + 1 } :: t }, none)

/-- One ec of the receive side: at most one credit is returned (R207). -/
def LinkPort.crdOut (l : LinkPort) (x : Nat) : LinkPort :=
  match l.owed with
  | t :: r => if t ≤ x ∧ l.up then { l with owed := r, rxCrd := true, returned := l.returned + 1 } else { l with rxCrd := false }
  | [] => { l with rxCrd := false }

/-- Port n in ec `x`. The cap of MIO_PERT_LINK governs the transmit credits (R319). Under the port clamps nothing is driven (R339, R340). At the end of a watch slice no credit is returned (R337). A packet that is not journaled is done in the ec after its last beat (R224). -/
def Ctl.linkEc (c : Ctl) (n x : Nat) : Ctl :=
  let c := c.setLink n (if c.clamped ∨ c.power.slice ∧ c.power.sliceEnd ≤ x then { c.link n with rxCrd := false } else (c.link n).crdOut x)
  let c := c.setLink n { c.link n with credits := c.capCredits n (c.link n).credits }
  if c.clamped || !c.linkLive n then c.setLink n { c.link n with beat := none }
  else
    let r := (c.link n).beatOut
    let c := c.setLink n r.1
    match r.2 with
    | some d => match d.desc with
      | some e => if d.done = 0 then c else c.sdCount e d.done (x + 1)
      | none => c
    | none => c

/-- Every port that has something to do. -/
def Ctl.linksEc (c : Ctl) (x : Nat) : Ctl := forAll (c.links.map fun e => e.1) (fun n c => c.linkEc n x) c

/-- LINK_UP (R207): the transmit credits are loaded, and the rise is noted for the wake source (R334). The twin port has no configuration register: it takes 64 (R208). -/
def Ctl.linkUp (c : Ctl) (n : Nat) : Ctl :=
  let l := c.link n
  if l.up ∨ c.boot.phase = .inReset then c
  else
    let v := if n = 16 then 64 else c.fld (oLinkCfg n) linkCfg_TX_CREDITS
    let c : Ctl := { c with power := { c.power with rose := if Nat.testBit c.power.rose n then c.power.rose else c.power.rose + 2 ^ n } }
    c.setLink n { l with up := true, credits := c.capCredits n v }

/-- LINK_DOWN (R207, R225): credits go, a packet that has come in part is discarded, and a packet of which a beat has been sent is cut; its descriptor halts if it is not journaled. -/
def Ctl.linkDown (c : Ctl) (n : Nat) : Ctl :=
  let l := c.link n
  if !l.up then c
  else
    let cut := l.data.filter fun t => decide (t.sent ≠ 0)
    let l : LinkPort := { l with inbox := (l.inbox.filter fun p => p.whole.isSome).map fun p => { p with stale := true }, skip := .nothing }
    let c := c.setLink n { l with up := false, credits := 0, beat := none, owed := [], rxCrd := false, data := l.data.filter fun t => decide (t.sent = 0) }
    let c := if n = 16 then c.rehLost else if c.active then c.satAdd (oLinkStat n) linkStat_DOWNS 1 else c
    if c.blackout then c
    else cut.foldl (fun c t => match t.desc with
      | some e => if c.sd e lsend_JOURNALED = 0 then c.sdHalt e 3 else c
      | none => c) c

/-- CREDIT_RETURN (R207): while the link is up, the count goes up by one. -/
def Ctl.creditIn (c : Ctl) (n : Nat) : Ctl :=
  let l := c.link n
  if l.up ∧ c.active then c.setLink n { l with credits := c.capCredits n (l.credits + 1) } else c

/-! ### Acknowledgements (R224) -/

/-- An acknowledgement on a port can be for a packet of descriptor e: the packet went out on that port (R227), or on both ports once it has
been sent again. -/
def Ctl.ackMine (c : Ctl) (e port : Nat) (h : Nat) (u : Unacked) : Bool :=
  u.seq == BitVec.ofNat 64 (hSeq h) &&
    (decide (u.port = port) || (u.again && decide (port = c.sd e lsend_PORT ∨ port = c.sd e lsend_ALT_PORT)))

/-- The descriptor that awaits the acknowledgement with fields `h` on a port. -/
def Ctl.ackOwner (c : Ctl) (port h : Nat) : Option Nat :=
  c.liveSends.find? fun e => decide (c.sd e lsend_WINDOW = hWindow h ∧ c.sd e lsend_RANK = hRank h) &&
    (c.send e).unacked.any (c.ackMine e port h)

/-- An ACK with fields `h` on a port: CODE 0 ACCEPTED and 1 DUPLICATE advance, 2 REFUSED halts, 3 RETRY changes nothing. Without a packet
that awaits it, it is ignored. -/
def Ctl.ackTake (c : Ctl) (port h : Nat) : Ctl :=
  match c.ackOwner port h with
  | none => c
  | some e =>
    let r := c.send e
    match r.unacked.find? (c.ackMine e port h) with
    | none => c
    | some u =>
      if hOpn h = 3 then c
      else if hOpn h = 2 then c.sdHalt e 2
      else (c.setSend e { r with unacked := r.unacked.filter fun v => v.seq != u.seq }).sdCount e u.n (c.ec + 1)

/-- An ACK packet with fields `h` on a port. -/
def Ctl.ackPacket (c : Ctl) (port h : Nat) : Ctl :=
  if c.blackout then c else if !c.linkEnabled port then c.portRefuse port 3 else c.ackTake port h

/-- ACK_TIMEOUT (R224): a journaled packet of a running descriptor is sent again, alternately on ALT_PORT and PORT. -/
def Ctl.ackTimeout (c : Ctl) (e : Nat) (seq : Nat) : Ctl :=
  let r := c.send e
  match r.unacked.find? fun u => u.seq == BitVec.ofNat 64 seq with
  | none => c
  | some u =>
    if c.sdState e ≠ 2 ∨ c.blackout ∨ ¬ c.sysReady ∨ c.ec < u.sent + 2 ^ c.fld (oLinkCfg u.port) linkCfg_ACK_EXP then c
    else
      let port := if u.port = c.sd e lsend_PORT then c.sd e lsend_ALT_PORT else c.sd e lsend_PORT
      let c := c.setSend e { r with unacked := r.unacked.map fun v => if v.seq = u.seq then { v with port := port, sent := c.ec, again := true } else v }
      let l := c.link port
      (c.setLink port { l with data := l.data ++ [{ pkt := u.pkt, desc := some e, reps := u.reps }] }).satAdd (oLsend e) lsend_RETX 1

/-! ### The commands -/

/-- LINK_UP. -/
def execLinkUp (port : Nat) (s : State) : Out := onUnit (decide (port ≤ 16)) s fun c => c.linkUp port
/-- LINK_DOWN. -/
def execLinkDown (port : Nat) (s : State) : Out := onUnit (decide (port ≤ 16)) s fun c => c.linkDown port
/-- CREDIT_RETURN. -/
def execCreditReturn (port : Nat) (s : State) : Out := onUnit (decide (port ≤ 16)) s fun c => c.creditIn port
/-- ACK. -/
def execAck (port : Nat) (beat : LinkBeat) (s : State) : Out :=
  onUnit (decide (port < Config.linkPorts)) s fun c => c.ctlArrives port 2 beat fun c h => c.ackPacket port h
/-- SEND_ARM. -/
def execSendArm (e : Nat) (s : State) : Out := onUnit (isSend e) s fun c => c.ctlWrite (.sendArm e) 3 fun c => c.sdArm e
/-- SEND_DISARM. -/
def execSendDisarm (e : Nat) (s : State) : Out := onUnit (isSend e) s fun c => c.ctlWrite (.sendDisarm e) 3 fun c => c.sdDisarm e
/-- SEND_CLEAR. -/
def execSendClear (e : Nat) (s : State) : Out := onUnit (isSend e) s fun c => c.ctlWrite (.sendClear e) 3 fun c => c.sdClear e
/-- SEND_START. -/
def execSendStart (e : Nat) (s : State) : Out := onUnit (isSend e) s fun c => c.sdStart e
/-- SEND_PACKET. -/
def execSendPacket (e : Nat) (s : State) : Out := onUnit (isSend e) s fun c => c.sendPacket s.banks e
/-- ACK_TIMEOUT. -/
def execAckTimeout (e seq : Nat) (s : State) : Out := onUnit (isSend e) s fun c => c.ackTimeout e seq

end Sys2Proof.Machine
end

