-- ==== Sys2Proof/Machine/Twin.lean ====
section
/-! DEFINITION. The twin unit and the arrival of packets: DATA packets, mirror copies and confirmations, journal landings, SOLO, checkpoints, resynchronization, held packets (R217, R226 to R232, R279, R338). -/

namespace Sys2Proof.Machine

/-! ### What the twin sends -/

/-- Queue a packet with payload on T: KIND 5 JCOPY or 9 REPLAY, from the fields of a DATA header (R212). -/
def Ctl.twinSend (c : Ctl) (kind h : Nat) (payload : List Granule) : Ctl :=
  let l := c.link 16
  c.setLink 16 { l with data := l.data ++ [{ pkt := { header := mkHeader (putBits h 0 4 kind), payload := payload } }] }

/-- Confirm a copy (JCONF). -/
def Ctl.jconfFor (c : Ctl) (h : Nat) (dup : Bool) : Ctl :=
  c.sendCtl 16 (6 + (dup.toNat <<< 4) + (hWindow h <<< 16) + (hRank h <<< 80) + (hSeq h <<< 96))

/-! ### Entries (R227, R228) -/

/-- An entry is accepted: counted by its window, acknowledged on the link port it came from, and landed in its turn. -/
def Ctl.entryAccept (c : Ctl) (j : JEntry) : Ctl :=
  let w := hWindow j.header
  let c := (c.putEntry { j with accepted := true, confirm := none }).countAccepted w
  let c := if j.port = 16 then c else c.ackFor j.port j.header 0
  c.landNext w (hRank j.header)

/-- Both twins are PAIRED again (R231). -/
def Ctl.enterPaired (c : Ctl) : Ctl :=
  let c := (c.setFld oTwinStat twinStat_PHASE 1).hwFld oTwinCfg twinCfg_RESYNC 0
  { c with twin := { c.twin with lastSeen := false, journal := c.twin.journal.map fun (j : JEntry) => { j with resent := false } } }

/-- A restarted twin that has written the last entry that the survivor holds, and every entry before it, is PAIRED (R231). -/
def Ctl.maybePaired (c : Ctl) : Ctl :=
  if c.twinPhase = 3 ∧ c.twin.lastSeen ∧ (c.twin.journal.all fun j => j.void || decide (j.left = 0)) then c.enterPaired else c

/-- The last of what the survivor sends for its checkpoint has come: which packet that is comes from outside (log entry 24). -/
def Ctl.lastCame (c : Ctl) (last : Bool) : Ctl := if last then { c with twin := { c.twin with lastSeen := true } } else c

/-- An entry has been written to the journal (R227). -/
def Ctl.entryIn (c : Ctl) (j : JEntry) : Ctl :=
  if j.port = 16 then ((c.jconfFor j.header false).entryAccept j).maybePaired
  else if c.twinPhase = 1 then (c.putEntry { j with confirm := some c.ec }).twinSend 5 j.header j.payload
  else
    let c := c.entryAccept j
    if c.fld oTwinCfg twinCfg_RESYNC = 1 then
      match c.entry j.id with
      | some k => (c.putEntry { k with resent := true }).twinSend 9 j.header j.payload
      | none => c
    else c

/-- A packet whose last beat came in ec `x` enters the journal: marked held, and its granules presented for writing (R226, R227). -/
def Ctl.journalIn (c : Ctl) (port h x : Nat) (data : List Granule) : Ctl :=
  let w := hWindow h
  let t := c.track w (hRank h)
  let c := c.setTrack w (hRank h) { t with held := t.held ++ [BitVec.ofNat 64 (hSeq h)] }
  let id := c.twin.nextId
  let n := data.length + 1
  let j : JEntry := { id := id, pos := c.twin.head, header := h, payload := data, port := port, taken := x, left := n }
  let c : Ctl := { c with twin := { c.twin with journal := c.twin.journal ++ [j], nextId := id + 1, head := (c.twin.head + n) % max 1 c.journalSize } }
  forAll (List.range n) (fun k c =>
    let gi := c.journalGi (j.pos + k)
    let a : AReq := { id := 0, req := 40, kind := .journalWrite id k, gi := gi, group := c.winOwner w }
    c.request { a with granule := if k = 0 then mkHeader h else data.getD (k - 1) 0, order := x, since := c.bc, dest := gi }) c

/-- What the tests of R227 come to: 0 write it, 1 duplicate, 8 AHEAD, 9 FULL. -/
def Ctl.journalCode (c : Ctl) (h : Nat) : Nat :=
  let t := c.track (hWindow h) (hRank h)
  let seq := hSeq h
  if seq < t.next.toNat ∨ t.held.contains (BitVec.ofNat 64 seq) then 1
  else if t.next.toNat + 64 ≤ seq then 8
  else if c.journalFree < hLen h + 1 then 9
  else 0

/-! ### What the check of a packet comes to -/

/-- The check of a DATA packet with fields `h` (R217, R227): true where it passes, else the refusal or the answer that ends it. -/
def Ctl.dataCheck (c : Ctl) (port h : Nat) : Ctl × Bool :=
  let k := c.dataKind port h
  if k ≠ 0 then (c.refuseData port h k, false)
  else if !hJournaled h then (c, true)
  else
    let k := c.journalCode h
    if k = 1 then (c.ackFor port h 1, false)
    else if k ≠ 0 then (c.refuseData port h k, false)
    else if c.twinPhase = 3 then (c.ackFor port h 3, false)
    else (c, true)

/-- A DATA packet that has passed its check is accepted. -/
def Ctl.dataTake (c : Ctl) (port h x : Nat) (payload : List Granule) : Ctl :=
  let c := if hJournaled h then c else c.countAccepted (hWindow h)
  let r := c.checkPayload port (hWindow h) (hOffset h) 0 payload
  if hJournaled h then r.1.journalIn port h x r.2
  else if hOrdered h then r.1.acceptOrdered port h x r.2
  else r.1.acceptNormal port h x r.2

/-- The check of a JCOPY or REPLAY (R226, R227): a copy that the journal knows is confirmed again. -/
def Ctl.copyCheck (c : Ctl) (p : RxPkt) : Ctl × Bool :=
  let h := putBits p.h 0 4 1
  if c.twinMode ≠ 1 ∧ ¬ c.blackout then (c.winRefuse 16 (hWindow h) 5, false)
  else
    let c := if hKind p.h = 5 ∧ c.twinPhase = 3 ∧ ¬ c.blackout then c.enterPaired else c
    let k := c.dataKind 16 h
    if k ≠ 0 then (c.winRefuse 16 (hWindow h) k, false)
    else
      let k := c.journalCode h
      if k = 1 then (if p.whole.isSome then ((c.jconfFor h true).lastCame p.last).maybePaired else c, p.whole.isNone)
      else if k ≠ 0 then (c.winRefuse 16 (hWindow h) k, false)
      else (c, true)

/-- A JCOPY or REPLAY that has passed its check is written to the journal. -/
def Ctl.copyTake (c : Ctl) (p : RxPkt) (x : Nat) : Ctl :=
  let h := putBits p.h 0 4 1
  let r := c.checkPayload 16 (hWindow h) (hOffset h) 0 p.payload
  (r.1.lastCame p.last).journalIn 16 h x r.2

/-- The check of a packet with payload by its KIND. -/
def Ctl.rxCheck (c : Ctl) (port : Nat) (p : RxPkt) : Ctl × Bool := if hKind p.h = 1 then c.dataCheck port p.h else c.copyCheck p

/-- A packet with payload that has passed its check, by its KIND. -/
def Ctl.rxTake (c : Ctl) (port : Nat) (p : RxPkt) (x : Nat) : Ctl := if hKind p.h = 1 then c.dataTake port p.h x p.payload else c.copyTake p x

/-- A control packet that has waited behind a held one (R279), by its KIND. -/
def Ctl.ctlTake (c : Ctl) (port h : Nat) : Ctl := if hKind h = 2 then c.ackPacket port h else c.curPacket port h

/-! ### Packets leave the receive buffer -/

/-- The packets that stand in a receive buffer. -/
def Ctl.setInbox (c : Ctl) (port : Nat) (l : List RxPkt) : Ctl := c.setLink port { c.link port with inbox := l }

/-- The packets are marked as held: each is accepted in the ec in which it leaves the buffer, not in that of its last beat (R241, R279). -/
def markHeld (l : List RxPkt) : List RxPkt := l.map fun p => { p with held := true }

/-- The first packet of a receive buffer leaves it, with `t` behind it. -/
def Ctl.rxGone (c : Ctl) (port : Nat) (p : RxPkt) (t : List RxPkt) : Ctl :=
  (c.setInbox port (if p.held then markHeld t else t)).rxLeaves port p

/-- The packets of a receive buffer in order, until one is held, at the start of a cc: a header and a last beat have their check once the cc
in which they came is over, so that it sees every command of that cc (R216, log entries 86 and 112). A packet that is still coming then stays,
and is checked again with its last beat; a packet that finds the twin port OFF is refused with kind HDR (R226). -/
def Ctl.rxRun (port : Nat) : Nat → Ctl → Ctl
  | 0, c => c
  | n + 1, c => match (c.link port).inbox with
    | [] => c
    | p :: t =>
      if c.pktHeld p then c.setInbox port (markHeld (p :: t))
      else if c.portOff port then
        let c := (c.rxGone port p t).refuseShape port 1 none
        if p.whole.isSome then Ctl.rxRun port n c else c.setSkip port .packet
      else if !payloadKind (hKind p.h) then Ctl.rxRun port n ((c.rxGone port p t).ctlTake port p.h)
      else
        let r := c.rxCheck port p
        match p.whole with
        | some x => Ctl.rxRun port n (if r.2 then (r.1.rxGone port p t).rxTake port p (if p.held then c.ec else x) else r.1.rxGone port p t)
        | none => if r.2 then r.1.setInbox port ({ p with held := false } :: t) else (r.1.rxGone port p t).setSkip port .packet

/-- What a receive buffer gives at the start of a cc. -/
def Ctl.rxDrain (c : Ctl) (port : Nat) : Ctl := Ctl.rxRun port (c.link port).inbox.length c

/-- Every port whose receive buffer holds packets. -/
def Ctl.rxAll (c : Ctl) : Ctl := forAll ((c.links.filter fun l => decide (l.2.inbox ≠ [])).map fun l => l.1) (fun n c => c.rxDrain n) c

/-! ### Packets on T (R227, R231) -/

/-- A JCONF with fields `h` (R227, R229, R231). -/
def Ctl.jconfTake (c : Ctl) (h : Nat) : Ctl :=
  match c.twin.journal.find? fun j => decide (hWindow j.header = hWindow h ∧ hRank j.header = hRank h ∧ hSeq j.header = hSeq h) && !j.void && (j.confirm.isSome || j.resent) with
  | none => c
  | some j =>
    if c.twinPhase = 1 ∧ j.confirm.isSome then c.entryAccept j
    else if c.twinPhase = 2 ∧ j.resent then
      let c := c.putEntry { j with resent := false }
      if c.twin.journal.any fun i => i.resent then c else c.enterPaired
    else c

/-- An RTAB with fields `h` on a restarted twin (R231). -/
def Ctl.rtabTake (c : Ctl) (h : Nat) (last : Bool) : Ctl :=
  if c.twinMode = 1 ∧ c.twinPhase = 3 then
    ((c.setTrack (hWindow h) (hRank h) { next := BitVec.ofNat 64 (hSeq h) }).lastCame last).maybePaired
  else c

/-! ### Journal slots (R226, R228) -/

/-- JOURNAL_LANDING: the slot of a request of the twin unit: an entry's granule written, read for landing, or landed. -/
def Ctl.journalSlot (c : Ctl) (b : Tab Granule) (id : Nat) : Ctl × List BankOp :=
  match c.reqOf id with
  | none => (c, [])
  | some a => match a.kind with
    | .journalWrite e _ =>
      match c.firstSlot a with
      | none => (c, [])
      | some (c, false) => (c, [])
      | some (c, true) =>
        let fault := gPoison a.granule
        if !c.ownsUnit 2 a.gi then ((c.dropReq id).entryFails e, [])
        else if !c.reqTagOk b a (if fault then none else some (gFull a.granule)) fault then (c.stallReq a, [])
        else
          let r := (c.dropReq id).commit .other a.gi a.granule
          (r.1.entryWritten e Ctl.entryIn, r.2)
    | .journalRead p k =>
      match c.firstSlot a, c.packet p with
      | some (c, true), some q =>
        if !c.ownsUnit 2 a.gi then ((c.dropReq id).pktFail p, [])
        else if !c.reqTagOk b a none false then (c.stallReq a, [])
        else
          let r := c.bankRead b 0 (0x80 + a.req) a.gi c.bc
          if k = 0 then ((r.1.dropReq id).pktStep p, [])
          else
            let c := r.1.putPacket { q with data := q.data.mapIdx fun i x => if i + 1 = k then r.2.word else x }
            let a : AReq := { a with kind := .linkLand p (k - 1), gi := a.dest, granule := r.2.word, mask := pktMask q.header (k - 1) }
            (c.putReq { a with acc := c.pktAcc q.window q.header, write := true, stall := none, reported := false }, [])
      | some (c, false), _ => (c, [])
      | _, _ => (c, [])
    | .linkLand p _ => if a.req = 40 then c.linkSlot p (c.land b a .other) else (c, [])
    | _ => (c, [])

/-! ### SOLO (R229) -/

/-- SOLO_ENTRY: t_up is 0, or a JCOPY has waited for its JCONF. Every packet that awaits confirmation is accepted, in journal
order, and JCOPYs stop. -/
def Ctl.soloEntry (c : Ctl) : Ctl :=
  let late := c.twin.journal.any fun j => match j.confirm with | some x => decide (x + 2 ^ c.fld oTwinCfg twinCfg_CONF_EXP ≤ c.ec) | none => false
  if c.blackout ∨ ¬ c.sysReady ∨ c.twinMode ≠ 1 ∨ c.twinPhase ≠ 1 ∨ ((c.link 16).up ∧ ¬ late) then c
  else
    let c := c.setFld oTwinStat twinStat_PHASE 2
    let c := (c.twin.journal.filter fun j => j.confirm.isSome).foldl (fun c j => c.entryAccept j) c
    let l := c.link 16
    (c.setLink 16 { l with data := l.data.filter fun t => decide (t.sent ≠ 0) }).raise 18 0x10

/-! ### Checkpoints (R230) -/

/-- Each side holds a record with the ID: LAST_BOTH takes it, and entries before the previous such checkpoint are freed. -/
def Ctl.ckptBoth (c : Ctl) (id : BitVec 32) : Ctl :=
  match c.twin.own.find? fun k => k.ckptId == id with
  | none => c
  | some k =>
    if !c.twin.theirs.contains id then c
    else
      let t := c.twin
      let j := match t.both with | some o => t.journal.filter fun (e : JEntry) => decide (o.pos ≤ e.id) | none => t.journal
      let t : Twin := { t with journal := j, both := some k, own := t.own.filter fun (x : Checkpoint) => x.ckptId != id }
      let c : Ctl := { c with twin := { t with theirs := t.theirs.filter fun x => x != id } }
      c.setFld oTwinCkpt twinCkpt_LAST_BOTH id.toNat

/-- Id of the next unlanded entry. -/
def Twin.position (t : Twin) : Nat := match t.journal.find? fun j => !j.landed && !j.void with | some j => j.id | none => t.nextId

/-- The tracking table: every entry of a journaled window that is not CLOSED, those with NEXT at 0 too. -/
def Ctl.trackTable (c : Ctl) : Tab Track :=
  (c.liveWins.filter fun w => decide (c.wn w win_JOURNALED = 1)).flatMap fun w =>
    (List.range (min (c.wn w win_ORD_RANKS) (65536 - c.wn w win_ORD_RANK_BASE))).map fun i =>
      (trackKey w (c.wn w win_ORD_RANK_BASE + i), c.track w (c.wn w win_ORD_RANK_BASE + i))

/-- A write of CKPT_ID (R230): in MIRROR the tracking table and the journal position are recorded, and CKPT is sent. -/
def Ctl.ckptWrite (c : Ctl) (be : BitVec 2) (data : Word) : Ctl :=
  if !be.getLsbD 0 then c
  else
    let id := BitVec.ofNat 32 data.toNat
    let k : Checkpoint := { ckptId := id, tracks := c.trackTable, pos := c.twin.position }
    let mode := c.twinMode
    let c := c.setFld oTwinCkpt twinCkpt_CKPT_ID id.toNat
    if mode ≠ 1 then c
    else
      let c : Ctl := { c with twin := { c.twin with own := k :: c.twin.own.filter fun (x : Checkpoint) => x.ckptId != id } }
      (c.sendCtl 16 (7 + (id.toNat <<< 32))).ckptBoth id

/-- A received CKPT with fields `h`. -/
def Ctl.ckptTake (c : Ctl) (h : Nat) : Ctl :=
  let id := BitVec.ofNat 32 (bits h 32 32)
  if c.twinMode ≠ 1 then c
  else ({ c with twin := { c.twin with theirs := if c.twin.theirs.contains id then c.twin.theirs else id :: c.twin.theirs } } : Ctl).ckptBoth id

/-! ### MIO_TWIN_CFG (R226, R231) -/

/-- The survivor begins to resynchronize: an RTAB for each tracking entry of the checkpoint, then a REPLAY for each entry
from its position. With nothing to replay both are PAIRED. -/
def Ctl.survivor (c : Ctl) : Ctl :=
  let tracks := match c.twin.both with | some k => k.tracks | none => []
  let pos := match c.twin.both with | some k => k.pos | none => 0
  let c := tracks.foldl (fun c t => c.sendCtl 16 (10 + (t.1 / 65536 <<< 16) + (t.1 % 65536 <<< 80) + (t.2.next.toNat <<< 96))) c
  let js := c.twin.journal.filter fun j => decide (pos ≤ j.id ∧ j.left = 0) && !j.void
  if js.isEmpty then c.enterPaired
  else js.foldl (fun c j => (c.putEntry { j with resent := true }).twinSend 9 j.header j.payload) c

/-- What a change of MODE sets: PHASE, the journal, what was queued on T, and on entry to REHEARSAL the signatures (R293). -/
def Ctl.twinEnter (c : Ctl) (mode : Nat) (resync : Bool) : Ctl :=
  let c := c.setFld oTwinStat twinStat_PHASE (if mode = 1 then (if resync then 3 else 1) else 0)
  let c := { c.setLink 16 { c.link 16 with data := [], wait := [] } with twin := {} }
  if mode = 2 then forAll (List.range 4) (fun q c => c.setReg (oRehSig q) 0xFFFFFFFFFFFFFFFF) { c with reh := {} } else c

/-- A journaled window is OPEN or CLOSING. -/
def Ctl.journalOpen (c : Ctl) : Bool := c.liveWins.any fun w => decide (c.wn w win_JOURNALED = 1)

/-- A write of MIO_TWIN_CFG (R226, R231). With T_FAILED, MODE reads OFF and ignores writes. -/
def Ctl.twinCfgWrite (c : Ctl) (be : BitVec 2) (data : Word) : Ctl :=
  let v := (merge (c.reg oTwinCfg) be data).toNat
  let old := c.twinMode
  let mode := if c.fld oTwinStat twinStat_T_FAILED = 1 then 0 else bits v 0 2
  if !be.getLsbD 0 then c
  else if mode = 3 ∨ (mode ≠ old ∧ c.journalOpen) ∨ (mode = 1 ∧ c.journalRegions.isEmpty) then c.flag oTwinStat twinStat_CFG_REFUSED
  else
    let resync := decide (bits v 2 1 = 1)
    let begins := resync && decide (c.fld oTwinCfg twinCfg_RESYNC = 0)
    let ce := bits v 8 5
    let c := if 8 ≤ ce ∧ ce ≤ 24 then c.setFld oTwinCfg twinCfg_CONF_EXP ce else c
    let c := ((c.setFld oTwinCfg twinCfg_MODE mode).setFld oTwinCfg twinCfg_RESYNC resync.toNat).setFld oTwinCfg twinCfg_LAND_PAUSE (bits v 3 1)
    let c := c.noteWrote oTwinCfg (beMask be)
    let c := if mode ≠ old then c.twinEnter mode resync
      else if mode = 1 ∧ begins ∧ c.twinPhase = 2 then c.survivor else c
    if mode = 1 ∧ bits v 3 1 = 0 then c.landAll else c

/-! ### The commands -/

/-- DATA_PACKET: a beat of a DATA packet arrives on a port. A JCOPY or REPLAY never comes on a link port, nor a DATA packet on T, so that
their KINDs there are refused (R212). -/
def execDataPacket (port : Nat) (beat : LinkBeat) (s : State) : Out :=
  onUnit (decide (port ≤ 16)) s fun c => c.dataArrives port 1 beat false
/-- JCOPY: a beat of one arrives on T. -/
def execJcopy (beat : LinkBeat) (s : State) : Out := onUnit true s fun c => c.dataArrives 16 5 beat false
/-- REPLAY: a beat of one arrives on T; `last` says that it is the last entry that the survivor holds (R231, log entry 24). -/
def execReplay (beat : LinkBeat) (last : Bool) (s : State) : Out := onUnit true s fun c => c.dataArrives 16 9 beat last
/-- JCONF. -/
def execJconf (beat : LinkBeat) (s : State) : Out := onUnit true s fun c => c.twinCtl 6 beat fun c h => c.jconfTake h
/-- RTAB; `last` says that the survivor holds no entry to replay after it (R231, log entry 24). -/
def execRtab (beat : LinkBeat) (last : Bool) (s : State) : Out := onUnit true s fun c => c.twinCtl 10 beat fun c h => c.rtabTake h last
/-- CKPT. -/
def execCkpt (beat : LinkBeat) (s : State) : Out := onUnit true s fun c => c.twinCtl 7 beat fun c h => c.ckptTake h
/-- JOURNAL_LANDING. -/
def execJournalLanding (id : Nat) (s : State) : Out := onBanks true s fun b c => c.journalSlot b id
/-- SOLO_ENTRY. -/
def execSoloEntry (s : State) : Out := onUnit true s fun c => c.soloEntry
/-- CKPT_ID_WRITE. -/
def execCkptIdWrite (be : BitVec 2) (data : Word) (s : State) : Out := onUnit true s fun c => c.ctlWrite (.ckptIdWrite be data) be fun c => c.ckptWrite be data
/-- TWIN_CFG_WRITE. -/
def execTwinCfgWrite (be : BitVec 2) (data : Word) (s : State) : Out := onUnit true s fun c => c.ctlWrite (.twinCfgWrite be data) be fun c => c.twinCfgWrite be data
/-- RESYNC (R231): a write of RESYNC = 1 with MODE MIRROR that leaves the other fields as they are. -/
def execResync (s : State) : Out :=
  onUnit true s fun c => c.ctlWrite .resync 3 fun c => c.twinCfgWrite 3 (BitVec.ofNat 64 (putBits (c.reg oTwinCfg).toNat 0 3 5))

end Sys2Proof.Machine
end

