-- ==== Sys2Proof/Machine/Intermission.lean ====
section
/-! DEFINITION. Intermissions (R277 to R283): SAVE, quiescence, the image, RESTORE and RESUME. -/

namespace Sys2Proof.Machine

/-! ### Phases (R277, R278) -/

def Ctl.intmPhase (c : Ctl) : Nat := c.fld oIntmStat intmStat_PHASE
def Ctl.setIntm (c : Ctl) (f : FieldPos) (v : Nat) : Ctl := c.setFld oIntmStat f v

/-- The groups of a mask. -/
def groupsOf (m : Nat) : List Nat := (List.range Config.groups).filter (Nat.testBit m)

/-- MIO_INTM_CFG.GROUPS. -/
def Ctl.intmMask (c : Ctl) : Nat := c.fld oIntmCfg intmCfg_GROUPS

/-- A command or configuration write is refused: 1 STATE, 2 CONFIG. -/
def Ctl.intmRefuse (c : Ctl) (r : Nat) : Ctl := (c.setIntm intmStat_RESULT r).flag oIntmStat intmStat_REFUSED

/-- Hold or release the start decisions of the groups of a mask. -/
def Ctl.intmHold (c : Ctl) (m : Nat) (h : Bool) : Ctl := forAll (groupsOf m) (fun g c => c.setGroup g { c.group g with intmHeld := h }) c

/-- Present the source reads of the next packet of each RUNNING descriptor that has none under way. -/
def Ctl.sendsReread (c : Ctl) : Ctl :=
  forAll (c.liveSends.filter fun e => decide (c.sdState e = 2) && decide ((c.send e).gathered = [])
      && !c.areqs.any fun a => match a.kind with | .sendRead y _ => decide (y = e) | _ => false) (fun e c => c.sdRead e) c

/-- The intermission ends: every hold is released and held packets drain (R279, R283). -/
def Ctl.intmEnd (c : Ctl) : Ctl :=
  let c := (c.intmHold (2 ^ Config.groups - 1) false).setIntm intmStat_PHASE 0
  let a : Audit := { c.audit with hold := 0, quiet := 0 }
  let a : Audit := { a with saveAt := none, save := none, rest := none }
  { c with audit := a }.sendsReread

/-- A sequencer of a named group is TRAPPED. -/
def Ctl.intmTrapped (c : Ctl) : Bool := (groupsOf c.intmMask).any fun g => (c.members g).any fun n => decide ((c.seq n).state = .trapped)

/-- A group with no sequencer that is neither HALTED nor TRAPPED (R277). -/
def Ctl.intmAsleep (c : Ctl) (g : Nat) : Bool := (c.members g).all fun n => decide ((c.seq n).state = .halted)

/-- Every named group is held at its boundary. -/
def Ctl.intmAllHeld (c : Ctl) : Bool := (groupsOf c.intmMask).all fun g => (c.group g).intmHeld

/-- The named groups whose sequencers are all HALTED are held at once (R277). -/
def Ctl.intmHoldAsleep (c : Ctl) : Ctl :=
  forAll (groupsOf c.intmMask) (fun g c => if c.intmAsleep g then c.setGroup g { c.group g with intmHeld := true } else c) c

/-- The phases that follow from the groups' states: a TRAPPED sequencer ends the SAVE with STATE, and once every named group is
held they are quiesced (R277, R278). -/
def Ctl.intmAdvance (c : Ctl) : Ctl :=
  if (c.intmPhase = 1 ∨ c.intmPhase = 2) ∧ c.intmTrapped then c.intmEnd.setIntm intmStat_RESULT 1
  else if c.intmPhase ≠ 1 then c
  else
    let c := c.intmHoldAsleep
    if c.intmAllHeld then
      let c := c.setIntm intmStat_PHASE 2
      { c with audit := { c.audit with quiet := BitVec.ofNat 32 c.intmMask } }
    else c

/-- SAVE (R277, MIO_INTM_CMD). -/
def Ctl.intmSave (c : Ctl) (atEn : Bool) (atScene : BitVec 32) : Ctl :=
  if c.intmPhase ≠ 0 then c.intmRefuse 1
  else if c.fld oIntmCfg intmCfg_PORTS = 0 ∨ c.fld oIntmAddr intmAddr_SADDR % 128 ≠ 0
      ∨ 4096 < c.fld oIntmAddr intmAddr_CNT_FIRST + c.fld oIntmAddr intmAddr_CNT_N then c.intmRefuse 2
  else
    let c := (c.setIntm intmStat_RESULT 0).setIntm intmStat_PHASE 1
    { c with audit := { c.audit with saveAt := if atEn then some atScene else none } }.intmAdvance

/-- Every access of the sequencer has completed by ec `e` and every release has applied (R159). -/
def Seq.drained (q : Seq) (e : Nat) : Bool :=
  (q.reads.all fun r => r.done) && (q.writes.all fun w => w.done) && decide (q.releases = []) && q.gatherOver e

/-- An unscheduled request of context x. -/
def AKind.isCtx (x : Nat) : AKind → Bool
  | .streamLand y _ _ => decide (y = x)
  | .stageHold y _ _ => decide (y = x)
  | .spillRead y _ => decide (y = x)
  | .osetRead y _ => decide (y = x)
  | .osetApply y _ => decide (y = x)
  | _ => false

/-- A RUNNING context has no request and no landing outstanding. -/
def Ctl.ctxStill (c : Ctl) (x : Nat) : Bool :=
  decide (c.cx x strCtx_OUTST = 0) && !(c.landed.any fun l => decide (l.ctx = x)) && !(c.areqs.any fun a => a.kind.isCtx x)

/-- A RUNNING descriptor has finished its packet and waits for no acknowledgement. -/
def Ctl.sendStill (c : Ctl) (e : Nat) : Bool :=
  decide ((c.send e).unacked = []) && !(c.links.any fun l => l.2.data.any fun t => decide (t.desc = some e))

/-- The conditions of R278. -/
def Ctl.intmQuiet (c : Ctl) : Bool :=
  let m := c.intmMask
  ((groupsOf m).all fun g => (c.members g).all fun n => (c.seq n).drained c.ec)
    && ((c.liveCtxs.filter fun x => decide (c.ctxState x = 2) && Nat.testBit m (c.cx x strCtx_GROUP)).all c.ctxStill)
    && (c.curtains.all fun k => k.2.parts.all fun e => decide (e.1 < 0x4000) || !Nat.testBit m (c.cx (e.1 - 0x4000) strCtx_GROUP) || decide (e.2.state = .out))
    && (c.curtains.all fun k => decide (k.2.round0.grown = none ∧ k.2.round1.grown = none ∧ k.2.coming = []))
    && (c.packets.all fun p => !Nat.testBit m (c.winOwner p.window))
    && ((c.liveSends.filter fun e => decide (c.sdState e = 2) && Nat.testBit m (c.sd e lsend_GROUP)).all c.sendStill)

/-! ### The image (R280, R281). The arrangement inside a sequencer and a curtain entry is the model's (log entry 28). -/

/-- A granule of the image that carries 256 data bits. -/
def imgGranule (v : Nat) : Granule := mkWorking (v % 2 ^ 256) false true 0

/-- A number in `n` granules. -/
def imgGranules (n v : Nat) : List Granule := (List.range n).map fun i => imgGranule (v >>> (256 * i))

/-- Words as granules, four to each. -/
def Ctl.imgRegs (c : Ctl) (off n : Nat) : List Granule := (List.range n).map fun i => imgGranule (c.reg256 (off + 32 * i))

/-- A saved address generator. -/
def AddrGen.vals (a : AddrGen) : List Nat :=
  [a.base.toNat, a.lanes - 1, a.opmode.toNat, a.oparg.toNat] ++ a.count.map (fun n => n - 1) ++ a.stride.map (fun s => (s % 2 ^ 27).toNat) ++ a.idx

/-- An address generator from saved values. -/
def AddrGen.ofVals (v : List Nat) : AddrGen :=
  let at_ := fun i => v.getD i 0
  { base := BitVec.ofNat 27 (at_ 0), lanes := at_ 1 + 1, opmode := BitVec.ofNat 4 (at_ 2), oparg := BitVec.ofNat 16 (at_ 3)
    count := [at_ 4 + 1, at_ 5 + 1, at_ 6 + 1, at_ 7 + 1], stride := [sint 27 (at_ 8), sint 27 (at_ 9), sint 27 (at_ 10), sint 27 (at_ 11)]
    idx := [at_ 12, at_ 13, at_ 14, at_ 15] }

/-- A saved loop: distances of its first and last word from the SCENE word, and trips left; 63 marks none. -/
def loopVals (pc : Nat) (l : List LoopEntry) (i : Nat) : List Nat :=
  match l[i]? with | some e => [pc - e.first, e.last - pc, e.left] | none => [63, 0, 0]

/-- The loops of saved values, innermost first. -/
def loopsOf (pc : Nat) (v : List Nat) : List LoopEntry :=
  (List.range 4).filterMap fun i =>
    if v.getD (3 * i) 63 = 63 then none else some { first := pc - v.getD (3 * i) 0, last := pc + v.getD (3 * i + 1) 0, left := v.getD (3 * i + 2) 0 }

/-- The read-ahead entries that stand. -/
def Seq.raLive (q : Seq) : List RaEntry := (q.ra.filter fun e => decide (e.gone = none)).take 128

/-- The 144 granules of sequencer `n`. Places of the read-ahead wing that hold nothing repeat the last index. -/
def Ctl.imgSeq (c : Ctl) (n : Nat) : List Granule :=
  let q := c.seq n
  let ra := q.raLive
  let last := match ra.getLast? with | some e => e.gi | none => 0
  let vals := q.ag0.vals ++ q.ag1.vals ++ (List.range 8).map (c.wt n)
    ++ [q.pc, q.half.toNat, q.baseNo.toNat, (decide (q.state = .waiting)).toNat]
    ++ (List.range 4).flatMap (loopVals q.pc q.loops) ++ [(!ra.isEmpty).toNat] ++ (List.range 128).map fun i => match ra[i]? with | some e => e.gi | none => last
  imgGranules 16 (packBits (seqWidths.zip vals)) ++ (List.range 128).map fun i => match ra[i]? with | some e => e.granule | none => fillGranule

/-- The number of different indices at the front of a list. -/
def distinctFront : List Nat → List Nat → Nat
  | _, [] => 0
  | seen, x :: t => if seen.contains x then 0 else distinctFront (x :: seen) t + 1

/-- Code kind of a saved granule of the read-ahead wing, which is a clean word of its code: its region's where that code fits, else the other. -/
def savedRep (here : Bool) (g : Granule) : Bool :=
  let clean := fun (rep : Bool) => !(decodeG rep g).bad && decide ((decodeG rep g).fixed = 0)
  if clean here then here else if clean (!here) then !here else here

/-- Sequencer `n` takes the state of its saved values and its read-ahead entries. It is WAITING at its SCENE word or HALTED. -/
def Ctl.seqFromImg (c : Ctl) (n v : Nat) (ra : List Granule) : Ctl :=
  let u := unpackBits seqWidths v
  let pc := u.getD 40 0
  let gis := u.drop 57
  let k := if u.getD 56 0 = 1 then distinctFront [] gis else 0
  let entries := (List.range k).map fun i =>
    ({ gi := gis.getD i 0, granule := ra.getD i fillGranule, rep := savedRep (c.repOf (gis.getD i 0)) (ra.getD i fillGranule), since := c.ec } : RaEntry)
  let q := { c.seq n with ag0 := AddrGen.ofVals (u.take 16), ag1 := AddrGen.ofVals ((u.drop 16).take 16), pc := pc, lastPc := pc }
  let q : Seq := { q with half := decide (u.getD 41 0 = 1), baseNo := BitVec.ofNat 32 (u.getD 42 0), sceneNo := BitVec.ofNat 32 (u.getD 42 0) }
  let q : Seq := { q with loops := loopsOf pc (u.drop 44), ra := entries, waitSince := c.ec, parkedSince := c.ec }
  let q : Seq := { q with head := [], evaluated := false, loadHold := c.loading q.half }
  let wait := decide (u.getD 43 0 = 1)
  let c := c.setSeq n { q with state := if wait then .waiting else .halted }
  let c := if wait then c.evalScene n c.ec else c
  forAll (List.range 8) (fun k c => c.setFld (oSeqWt n) (wtPos k) (u.getD (32 + k) 0)) c

/-- Participants of a curtain that are contexts and not in the state of reset: at most 80 are saved. -/
def Curtain.ctxParts (k : Curtain) : List (Nat × Participant) := (k.parts.filter fun e => decide (0x4000 ≤ e.1 ∧ e.2 ≠ {})).take 80

/-- A participant's state and parity as a number. -/
def Participant.code (p : Participant) : Nat := (match p.state with | .out => 0 | .entered => 1 | .latched => 2) + 4 * p.parity.toNat

/-- A participant from its number. -/
def Participant.ofCode (v : Nat) : Participant :=
  { state := if v % 4 = 1 then .entered else if v % 4 = 2 then .latched else .out, parity := decide (v / 4 = 1) }

/-- Widths of a curtain entry. -/
def curWidths : List Nat := [64, 32, 32, 2, 1, 32, 32, 2, 1] ++ List.replicate 104 3 ++ [7] ++ (List.replicate 80 [14, 3]).flatten

/-- The 8 granules of curtain k. -/
def Ctl.imgCur (c : Ctl) (k : Nat) : List Granule :=
  let u := c.curtain k
  let round := fun (r : CurRound) => [r.own, r.child, r.scope, r.sent.toNat]
  let cp := u.ctxParts
  let vals := [(c.reg (oCurCfg k)).toNat] ++ round u.round0 ++ round u.round1 ++ (List.range 104).map (fun n => (u.part n).code)
    ++ [cp.length] ++ cp.flatMap fun e => [e.1 - 0x4000, e.2.code]
  imgGranules 8 (packBits (curWidths.zip vals))

/-- Curtain k takes the state of its saved values. -/
def Ctl.curFromImg (c : Ctl) (k v : Nat) : Ctl :=
  let u := unpackBits curWidths v
  let at_ := fun i => u.getD i 0
  let round := fun i => ({ own := at_ i, child := at_ (i + 1), scope := at_ (i + 2), sent := decide (at_ (i + 3) = 1) } : CurRound)
  let seqs := (List.range 104).filterMap fun n => if at_ (9 + n) = 0 then none else some (n, Participant.ofCode (at_ (9 + n)))
  let ctxs := (List.range (at_ 113)).map fun i => (0x4000 + at_ (114 + 2 * i), Participant.ofCode (at_ (115 + 2 * i)))
  (c.setReg (oCurCfg k) (BitVec.ofNat 64 (at_ 0))).setCurtain k { round0 := round 1, round1 := round 5, parts := seqs ++ ctxs }

/-- The numbers below `n` that are saved, as a bit map. -/
def bitMap (l : List Nat) : Nat := (l.map fun i => 2 ^ i).sum

/-- Sequencers, contexts, windows, descriptors, banks and curtains of an image of the groups of mask m (R280). -/
def Ctl.imgSeqs (c : Ctl) (m : Nat) : List Nat := (List.range Config.seqs).filter fun n => Nat.testBit m (c.groupOf n)
def Ctl.imgCtxs (c : Ctl) (m : Nat) : List Nat := (List.range Config.contexts).filter fun x => Nat.testBit m (c.cx x strCtx_GROUP)
def Ctl.imgWins (c : Ctl) (m : Nat) : List Nat := (List.range Config.windows).filter fun w => Nat.testBit m (c.winOwner w)
def Ctl.imgSends (c : Ctl) (m : Nat) : List Nat := (List.range Config.sends).filter fun e => Nat.testBit m (c.sd e lsend_GROUP)
/-- Whether an OWNER entry names a group of mask m. -/
def ownerIn (m o : Nat) : Bool := decide (0x20 ≤ o) && Nat.testBit m (o - 0x20)
def Ctl.imgOwned (c : Ctl) (m : Nat) : List Nat := (List.range Config.banks).filter fun pb => ownerIn m (c.owner pb)
def Ctl.imgCurs (c : Ctl) : List Nat := (List.range Config.curtains).filter (Nat.testBit (c.reg oIntmCur).toNat)

/-- Counters in granules, eight to each. -/
def Ctl.imgCnts (c : Ctl) (first n : Nat) : List Granule :=
  (List.range ((n + 7) / 8)).map fun i =>
    imgGranule (packBits ((List.range 8).map fun j => (32, if 8 * i + j < n then c.fld (oCnt (first + 8 * i + j)) cnt_VALUE else 0)))

/-- The map section: the regions, then the bank owners. -/
def Ctl.imgMap (c : Ctl) : List Granule := c.imgRegs (oRegion 0) 16 ++ c.imgRegs (oBankOwn 0) (2 * Config.cpq)

/-- The cue sheets: active, then shadow copy of each quadrant. -/
def Ctl.imgSheets (c : Ctl) : List Granule := (List.range 4).flatMap fun q => c.imgRegs (csOff q 1 0 0) 128 ++ c.imgRegs (csOff q 0 0 0) 128

/-- A window's granule: its four words. What they do not hold goes into bits that they reserve (log entry 28): whether a packet has been counted since
the window opened, and an ordered window's round, else the COUNT of the latest such packet (R289). -/
def Ctl.imgWin (c : Ctl) (w : Nat) : Granule :=
  let r := c.win w
  let v := putBits (c.reg256 (oWin w)) 13 1 (!r.latest.isEmpty).toNat
  let x := if c.wn w win_ORDERED = 1 then r.round else match r.latest.head? with | some l => l.2.2.toNat | none => 0
  imgGranule (putBits (putBits (putBits v 162 30 x) 212 12 (x >>> 30)) 120 8 (x >>> 42))

/-- What a descriptor's reserved last word holds in an image (log entry 28): whether it has latched an input packet, with the packet's COUNT (R289), and
whether it has sent a poisoned granule (R291). -/
def SendRun.saved (r : SendRun) : Nat :=
  r.latched.isSome.toNat + 2 * r.poisSent.toNat + 4 * (match r.latched with | some l => l.2.toNat | none => 0)

/-- A descriptor's two granules: its eight words. -/
def Ctl.imgSend (c : Ctl) (e : Nat) : List Granule :=
  [imgGranule (c.reg256 (oLsend e)), imgGranule (putBits (c.reg256 (oLsend e + 32)) 192 64 (c.send e).saved)]

/-- The sections between the header and the banks. -/
def Ctl.imgMiddle (c : Ctl) (m : Nat) : List Granule :=
  c.imgMap ++ c.imgSheets ++ (c.imgSeqs m).flatMap c.imgSeq
    ++ imgGranules 64 (bitMap (c.imgCtxs m)) ++ (c.imgCtxs m).flatMap (fun x => c.imgRegs (oStrCtx x) 2)
    ++ imgGranules 4 (bitMap (c.imgWins m)) ++ (c.imgWins m).map c.imgWin
    ++ imgGranules 1 (bitMap (c.imgSends m)) ++ (c.imgSends m).flatMap c.imgSend
    ++ c.imgCnts (c.fld oIntmAddr intmAddr_CNT_FIRST) (c.fld oIntmAddr intmAddr_CNT_N)
    ++ c.imgCurs.flatMap c.imgCur

/-- The bytes of the header before its check word (R281). -/
def Ctl.imgHead (c : Ctl) (m len : Nat) : List Byte :=
  let first := c.fld oIntmAddr intmAddr_CNT_FIRST
  let digest := fun (h : Nat) => if (c.imgSeqs m).any fun n => decide ((c.seq n).half.toNat = h) then c.reg256 (oProgDig h) else 0
  leBytes 4 0x4D494E54 ++ leBytes 4 0x201 ++ leBytes 8 c.geomWord ++ leBytes 8 (c.reg oLatMap).toNat ++ leBytes 4 m
    ++ leBytes 2 first ++ leBytes 2 (c.fld oIntmAddr intmAddr_CNT_N) ++ leBytes 8 (c.reg oIntmCur).toNat
    ++ leBytes 4 (c.imgSeqs m).length ++ leBytes 4 (c.imgCtxs m).length ++ leBytes 4 (c.imgWins m).length ++ leBytes 4 (c.imgSends m).length
    ++ leBytes 4 (c.imgOwned m).length ++ leBytes 4 len ++ leBytes 8 (frameOf c.bc) ++ leBytes 4 (c.time.sub / 2 ^ 32) ++ leBytes 4 (c.time.sec % 2 ^ 32)
    ++ leBytes 48 0 ++ leBytes 32 (digest 0) ++ leBytes 32 (digest 1) ++ leBytes 60 0

/-- Bytes as granules, 32 to each. -/
def bytesGranules (n : Nat) (l : List Byte) : List Granule := imgGranules n (leNat l)

/-- The image up to its banks: header, with its check word, and the sections. -/
def Ctl.imgFront (c : Ctl) : List Granule :=
  let m := c.intmMask
  let mid := c.imgMiddle m
  let head := c.imgHead m (8 + mid.length + 4096 * (c.imgOwned m).length)
  bytesGranules 8 (head ++ leBytes 4 (crc32c (head ++ dataBytes mid))) ++ mid

/-- INTM_QUIESCED (R278 to R280): the image is formed, and its writing begins. -/
def Ctl.intmQuiesced (c : Ctl) : Ctl :=
  let c := c.intmAdvance
  if c.intmPhase ≠ 2 ∨ ¬ c.intmQuiet ∨ c.blackout ∨ ¬ c.sysReady then c
  else
    let r : SaveRun := { front := c.imgFront, banks := c.imgOwned c.intmMask }
    let c := (c.setIntm intmStat_PHASE 3).setIntm intmStat_IMG_LEN r.len
    { c with audit := { c.audit with hold := BitVec.ofNat 32 c.intmMask, save := some r } }

/-- Every request of a SAVE has been made and acknowledged; or one has failed, after which no further one is made, and the others are through
(DESIGN CHOICE, log entry 107). -/
def Ctl.saveOver (c : Ctl) (r : SaveRun) : Bool :=
  (r.failed || (List.range Config.stackPorts).all fun n => (c.intmBlock .save r.len n r.asked).isNone) && !c.sysFlying .save

/-- SAVE_DONE (R283): the stacks have taken the image, or one refused it or did not answer; held packets drain (R279). -/
def Ctl.intmSaveDone (c : Ctl) : Ctl :=
  match c.audit.save with
  | none => c
  | some r =>
    if c.intmPhase ≠ 3 ∨ c.blackout ∨ ¬ c.sysReady ∨ ¬ c.saveOver r then c
    else
      let c := (c.setIntm intmStat_PHASE 4).setIntm intmStat_RESULT (if r.failed then 6 else 0)
      { c with audit := { c.audit with hold := 0, save := none } }

/-! ### RESTORE (R282, R283) -/

/-- The set bits of a map of `n` granules at granule i. -/
def imgBits (img : List Granule) (i n : Nat) : List Nat := let m := imgNat img i n; (List.range (256 * n)).filter (Nat.testBit m)

/-- Word k of the granules from i on. -/
def imgWord (img : List Granule) (i k : Nat) : Word := BitVec.ofNat 64 (imgNat img (i + k / 4) 1 >>> (64 * (k % 4)))

/-- The saved owner of a bank: the map section's. -/
def imgOwner (img : List Granule) (pb : Nat) : Nat := bits (imgWord img 24 (pb / 8)).toNat (8 * (pb % 8)) 6

/-- The banks of an image, in order. -/
def imgBankList (img : List Granule) (m : Nat) : List Nat := (List.range Config.banks).filter fun pb => ownerIn m (imgOwner img pb)

/-- The code of granule i of the part before the banks: read-ahead entries are in the code of their region. -/
def Ctl.imgRep (c : Ctl) (img : List Granule) (p : ImgPlan) (i : Nat) : Bool :=
  let j := (i - p.seqs) % 144
  let gi := (unpackBits seqWidths (imgNat img (i - j) 16)).getD (57 + j - 16) 0
  decide (p.seqs ≤ i ∧ i < p.ctxs ∧ 16 ≤ j) && c.repOf gi

/-- A granule of the part before the banks is uncorrectable. -/
def Ctl.imgBroken (c : Ctl) (img : List Granule) (p : ImgPlan) : Bool :=
  (List.range p.banks).any fun i => (decodeG (c.imgRep img p i) (img.getD i 0)).bad

/-- The check word of an image with its first `n` granules. -/
def imgCrc (img : List Granule) (n : Nat) : Nat := crc32c ((leBytes 252 (imgNat img 0 8)) ++ dataBytes ((img.take n).drop 8))

/-- A saved cue sheet word differs from the current one. -/
def Ctl.sheetsDiffer (c : Ctl) (img : List Granule) : Bool :=
  (List.range 4).any fun q => [1, 0].any fun a => (List.range 512).any fun k =>
    imgWord img (88 + 256 * q + (if a = 1 then 0 else 128)) k != c.reg (csOff q a 0 0 + 8 * k)

/-- The result of the checks before the bank section (R282), 0 where every check passes: 7 HEADER, 2 CONFIG, 3 MISMATCH, 4 BUSY_OBJ. -/
def Ctl.restoreCode (c : Ctl) (sheets : Bool) (img : List Granule) : Nat :=
  let h := imgNat img 0 8
  let p := imgPlan h
  let m := headField h 0x18 4
  let oldDigest := fun (k : Nat) => let d := headField h (0x80 + 32 * k) 32
    decide (d ≠ 0) && !(decide (c.fld (oProgDig k) progDig_VALID = 1) && decide (c.reg256 (oProgDig k) = d))
  if headField h 0 4 ≠ 0x4D494E54 ∨ headField h 4 4 ≠ 0x201 ∨ headField h 0xFC 4 ≠ imgCrc img p.banks ∨ c.imgBroken img p then 7
  else if headField h 8 8 ≠ c.geomWord ∨ headField h 0x10 8 ≠ (c.reg oLatMap).toNat ∨ ((List.range 64).any fun r => imgWord img 8 r != c.reg (oRegion r))
      ∨ oldDigest 0 ∨ oldDigest 1 ∨ (!sheets && c.sheetsDiffer img) ∨ (sheets && (List.range 4).any fun q => !c.csHeldNow q) then 2
  else if (imgBankList img m).any fun pb => decide (c.owner pb ≠ imgOwner img pb) then 3
  else if ((c.imgSeqs m).take (headField h 0x28 4)).any (fun n => decide ((c.seq n).state ≠ .halted))
      ∨ (imgBits img p.ctxs 64).any (fun x => decide (c.ctxState x ≠ 0)) ∨ (imgBits img p.sends 1).any (fun e => decide (c.sdState e ≠ 0))
      ∨ (imgBits img p.wins 4).any (fun w => decide (c.wn w win_STATE ≠ 0))
      ∨ ((List.range 64).filter (Nat.testBit (headField h 0x20 8))).any (fun k => !c.curIdle k) then 4
  else 0

/-- Write words of the image over `n` registers from `off`. -/
def Ctl.restoreRegs (c : Ctl) (img : List Granule) (i off n : Nat) : Ctl :=
  forAll (List.range n) (fun k c => c.setReg (off + 8 * k) (imgWord img i k)) c

/-- The owner table is written (R282): the entry of a bank under strike stays until its strike is complete (log entry 108). -/
def Ctl.restoreOwners (c : Ctl) (img : List Granule) : Ctl :=
  forAll (List.range Config.banks) (fun pb c => if c.striking pb then c else c.setOwner pb (imgOwner img pb)) c

/-- What the reserved bits of a saved window hold: an ordered window's round, else a COUNT (log entry 28). -/
def savedRound (v : Nat) : Nat := bits v 162 30 + (bits v 212 12 <<< 30) + (bits v 120 8 <<< 42)

/-- A window takes its saved words; the bits that they reserve read as zero. The COUNT of an ordered window's latest packet is the value of its arrival
counter. -/
def Ctl.winFromImg (c : Ctl) (w v : Nat) : Ctl :=
  let clean := putBits (putBits (putBits (putBits v 13 1 0) 162 30 0) 212 12 0) 120 8 0
  let c := forAll (List.range 4) (fun k c => c.setReg (oWin w + 8 * k) (BitVec.ofNat 64 (clean >>> (64 * k)))) c
  let ord := decide (c.wn w win_ORDERED = 1)
  let count := if ord then c.fld (oCnt (c.wn w win_ARR_CNT)) cnt_VALUE else savedRound v
  c.setWin w { round := if ord then savedRound v else 0, latest := if Nat.testBit v 13 then [(restoredId, 0, BitVec.ofNat 32 count)] else [] }

/-- A descriptor takes its saved words, and with them the input packet that it has latched. The section has no room for that packet's digest, which is
a free value (log entry 28). -/
def Ctl.sendFromImg (c : Ctl) (img : List Granule) (e i : Nat) : Ctl :=
  let c := c.restoreRegs img i (oLsend e) 7
  let v := (imgWord img i 7).toNat
  let r : SendRun := { armedAt := c.ec, poisSent := Nat.testBit v 1 }
  if Nat.testBit v 0 then
    c.draw.2.setSend e { r with latched := some (restoredId, BitVec.ofNat 32 (v / 4)), digest := some (BitVec.ofNat 256 c.draw.1.toNat) }
  else c.setSend e r

/-- The sections before the banks are written (R282). The region map equals the current one, and cue sheets are written with SHEETS. -/
def Ctl.restoreState (c : Ctl) (sheets : Bool) (img : List Granule) : Ctl :=
  let h := imgNat img 0 8
  let p := imgPlan h
  let m := headField h 0x18 4
  let c := c.restoreOwners img
  let c := if sheets then forAll (List.range 4) (fun q c =>
      (c.restoreRegs img (88 + 256 * q) (csOff q 1 0 0) 512).restoreRegs img (216 + 256 * q) (csOff q 0 0 0) 512) c else c
  let cnt := headField h 0x1C 2
  let c := forAll (List.range (headField h 0x1E 2)) (fun i c =>
    c.setFld (oCnt (cnt + i)) cnt_VALUE (bits (imgNat img (p.cnts + i / 8) 1) (32 * (i % 8)) 32)) c
  let curs := (List.range 64).filter (Nat.testBit (headField h 0x20 8))
  let c := forAll (List.range curs.length) (fun i c => c.curFromImg (curs.getD i 0) (imgNat img (p.curs + 8 * i) 8)) c
  let xs := imgBits img p.ctxs 64
  let c := forAll (List.range xs.length) (fun i c =>
    let x := xs.getD i 0
    let c := c.restoreRegs img (p.ctxs + 64 + 2 * i) (oStrCtx x) 8
    c.setCtx x { startBc := c.bc, armedAt := c.ec, accNext := c.cx x strCtx_COUNTED, movedCc := c.cc }) c
  let ws := imgBits img p.wins 4
  let c := forAll (List.range ws.length) (fun i c => c.winFromImg (ws.getD i 0) (imgNat img (p.wins + 4 + i) 1)) c
  let es := imgBits img p.sends 1
  let c := forAll (List.range es.length) (fun i c => c.sendFromImg img (es.getD i 0) (p.sends + 1 + 2 * i)) c
  let ns := (c.imgSeqs m).take (headField h 0x28 4)
  forAll (List.range ns.length) (fun i c =>
    c.seqFromImg (ns.getD i 0) (imgNat img (p.seqs + 144 * i) 16) ((img.drop (p.seqs + 144 * i + 16)).take 128)) c

/-- A restore ends in the phase it was taken in, with nothing written. Granules that waited for their code are checked as working ones, and its reads in
flight complete and are discarded (DESIGN CHOICE, log entry 107). -/
def Ctl.restoreBack (c : Ctl) (r : RestRun) (res : Nat) : Ctl :=
  let c := c.frontCheck r r.unchecked fun _ => false
  let c := (c.setIntm intmStat_RESULT res).setIntm intmStat_PHASE (if r.wasHeld then 4 else 0)
  { c.sysDead .restore with audit := { c.audit with hold := 0, rest := none } }

/-- RESTORE (R282): the reading of the image begins with its first block, which holds the header. -/
def Ctl.intmRestore (c : Ctl) (sheets : Bool) : Ctl :=
  if c.intmPhase ≠ 0 ∧ c.intmPhase ≠ 4 then c.intmRefuse 1
  else
    let a : Audit := { c.audit with hold := BitVec.ofNat 32 c.intmMask, rest := some { sheets := sheets, wasHeld := decide (c.intmPhase = 4) } }
    (({ c with audit := a } : Ctl).setIntm intmStat_RESULT 0).setIntm intmStat_PHASE 5

/-- Granules of the bank section that came with the last block before it are presented (R282). -/
def Ctl.restoreTail (c : Ctl) (l : Tab (Granule × Bool)) : Ctl :=
  l.foldl (fun c e => c.restArrive (stripePlace (c.fld oIntmCfg intmCfg_PORTS) 0 e.1).1 e.1 e.2.1 e.2.2) c

/-- The part of an image before its banks is there, `n` granules: it is checked, and written when every check passes (R282). -/
def Ctl.restoreFront (c : Ctl) (r : RestRun) (n : Nat) : Ctl :=
  let img := r.image n
  let res := if r.erred n then 7 else c.restoreCode r.sheets img
  if res ≠ 0 then c.restoreBack r res
  else
    let m := BitVec.ofNat 32 (headField (imgNat img 0 8) 0x18 4)
    let c := (c.intmHold m.toNat true).restoreState r.sheets img
    let pbs := imgBankList img m.toNat
    let r : RestRun := { r with groups := some m, base := n, banks := pbs, len := n + 4096 * pbs.length, got := r.got.filter fun e => decide (n ≤ e.1) }
    let a : Audit := { c.audit with quiet := c.audit.quiet ||| m, restored := c.audit.restored ||| m, rest := some { r with got := [] } }
    ({ c with audit := a } : Ctl).restoreTail (r.got.filter fun e => decide (e.1 < n + 4096 * pbs.length))

/-- A RESTORE goes on with what has come (R282, R283): a read that timed out before the bank section ends it with STACK; the header says how much
there is before the banks; and once that is all there it is checked and written. -/
def Ctl.restoreOn (c : Ctl) : Ctl :=
  match c.audit.rest with
  | none => c
  | some r =>
    if c.intmPhase ≠ 5 ∨ r.groups.isSome ∨ c.blackout ∨ ¬ c.sysReady then c
    else if r.failed then c.restoreBack r 6
    else match r.front with
      | none => c
      | some n =>
        if (r.image n).length < n then c.setRest (some { r with len := max r.len n }) else c.restoreFront r n

/-- RESTORE_DONE (R282, R283): the bank section has been written, whole or as far as it came before a read timed out. -/
def Ctl.intmRestoreDone (c : Ctl) : Ctl :=
  let c := c.restoreOn
  match c.audit.rest with
  | none => c
  | some r =>
    let waits := c.sysFlying .restore || c.areqs.any fun a => match a.kind with | .imgLand _ _ _ => true | _ => false
    if c.intmPhase ≠ 5 ∨ r.groups.isNone ∨ c.blackout ∨ ¬ c.sysReady ∨ waits ∨ (!r.failed ∧ r.landed < 4096 * r.banks.length) then c
    else
      let c := (c.setIntm intmStat_PHASE 4).setIntm intmStat_RESULT (if r.failed then 6 else if r.pois then 5 else 0)
      c.setRest none

/-- RESUME (R278, R283). -/
def Ctl.intmResume (c : Ctl) : Ctl :=
  if c.intmPhase = 1 ∨ c.intmPhase = 2 ∨ c.intmPhase = 4 then (c.setIntm intmStat_RESULT 0).intmEnd else c.intmRefuse 1

/-! ### The commands -/

/-- SAVE. -/
def execSave (atEn : Bool) (atScene : BitVec 32) (s : State) : Out := onUnit true s fun c => c.ctlWrite (.save atEn atScene) 3 fun c => c.intmSave atEn atScene
/-- INTM_QUIESCED. -/
def execIntmQuiesced (s : State) : Out := onUnit true s Ctl.intmQuiesced
/-- SAVE_DONE. -/
def execSaveDone (s : State) : Out := onUnit true s Ctl.intmSaveDone
/-- RESTORE. -/
def execRestore (sheets : Bool) (s : State) : Out := onUnit true s fun c => c.ctlWrite (.restore sheets) 3 fun c => c.intmRestore sheets
/-- RESTORE_DONE. -/
def execRestoreDone (s : State) : Out := onUnit true s Ctl.intmRestoreDone
/-- RESUME. -/
def execResume (s : State) : Out := onUnit true s fun c => c.ctlWrite .resume 3 Ctl.intmResume

end Sys2Proof.Machine
end

