-- ==== Sys2Proof/Machine/Audit.lean ====
section
/-! DEFINITION. Digests of programs, weight images and input packets (R284 to R288). -/

namespace Sys2Proof.Machine

/-- The digest unit works: no digest is formed in safe state (R307). -/
def Ctl.hashes (c : Ctl) : Bool := c.active && !c.blackout

/-- A SHA-256 as a register holds it: first output byte at bits [7:0] (R284). -/
def digestNat (m : List Byte) : Nat := leNat (sha256Bytes m)

/-- Store a digest in four words from `off`. -/
def Ctl.setDigest (c : Ctl) (off d : Nat) : Ctl := forAll (List.range 4) (fun i c => c.setReg (off + 8 * i) (BitVec.ofNat 64 (d >>> (64 * i)))) c

/-! ### Program digests (R285) -/

/-- The granules of a half as the fetch check point sees them, counted as fetches are, and whether one was uncorrectable. -/
def Ctl.halfRead (c : Ctl) (h : Nat) : Ctl × List Byte × Bool :=
  let ds := (List.range 32768).map fun i => decodeG false (Tab.get fillGranule c.store (h * 32768 + i))
  (forAll (List.range 32768) (fun i c => c.storeRecord (h * 32768 + i) (ds.getD i ⟨false, 0, 0x1FF, false, 0⟩)) c,
    ds.flatMap (fun d => granuleBytes d.word), ds.any fun d => d.bad)

/-- PROGRAM_DIGEST_DONE (R285). -/
def Ctl.programDigest (c : Ctl) (h : Nat) : Ctl :=
  if !c.audit.hashing.getLsbD h || c.loading (decide (h = 1)) || !c.hashes then c
  else
    let r := c.halfRead h
    let c : Ctl := { r.1 with audit := { r.1.audit with hashing := r.1.audit.hashing &&& ~~~ (1#2 <<< h) } }
    let c := c.setFld (oProgDig h) progDig_BUSY 0
    if r.2.2 then c else (c.setDigest (oProgDig h) (digestNat r.2.1)).setFld (oProgDig h) progDig_VALID 1

/-! ### Weight images (R286, R287) -/

/-- A field of image k. -/
def Ctl.wi (c : Ctl) (k : Nat) (f : FieldPos) : Nat := c.fld (oWimg k) f

/-- The outcome of a weight-image command: 0 OK, 1 STATE, 2 RANGE, 3 OVERLAP. -/
def Ctl.wimgResult (c : Ctl) (r : Nat) : Ctl :=
  let c := c.setFld oWimgCmd wimgCmd_RESULT r
  if r = 0 then c else c.flag oWimgCmd wimgCmd_REFUSED

/-- The built ports that carry a stack image, in ascending order. -/
def Ctl.wimgPorts (c : Ctl) (k : Nat) : List Nat := portsOf (c.wi k wimg_PORTS)

/-- Granules of a stack image of `len` granules over `p` ports on the j-th of them (R280). -/
def stripeLen (len p j : Nat) : Nat := len / (128 * p) * 128 + min 128 (len % (128 * p) - 128 * j)

/-- The extents of images k and i share a granule. -/
def Ctl.wimgMeet (c : Ctl) (k i : Nat) : Bool :=
  let a := c.wi k wimg_ADDR
  let b := c.wi i wimg_ADDR
  if c.wi k wimg_KIND ≠ c.wi i wimg_KIND then false
  else if c.wi k wimg_KIND = 0 then decide (a < b + c.wi i wimg_LEN ∧ b < a + c.wi k wimg_LEN)
  else
    let ps := c.wimgPorts k
    let qs := c.wimgPorts i
    (List.range 24).any fun n => ps.contains n && qs.contains n &&
      decide (a < b + stripeLen (c.wi i wimg_LEN) qs.length (qs.findIdx fun m => m == n)
        ∧ b < a + stripeLen (c.wi k wimg_LEN) ps.length (ps.findIdx fun m => m == n))

/-- A bank extent is in range and in regions with USE 0b00. -/
def Ctl.wimgInRange (c : Ctl) (k : Nat) : Bool :=
  decide (c.wi k wimg_ADDR + c.wi k wimg_LEN ≤ 2 ^ 24) && (extentSample (c.wi k wimg_ADDR) (c.wi k wimg_LEN)).all (c.inRange 0)

/-- The result of OPEN. A stack image that names no port has no extent: RANGE (log entry 29). -/
def Ctl.wimgCode (c : Ctl) (k : Nat) : Nat :=
  let st := c.wi k wimg_STATE
  if st ≠ 0 ∧ st ≠ 4 ∧ st ≠ 5 then 1
  else if c.wi k wimg_LEN = 0 ∨ (c.wi k wimg_KIND = 0 ∧ ¬ c.wimgInRange k) ∨ (c.wi k wimg_KIND = 1 ∧ c.wimgPorts k = []) then 2
  else if (List.range Config.wimgs).any (fun i => decide (i ≠ k ∧ c.wi i wimg_STATE ≠ 0) && c.wimgMeet k i) then 3
  else 0

/-- OPEN. -/
def Ctl.wimgOpen (c : Ctl) (k : Nat) : Ctl :=
  let r := c.wimgCode k
  let c := c.wimgResult r
  if r ≠ 0 then c else (c.setFld (oWimg k) wimg_STATE 1).setFld (oWimg k) wimg_TAINTED 0

/-- SEAL: a write in the completion cc counts as a write during HASHING (R287). -/
def Ctl.wimgSeal (c : Ctl) (k : Nat) : Ctl :=
  if c.wi k wimg_STATE ≠ 1 then c.wimgResult 1
  else
    let c := (c.wimgResult 0).setFld (oWimg k) wimg_STATE 2
    let bit : BitVec 8 := 1#8 <<< k
    let c := c.setHash k (some { since := c.bc })
    let dirty := if Tab.get 0 c.audit.wroteCc k = c.cc + 1 then c.audit.dirty ||| bit else c.audit.dirty &&& ~~~ bit
    { c with audit := { c.audit with dirty := dirty } }

/-- RELEASE. -/
def Ctl.wimgRelease (c : Ctl) (k : Nat) : Ctl :=
  if c.wi k wimg_STATE = 2 then c.wimgResult 1 else (c.wimgResult 0).setFld (oWimg k) wimg_STATE 0

/-- The largest power of two below n, at least 1. -/
def splitPow : Nat → Nat → Nat
  | 0, p => p
  | fuel + 1, n => if n ≤ 2 then 1 else 2 * splitPow fuel ((n + 1) / 2)

/-- The Merkle tree hash of leaf hashes (RFC 6962 section 2.1). -/
def merkle : Nat → List (List Byte) → List Byte
  | 0, _ => []
  | _ + 1, [] => sha256Bytes []
  | _ + 1, [x] => x
  | fuel + 1, l =>
    let k := splitPow l.length l.length
    sha256Bytes ((1 : Byte) :: (merkle fuel (l.take k) ++ merkle fuel (l.drop k)))

/-- The leaf hashes of granules, 2,048 to a leaf. -/
def leaves : Nat → List Granule → List (List Byte)
  | 0, _ => []
  | _ + 1, [] => []
  | fuel + 1, l => sha256Bytes ((0 : Byte) :: dataBytes (l.take 2048)) :: leaves fuel (l.drop 2048)

/-- The root of an image. -/
def imageRoot (l : List Granule) : Nat := let h := leaves (l.length + 1) l; leNat (merkle (h.length + 1) h)

/-- The end of a hash (R286): FAILED on a poisoned or uncorrectable granule or a failed stack read, its other reads being discarded; else the root
is stored and the image is SEALED, or UNSEALED when it was tainted or written. -/
def Ctl.wimgEnd (c : Ctl) (k : Nat) (h : HashRun) : Ctl :=
  let o := oWimg k
  let bit : BitVec 8 := 1#8 <<< k
  let c := (c.setHash k none).sysDead (.hash k)
  if h.failed then c.setFld o wimg_STATE 5
  else
    let c := c.setDigest (o + 32) (imageRoot (h.got.map fun e => e.2))
    let st := if c.wi k wimg_TAINTED = 1 ∨ c.audit.dirty.getLsbD k then 4 else 3
    { c.setFld o wimg_STATE st with audit := { c.audit with wimgHashed := c.audit.wimgHashed ||| bit } }

/-- WIMG_HASH_DONE (R286): every granule of the image has been read, or one has ended the hash. -/
def Ctl.wimgHashDone (c : Ctl) (k : Nat) : Ctl :=
  match Tab.get none c.audit.hashes k with
  | none => c
  | some h => if c.wi k wimg_STATE ≠ 2 ∨ ¬ c.hashes ∨ (!h.failed ∧ h.got.length < c.wi k wimg_LEN) then c else c.wimgEnd k h

/-! ### Input digests (R288) -/

/-- The message of an input packet: header, then payload with poisoned granules as zero. -/
def ToHash.message (p : ToHash) : List Byte := leBytes 32 p.header ++ p.data.flatMap fun g => if gPoison g then leBytes 32 0 else granuleBytes g

/-- INPUT_DIGEST_DONE (R288): the oldest counted packet's digest replaces its window's, and the descriptors that latched the
packet have it. -/
def Ctl.inputDigest (c : Ctl) : Ctl :=
  if !c.hashes then c
  else match c.audit.queue with
    | [] => c
    | p :: rest =>
      let d := digestNat p.message
      let o := oInDig p.window
      let c : Ctl := { c with audit := { c.audit with queue := rest } }
      let c := (c.setDigest o d).setReg (o + 32) (BitVec.ofNat 64 (p.count.toNat + (hRank p.header <<< 32) + ((hSeq p.header % 65536) <<< 48)))
      let c := c.setReg (o + 40) (BitVec.ofNat 64 (hSeq p.header / 65536))
      let c := (c.setFld o inDig_VALID 1).setFld o inDig_PENDING (rest.any fun q => decide (q.window = p.window)).toNat
      let got := fun (r : SendRun) => match r.latched with
        | some l => if l.1 = p.id then { r with digest := some (BitVec.ofNat 256 d) } else r
        | none => r
      { c with sends := c.sends.map fun e => (e.1, got e.2) }

/-! ### The commands -/

/-- PROGRAM_DIGEST_DONE. -/
def execProgramDigestDone (h : Nat) (s : State) : Out := onUnit (decide (h < 2)) s fun c => c.programDigest h
/-- WIMG_OPEN. -/
def execWimgOpen (k : Nat) (s : State) : Out := onUnit (decide (k < Config.wimgs)) s fun c => c.ctlWrite (.wimgOpen k) 3 fun c => c.wimgOpen k
/-- SEAL. -/
def execSeal (k : Nat) (s : State) : Out := onUnit (decide (k < Config.wimgs)) s fun c => c.ctlWrite (.seal k) 3 fun c => c.wimgSeal k
/-- RELEASE. -/
def execRelease (k : Nat) (s : State) : Out := onUnit (decide (k < Config.wimgs)) s fun c => c.ctlWrite (.release k) 3 fun c => c.wimgRelease k
/-- WIMG_HASH_DONE. -/
def execWimgHashDone (k : Nat) (s : State) : Out := onUnit (decide (k < Config.wimgs)) s fun c => c.wimgHashDone k
/-- INPUT_DIGEST_DONE. -/
def execInputDigestDone (s : State) : Out := onUnit true s Ctl.inputDigest

end Sys2Proof.Machine
end

