-- ==== Sys2Proof/Machine/Time.lean ====
section
/-! DEFINITION. The time counter (R298 to R301) and the stop of a tableau (R296). -/

namespace Sys2Proof.Machine

/-- Units of 2^-32 ns in a second. -/
def secondUnits : Nat := 10 ^ 9 * 2 ^ 32

/-- The increment of one ref_clk edge: 10 ns and TRIM (R298). -/
def Ctl.timeStep (c : Ctl) : Nat := ((10 * 2 ^ 32 : Int) + sint 24 (c.fld oTimeCtl timeCtl_TRIM)).toNat

/-- One rising edge of ref_clk (R298). -/
def Ctl.timeTick (c : Ctl) : Ctl :=
  let t := c.time
  let n := t.sub + c.timeStep
  let t : TimeUnit := { t with since := t.since.map fun e => e + c.timeStep }
  { c with time := if secondUnits ≤ n then { t with sub := n - secondUnits, sec := (t.sec + 1) % 2 ^ 48 } else { t with sub := n } }

/-- The time counter runs: rst_n is released, the block is in P0 to P3 and no tableau stops its clock (R296, R298). -/
def Ctl.timeRuns (c : Ctl) : Bool := decide (c.boot.phase ≠ .inReset) && decide (c.power.mode < 4) && !c.clk.frozen

/-- Time state: 0 UNSET, 1 FREE, 2 LOCKED, 3 HOLDOVER. -/
def Ctl.timeState (c : Ctl) : Nat := c.fld oTimeCtl timeCtl_STATE

/-- A change of the time state: captures are counted anew (log entry 30). -/
def Ctl.setTimeState (c : Ctl) (st : Nat) : Ctl := { (c.setFld oTimeCtl timeCtl_STATE st) with time := { c.time with good := 0 } }

/-- A pending set is stored or removed. -/
def Ctl.timePend (c : Ctl) (p : Option (BitVec 48)) : Ctl :=
  { (c.setFld oTimeCtl timeCtl_SET_PEND p.isSome.toNat) with time := { c.time with pending := p, setCc := c.cc } }

/-- A set applied: seconds, nanoseconds and fraction (R299, R300). -/
def Ctl.timeApply (c : Ctl) (sec ns frac : Nat) : Ctl :=
  { (c.timePend none).setTimeState 1 with time := { c.time with sec := sec, sub := ns * 2 ^ 32 + frac, pending := none, good := 0 } }

/-- TIME_SET (R299). For a set that applies now the manual names no fraction: a free value. -/
def Ctl.timeSet (c : Ctl) (sec : BitVec 48) (atPps : Bool) : Ctl :=
  if atPps then c.timePend (some sec)
  else
    let v := c.draw
    v.2.timeApply sec.toNat (c.fld oTimeSetNs timeSetNs_NS) (v.1.toNat % 2 ^ 32)

/-- The capture of a detected edge: seconds and nanoseconds of the counter minus PPS_COMP (R299). -/
def Ctl.ppsCapture (c : Ctl) : Nat × Nat :=
  let ns := c.time.sub / 2 ^ 32
  let comp := c.fld oTimeSetNs timeSetNs_PPS_COMP
  if comp ≤ ns then (c.time.sec, ns - comp) else ((c.time.sec + 2 ^ 48 - 1) % 2 ^ 48, ns + 10 ^ 9 - comp)

/-- Magnitude of the offset of a capture (R300). -/
def offsetOf (ns : Nat) : Nat := if ns < 5 * 10 ^ 8 then ns else 10 ^ 9 - ns

/-- The change of the time state that a capture makes (R300). -/
def Ctl.ppsState (c : Ctl) (ns : Nat) : Ctl :=
  let st := c.timeState
  if c.fld oTimeCtl timeCtl_LOCK_NS < offsetOf ns then (if st = 2 ∨ st = 3 then c.setTimeState 1 else { c with time := { c.time with good := 0 } })
  else
    let c : Ctl := { c with time := { c.time with good := c.time.good + 1 } }
    if (st = 1 ∨ st = 3) ∧ 4 ≤ c.time.good then c.setTimeState 2 else c

/-- PPS_EDGE (R299): an edge detected less than 500 ms of counter time after the previous one is ignored. -/
def Ctl.ppsEdge (c : Ctl) : Ctl :=
  let early : Bool := match c.time.since with | some e => decide (e < secondUnits / 2) | none => false
  if early || !c.timeRuns then c
  else
    let p := c.ppsCapture
    let c := ((c.setFld oTimePps timePps_NS p.2).setFld oTimePps timePps_SEC p.1).flag oTimePps timePps_NEW
    let c := (c.setFld oTimeFref timeFref_FRAME (frameOf c.bc)).setFld oTimeFref timeFref_SLOT (slotOf c.bc)
    let c := { c with time := { c.time with since := some 0 } }.ppsState p.2
    match c.time.pending with
    | some sec => if c.time.setCc = c.cc then c else c.timeApply sec.toNat (c.fld oTimeSetNs timeSetNs_PPS_COMP) 0
    | none => c

/-- HOLDOVER (R300): 2 s of counter time with no detected edge. -/
def Ctl.holdover (c : Ctl) : Ctl :=
  match c.time.since with
  | some e => if c.timeState = 2 ∧ 2 * secondUnits ≤ e then c.setTimeState 3 else c
  | none => c

/-- What a read of the time counter returns; SEC_HI takes the upper seconds (R298). -/
def Ctl.timeRead (c : Ctl) : Ctl × Word :=
  (c.setFld oTimeCtl timeCtl_SEC_HI (c.time.sec / 2 ^ 32), BitVec.ofNat 64 (c.time.sub / 2 ^ 32 + (c.time.sec % 2 ^ 32) * 2 ^ 32))

/-- A read of a register is accepted at the control port (R63). It completes in a later cc. -/
def Ctl.readAccept (c : Ctl) (off : Nat) (be : BitVec 2) : Ctl := if c.sysReady then c.queueReq (.read off be) else c

/-! ### Tableau (R296) -/

/-- A request for a tableau reaches the clock and reset unit. -/
def Ctl.tableauReq (c : Ctl) : Ctl := if c.clk.tabReq.isSome then c else { c with clk := { c.clk with tabReq := some c.tbc } }

/-- TABLEAU_STOP: the first cc edge at least 2 cc after the request. -/
def Ctl.tableauStop (c : Ctl) : Ctl :=
  match c.clk.tabReq with
  | some r => if c.clk.run ∧ c.tbc % 8 = 0 ∧ r + 16 ≤ c.tbc then { c with clk := { c.clk with frozen := true } } else c
  | none => c

/-! ### The commands -/

/-- TABLEAU_STOP. -/
def execTableauStop (s : State) : Out := onDoor true s Ctl.tableauStop
/-- TIME_SET. -/
def execTimeSet (sec : BitVec 48) (atPps : Bool) (s : State) : Out := onUnit true s fun c => c.ctlWrite (.timeSet sec atPps) 3 fun c => c.timeSet sec atPps
/-- TIME_SET_CANCEL. -/
def execTimeSetCancel (s : State) : Out := onUnit true s fun c => c.ctlWrite .timeSetCancel 3 fun c => c.timePend none
/-- TIME_NOW_READ. -/
def execTimeNowRead (s : State) : Out := onUnit true s fun c => c.readAccept oTimeNow 3
/-- PPS_EDGE. -/
def execPpsEdge (s : State) : Out := onUnit true s Ctl.ppsEdge
/-- HOLDOVER. -/
def execHoldover (s : State) : Out := onUnit true s Ctl.holdover

end Sys2Proof.Machine
end

