-- ==== Sys2Proof/Machine/Faults.lean ====
section
/-! DEFINITION. The fault collector, kill and strike, fenceable units, safe state, injection and the lock (R302 to R321, R374). -/

namespace Sys2Proof.Machine

/-! ### Dual-rail lines (R303) -/

/-- One sample of a pair of a source at a cc edge: 2 is (1, 0), 1 is (0, 1), 0 and 3 are not complementary. The third
consecutive such sample of the pair raises source 0, once for the run of samples (log entry 31). -/
def Ctl.lineSample (c : Ctl) (src pair rails unit : Nat) : Ctl :=
  let key := pair * 32 + src
  let old := Tab.get (0, 0) c.faults.bad key
  let keep := fun (v : Nat × Nat) (c : Ctl) => { c with faults := { c.faults with bad := Tab.set (0, 0) c.faults.bad key v } }
  if rails = 2 then (keep (0, 0) c).raise src unit
  else if rails = 1 then keep (0, 0) c
  else
    let n := if old.1 ≠ 0 ∧ old.2 = c.tcc then old.1 else if old.1 ≠ 0 ∧ old.2 + 1 = c.tcc then old.1 + 1 else 1
    let c' := keep (n, c.tcc) c
    if n = 3 ∧ old ≠ (3, c.tcc) then c'.raise 0 0 else c'

/-! ### Kill (R83, R86, R159, R204, R215, R225, R314, R315) -/

/-- A generator after `k` accesses. -/
def AddrGen.after : Nat → AddrGen → AddrGen
  | 0, a => a
  | k + 1, a => AddrGen.after k a.access.2

/-- The generators of a sequencer whose RUN is cut in ec `x`: as many accesses as were issued before it have advanced them. -/
def Seq.cutGens (q : Seq) (x : Nat) : Seq :=
  match q.runRec with
  | some r =>
    let k := min r.count (if r.startEc < x then (x - r.startEc + r.gap) / (r.gap + 1) else 0)
    if k < r.count ∧ q.state = .running then { q with ag0 := if r.use0 then AddrGen.after k r.ag0 else q.ag0, ag1 := if r.use1 then AddrGen.after k r.ag1 else q.ag1 }
    else q
  | none => q

/-- The latest bank-access bc of the reads and fetches that were issued before a kill (R150), 0 for none. -/
def lastReadOf (rs : List RAccess) (gt : Option Gather) : Nat :=
  max (rs.foldl (fun m r => max m r.bankBc) 0) (match gt with | some g => if g.limit = 0 then 0 else 2 * (g.s + g.limit) + 8 | none => 0)

/-- A gather unit of a killed group: fetches from ec `x` on are never issued, and the unit is busy until the last output that remains. -/
def Gather.kill (x k : Nat) (g : Gather) : Gather :=
  let m := min g.limit (x - (g.s + 1))
  { g with limit := m, busyTo := if m = 0 then min g.busyTo x else g.busyTo - (g.limit - m), cut := some (min k (g.cut.getD k)) }

/-- A sequencer of a killed group: accesses of the cc of the kill (first ec `x`) and later were never issued, held groups and
releases are discarded, the entries of the read-ahead wing serve only reads issued before it, and bank accesses from bc `k` on are
suppressed. -/
def Seq.kill (q : Seq) (x k : Nat) : Seq :=
  let q := q.cutGens x
  let mark := fun (o : Option Nat) => match o with | some y => some (min y k) | none => some k
  let rs := (q.reads.filter fun r => decide (r.issue < x)).map fun (r : RAccess) => { r with cut := mark r.cut }
  let ws := (q.writes.filter fun a => decide (a.w < x ∧ (a.index ∨ a.t < x))).map fun (a : WAccess) => { a with cut := mark a.cut }
  let gt := q.gather.map (Gather.kill x k)
  let q : Seq := { q with reads := rs, writes := ws, gather := gt, releases := [], ra := q.ra.map (RaEntry.leave (x - 1)) }
  let q : Seq := { q with lastReadBc := lastReadOf rs gt, lastT := ws.foldl (fun m a => if a.index then m else max m a.t) 0, lastX := min q.lastX x }
  let q : Seq := { q with flushes := q.flushes.filter fun y => ws.any fun a => decide (a.id = y.id) }
  let mid := decide (q.state = .running)
  let pc := if mid then q.lastPc else q.pc
  let loops := if mid ∧ x < q.wordEc then q.lastLoops else q.loops
  if q.state = .halted then q else { (q.endScene x).halt with pc := pc, loops := loops, parkedSince := x, runRec := none }

/-- Bank `pb` lies in a fenced quadrant: nothing can reach it (R313). -/
def Ctl.inFencedQuad (c : Ctl) (pb : Nat) : Bool := c.quadFenced (pbQuad pb)

/-- Bank `pb` is a repertory bank: the region of its cluster has CODE = 1. -/
def Ctl.repBank (c : Ctl) (pb : Nat) : Bool := c.clusterRep (pb / (16 * Config.cpq)) (pb / 16 % Config.cpq)

/-- The banks that a kill of group `g` acts on: those it owns, outside fenced quadrants (R313, R314). -/
def Ctl.killBanks (c : Ctl) (g : Nat) : List Nat :=
  (List.range Config.banks).filter fun pb => decide (c.owner pb = 0x20 + g) && !c.striking pb && !c.inFencedQuad pb

/-- Repertory banks take OWNER NONE from the next cc. -/
def Ctl.freeLater (c : Ctl) (pb : Nat) : Ctl :=
  c.setLater (oBankOwn (pb / 8)) (0x3F#64 <<< (8 * (pb % 8))) 0

/-- A kill of cast group `g` in the present cc. -/
def Ctl.kill (c : Ctl) (g : Nat) : Ctl :=
  let c := c.killsHandover
  let x := 4 * c.cc
  let c := forAll (c.members g) (fun n c => c.setSeq n ((c.seq n).kill x (8 * (c.cc + 1)))) c
  let c := c.setGroup g { c.group g with decided := none, who := [], ready := none }
  let c := ((c.ctxsKill g).winsKill g).sendsKill g
  let banks := c.killBanks g
  let struck := banks.filter fun pb => !c.repBank pb
  let c := forAll struck (fun pb c => c.setStriking pb true) c
  let c := forAll (banks.filter c.repBank) (fun pb c => c.freeLater pb) c
  if struck = [] then c
  else
    let c : Ctl := { c with strikes := c.strikes ++ [{ group := g, cc := c.cc, banks := struck, total := struck.length }] }
    c.setFld oStrikeStat strikeStat_ACTIVE (c.fld oStrikeStat strikeStat_ACTIVE ||| 2 ^ g)

/-! ### Strike (R316, R317) -/

/-- The latest cc of a kill whose strike holds a bank. -/
def Ctl.killOf (c : Ctl) (pb : Nat) : Option Nat := ((c.strikes.filter fun s => s.banks.contains pb).map fun s => s.cc).max?

/-- A booked second slot remains at a striking bank of the cluster (R238). -/
def Ctl.bookedIn (c : Ctl) (q cl : Nat) : Bool :=
  c.areqs.any fun a => a.second.isSome && decide ((c.place a.gi).quad = q ∧ (c.place a.gi).cluster = cl) && c.striking (c.place a.gi).pbank

/-- The strike of a bank can begin (R313, R316): its own kill is at least 4 cc back, and its quadrant and cluster are not fenced. -/
def Ctl.strikeDue (c : Ctl) (pb : Nat) : Bool :=
  c.striking pb && !c.quadFenced (pbQuad pb) && !c.isFenced (pbQuad pb) (pbCluster pb)
    && (match c.killOf pb with | some n => decide (n + 4 ≤ c.cc) | none => false)
    && (match c.fillOf pb with | some f => !f.strike | none => true)

/-- STRIKE_BEGIN (R316): from the first bc of a cc at least 4 cc after the kill. Each striking bank is filled from row 0 on, and its queued
write-backs are discarded. -/
def Ctl.strikeBegin (c : Ctl) (q cl : Nat) : Ctl :=
  let pbs := ((List.range 16).map fun b => bankNo q cl b).filter c.strikeDue
  if c.blackout ∨ ¬ c.sysReady ∨ c.bc % 8 ≠ 0 ∨ c.bookedIn q cl ∨ pbs = [] then c
  else
    let c := forAll pbs (fun pb c =>
      let lo := rowKey q (c.built q cl) (pb % 16) 0
      let mine := fun k => decide (lo ≤ k ∧ k < lo + 4096)
      (c.cancelWb q mine).cancelScrub q (c.built q cl) mine) c
    c.fillsBegin pbs true

/-- A strike loses a bank; with its last it is complete (R317). -/
def Ctl.strikeEnds (c : Ctl) (pb : Nat) : Ctl :=
  c.strikes.foldl (fun c s =>
    if !s.banks.contains pb then c
    else
      let s' : Strike := { s with banks := s.banks.filter fun i => decide (i ≠ pb) }
      let c : Ctl := { c with strikes := (c.strikes.map fun t => if t = s then s' else t).filter fun t => decide (t.banks ≠ []) }
      if s'.banks ≠ [] then c
      else
        let c := (c.setFld oStrikeStat strikeStat_LAST s.group).setFld oStrikeStat strikeStat_BANKS s.total
        let c := c.flag oStrikeStat strikeStat_DONE
        if c.strikes.any fun t => decide (t.group = s.group) then c
        else c.setFld oStrikeStat strikeStat_ACTIVE (c.fld oStrikeStat strikeStat_ACTIVE &&& (2 ^ 32 - 1 - 2 ^ s.group))) c

/-- STRIKE_DONE (R317): in the cc after the last row of the bank is written. -/
def Ctl.strikeDone (c : Ctl) (pb : Nat) : Ctl :=
  match c.fillOf pb with
  | some f =>
    if !c.striking pb || !f.strike || decide (f.row < 4096 ∨ c.cc ≤ f.lastBc / 8) || c.quadFenced (pbQuad pb) || c.blackout || !c.sysReady then c
    else (((c.setFill pb none).setStriking pb false).setOwner pb 0).strikeEnds pb
  | none => c

/-! ### Fenceable units (R313) -/

/-- A link port is removed: ENABLE reads 0, and its link is treated as down. -/
def Ctl.linkRemove (c : Ctl) (n : Nat) : Ctl :=
  let up := (c.link n).up
  let c := (c.setFld (oLinkCfg n) linkCfg_ENABLE 0).linkDown n
  c.setLink n { c.link n with up := up, failed := true, wait := [], inbox := [], skip := .nothing }

/-- The twin port is removed: MODE is OFF and T_FAILED is 1. -/
def Ctl.twinRemove (c : Ctl) : Ctl :=
  let c := (c.twinEnter 0 false).setFld oTwinCfg twinCfg_MODE 0
  let c := c.setFld oTwinStat twinStat_T_FAILED 1
  c.setLink 16 { c.link 16 with failed := true, wait := [], data := [], inbox := [], skip := .nothing, beat := none }

/-- A sequencer of a fenced quadrant is HALTED with nothing in flight, and its port's outputs have their reset values. -/
def Ctl.seqRemove (c : Ctl) (n : Nat) : Ctl :=
  let q := (c.seq n).kill (4 * c.cc) (8 * c.cc)
  let c := c.setSeq n { q with reads := [], writes := [], gather := none }
  { c with rdOut := Tab.drop n c.rdOut, stOut := Tab.drop n c.stOut }

/-- Whether the fault that fences a quadrant affects an access in flight through it is not told: a free value (R8, log entry 91). -/
def Ctl.hitInFlight (c : Ctl) : Ctl × Bool := let v := c.draw; (v.2, Nat.testBit v.1.toNat 0)

/-- A read on its way through quadrant q when q is fenced: it completes on its route, or takes the reaction of a killed access (R315). One
issued later takes the route that is open then. -/
def Ctl.readTurns (c : Ctl) (n q : Nat) (r : RAccess) : Ctl × RAccess :=
  if r.via ≠ some q ∨ r.done then (c, r)
  else if c.ec ≤ r.issue then (c, { r with via := c.routeOf n (r.lanes.map fun l => l.gi) })
  else
    let v := c.hitInFlight
    if !v.2 then (v.1, r)
    else if !r.checked then (v.1, { r with cut := some (min c.bc (r.cut.getD c.bc)) })
    else (v.1, { r with lanes := r.lanes.map fun l => { l with cause := 6, bad := true, granule := poisonGranule (c.repOf l.gi) } })

/-- A write on its way through quadrant q when q is fenced. -/
def Ctl.writeTurns (c : Ctl) (n q : Nat) (a : WAccess) : Ctl × WAccess :=
  if a.via ≠ some q ∨ a.done then (c, a)
  else if c.ec ≤ a.t then (c, { a with via := c.routeOf n (a.own.map fun l => l.gi) })
  else
    let v := c.hitInFlight
    (v.1, if v.2 then { a with cut := some (min c.bc (a.cut.getD c.bc)) } else a)

/-- A fetch of a gather unit that is lost with the quadrant it passes: its bank access is suppressed, or the granule that it has brought
poisons the sum it went into. -/
def Gather.lose (g : Gather) (f : Nat) : Gather :=
  let j := f % g.nRow
  let bag := f / g.nRow / g.bag
  if g.next ≤ f then { g with turned := f :: g.turned }
  else
    let last := g.s + 1 + (bag * g.bag + g.bag - 1) * g.nRow + j
    { g with
      sums := if g.next ≤ (bag * g.bag + g.bag - 1) * g.nRow + j then g.sums.mapIdx fun k y => if k = j then (y.1, true) else y else g.sums
      outs := g.outs.map fun o => if o.issue = last then { o with granule := poisonGranule false } else o }

/-- The fetches of a gather unit that are on their way through quadrant q when q is fenced: issued before this ec, their data not yet back.
`via` tells the quadrant that the route to a granule passes. -/
def Ctl.gatherTurns (c : Ctl) (q : Nat) (via : Nat → Option Nat) (g : Gather) : Ctl × Gather :=
  let fs := (List.range g.limit).filter fun f => decide (g.s + 1 + f < c.ec ∧ c.ec < g.s + 1 + f + c.readLat 2) &&
    (match g.target (f / g.nRow) (f % g.nRow) with | some gi => decide (via gi = some q) | none => false)
  fs.foldl (fun x f => let v := x.1.hitInFlight; (v.1, if v.2 then x.2.lose f else x.2)) (c, g)

/-- The fetches of sequencer `n` that pass quadrant q, under the routes before it is fenced (R8). -/
def Ctl.fetchesTurn (c : Ctl) (q n : Nat) : Ctl :=
  match (c.seq n).gather with
  | none => c
  | some g =>
    let r := c.gatherTurns q (fun gi => c.routeOf n [gi]) g
    r.1.setSeq n { r.1.seq n with gather := some r.2 }

/-- Every access of a sequencer that passes quadrant q (R8). -/
def Ctl.routesTurn (c : Ctl) (q n : Nat) : Ctl :=
  let s := c.seq n
  let rs := s.reads.foldl (fun x r => let v := x.1.readTurns n q r; (v.1, x.2 ++ [v.2])) (c, ([] : List RAccess))
  let ws := s.writes.foldl (fun x a => let v := x.1.writeTurns n q a; (v.1, x.2 ++ [v.2])) (rs.1, ([] : List WAccess))
  ws.1.setSeq n { s with reads := rs.2, writes := ws.2 }

/-- Fencing quadrant q (R34, R313): routes to opposite quadrants turn (R8). -/
def Ctl.quadFence (c : Ctl) (q : Nat) : Ctl :=
  if Nat.testBit (c.fld oGeom geom_QUAD_FENCED) q then c
  else
    let groups := (List.range Config.groups).filter fun g => c.groupUses g q
    let c := forAll (c.seqs.map fun e => e.1) (fun n c => c.fetchesTurn q n) c
    let c := c.setFld oGeom geom_QUAD_FENCED (c.fld oGeom geom_QUAD_FENCED ||| 2 ^ q)
    let c := forAll (c.seqs.map fun e => e.1) (fun n c => c.routesTurn q n) c
    let c := forAll (List.range Config.cpq) (fun cl c => c.fenceCluster q cl) c
    let c := forAll (List.range 64) (fun r c =>
      if (mapClusters (c.reg (oRegion r)).toNat).any (fun s => decide (s / 64 = q)) then c.setFld (oRegion r) region_FENCED 1 else c) c
    let c : Ctl := (c.setUnder q { c.under q with unavail := true, filling := false, switchAt := none }).repairNote
    let c : Ctl := { c with fenced := if c.fenced.contains (q * 65 + 64) then c.fenced else (q * 65 + 64) :: c.fenced }
    let c := forAll groups (fun g c => c.kill g) c
    let c := forAll ((List.range Config.seqs).filter fun n => decide (seqQuad n = q)) (fun n c => c.seqRemove n) c
    let c := forAll ((List.range Config.stackPorts).filter fun n => decide (sportQuad n = q)) (fun n c => c.sportRemove n) c
    let c := forAll ((List.range Config.linkPorts).filter fun n => decide (linkQuad n = q)) (fun n c => c.linkRemove n) c
    if q = 0 then c.twinRemove else c

/-! ### Reactions (R305 to R311) -/

/-- The FENCE reaction to a raise of a source with its UNIT; the flag says that it had an effect. -/
def Ctl.fenceReaction (c : Ctl) (src unit : Nat) : Ctl × Bool :=
  let cluster := fun (q cl : Nat) => (c.repairCluster q cl 4, !c.isFenced q cl && isCluster cl)
  let group := fun (g : Nat) => if c.strikes.any fun s => decide (s.group = g) then (c, false) else (c.kill g, true)
  if src = 4 then (c.quadFence (unit % 4), !Nat.testBit (c.fld oGeom geom_QUAD_FENCED) (unit % 4))
  else if src = 5 then (if isCluster (unit % 64) then cluster (unit / 64 % 4) (unit % 64) else (c, false))
  else if src = 7 then (if unit = 0xFF ∨ ¬ isCluster (unit % 64) then (c, false) else cluster (unit / 64 % 4) (unit % 64))
  else if src = 9 ∨ src = 10 ∨ src = 11 then group (unit / 256 % 32)
  else if src = 14 then group (c.cx (unit % Config.contexts) strCtx_GROUP)
  else if src = 16 then (if unit < Config.stackPorts then (c.sportRemove unit, !(c.sport unit).removed) else (c, false))
  else (c, false)

/-- The raise that MIO_FLT_CAP holds has been reacted to. -/
def Ctl.reacted (c : Ctl) (o : FaultOrder) : Ctl := if o.cap ∧ c.fld oFltCap fltCap_VALID = 1 then c.setFld oFltCap fltCap_REACTED 1 else c

/-- Entry to safe state (R306 to R308, R312): no order stands any more. -/
def Ctl.enterSafe (c : Ctl) : Ctl :=
  let c : Ctl := { c with faults := { c.faults with black := true, orders := [], stop := if c.faults.stop = 0 then 2 else c.faults.stop } }
  let c := c.setFld oFltStat fltStat_ALIVE_STOP c.faults.stop
  if c.fld oTableauCfg ⟨0, 1, 1⟩ = 1 then c.tableauReq else c

/-- FAULT_REACTION (R309): the orders of the oldest cc that has any, once that cc is over, so that every order of it is there. One BLACKOUT
among them sets every other aside, and takes effect in the first ec of a cc (R306). -/
def Ctl.faultReaction (c : Ctl) : Ctl :=
  match c.faults.orders with
  | [] => c
  | o :: _ =>
    let now := c.faults.orders.filter fun p => decide (p.cc = o.cc)
    if c.blackout then { c with faults := { c.faults with orders := [] } }
    else if c.tcc ≤ o.cc then c
    else if now.any fun p => !p.fence then
      if c.tbc % 8 ≠ 0 then c else ((now.filter fun p => !p.fence).foldl (fun c p => c.reacted p) c).enterSafe
    else
      let c : Ctl := { c with faults := { c.faults with orders := c.faults.orders.filter fun p => decide (p.cc ≠ o.cc) } }
      now.foldl (fun c p => let r := c.fenceReaction p.src p.unit.toNat; if r.2 then r.1.reacted p else r.1) c

/-- The bound of R306: a pair that reports in ec t0 is sampled at the first edge after it, the edge of cc n, and its reaction is in force
48 ec after t0, so at the latest from cc n + 11 on (log entry 53). -/
def Ctl.faultsLate (c : Ctl) : Ctl :=
  match c.faults.orders with
  | o :: _ => if o.cc + 11 ≤ c.tcc then c.faultReaction else c
  | [] => c

/-! ### The alive output and the kick (R312, R341) -/

/-- What toggle edges are counted in: cc from the rise of sys_ready, ref_clk edges from the entry in P2 to P4. -/
def Ctl.aliveCount (c : Ctl) : Nat := if 2 ≤ c.power.mode then c.clk.ref - c.power.entryRef else c.cc - c.clk.readyBc / 8

/-- The count at the latest toggle edge: every 2^ALIVE_EXP-th is one. -/
def Ctl.aliveEdge (c : Ctl) : Nat :=
  let p := 2 ^ c.fld oFltCfg fltCfg_ALIVE_EXP
  c.aliveCount / p * p

/-- The output stops with a cause (MIO_FLT_STAT.ALIVE_STOP). -/
def Ctl.aliveStop (c : Ctl) (k : Nat) : Ctl := { c.setFld oFltStat fltStat_ALIVE_STOP k with faults := { c.faults with stop := k } }

/-- ALIVE_TOGGLE: a toggle edge. While an activated image has not kicked yet, an edge without a kick holds the level. -/
def Ctl.aliveToggle (c : Ctl) : Ctl :=
  let n := c.aliveEdge
  if !c.everReady || decide (n ≤ c.faults.lastToggle) || decide (c.faults.stop ≠ 0) || c.boot.factory || decide (c.power.mode = 5) then c
  else
    let c : Ctl := { c with faults := { c.faults with lastToggle := n } }
    let flip : Ctl := { c with faults := { c.faults with alive := !c.faults.alive, kick := false } }
    if 2 ≤ c.power.mode ∧ ¬ c.sysReady then flip
    else if !c.sysReady then c
    else if c.faults.kick then flip
    else if !c.boot.kicked && decide (c.cc ≤ c.boot.actCc + 2 ^ 19) then c
    else (c.aliveStop 1).raise 20 0

/-- A write of MIO_FLT_CFG, `f`: an edge that has passed counts under the old ALIVE_EXP, and the next is the first multiple of the new one
after the write (R312). -/
def Ctl.fltCfgWrite (c : Ctl) (f : Ctl → Ctl) : Ctl :=
  let exp := c.fld oFltCfg fltCfg_ALIVE_EXP
  let d := f c
  if d.fld oFltCfg fltCfg_ALIVE_EXP = exp then d
  else
    let d := f c.aliveToggle
    { d with faults := { d.faults with lastToggle := max d.faults.lastToggle d.aliveCount } }

/-- KICK: the stage manager writes MIO_FLT_KICK. -/
def Ctl.smKick (c : Ctl) : Ctl := { c with faults := { c.faults with kick := true }, boot := { c.boot with kicked := true } }

/-! ### Error injection (R320, R321) -/

/-- A write of both words of MIO_INJ_BANK: outside factory test mode it has no effect. -/
def Ctl.injBankWrite (c : Ctl) (w0 w1 : Word) : Ctl :=
  if c.boot.factory then
    ((c.setReg oInjBank (w0 &&& 0x00000001C7FFFFFF)).setReg (oInjBank + 8) (w1 &&& 0x0000000FFFFFFFFF)).noteWrote oInjBank (BitVec.allOnes 64)
  else c

/-- A write of MIO_INJ_LINE: SRC takes sources 0 to 22; GO drives the pair from the next cc on. -/
def Ctl.injLineWrite (c : Ctl) (be : BitVec 2) (data : Word) : Ctl :=
  if !c.boot.factory then c
  else
    let v := (merge (c.reg oInjLine) be data).toNat
    let c := if bits v 0 5 < 23 then c.setFld oInjLine injLine_SRC (bits v 0 5) else c
    let c := (c.setFld oInjLine injLine_FORM (bits v 8 2)).setFld oInjLine injLine_DUR (bits v 16 16)
    if be.getLsbD 1 ∧ data.getLsbD 32 then
      let c := c.setFld oInjLine injLine_GO 1
      { c with faults := { c.faults with inj := some (c.fld oInjLine injLine_SRC, c.fld oInjLine injLine_FORM, c.cc + 1, c.fld oInjLine injLine_DUR) } }
    else c

/-- The injected pair as the collector samples it at the edge of the present cc. -/
def Ctl.injTick (c : Ctl) : Ctl :=
  match c.faults.inj with
  | none => c
  | some (src, form, s, n) =>
    if c.cc < s then c
    else if s + n ≤ c.cc then ({ c with faults := { c.faults with inj := none } } : Ctl).setFld oInjLine injLine_GO 0
    else if form = 0 then c
    else c.lineSample src 0 (if form = 1 then 2 else if form = 2 then 0 else 3) 0

/-! ### The lock (R374) -/

/-- MIO_CTRL.LOCK. -/
def Ctl.lockSet (c : Ctl) : Ctl := (c.setFld oCtrl ctrl_LOCK 1).setFld oStatus status_LOCKED 1

/-! ### The commands -/

/-- FAULT_RAISE. -/
def execFaultRaise (src pair : Nat) (rails : BitVec 2) (unit : BitVec 16) (s : State) : Out :=
  onUnit (decide (src < 23)) s fun c => if c.clk.run then c.lineSample src pair rails.toNat unit.toNat else c
/-- FAULT_REACTION. -/
def execFaultReaction (s : State) : Out := onUnit true s fun c => if c.clk.run then c.faultReaction else c
/-- KILL. -/
def execKill (g : Nat) (s : State) : Out := onUnit (decide (g < Config.groups)) s fun c => c.ctlWrite (.kill g) 3 fun c => c.kill g
/-- STRIKE_BEGIN. -/
def execStrikeBegin (q cluster : Nat) (s : State) : Out := onUnit (decide (q < 4) && isCluster cluster) s fun c => c.strikeBegin q cluster
/-- STRIKE_DONE. -/
def execStrikeDone (pbank : Nat) (s : State) : Out := onUnit (decide (pbank < Config.banks)) s fun c => c.strikeDone pbank
/-- ALIVE_TOGGLE. -/
def execAliveToggle (s : State) : Out := onUnit true s Ctl.aliveToggle
/-- KICK. -/
def execKick (s : State) : Out := onUnit true s fun c => if c.sysReady then c.smKick else c
/-- INJ_BANK. -/
def execInjBank (w0 w1 : Word) (s : State) : Out := onUnit true s fun c => c.ctlWrite (.injBank w0 w1) 3 fun c => c.injBankWrite w0 w1
/-- INJ_LINE. -/
def execInjLine (be : BitVec 2) (data : Word) (s : State) : Out := onUnit true s fun c => c.ctlWrite (.injLine be data) be fun c => c.injLineWrite be data
/-- LOCK. -/
def execLock (s : State) : Out := onUnit true s fun c => c.ctlWrite .lock 3 Ctl.lockSet

end Sys2Proof.Machine
end

