-- ==== Sys2Proof/Machine/Flags.lean ====
section
/-! DEFINITION. The status outputs that the units compute (R37, R81, R179, R312, R325, R346). The block has no arithmetic flags;
a status bit of a register is stored in that register, or is computed where the register is read (Bus). -/

namespace Sys2Proof.Machine

/-- The error outputs show the error state (R312): until sys_ready first rises, while ERR_LATCHED is 1, and in safe state. -/
def Ctl.errorState (c : Ctl) : Bool := !c.everReady || decide (c.fld oFltStat fltStat_ERR_LATCHED = 1) || c.blackout

/-- flt_err_p and flt_err_n: (1, 0) in the error state, (0, 1) in the healthy state (R312). -/
def Ctl.fltErr (c : Ctl) : Bool × Bool := (c.errorState, !c.errorState)

/-- key_ready: from the end of step 1, 8 ref_clk cycles after the release of rst_n, until the key transfers (R344, R346). -/
def Ctl.keyReady (c : Ctl) : Bool := decide (c.boot.phase ≠ .inReset ∧ 8 ≤ c.clk.ref) && c.boot.key.isNone

/-- pwr_vreq (R325). -/
def Ctl.vreq (c : Ctl) : Nat := c.fld oPwrOp pwrOp_VREQ

/-- The code of a sequencer state on xN_state and in MIO_SEQ_STAT_n.STATE (R81). -/
def SeqState.code : SeqState → Nat
  | .halted => 0
  | .waiting => 1
  | .running => 2
  | .trapped => 3

/-- The loop stack of a sequencer in ec `e`: a loop that the word in progress ends is left when that word has completed (R71). -/
def Seq.loopsAt (q : Seq) (e : Nat) : List LoopEntry := if q.state = .running ∧ e < q.wordEc then q.lastLoops else q.loops

/-- xN_state (R81): 0 while sys_ready is 0 (R36, R37). -/
def Ctl.stateOut (c : Ctl) (n : Nat) : Nat := if c.sysReady then (c.seq n).state.code else 0

/-- xN_scene: ec 0 of a scene that the sequencer runs (03_port_protocols). -/
def Ctl.sceneOut (c : Ctl) (n : Nat) : Bool := c.sysReady && (c.seq n).inScene && decide ((c.seq n).ec0 = c.ec)

/-- Bit n of pwr_lend (R179): asserted, not yet past the ec after a start decision, and LEND_THRESH neither 0 nor above the ec parked. From
the entry cc of P2 to P5 until the wake is complete it holds its value of that cc (R342). -/
def Ctl.lendOut (c : Ctl) (n : Nat) : Bool :=
  let q := c.seq n
  let t := c.fld oSyncCfg syncCfg_LEND_THRESH
  if 2 ≤ c.power.mode then Nat.testBit c.power.lends n else q.lend && decide (t ≠ 0 ∧ t ≤ c.ec - q.parkedSince) && (match q.lendOff with | some x => decide (c.ec < x) | none => true)

end Sys2Proof.Machine
end

