-- ==== Sys2Proof/Machine/Power.lean ====
section
/-! DEFINITION. Operating points, brownout, power states, the watch cycle (R322 to R341). -/

namespace Sys2Proof.Machine

def Ctl.pw (c : Ctl) (f : FieldPos) : Nat := c.fld oPwrOp f
def Ctl.setPw (c : Ctl) (f : FieldPos) (v : Nat) : Ctl := c.setFld oPwrOp f v
def Ctl.setPower (c : Ctl) (f : Power → Power) : Ctl := { c with power := f c.power }

/-! ### Operating points (R323 to R326) -/

/-- D of an operating point (R323). -/
def divOf (op : Nat) : Nat := if op = 0 then 3 else if op = 1 then 4 else if op = 2 then 6 else 12

/-- The clocks run at operating point `op` from this cc edge on (R324). -/
def Ctl.setPoint (c : Ctl) (op : Nat) : Ctl := { (c.setPw pwrOp_ACTIVE op) with clk := { c.clk with div := divOf op } }

/-- Whether brownout is in force. -/
def Ctl.brown (c : Ctl) : Bool := decide (c.pw pwrOp_BROWNOUT = 1)

/-- pwr_vreq takes an operating point: the guard of R325 begins. -/
def Ctl.request_ (c : Ctl) (op : Nat) (st : OpStep) : Ctl :=
  ((c.setPw pwrOp_VREQ op).setPw pwrOp_BUSY 1).setPower fun (p : Power) => { p with step := st, stepRef := c.clk.ref }

/-- A transition to `op` begins (R326). -/
def Ctl.opBegin (c : Ctl) (op : Nat) : Ctl :=
  if c.pw pwrOp_ACTIVE < op then c.setPower fun (p : Power) => { p with step := .lowerD op, stepCc := c.cc }
  else if op < c.pw pwrOp_ACTIVE then c.request_ op (.raiseAck op)
  else c

/-- OP_TRANSITION: a write of TARGET (R326, R329). -/
def Ctl.opWrite (c : Ctl) (op : Nat) : Ctl :=
  let c := c.setPw pwrOp_TARGET op
  if c.power.step ≠ .idle then c.setPower fun (p : Power) => { p with queued := some op }
  else if c.brown then (if c.pw pwrOp_ACTIVE < op then c.opBegin op else c)
  else c.opBegin op

/-- The clocks stop and entry to P2, P3, P4 or P5 is complete (R333). Entry to P5 clears the count of bc (R88), and flt_alive is 0 in it (R341). -/
def Ctl.entered (c : Ctl) : Ctl :=
  let c := c.setPower fun (p : Power) => { p with asleep := true }
  if c.power.mode = 5 then { c with clk := { c.clk with run := false, bc := 0 }, faults := { c.faults with alive := false } }
  else { c with clk := { c.clk with run := false } }

/-- Entry to P3, P4 or P5 is under way: the lowering to OP3 comes first (R333). -/
def Ctl.entering (c : Ctl) : Bool := decide (3 ≤ c.power.mode) && !c.power.asleep && decide (c.fld oPwrMode pwrMode_STATE ≠ 6)

/-- A transition has ended, or a brownout has abandoned it: on entry to P3, P4 or P5 the clocks go to OP3 and stop. -/
def Ctl.opIdle (c : Ctl) : Ctl :=
  let c := (c.setPw pwrOp_BUSY 0).setPower fun (p : Power) => { p with step := .idle, queued := none }
  if c.entering then (if c.pw pwrOp_ACTIVE = 3 then c.entered else c.opBegin 3) else c

/-- A transition is complete: the latest TARGET written meanwhile takes effect (R326). -/
def Ctl.opDone (c : Ctl) : Ctl :=
  let q := c.power.queued
  let c' := c.opIdle
  if c.entering then c'
  else match q with
    | some op => if c'.brown ∧ op ≤ c'.pw pwrOp_ACTIVE then c' else c'.opBegin op
    | none => c'

/-- D_CHANGE (R324, R326, R328): on a cc edge at least 2 cc after the write, or after pwr_vack was seen, so that no cc has cycles of two
lengths. During a brownout the frequency is at most that of OP2 (R329). A watch slice runs at OP3 throughout (R337). -/
def Ctl.dChange (c : Ctl) : Ctl :=
  if !c.clk.run ∨ c.bc % 8 ≠ 0 ∨ c.power.slice then c
  else match c.power.step with
    | .lowerD op => if c.cc < c.power.stepCc + 2 then c else (c.setPoint (if c.brown then max op 2 else op)).request_ op (.lowerAck op)
    | .raiseD op x => if c.cc < x + 2 then c else (c.setPoint op).opDone
    | .restoreD op x => if c.cc < x + 2 then c else ((c.setPoint op).setPw pwrOp_BROWNOUT 0).opDone
    | _ => c

/-- VACK (R325, R326, R328): seen after the guard. During a brownout only the restore listens (R329). -/
def Ctl.vack (c : Ctl) : Ctl :=
  if c.clk.ref < c.power.stepRef + 32 then c
  else match c.power.step with
    | .lowerAck _ => if c.brown then c else c.opDone
    | .raiseAck op => if c.brown then c else c.setPower fun (p : Power) => { p with step := .raiseD op c.cc }
    | .restoreAck op => c.setPower fun (p : Power) => { p with step := .restoreD op c.cc }
    | _ => c

/-- The POWER source is raised, once the clocks run (R341). -/
def Ctl.raisePower (c : Ctl) : Ctl := if c.clk.run then c.raise 21 0 else c.setPower fun (p : Power) => { p with owed := true }

/-- VACK_TIMEOUT (R326). A restore that times out keeps the brownout frequency and pwr_vreq (log entry 32). -/
def Ctl.vackTimeout (c : Ctl) : Ctl :=
  if c.clk.ref < c.power.stepRef + 32 + 2 ^ c.pw pwrOp_VACK_EXP then c
  else
    let late := fun (c : Ctl) => (c.flag oPwrOp pwrOp_VTIMEOUT).raisePower
    match c.power.step with
    | .lowerAck _ => (late c).opDone
    | .raiseAck _ => (late (c.setPw pwrOp_VREQ (c.pw pwrOp_ACTIVE))).opDone
    | .restoreAck _ => (late c).opDone
    | _ => c

/-! ### Brownout (R292, R327 to R329) -/

/-- Groups with a scene running are marked (R292). -/
def Ctl.markSuspended (c : Ctl) : Ctl :=
  forAll ((List.range Config.groups).filter fun g => (c.members g).any fun n => (c.seq n).inScene) (fun g c =>
    c.flag (oProvGflag g) provGflag_TIMING_SUSPENDED) c

/-- The response to a brownout (R327, R329). A raise that has not changed D is abandoned. -/
def Ctl.brownRespond (c : Ctl) : Ctl :=
  let c := c.setPower fun (p : Power) => { p with recog := none }
  let c := if c.pw pwrOp_ACTIVE < 2 then c.setPoint 2 else c
  let c := ((c.setPw pwrOp_BROWNOUT 1).flag oPwrOp pwrOp_BROWN_SEEN).satAdd oPwrOp pwrOp_BROWN_CNT 1
  let c := match c.power.step with
    | .raiseAck _ => c.opIdle
    | .raiseD _ _ => c.opIdle
    | _ => c
  c.raisePower.markSuspended

/-- The response comes at the first cc edge at least 2 cc, 16 bc, after recognition, or at once while the clocks are stopped (R327, R329). -/
def Ctl.brownNow (c : Ctl) : Ctl :=
  match c.power.recog with
  | some x => if x + 16 ≤ c.tbc ∨ ¬ c.clk.run then c.brownRespond else c
  | none => c

/-- One sample of vwarn_n, on an edge of ref_clk (R327, R328): two consecutive samples of 0 are an assertion. While a brownout is in force a
sample of 0 starts the wait of R328 anew, and ends a restore that is not complete. In step 1 of the start, the first 8 cycles, nothing is
sampled (R344). -/
def Ctl.vwarnSample (c : Ctl) : Ctl :=
  if c.clk.ref < 8 then c
  else if c.power.vwarn then c.setPower fun (p : Power) => { p with lows := 0 }
  else
    let found := decide (c.power.lows = 1) && !c.brown
    let c := c.setPower fun (p : Power) => { p with lows := min 2 (p.lows + 1), brownRef := c.clk.ref, recog := if found then some c.tbc else p.recog }
    if c.brown then match c.power.step with
      | .restoreAck _ => c.opIdle
      | .restoreD _ _ => c.opIdle
      | _ => c
    else c

/-- The voltage follows a restored point that the frequency has reached already: a lowering under R326 (R328). -/
def Ctl.voltageDown (c : Ctl) (op : Nat) : Ctl :=
  if c.pw pwrOp_ACTIVE < op then c.opBegin op else if c.pw pwrOp_VREQ < op then c.request_ op (.lowerAck op) else c

/-- The block raises nothing and changes no divider: it waits for nothing, or for the acknowledgement of a lowering. -/
def Ctl.opRests (c : Ctl) : Bool := match c.power.step with | .idle => true | .lowerAck _ => true | _ => false

/-- BROWNOUT_RESTORE (R328): vwarn_n has been 1 for 2,000 ref_clk cycles. The wait of a lowering that the brownout met ends in
that of the restore (log entry 56). -/
def Ctl.brownRestore (c : Ctl) : Ctl :=
  let op := c.pw pwrOp_TARGET
  if !c.brown || !c.power.vwarn || decide (c.clk.ref < c.power.brownRef + 2000) then c
  else if c.pw pwrOp_ACTIVE ≤ op then
    let c := c.setPw pwrOp_BROWNOUT 0
    if c.power.step = .idle then c.voltageDown op else c
  else if !c.opRests then c
  else
    let ref := if c.pw pwrOp_VREQ ≠ op then c.clk.ref else if c.power.step = .idle then c.clk.ref - 32 else c.power.stepRef
    (c.request_ op (.restoreAck op)).setPower fun (p : Power) => { p with stepRef := ref }

/-! ### Entry to P2 to P5 (R331 to R333, R336, R337) -/

def Ctl.pmState (c : Ctl) : Nat := c.fld oPwrMode pwrMode_STATE
def Ctl.setPm (c : Ctl) (f : FieldPos) (v : Nat) : Ctl := c.setFld oPwrMode f v

/-- Every window that is OPEN is one that may stay open in P3 (R331). -/
def Ctl.p3Windows (c : Ctl) : Bool :=
  c.liveWins.all fun w => decide (c.wn w win_STATE ≠ 1) || (decide (c.wn w win_ORDERED = 0 ∧ c.wn w win_JOURNALED = 0) && c.winRetained w)

/-- The conditions of R331 for entry to state m. -/
def Ctl.wfiReady (c : Ctl) (m : Nat) : Bool :=
  decide (c.fld oStrCfg strCfg_ISSUE_PAUSE = 1) && decide (c.intmPhase = 0)
    && ((List.range Config.wimgs).all fun k => decide (c.fld (oWimg k) wimg_STATE ≠ 2))
    && (decide (m = 2) ||
      ((c.seqs.all fun e => decide (e.2.state = .halted)) && decide (c.liveCtxs = []) && decide (c.liveSends = [])
        && ((List.range Config.curtains).all fun k => c.curIdle k) && decide (c.fld oTwinCfg twinCfg_MODE = 0)
        && (if m = 3 then c.p3Windows else c.liveWins.all fun w => decide (c.wn w win_STATE ≠ 1))))

/-- The window that the watch cycle reads. -/
def Ctl.watchWin (c : Ctl) : Nat := c.fld oPwrWatch pwrWatch_IDX % 1024

/-- The watch setting passes R337. Times in units of 1/17 ns: an ec at OP3 takes 80/17 ns. -/
def Ctl.watchOk (c : Ctl) : Bool :=
  let f := c.fld oPwrWatch
  (decide (f pwrWatch_KIND = 0) || (decide (c.wn c.watchWin win_STATE = 1) && c.winRetained c.watchWin))
    && decide (20000 * 17 + 2 ^ f pwrWatch_SLICE_EXP * 80 ≤ 2 ^ f pwrWatch_PERIOD_EXP * 170)
    && decide (c.fld oPwrWake pwrWake_EN_WATCH = 1)

/-- WFI (R331): the check; a passed one begins preparation (R332). -/
def Ctl.wfi (c : Ctl) : Ctl :=
  let m := c.power.req
  if m < 2 ∨ 5 < m ∨ c.pmState ≠ 0 ∨ ¬ c.sysReady then c
  else if !c.wfiReady m then c.setPm pwrMode_RESULT 1
  else if m = 3 ∧ ¬ c.watchOk then c.setPm pwrMode_RESULT 2
  else (((c.setPm pwrMode_RESULT 0).setPm pwrMode_STATE 1).setPm pwrMode_WAKE_SRC 0).setPower fun (p : Power) => { p with rose := 0, wakePend := false }

/-- Everything that preparation waits for (R332). -/
def Ctl.prepared (c : Ctl) : Bool :=
  (c.seqs.all fun e => e.2.drained c.ec) && (c.groups.all fun g => g.2.decided.isNone)
    && (c.sports.all fun p => decide (p.2.tags = [] ∧ p.2.bursts = [])) && decide (c.landed = []) && decide (c.areqs = [])
    && (c.links.all fun l => decide (l.2.inbox = [] ∧ l.2.beat = none) && l.2.data.all fun t => decide (t.sent = 0)) && decide (c.packets = [])
    && (c.wbq.all fun q => decide (q.2 = [])) && decide (c.strikes = []) && decide (c.refills = 0) && decide (c.marches = [])
    && (c.unders.all fun u => !u.2.busy)

/-- pwr_lend as its bits stand (R342). -/
def Ctl.lendMask (c : Ctl) : Nat := (((List.range Config.seqs).filter c.lendOut).map fun n => 2 ^ n).sum

/-- The clamps take force: the outputs of the ports hold their idle values (R37, R339). -/
def Ctl.clamp (c : Ctl) : Ctl :=
  let ls := c.links.map fun l => (l.1, ({ l.2 with beat := none, rxCrd := false } : LinkPort))
  ({ c with rdOut := [], stOut := [], sOut := [], cRsp := {}, links := ls } : Ctl).setFld oPwrMode pwrMode_CLAMPED 1

/-- ENTRY_CC (R332, R333): sys_ready falls and the outputs of engine and stack ports hold their reset values (R36); beyond P2 the outputs are
clamped and the clocks go to OP3 before they stop, after a transition that is in progress. -/
def Ctl.entryCc (c : Ctl) : Ctl :=
  if c.pmState ≠ 1 ∨ ¬ c.prepared ∨ ¬ c.sysReady then c
  else
    let m := c.power.req
    let c : Ctl := { (c.setPm pwrMode_STATE m) with sysReady := false, faults := { c.faults with lastToggle := 0 }, rdOut := [], stOut := [], sOut := [] }
    let c := c.setPower fun (p : Power) => { p with mode := m, entryRef := c.clk.ref, entryCc := c.cc, asleep := false, slices := 0, riseAt := none, lends := c.lendMask }
    if m = 2 then c
    else
      let c := c.clamp
      if c.power.step ≠ .idle then c
      else if c.pw pwrOp_ACTIVE = 3 then c.entered
      else c.opBegin 3

/-! ### Exit (R330, R333 to R336, R340) -/

/-- A region is retained in P3 and P4 (R336). -/
def Ctl.retained (c : Ctl) (r : Nat) : Bool := c.regionRep r || Nat.testBit (c.reg oPwrRet).toNat r

/-- Fill every cluster, as built, that no retained region names (R336). -/
def Ctl.wakeFill (c : Ctl) : Ctl × List BankOp :=
  let keep := fun (q cl : Nat) => (List.range 64).any fun r => c.retained r && (List.range 4).any fun j => decide (c.slotCluster r j = q * 64 + cl)
  (List.range 4).foldl (fun x q =>
    let u := c.under q
    let x := (List.range Config.cpq).foldl (fun (x : Ctl × List BankOp) cl =>
      if keep q cl then x else let y := x.1.fillCluster q cl (c.built q cl); (y.1, x.2 ++ y.2)) x
    match u.map with
    | some _ => x
    | none => (x.1, x.2 ++ [BankOp.clear (rowKey q 64 0 0) 65536])) (c, [])

/-- The registers that P4 keeps: counters, region map, owners, MIO_REP_GRANT, MIO_TAG_EN (R330), the lock (R374), the geometry,
latencies and repairs (R333), and what the always-on unit and the stage manager hold. -/
def keptInP4 (off : Nat) : Bool :=
  decide ((0x80000 ≤ off ∧ off < 0x90000) ∨ (0x40000 ≤ off ∧ off < 0x40200) ∨ (0x41000 ≤ off ∧ off < 0x42000) ∨ off = oRepGrant ∨ off = oTagEn
    ∨ off = oCtrl ∨ off = oStatus ∨ (oUsStat 0 ≤ off ∧ off < oUsStat 4) ∨ off = oGeom ∨ off = oLatMap ∨ (0x10100 ≤ off ∧ off < 0x10130) ∨ (0x3C0000 ≤ off))

/-- What is left of the units after P4: everything else takes its reset value (R330, log entry 33). Safe state goes on (R308). -/
def Ctl.afterP4 (c : Ctl) : Ctl :=
  let err := c.fld oFltStat fltStat_ERR_LATCHED
  let removed := c.sports.filter fun p => p.2.removed
  let dead := c.links.filter fun l => l.2.failed
  let k : Ctl := { regs := c.regs.filter fun e => keptInP4 e.1, everReady := true, clk := c.clk, boot := c.boot, cReady := c.cReady, cntHist := c.cntHist, fillPend := c.fillPend }
  let k : Ctl := { k with unders := c.unders, fenced := c.fenced, power := c.power, faults := { c.faults with bad := [], orders := [] }, time := c.time }
  let k : Ctl := { k with door := c.door, free := c.free, nextReq := c.nextReq, nextPkt := c.nextPkt, links := c.links.map fun l => (l.1, { up := l.2.up }) }
  let k := removed.foldl (fun k p => (k.setSport p.1 { removed := true }).setFld (oSportCfg p.1) sportCfg_ENABLE 0) k
  let k := dead.foldl (fun k l =>
    let k := k.setLink l.1 { k.link l.1 with failed := true }
    if l.1 = 16 then k.setFld oTwinStat twinStat_T_FAILED 1 else k.setFld (oLinkCfg l.1) linkCfg_ENABLE 0) k
  (k.setFld oFltStat fltStat_ERR_LATCHED err).setFld oFltStat fltStat_ALIVE_STOP c.faults.stop

/-- The clocks run again, and a POWER raise that has waited for them is made (R341). -/
def Ctl.clocksRun (c : Ctl) : Ctl :=
  let c : Ctl := { c with clk := { c.clk with run := true } }
  if c.power.owed then (c.setPower fun (p : Power) => { p with owed := false }).raise 21 0 else c

/-- The clocks run again on exit. -/
def Ctl.clocksOn (c : Ctl) : Ctl := (c.setPower fun (p : Power) => { p with asleep := false, wakePend := false, slice := false }).clocksRun

/-- Exit begins (R333): P2 restarts its clocks; P3 locks the PLL, fills and raises; P4 first awaits the lock and the checks. -/
def Ctl.exitBegin (c : Ctl) : Ctl × List BankOp :=
  let m := c.power.mode
  let c := c.setPm pwrMode_STATE 6
  if m = 2 then ((c.clocksOn).setPower fun (p : Power) => { p with riseAt := some (c.cc + 8) }, [])
  else if m = 3 then
    let c := c.clocksOn
    let c := if c.brown then c else c.opBegin (c.pw pwrOp_TARGET)
    c.wakeFill
  else (c.setPower fun (p : Power) => { p with locking := true, asleep := false, wakePend := false }, [])

/-- Entry to P2 is complete at the cc edge 8 cc after the entry cc (R333). -/
def Ctl.p2Stop (c : Ctl) : Ctl := if c.power.mode = 2 ∧ ¬ c.power.asleep ∧ c.pmState = 2 ∧ c.power.entryCc + 8 ≤ c.cc then c.entered else c

/-- A recognized wake event of a source acts (R334, R335). -/
def Ctl.wakeBy (c : Ctl) (src : Nat) : Ctl × List BankOp :=
  let st := c.pmState
  if st = 0 ∨ st = 5 ∨ (c.power.req = 5 ∧ st ≠ 6) then (c, [])
  else
    let c := c.setPm pwrMode_WAKE_SRC (c.fld oPwrMode pwrMode_WAKE_SRC ||| 2 ^ src)
    if st = 6 then (c, [])
    else
      if c.power.asleep ∧ ¬ c.power.slice then c.exitBegin
      else (c.setPower fun (p : Power) => { p with wakePend := true }, [])

/-- A wake source is enabled, and its event can have come (R334). The watch source acts through WATCH_SLICE. -/
def Ctl.wakeOn (c : Ctl) (src : Nat) : Bool :=
  let f := c.fld oPwrWake
  if src = 0 then decide (f pwrWake_EN_CPORT = 1) && !c.sysReady
  else if src = 1 then decide (f pwrWake_EN_DOOR = 1)
  else if src = 2 then decide (f pwrWake_EN_TIMER = 1) && decide (2 ≤ c.power.mode) && decide (c.power.entryRef + 2 ^ f pwrWake_TIMER_EXP ≤ c.clk.ref)
  else if src = 3 then decide (f pwrWake_LINK_MASK &&& c.power.rose ≠ 0)
  else false

/-- WAKE_EVENT: an event of a source is recognized. -/
def Ctl.wakeEvent (c : Ctl) (src : Nat) : Ctl × List BankOp := if c.wakeOn src then c.wakeBy src else (c, [])

/-- A wake recognized before entry was complete: exit begins once it is (R335). With the clocks stopped, the model's next moment after
completion is the next edge of ref_clk. -/
def Ctl.wakeOwed (c : Ctl) : Ctl × List BankOp :=
  if c.power.wakePend ∧ c.power.asleep ∧ ¬ c.power.slice then c.exitBegin else (c, [])

/-- CLAMP_REL (R340): the outputs are live in the next cc, and sys_ready rises in the cc after it. -/
def Ctl.clampRel (c : Ctl) : Ctl :=
  if c.pmState ≠ 6 ∨ c.fld oPwrMode pwrMode_CLAMPED ≠ 1 ∨ c.power.riseAt.isSome ∨ ¬ c.clk.run ∨ (c.power.step ≠ .idle ∧ ¬ c.brown) then c
  else c.setPower fun (p : Power) => { p with riseAt := some (c.cc + 2) }

/-- The clamps end one cc before sys_ready rises (R340). -/
def Ctl.clampsEnd (c : Ctl) : Ctl :=
  match c.power.riseAt with
  | some x => if x ≤ c.cc + 1 then c.setPm pwrMode_CLAMPED 0 else c
  | none => c

/-- After P4 the scrubber starts at row 0 of every cluster (R341): laps begin in this frame. -/
def Ctl.scrubsAnew (c : Ctl) : Ctl :=
  { c with scrubs := (List.range 260).foldl (fun t i => Tab.set {} t i { start := c.bc / 256, since := c.bc }) [] }

/-- sys_ready rises and the wake is complete: toggle edges are counted from this rise (R312, R341). -/
def Ctl.wakeDone (c : Ctl) : Ctl :=
  match c.power.riseAt with
  | some x =>
    if x ≤ c.cc ∧ c.clk.run then
      let c := if c.power.mode = 4 then c.scrubsAnew else c
      let c := (c.setPm pwrMode_STATE 0).setPower fun (p : Power) => { p with riseAt := none, mode := 0 }
      { c with sysReady := true, faults := { c.faults with lastToggle := 0 }, clk := { c.clk with readyBc := c.clk.bc } }
    else c
  | none => c

/-! ### The watch cycle (R337, R338) -/

/-- The watched value, and true where a window word is uncorrectable or poisoned (R337). -/
def Ctl.watchValue (c : Ctl) (b : Tab Granule) : Ctl × Nat × Bool :=
  let f := c.fld oPwrWatch
  if f pwrWatch_KIND = 0 then (c, c.cntAt (f pwrWatch_IDX) c.ec, false)
  else
    let gi := c.pktGi c.watchWin (f pwrWatch_OFFSET) 0
    let r := c.bankRead b 0 (0x80 + 48 + 4 * (c.place gi).quad) gi c.bc
    (r.1, bits (gData r.2.word) (32 * f pwrWatch_WORD) 32, r.2.bad || r.2.pois)

/-- The comparison of R337. -/
def Ctl.watchMatch (c : Ctl) (v : Nat) : Bool :=
  let x := c.fld oPwrWatchv pwrWatchv_VALUE
  let m := c.fld oPwrWatchv pwrWatchv_MASK
  if c.fld oPwrWatch pwrWatch_CMP = 0 then reached v x else decide (v &&& m = x &&& m)

/-- WATCH_SLICE: a slice begins when its period has come, with the port clamps released; once its time is over and no landing remains, it ends
with the comparison, and a match is a wake event. The clamps are then in force again (R337, R340). -/
def Ctl.watchSlice (c : Ctl) (b : Tab Granule) : Ctl × List BankOp :=
  let f := c.fld oPwrWatch
  if c.power.slice then
    if c.ec < c.power.sliceEnd ∨ c.packets ≠ [] ∨ c.areqs ≠ [] then (c, [])
    else
      let r := c.watchValue b
      let c : Ctl := { (r.1.setPower fun (p : Power) => { p with slice := false }).clamp with clk := { r.1.clk with run := false } }
      if r.2.2 || c.watchMatch r.2.1 then c.wakeBy 4
      else if c.power.wakePend then c.exitBegin
      else (c, [])
  else if c.power.mode = 3 ∧ c.power.asleep ∧ c.pmState = 3 ∧ c.power.entryRef + (c.power.slices + 1) * 2 ^ f pwrWatch_PERIOD_EXP ≤ c.clk.ref then
    let n := (c.clk.ref - c.power.entryRef) / 2 ^ f pwrWatch_PERIOD_EXP
    let c := c.setPower fun (p : Power) => { p with slice := true, sliceEnd := c.ec + 2 ^ f pwrWatch_SLICE_EXP, slices := n }
    (((c.setPm pwrMode_CLAMPED 0).clocksRun).setPoint 3, [])
  else (c, [])

/-! ### The commands -/

/-- OP_TRANSITION. -/
def execOpTransition (target : BitVec 2) (s : State) : Out := onUnit true s fun c => c.ctlWrite (.opTransition target) 3 fun c => c.opWrite target.toNat
/-- D_CHANGE. -/
def execDChange (s : State) : Out := onUnit true s Ctl.dChange
/-- VACK. -/
def execVack (s : State) : Out := onUnit true s Ctl.vack
/-- VACK_TIMEOUT. -/
def execVackTimeout (s : State) : Out := onUnit true s Ctl.vackTimeout
/-- BROWNOUT: the integrator drives vwarn_n to a level. The block samples it on the edges of ref_clk that follow, recognizes an assertion
and drops to OP2 as time passes (R327). -/
def execBrownout (vwarn : Bool) (s : State) : Out := onUnit true s fun c => c.setPower fun (p : Power) => { p with vwarn := vwarn }
/-- BROWNOUT_RESTORE. -/
def execBrownoutRestore (s : State) : Out := onUnit true s Ctl.brownRestore
/-- WFI. -/
def execWfi (s : State) : Out := onUnit true s Ctl.wfi
/-- ENTRY_CC. -/
def execEntryCc (s : State) : Out := onUnit true s Ctl.entryCc
/-- WAKE_EVENT. -/
def execWakeEvent (src : Nat) (s : State) : Out := onBanks (decide (src < 5)) s fun _ c => c.wakeEvent src
/-- WATCH_SLICE. -/
def execWatchSlice (s : State) : Out := onBanks true s fun b c => c.watchSlice b
/-- CLAMP_REL. -/
def execClampRel (s : State) : Out := onUnit true s Ctl.clampRel
/-- PWR_MODE_WRITE: the stage manager, which runs in P0 and P1. -/
def execPwrModeWrite (mode : BitVec 3) (s : State) : Out :=
  onUnit true s fun c => if c.pmState = 0 then c.setPower fun (p : Power) => { p with req := mode.toNat } else c

end Sys2Proof.Machine
end

