-- ==== Sys2Proof/Machine/Firmware.lean ====
section
/-! DEFINITION. The NOR device, firmware images, upload, activation, the copy of slots and the mailbox (R347, R348, R353, R359 to R365). -/

namespace Sys2Proof.Machine

/-! ### The NOR device (R347, R348) -/

/-- `n` bytes from an address on; an erased byte reads 0xFF. -/
def nvmRead : Nat → Nat → Tab Byte → List Byte
  | 0, _, _ => []
  | n + 1, a, t =>
    match t.dropWhile fun e => decide (e.1 < a) with
    | [] => List.replicate (n + 1) 0xFF
    | (k, v) :: r => if k = a then v :: nvmRead n (a + 1) r else 0xFF :: nvmRead n (a + 1) ((k, v) :: r)

/-- Program bytes from an address on. -/
def nvmWrite (t : Tab Byte) : Nat → List Byte → Tab Byte
  | _, [] => t
  | a, b :: l => nvmWrite (Tab.set 0xFF t a b) (a + 1) l

/-- Erase [lo, lo + n). -/
def nvmErase (t : Tab Byte) (lo n : Nat) : Tab Byte := t.filter fun e => !decide (lo ≤ e.1 ∧ e.1 < lo + n)

/-- The first n bytes of slot 0, which is erased, take those of slot 1 (R364). -/
def copySlot (n : Nat) (t : Tab Byte) : Tab Byte :=
  (t.filter fun e => decide (e.1 < 0x20000)) ++ ((t.filter fun e => decide (0x50000 ≤ e.1 ∧ e.1 < 0x50000 + n)).map fun e => (e.1 - 0x30000, e.2))
    ++ t.filter fun e => decide (0x20000 + n ≤ e.1)

/-- Offset of firmware slot 0 or 1. -/
def slotOff (s : Nat) : Nat := if s = 0 then 0x20000 else 0x50000

/-- Change the contents of the device. -/
def Ctl.setNvm (c : Ctl) (f : Tab Byte → Tab Byte) : Ctl :=
  { c with boot := { c.boot with dev := { c.boot.dev with bytes := f c.boot.dev.bytes } } }

def Ctl.setBoot (c : Ctl) (f : Boot → Boot) : Ctl := { c with boot := f c.boot }

/-! ### Images (R353, R359, R360) -/

/-- A field of `n` bytes of a header at offset `o`. -/
def hdr (h : List Byte) (o n : Nat) : Nat := leNat ((h.drop o).take n)

/-- IMG_VER, BODY_LEN and CFG_FORMAT of a header. -/
def hdrVer (h : List Byte) : Nat := hdr h 0x0C 4
def hdrLen (h : List Byte) : Nat := hdr h 0x10 4
def hdrCfg (h : List Byte) : Nat := hdr h 0x16 2
def hdrNonce (h : List Byte) : List Byte := (h.drop 0x18).take 12

/-- BODY_LEN or ENTRY breaks its requirement (R359). -/
def hdrBadLength (h : List Byte) : Bool :=
  decide (hdrLen h < 16 ∨ 131072 < hdrLen h ∨ hdrLen h % 16 ≠ 0 ∨ hdrLen h ≤ hdr h 0x24 4 ∨ hdr h 0x24 4 % 4 ≠ 0)

/-- The checks of R360 on the header alone: 2 MAGIC, 3 FORMAT, 4 TARGET, 5 LENGTH, 6 KEY, 0 none failed. -/
def Ctl.headerCode (c : Ctl) (h : List Byte) : Nat :=
  if hdr h 0 4 ≠ 0x4D465749 then 2
  else if hdr h 4 2 ≠ 1 ∨ hdr h 6 2 ≠ 128 ∨ hdr h 0x28 72 ≠ 0 then 3
  else if hdr h 8 4 ≠ 0x201 then 4
  else if hdrBadLength h then 5
  else match c.boot.key with
    | some k => if hdr h 0x14 2 = k.2.toNat then 0 else 6
    | none => 6

/-- The bytes of the delivered key (R346). -/
def Ctl.keyBytes (c : Ctl) : List Byte := match c.boot.key with | some k => leBytes 32 k.1.toNat | none => []

/-- Tag and plaintext of an image under the delivered key (R359). -/
def Ctl.openImage (c : Ctl) (h body : List Byte) : List Byte × List Byte := gcmOpen c.keyBytes (hdrNonce h) (h.take 0x70) body

/-- The tag of an image verifies. -/
def Ctl.tagOk (c : Ctl) (h body : List Byte) : Bool := decide ((c.openImage h body).1 = (h.drop 0x70).take 16)

/-- The header of a slot. -/
def Ctl.slotHeader (c : Ctl) (s : Nat) : List Byte := nvmRead 128 (slotOff s) c.boot.dev.bytes

/-- The body of a slot, as long as its header says. -/
def Ctl.slotBody (c : Ctl) (s : Nat) : List Byte := nvmRead (hdrLen (c.slotHeader s)) (slotOff s + 0x80) c.boot.dev.bytes

/-- The check word of a slot passes. -/
def Ctl.slotCheck (c : Ctl) (s : Nat) : Bool :=
  let n := hdrLen (c.slotHeader s)
  c.boot.dev.readable && decide (n + 0x84 ≤ 0x30000) &&
    decide (crc32c (c.slotHeader s ++ c.slotBody s) = leNat (nvmRead 4 (slotOff s + 0x80 + n) c.boot.dev.bytes))

/-- Why a slot cannot be used (R353): the codes of R360, 9 AUTH, 16 the check word; 0 it is used. -/
def Ctl.slotCode (c : Ctl) (s : Nat) : Nat :=
  if !c.slotCheck s then 16
  else
    let k := c.headerCode (c.slotHeader s)
    if k ≠ 0 then k else if c.tagOk (c.slotHeader s) (c.slotBody s) then 0 else 9

/-! ### MIO_FW_STAT -/

def Ctl.fw (c : Ctl) (f : FieldPos) : Nat := c.fld oFwStat f
def Ctl.setFw (c : Ctl) (f : FieldPos) (v : Nat) : Ctl := c.setFld oFwStat f v

/-- RESULT of the most recent FW_ command or activate. -/
def Ctl.fwResult (c : Ctl) (r : Nat) : Ctl := c.setFw fwStat_RESULT r

/-- An image becomes the running one. -/
def Ctl.runImage (c : Ctl) (h plain : List Byte) : Ctl :=
  (c.setFw fwStat_RUN_VER (hdrVer h)).setBoot fun (b : Boot) => { b with iramRun := plain, iramIdle := b.iramRun, runHeader := h, dram := [] }

/-! ### Upload (R360, R361) -/

/-- An upload is in progress. -/
def Ctl.uploading (c : Ctl) : Bool := decide (c.fw fwStat_UPLOADING = 1)

/-- The result of FW_BEGIN (R360). -/
def Ctl.beginCode (c : Ctl) (h : List Byte) : Nat :=
  if c.uploading || decide (c.boot.copying ≠ 0) then 1
  else
    let k := c.headerCode h
    if k ≠ 0 then k
    else if hdrNonce h = hdrNonce (c.slotHeader 0) ∨ hdrNonce h = hdrNonce c.boot.runHeader then 7 else 0

/-- FW_BEGIN: a refused header changes RESULT alone; an accepted one clears the idle bank and erases slot 1. -/
def Ctl.fwBegin (c : Ctl) (h : List Byte) : Ctl :=
  let r := c.beginCode h
  if r ≠ 0 then c.fwResult r
  else
    let c := ((c.fwResult 1).setFw fwStat_UPLOADING 1).setFw fwStat_STAGED 0
    let c := c.setNvm fun t => nvmErase t (slotOff 1) 0x30000
    c.setBoot fun (b : Boot) => { b with iramIdle := [], uploadHdr := h, upload := [], nvmBusy := true, stagedHdr := [], stagedBody := [] }

/-- An upload ends with ORDER, AUTH or NVM (R361). -/
def Ctl.fwFail (c : Ctl) (r : Nat) : Ctl :=
  let c := (c.fwResult r).setFw fwStat_UPLOADING 0
  let c := c.setNvm fun t => nvmErase t (slotOff 1) 0x1000
  c.setBoot fun (b : Boot) => { b with iramIdle := [], uploadHdr := [], upload := [], nvmBusy := false, ending := 0 }

/-- FW_DATA is answered BUSY: what came before it has not been programmed yet (R361). -/
def Ctl.fwHeld (c : Ctl) : Bool := c.uploading && c.boot.nvmBusy

/-- FW_DATA (R361). Outside an upload only RESULT shows it (log entry 36). -/
def Ctl.fwData (c : Ctl) (off : Nat) (data : List Byte) : Ctl :=
  let b := c.boot
  let len := hdrLen b.uploadHdr
  if !c.uploading then c.fwResult 8
  else if b.nvmBusy then c.fwResult 1
  else if off ≠ b.upload.length ∨ len ≤ off then c.fwFail 8
  else
    let piece := data.take (min 256 (len - off))
    let keys := aesKeys (c.keyBytes.map BitVec.toNat)
    let plain := gcmStream keys ((hdrNonce b.uploadHdr).map BitVec.toNat) (piece.length + 1) (2 + off / 16) piece
    let c := (c.fwResult 0).setNvm fun t => nvmWrite t (slotOff 1 + 0x80 + off) piece
    c.setBoot fun (b : Boot) => { b with upload := b.upload ++ piece, iramIdle := b.iramIdle ++ plain, nvmBusy := true }

/-- FW_END (R361): with the tag verified, the header and the check word are programmed once the body has been. Until they are, RESULT reads
BUSY, and so does the result of another FW_END (log entry 36). -/
def Ctl.fwEnd (c : Ctl) : Ctl :=
  let b := c.boot
  if !c.uploading then c.fwResult 8
  else if b.ending ≠ 0 then c.fwResult 1
  else if b.upload.length < hdrLen b.uploadHdr then c.fwFail 8
  else if !c.tagOk b.uploadHdr b.upload then c.fwFail 9
  else (c.fwResult 1).setBoot fun (b : Boot) => { b with ending := if b.nvmBusy then 2 else 1, nvmBusy := true }

/-- Header and check word of slot 1 are written: the image is staged (R361). -/
def Ctl.fwStaged (c : Ctl) : Ctl :=
  let b := c.boot
  let check := leBytes 4 (crc32c (b.uploadHdr ++ b.upload))
  let c := c.setNvm fun t => nvmWrite (nvmWrite t (slotOff 1) b.uploadHdr) (slotOff 1 + 0x80 + b.upload.length) check
  let c := ((c.fwResult 0).setFw fwStat_UPLOADING 0).setFw fwStat_STAGED 1
  let c := (c.setFld oFwStaged fwStaged_VER (hdrVer b.uploadHdr)).setFld oFwStaged fwStaged_CFG_FORMAT (hdrCfg b.uploadHdr)
  c.setBoot fun (b : Boot) => { b with stagedHdr := b.uploadHdr, stagedBody := b.upload, uploadHdr := [], upload := [], nvmBusy := false, ending := 0 }

/-- NVM_PROGRAM_ERASE_DONE (R361): the erase or the program that was under way is over, and the next begins. -/
def Ctl.nvmDone (c : Ctl) (ok : Bool) : Ctl :=
  if !c.fwHeld then c
  else if !ok then c.fwFail 10
  else if c.boot.ending = 2 then c.setBoot fun (b : Boot) => { b with ending := 1 }
  else if c.boot.ending = 1 then c.fwStaged
  else
    let c := if c.fw fwStat_RESULT = 1 then c.fwResult 0 else c
    c.setBoot fun (b : Boot) => { b with nvmBusy := false }

/-! ### Activation (R362 to R364) -/

/-- What keeps an activate BUSY (R362). -/
def Ctl.activateBusy (c : Ctl) : Bool :=
  (c.seqs.any fun e => decide (e.2.state = .running)) || (c.groups.any fun e => e.2.decided.isSome) || decide (c.intmPhase ≠ 0)
    || ((List.range Config.wimgs).any fun k => decide (c.fld (oWimg k) wimg_STATE = 2))
    || decide (c.strikes ≠ [] ∨ c.refills ≠ 0 ∨ c.marches ≠ []) || (c.unders.any fun u => u.2.copying.isSome)
    || decide (c.pw pwrOp_BUSY = 1) || decide (c.boot.copying ≠ 0)

/-- The result of an activate (R362): 11 STATE, 1 BUSY, 0 accepted. -/
def Ctl.activateCode (c : Ctl) : Nat :=
  if c.fw fwStat_STAGED = 0 ∨ c.blackout ∨ c.pmState ≠ 0 then 11 else if c.activateBusy then 1 else 0

/-- An accepted activate on a running block (R363): starts and requests pause, and the instruction-RAM banks exchange roles. -/
def Ctl.activate (c : Ctl) : Ctl :=
  let r := c.activateCode
  let c := c.fwResult r
  if r ≠ 0 then c
  else
    let old := decide (c.fld oStrCfg strCfg_ISSUE_PAUSE = 1)
    let b := c.boot
    let c := ((c.runImage b.stagedHdr b.iramIdle).setFw fwStat_STAGED 0).hwFld oStrCfg strCfg_ISSUE_PAUSE 1
    c.setBoot fun (b : Boot) => { b with pause := some old, kicked := false, actCc := c.cc }

/-- A request is part of a landing: of a stream, a packet or an ordered set, its reads from journal and stage on the way included (R241). A
send descriptor's source read, a write of the journal, a rehearsal or a service access is none. -/
def AKind.landing : AKind → Bool
  | .sendRead _ _ | .journalWrite _ _ | .service => false
  | _ => true

/-- The drain of R363 is over: no tag is in use, no landing pending, and every write-back queue is empty. -/
def Ctl.drained (c : Ctl) : Bool :=
  (c.sports.all fun p => decide (p.2.tags = [])) && decide (c.landed = []) && (c.areqs.all fun a => !a.kind.landing)
    && c.wbq.all fun q => decide (q.2 = [])

/-- Microcode read-back (R355): bit q quadrant controller q, bit 4 the stream engine. -/
def Ctl.microcode (c : Ctl) (bad : BitVec 5) : Ctl :=
  let c := if bad.getLsbD 4 then c.raise 3 6 else c
  forAll ((List.range 4).filter fun q => bad.getLsbD q) (fun q c => c.raise 4 q) c

/-- The copy of slot 1 into slot 0 may begin (R364). -/
def Ctl.copyBegin (c : Ctl) : Ctl := (c.setFw fwStat_COPY 1).setBoot fun (b : Boot) => { b with copying := 4 }

/-- ACTIVATE_RESUME (R363): once the new image has kicked and the drain is over. -/
def Ctl.activateResume (c : Ctl) (bad : BitVec 5) : Ctl :=
  match c.boot.pause with
  | some old =>
    if !c.boot.kicked || !c.drained then c
    else
      let c := (c.microcode bad).hwFld oStrCfg strCfg_ISSUE_PAUSE old.toNat
      (c.setBoot fun (b : Boot) => { b with pause := none }).copyBegin
  | none => c

/-- SLOT_COPY (R364): the next step of the copy: slot 0 loses its first sector, then the rest; header and body are programmed, then the check
word. From the first step to the last the check word of slot 0 fails. -/
def Ctl.slotCopy (c : Ctl) : Ctl :=
  let n := 0x80 + hdrLen (c.slotHeader 1)
  match c.boot.copying with
  | 0 => c
  | 1 => ((c.setNvm (copySlot (n + 4))).setFw fwStat_COPY 0).setBoot fun (b : Boot) => { b with copying := 0 }
  | 2 => (c.setNvm (copySlot n)).setBoot fun (b : Boot) => { b with copying := 1 }
  | 3 => ((c.setNvm fun t => nvmErase t (slotOff 0) 0x30000).setFw fwStat_COPY 2).setBoot fun (b : Boot) => { b with copying := 2 }
  | _ => (c.setNvm fun t => nvmErase t (slotOff 0) 0x1000).setBoot fun (b : Boot) => { b with copying := 3 }

/-! ### The mailbox (R365) -/

def Ctl.mb (c : Ctl) (f : FieldPos) : Nat := c.fld oMbCtrl f

/-- H2S_SEND: ignored while a message waits. -/
def Ctl.mbSend (c : Ctl) : Ctl := if c.mb mbCtrl_H2S_FULL = 1 then c else c.setFld oMbCtrl mbCtrl_H2S_FULL 1

/-- S2H_ACK. -/
def Ctl.mbAck (c : Ctl) : Ctl := c.setFld oMbCtrl mbCtrl_S2H_FULL 0

/-- A write of word k of the host's message. -/
def Ctl.mbWrite (c : Ctl) (k : Nat) (v : Word) : Ctl :=
  if c.mb mbCtrl_H2S_FULL = 1 then c.flag oMbCtrl mbCtrl_H2S_REFUSED else c.setReg (oMbH2s k) v

/-- The stage manager's message. -/
def Ctl.mbPost (c : Ctl) (words : List Word) : Ctl :=
  (forAll (List.range 8) (fun k c => c.setReg (oMbS2h k) (words.getD k (c.reg (oMbS2h k)))) c).setFld oMbCtrl mbCtrl_S2H_FULL 1

/-! ### Who runs -/

/-- The stage door serves frames: from the end of step 3 (R344). -/
def Ctl.doorUp (c : Ctl) : Bool := decide (c.boot.phase ≠ .inReset ∧ c.boot.phase ≠ .waitPll)

/-- The stage manager runs: it is up, its clock runs, and no watch slice is under way (R337). -/
def Ctl.smRuns (c : Ctl) : Bool := c.doorUp && c.clk.run && !c.clk.frozen && !c.power.slice

/-- A write of a register of the stage manager's group through the control port: safe state does not refuse it (R308). -/
def Ctl.ctlWriteSm (c : Ctl) (i : Instr) (f : Ctl → Ctl) : Ctl := c.onPort i f { valid := true }

/-! ### The commands -/

/-- ACTIVATE_RESUME. -/
def execActivateResume (microcode : BitVec 5) (s : State) : Out := onUnit true s fun c => if c.smRuns then c.activateResume microcode else c
/-- SLOT_COPY. -/
def execSlotCopy (s : State) : Out := onUnit true s fun c => if c.smRuns then c.slotCopy else c
/-- NVM_PROGRAM_ERASE_DONE. -/
def execNvmProgramEraseDone (ok : Bool) (s : State) : Out := onUnit true s fun c => if c.smRuns then c.nvmDone ok else c
/-- H2S_SEND. -/
def execH2sSend (s : State) : Out := onUnit true s fun c => c.ctlWriteSm .h2sSend Ctl.mbSend
/-- S2H_ACK. -/
def execS2hAck (s : State) : Out := onUnit true s fun c => c.ctlWriteSm .s2hAck Ctl.mbAck
/-- H2S_MESSAGE_TAKEN. -/
def execH2sMessageTaken (s : State) : Out := onUnit true s fun c => if c.smRuns then c.setFld oMbCtrl mbCtrl_H2S_FULL 0 else c
/-- S2H_MESSAGE_POST. -/
def execS2hMessagePost (words : List Word) (s : State) : Out := onUnit true s fun c => if c.smRuns then c.mbPost words else c

end Sys2Proof.Machine
end

