-- ==== Sys2Proof/Machine/Bus.lean ====
section
/-! DEFINITION. The register map as it is read and written (R64, R366 to R374): the live fields of a read, the access types of a
write, and the register that each offset reaches. -/

namespace Sys2Proof.Machine

/-! ### Reads (R63, R369) -/

/-- Fields with values, packed. -/
def packFields (l : List (FieldPos × Nat)) : Nat := l.foldl (fun v x => putBits v x.1.lo x.1.width x.2) 0

/-- A stored word with some fields replaced by what the units hold. -/
def live (v : Nat) (l : List (FieldPos × Nat)) : Nat := l.foldl (fun v x => putBits v x.1.lo x.1.width x.2) v

/-- MIO_SEQ_STAT_n. -/
def Ctl.seqStatLive (c : Ctl) (n v : Nat) : Nat :=
  let q := c.seq n
  let st := match q.state with | .halted => 0 | .waiting => 1 | .running => 2 | .trapped => 3
  let pc := match q.state with | .running => q.lastPc | .trapped => c.fld (oSeqTrap n) seqTrap_PC | _ => q.pc
  live v [(seqStat_STATE, st), (seqStat_HALF, q.half.toNat), (seqStat_HEAD_MET, q.headMet.toNat), (seqStat_LOAD_HOLD, q.loadHold.toNat),
    (seqStat_PARK_PENDING, q.parkPend.toNat), (seqStat_LOOP_DEPTH, (q.loopsAt c.ec).length), (seqStat_PC, pc)]

/-- MIO_SEQ_SCENE_n: the offset stops when the scene ends. -/
def Ctl.seqSceneLive (c : Ctl) (n : Nat) : Nat :=
  let q := c.seq n
  let off := if q.inScene then 4 * c.cc - q.ec0 else q.offset
  packFields [(seqScene_SCENE_NO, q.sceneNo.toNat), (seqScene_EC_OFFSET, min off (2 ^ 32 - 1))]

/-- Granules of the reorder stage of quadrant q that hold contributions. -/
def Ctl.stageUsedIn (c : Ctl) (q : Nat) : Nat := (c.stageUsed.filter fun gi => decide ((c.place gi).quad = q)).length

/-- Reservations of the open ordered windows (MIO_REORD_STAT_q). -/
def Ctl.stageWindows (c : Ctl) : Nat := ((c.liveWins.filter fun w => decide (c.wn w win_ORDERED = 1)).map fun w => c.wn w win_ORD_RESERVE).sum

/-- Granules held by ordered set k. -/
def Ctl.osetHolds (c : Ctl) (k : Nat) : Nat := ((c.liveCtxs.filter fun x => decide (c.cx x strCtx_OSET = k)).map fun x => (c.ctx x).osetHeld.length).sum

/-- MIO_TWIN_STAT. -/
def Ctl.twinStatLive (c : Ctl) (v : Nat) : Nat :=
  let idle := !(c.packets.any fun p => p.journal.isSome) && !(c.twin.journal.any fun j => j.landing && !j.landed && !j.void)
  live v [(twinStat_JFREE, if c.twinMode = 1 then c.journalFree else 0), (twinStat_PAIRS, c.tracksUsed), (twinStat_LAND_IDLE, idle.toNat)]

/-- MIO_ARB_WAIT_r: the largest counts over the four arbiters. -/
def Ctl.arbWaitLive (c : Ctl) (r v : Nat) : Nat :=
  let top := fun (f : Nat → Nat) => (List.range 4).foldl (fun m q => max m (f q)) 0
  live v [(arbWait_WAIT, min 0xFFFF (top fun q => c.waitOf q r)),
    (arbWait_BACKOFF_N, if 24 ≤ r ∧ r < 40 then min 0xF (top fun q => Tab.get 0 (c.arb q).loss r) else 0)]

/-- A region that can be addressed now (MIO_REGION_AVAIL). -/
def Ctl.regionAvail (c : Ctl) (r : Nat) : Bool :=
  decide (c.fld (oRegion r) region_VALID = 1 ∧ c.fld (oRegion r) region_FENCED = 0 ∧ c.fld (oRegion r) region_BUSY = 0)

/-- A perturbation register holds a setting (MIO_FLT_STAT). -/
def Ctl.perturbed (c : Ctl) : Bool := decide (c.reg oPertStream ≠ 0 ∨ c.reg oPertArb ≠ 0 ∨ c.reg oPertLink ≠ 0)

/-- The value that a read of the word at `a` returns, from its stored value `v`. -/
def Ctl.liveWord (c : Ctl) (a : RegAt) (v : Nat) : Nat :=
  match a.row.kind with
  | .geom => c.geomWord
  | .regionAvail => (((List.range 64).filter fun r => c.regionAvail r).map fun r => 2 ^ r).sum
  | .sportStat => live v [(sportStat_OUTSTANDING, (c.sport a.idx).inUse)]
  | .seqStat => c.seqStatLive a.idx v
  | .seqScene => c.seqSceneLive a.idx
  | .csStat => live v [(csStat_HELD, (((List.range 4).filter c.csHeldNow).map fun q => 2 ^ q).sum), (csStat_PENDING, match c.swap with | some s => s.2.toNat | none => 0)]
  | .csFrame => packFields [(csFrame_FRAME, frameOf (8 * c.cc)), (csFrame_SLOT, slotOf (8 * c.cc))]
  | .reordStat => live v [(reordStat_CAPACITY, c.stageCapacity a.idx), (reordStat_RESERVED_G, c.stageWindows), (reordStat_USED, c.stageUsedIn a.idx)]
  | .cnt => live v [(cnt_VALUE, c.cntAt a.idx (4 * c.cc)), (cnt_REL_SCOPE, c.cntScopeAt a.idx (4 * c.cc)), (cnt_LAST_SRC, (c.cntSeen a.idx (4 * c.cc)).src), (cnt_BOUND, (c.bound a.idx).toNat)]
  | .curStat => live v [(curStat_COUNT0, (c.curtain a.idx).round0.total), (curStat_COUNT1, (c.curtain a.idx).round1.total)]
  | .strOset => live v [(strOset_HELD, c.osetHolds (a.idx)), (strOset_ACTIVE, (decide ((c.oset a.idx).started ≠ [])).toNat)]
  | .linkStat => live v [(linkStat_UP, (c.link a.idx).up.toNat), (linkStat_TX_CRED, (c.link a.idx).credits)]
  | .twinStat => c.twinStatLive v
  | .arbWait => c.arbWaitLive a.idx v
  | .eccLogctl => live v [(eccLogctl_USED, ((List.range 64).filter fun e => decide (c.fld (oEccLog e) ⟨0, 0, 1⟩ = 1)).length)]
  | .eccWb => live v [(eccWb_PENDING, (Tab.get [] c.wbq a.idx).length)]
  | .scrubLap => live v [(scrubLap_NOMINAL, 4096 * 2 ^ c.fld oScrubCfg scrubCfg_DIV)]
  | .rehSig => (c.rehSig a.idx).toNat
  | .timeNow => (c.timeRead.2).toNat
  | .fltCap => if c.fld oFltCfg fltCfg_CAP_MODE = 1 then 0 else v
  | .fltStat => live v [(fltStat_BLACKOUT, c.blackout.toNat), (fltStat_PERTURB, c.perturbed.toNat)]
  | _ => v

/-- What a read of an offset returns (R64, R369): nothing for an unmapped one. -/
def Ctl.readReg (c : Ctl) (off : Nat) : Option Word := (regFind off).map fun a => BitVec.ofNat 64 (c.liveWord a (c.reg off).toNat)

/-- What a read changes: MIO_TIME_NOW takes the upper seconds (R298), MIO_SCRUB_LAP begins LAST anew. -/
def Ctl.afterRead (c : Ctl) (off : Nat) : Ctl :=
  if off = oTimeNow then c.timeRead.1 else if off = oScrubLap then c.setFld oScrubLap scrubLap_LAST 0 else c

/-- A request returned DECERR (MIO_STATUS). -/
def Ctl.decErr (c : Ctl) (off : Nat) : Ctl := (c.flag oStatus status_DECODE_ERR).setFld oStatus status_LAST_DECERR off

/-- A read as R64 judges it: what it changes, the data, and the status. -/
def Ctl.readReq (c : Ctl) (off : Nat) (be : BitVec 2) : Ctl × Word × Nat :=
  if be = 0 then (c, 0, 2)
  else match c.readReg off with
    | none => (c.decErr off, 0, 1)
    | some w => (c.afterRead off, w, 0)

/-- The response of an earlier cc is gone once c_rsp_ready is 1, and the oldest request accepted completes if it is a read: it samples its
register as it stands at the start of the first ec of this cc (R63). -/
def Ctl.readsNow (c : Ctl) : Ctl :=
  if c.cRsp.valid && !c.cReady then c
  else match c.cReqs with
  | .read off be :: rest =>
    if c.clamped then { c with cRsp := {} }
    else
      let x := c.readReq off be
      { x.1 with cReqs := rest, cRsp := { valid := true, rdata := x.2.1, status := BitVec.ofNat 2 x.2.2 } }
  | _ => { c with cRsp := {} }

/-! ### Access types (R369, R370) -/

/-- The bits of the word at `a` whose field has one of some access types. Word 1 of a cue-sheet slot names clusters from 32 on, which the
quadrants do not have: every bit of it is reserved (R373). -/
def RegAt.mask (a : RegAt) (p : Acc → Bool) : Word :=
  if a.row.kind = .cs ∧ a.idx % 2 = 1 then 0
  else BitVec.ofNat 64 (((a.row.fields.filter fun f => decide (f.word = a.word) && p f.acc).map fun f => (2 ^ f.width - 1) <<< f.lo).sum)

/-- The bits that a write can act on. -/
def RegAt.writable (a : RegAt) : Word := a.mask fun t => decide (t ≠ .ro)

/-- The bits that a write loads. -/
def RegAt.loads (a : RegAt) : Word := a.mask fun t => decide (t = .rw ∨ t = .rwl ∨ t = .rws)

/-- The values that the fields of a register accept; a field that is given another stays as it is. -/
def Ctl.fieldRules (c : Ctl) (a : RegAt) : List (FieldPos × (Nat → Bool)) :=
  match a.row.kind with
  | .sportCfg => [(sportCfg_MAX_OUT, fun v => decide (1 ≤ v ∧ v ≤ 2048)), (sportCfg_TIMEOUT_EXP, fun v => decide (v = 0 ∨ 10 ≤ v)),
      (sportCfg_ENABLE, fun _ => !(c.sport a.idx).removed)]
  | .grpCfg => [(⟨0, 0, 4⟩, fun v => decide (1 ≤ v ∧ v ≤ 8))]
  | .wingCfg => [(wingCfg_LINGER, fun _ => hasWrite a.idx), (wingCfg_RA_EN, fun _ => hasRead a.idx)]
  | .syncCfg => [(syncCfg_TAGSTALL_EXP, fun v => decide (v = 0 ∨ 10 ≤ v))]
  | .strCfg => [(strCfg_LATE_EXP, fun v => decide (8 ≤ v ∧ v ≤ 24)), (strCfg_DL_EXP, fun v => decide (v = 0 ∨ 10 ≤ v))]
  | .linkCfg => [(linkCfg_TX_CREDITS, fun v => decide (8 ≤ v ∧ v ≤ 64)), (linkCfg_ACK_EXP, fun v => decide (8 ≤ v ∧ v ≤ 24)),
      (linkCfg_ENABLE, fun _ => !(c.link a.idx).failed)]
  | .arbCfg => [(arbCfg_BACKOFF_CAP, fun v => decide (v ≤ 10))]
  | .arbReq => [(arbReq_HOLD, fun _ => decide (reqClass a.idx ≠ 2))]
  | .rehCfg => [(rehCfg_SUB_EXP, fun v => decide (6 ≤ v ∧ v ≤ 20))]
  | .timeCtl => [(timeCtl_TRIM, fun v => decide (v ≤ 4294967 ∨ 2 ^ 24 - 4294967 ≤ v))]
  | .timeSetNs => [(timeSetNs_NS, fun v => decide (v < 10 ^ 9))]
  | .fltSrc => [(fltSrc_SEV, fun v => decide (3 ≤ a.idx ∧ a.idx < 23) && !(decide (a.idx = 13) && decide (v = 3))),
      (fltSrc_REACT, fun v => decide (3 ≤ a.idx) && (decide (v = 0) || [4, 5, 7, 9, 10, 11, 14, 16].contains a.idx))]
  | .fltCfg => [(fltCfg_CAP_MODE, fun _ => decide (c.fld oFltCap fltCap_VALID = 0 ∧ c.reg oFltSticky = 0)),
      (fltCfg_ALIVE_EXP, fun v => decide (16 ≤ v ∧ v ≤ 26))]
  | .pertArb => [(pertArb_REQ, fun v => decide (v ≤ 44))]
  | .pertLink => [(pertLink_CAP, fun v => decide (v = 0 ∨ (5 ≤ v ∧ v ≤ 64)))]
  | .pwrOp => [(pwrOp_VACK_EXP, fun v => decide (12 ≤ v ∧ v ≤ 24))]
  | .pwrWake => [(pwrWake_TIMER_EXP, fun v => decide (10 ≤ v))]
  | .pwrWatch => [(pwrWatch_PERIOD_EXP, fun v => decide (12 ≤ v)), (pwrWatch_SLICE_EXP, fun v => decide (8 ≤ v ∧ v ≤ 20))]
  | _ => []

/-- Keep the old value of every field whose new value is not accepted. -/
def keepOld (word old : Nat) (rules : List (FieldPos × (Nat → Bool))) (v : Nat) : Nat :=
  rules.foldl (fun v r =>
    if decide (r.1.word = word) && !r.2 (bits v r.1.lo r.1.width) then putBits v r.1.lo r.1.width (bits old r.1.lo r.1.width) else v) v

/-- Registers whose new value governs from the cc after the completion (R56, R166, R177, R245, R316, R319). -/
def RegKind.deferred : RegKind → Bool
  | .sportCfg | .tagEn | .wdog | .arbCfg | .arbReq | .repGrant | .pertStream | .pertArb | .pertLink => true
  | _ => false

/-- A deferred value: of MIO_SPORT_CFG_n only TIMEOUT_EXP waits for the next cc (R56, R63). -/
def Ctl.defer (c : Ctl) (k : RegKind) (off : Nat) (v : Word) : Ctl :=
  let old := bits (c.reg off).toNat sportCfg_TIMEOUT_EXP.lo sportCfg_TIMEOUT_EXP.width
  let now := BitVec.ofNat 64 (putBits v.toNat sportCfg_TIMEOUT_EXP.lo sportCfg_TIMEOUT_EXP.width old)
  (if k = .sportCfg then c.setReg off now else c).setLater off (BitVec.allOnes 64) v

/-- The RW counts of a word that a write touches and that have counted events in this cc: lowest bit, width, events (R371). -/
def Ctl.eventsOf (c : Ctl) (a : RegAt) (off : Nat) (m : Word) : List (Nat × Nat × Nat) :=
  (c.notes.counts.filter fun e => decide (e.1 = off)).filterMap fun e =>
    match a.row.fields.find? fun f => decide (f.word = a.word ∧ f.lo = e.2.1 ∧ f.acc = .rw) with
    | some f => if (FieldPos.mk 0 f.lo f.width).mask &&& m = 0 then none else some (f.lo, f.width, e.2.2)
    | none => none

/-- A written word with the events of this cc added to the counts that the write touches (R371). -/
def Ctl.addEvents (c : Ctl) (a : RegAt) (off : Nat) (m : Word) (v : Nat) : Nat :=
  (c.eventsOf a off m).foldl (fun v e => putBits v e.1 e.2.1 (min (bits v e.1 e.2.1 + e.2.2) (2 ^ e.2.1 - 1))) v

/-- A word as it stood before the events of this cc, in the counts that a write touches: what a write of half a count leaves of it. -/
def Ctl.lessEvents (c : Ctl) (a : RegAt) (off : Nat) (m : Word) (v : Nat) : Nat :=
  (c.eventsOf a off m).foldl (fun v e => putBits v e.1 e.2.1 (bits v e.1 e.2.1 - e.2.2)) v

/-- The W1C bits of a word that a write of ones clears: all but those that the block has set in this cc (R371). -/
def Ctl.w1c (c : Ctl) (off : Nat) (m : Word) : Word := m &&& ~~~ Tab.get 0 c.notes.ones off

/-- RW fields that the block changes too: ISSUE_PAUSE of MIO_STR_CFG, ARM of MIO_INJ_BANK, LONGEST of MIO_ARB_WAIT_r, MIO_PROV_SEQ; RESYNC of
MIO_TWIN_CFG has a write of its own. -/
def RegKind.shared : RegKind → Bool
  | .strCfg | .injBank | .arbWait | .provSeq => true
  | _ => false

/-- A write under the access types alone: RW and RWL load, W1C clears; the lock keeps RWL fields and shows it (R369 to R371, R374). -/
def Ctl.plainWrite (c : Ctl) (a : RegAt) (off : Nat) (be : BitVec 2) (data : Word) : Ctl :=
  let old := BitVec.ofNat 64 (c.lessEvents a off (beMask be) (if a.row.kind.deferred then c.regNext off else c.reg off).toNat)
  let rwl := a.mask fun t => decide (t = .rwl)
  let loads := if c.locked then a.loads &&& ~~~ rwl else a.loads
  let v := BitVec.ofNat 64 (keepOld a.word old.toNat (c.fieldRules a) ((merge old be data &&& loads) ||| (old &&& ~~~ loads)).toNat)
  let v := BitVec.ofNat 64 (c.addEvents a off (beMask be) v.toNat)
  let v := v &&& ~~~ c.w1c off (data &&& beMask be &&& a.mask fun t => decide (t = .w1c))
  let c := if c.locked && decide (rwl &&& beMask be ≠ 0) then c.flag oStatus status_LOCK_WR else c
  let c := if a.row.kind.shared then c.noteWrote off (loads &&& beMask be) else c
  if a.row.kind.deferred then c.defer a.row.kind off v else c.setReg off v

/-! ### The registers with effects of their own -/

/-- MIO_SEQ_CFG_n, MIO_SEQ_WT_n_k and MIO_WING_CFG_n: written only while the sequencer is HALTED (R82). RA_EN = 0 empties the
read-ahead wing: no read issued from then on hits (R147). -/
def Ctl.seqWrite (c : Ctl) (a : RegAt) (off : Nat) (be : BitVec 2) (data : Word) : Ctl :=
  if (c.seq a.idx).state ≠ .halted then c.seqRefuse a.idx
  else
    let c := c.plainWrite a off be data
    if a.row.kind = .wingCfg ∧ c.fld (oWing a.idx) wingCfg_RA_EN = 0 then
      c.setSeq a.idx { c.seq a.idx with ra := (c.seq a.idx).ra.map (RaEntry.leave c.ec) }
    else c

/-- MIO_CS_q_a_s_w (R96, R98): the copy number of an offset tells quadrant, copy, slot and word. -/
def Ctl.csWrite (c : Ctl) (i : Nat) (be : BitVec 2) (data : Word) : Ctl :=
  if i / 512 % 2 = 0 then c.csShadow (i / 1024) (i / 2 % 256) (i % 2) be data else c.csActive (i / 1024) (i / 2 % 256) (i % 2) be data

/-- MIO_STR_CMD. -/
def Ctl.strCmd (c : Ctl) (v : Nat) : Ctl :=
  let x := bits v 0 14
  match bits v 16 3 with
  | 0 => c
  | 1 => c.ctxArm x
  | 2 => c.ctxDisarm x
  | 3 => c.ctxCancel x
  | 4 => c.ctxClear x
  | k => c.cmdShow x k 1

/-- MIO_WIN_CMD (R214): a command that does not fit SEND, a reserved one and a descriptor above 255 are BAD_CMD. -/
def Ctl.winCmd (c : Ctl) (v : Nat) : Ctl :=
  let i := bits v 0 10
  match bits v 10 1, bits v 12 3 with
  | _, 0 => c
  | 0, 1 => c.winOpen i
  | 0, 2 => c.winClose i
  | 1, 3 => if i < 256 then c.sdArm i else c.winResult 6
  | 1, 4 => if i < 256 then c.sdDisarm i else c.winResult 6
  | 1, 5 => if i < 256 then c.sdClear i else c.winResult 6
  | _, _ => c.winResult 6

/-- MIO_US_CMD. -/
def Ctl.usCmd (c : Ctl) (v : Nat) : Ctl :=
  let q := bits v 0 2
  let cl := bits v 2 6
  match bits v 8 2 with
  | 1 => c.migrateCmd q cl
  | 2 => c.replaceCmd q cl
  | 3 => let c := c.usResult q 0
    if isCluster cl then c.fenceCluster q cl else c
  | _ => c

/-- MIO_INTM_CMD: AT_SCENE lies in the upper half, so SAVE takes a write of both halves (R370). -/
def Ctl.intmCmd (c : Ctl) (be : BitVec 2) (data : Word) : Ctl :=
  let v := data.toNat
  if !be.getLsbD 0 then c
  else match bits v 0 2 with
    | 1 => if be = 3 then c.intmSave (Nat.testBit v 2) (BitVec.ofNat 32 (v >>> 32)) else c
    | 2 => c.intmRestore (Nat.testBit v 3)
    | 3 => c.intmResume
    | _ => c

/-- MIO_WIMG_CMD. -/
def Ctl.wimgCmd (c : Ctl) (v : Nat) : Ctl :=
  match bits v 4 2 with
  | 1 => c.wimgOpen (bits v 0 3)
  | 2 => c.wimgSeal (bits v 0 3)
  | 3 => c.wimgRelease (bits v 0 3)
  | _ => c

/-- MIO_TIME_SET (R299): SEC lies in both halves; CANCEL needs no operand. -/
def Ctl.timeSetWrite (c : Ctl) (be : BitVec 2) (data : Word) : Ctl :=
  if be.getLsbD 1 ∧ data.getLsbD 49 then c.timePend none
  else if be = 3 then c.timeSet (BitVec.ofNat 48 data.toNat) (data.getLsbD 48)
  else c

/-- MIO_PWR_MODE and MIO_FLT_KICK act on writes from the stage manager's side; the control port's are ignored. -/
def Ctl.pwrModeWrite (c : Ctl) (v : Nat) : Ctl :=
  let c := if c.pmState = 0 then c.setPower fun (p : Power) => { p with req := bits v 0 3 } else c
  if Nat.testBit v 10 then c.clampRel else c

/-- MIO_INJ_BANK, one word: outside factory test mode it ignores writes (R320). -/
def Ctl.injWrite (c : Ctl) (a : RegAt) (off : Nat) (be : BitVec 2) (data : Word) : Ctl :=
  if c.boot.factory then c.plainWrite a off be data else c

/-- MIO_MB_CTRL. -/
def Ctl.mbCtrlWrite (c : Ctl) (v : Nat) : Ctl :=
  let c := if Nat.testBit v 2 ∧ c.w1c oMbCtrl mbCtrl_H2S_REFUSED.mask ≠ 0 then c.setFld oMbCtrl mbCtrl_H2S_REFUSED 0 else c
  let c := if Nat.testBit v 1 then c.mbSend else c
  if Nat.testBit v 9 then c.mbAck else c

/-- A group's half swap (R101, R103). -/
def Ctl.grpSwapWrite (c : Ctl) (g v : Nat) : Ctl :=
  let c := if Nat.testBit v 1 then c.swapGo g (Nat.testBit v 0) else c
  if Nat.testBit v 2 then c.swapCancel g else c

/-- STATE of a weight image in which its RW fields can be written (R286). -/
def Ctl.wimgFree (c : Ctl) (k : Nat) : Bool := decide (c.wi k wimg_STATE = 0 ∨ c.wi k wimg_STATE = 4 ∨ c.wi k wimg_STATE = 5)

/-- A write whose low half, where its commands lie, is enabled. -/
def lowHalf (c : Ctl) (be : BitVec 2) (f : Ctl → Ctl) : Ctl := if be.getLsbD 0 then f c else c

/-- The effect of a write that enables some writable bit of the word at `a`. -/
def Ctl.regEffect (c : Ctl) (a : RegAt) (door : Bool) (off : Nat) (be : BitVec 2) (data : Word) : Ctl :=
  let plain := c.plainWrite a off be data
  let v := data.toNat
  match a.row.kind with
  | .region => c.regionWrite a.idx be data
  | .bankOwn => c.bankOwnWrite a.idx be data
  | .handover => c.handoverWrite be data
  | .seqCfg => c.seqWrite a off be data
  | .seqWt => c.seqWrite a off be data
  | .wingCfg => c.seqWrite a off be data
  | .seqCtrl => lowHalf c be fun c => c.seqCtrl a.idx (bits v 0 2)
  | .cs => c.csWrite a.idx be data
  | .csSwap => c.csSwapWrite be data
  | .csCtrl => c.csCtrlWrite be data
  | .grpSwap => lowHalf plain be fun c => c.grpSwapWrite a.idx v
  | .cnt => c.cntLoadWrite a.idx be data
  | .cntAdd => c.cntAddWrite a.idx be data
  | .curCfg => c.curCfgWrite a.idx be data
  | .curCtrl => lowHalf c be fun c => if data.getLsbD 0 then c.curReset a.idx else c
  | .strCtx => c.ctxWriteWord a.idx a.word be data
  | .strCmd => lowHalf c be fun c => c.strCmd v
  | .strOset => if (c.oset a.idx).started ≠ [] then c.flag oStrStat strStat_CFG_REFUSED else plain
  | .win => c.winWrite a.idx a.word be data
  | .lsend => if c.sd a.idx lsend_STATE ≠ 0 then c.winResult 1 else plain
  | .provSrc => if c.sd a.idx lsend_STATE ≠ 0 then c.winResult 1 else plain
  | .winCmd => lowHalf plain be fun c => c.winCmd v
  | .twinCfg => c.twinCfgWrite be data
  | .twinCkpt => c.ckptWrite be data
  | .marchCmd => lowHalf c be fun c =>
      if data.getLsbD 11 then c.marchStart (bits v 0 2) (bits v 2 6) (data.getLsbD 8) (data.getLsbD 9) (data.getLsbD 10) else c
  | .usCmd => lowHalf c be fun c => c.usCmd v
  | .intmCfg => if c.intmPhase = 0 then plain else c.intmRefuse 1
  | .intmAddr => if c.intmPhase = 0 then plain else c.intmRefuse 1
  | .intmCur => if c.intmPhase = 0 then plain else c.intmRefuse 1
  | .intmCmd => c.intmCmd be data
  | .wimg => if c.wimgFree a.idx then plain else c.wimgResult 1
  | .wimgCmd => lowHalf plain be fun c => c.wimgCmd v
  | .rehCfg => if c.twinMode = 2 then c else plain
  | .timeSet => c.timeSetWrite be data
  | .fltCfg => c.fltCfgWrite fun c => c.plainWrite a off be data
  | .fltKick => if door then lowHalf c be fun c => if data.getLsbD 0 then c.smKick else c else c
  | .fltKill => lowHalf c be fun c => if data.getLsbD 8 then c.kill (bits v 0 5) else c
  | .injBank => c.injWrite a off be data
  | .injLine => c.injLineWrite be data
  | .pwrOp => lowHalf plain be fun c => c.opWrite (bits v 0 2)
  | .pwrMode => if door then lowHalf c be fun c => c.pwrModeWrite v else c
  | .fwCmd => lowHalf c be fun c => if data.getLsbD 0 then c.activate else c
  | .mbCtrl => lowHalf c be fun c => c.mbCtrlWrite v
  | .mbH2s => c.mbWrite a.idx (merge (c.reg off) be data)
  | .ctrl => lowHalf c be fun c => if data.getLsbD 0 then c.lockSet else c
  | _ => plain

/-- A write to a mapped offset: one that enables no writable bit has no effect of any kind (R370). -/
def Ctl.regWrite (c : Ctl) (a : RegAt) (door : Bool) (off : Nat) (be : BitVec 2) (data : Word) : Ctl :=
  if a.writable &&& beMask be = 0 then c else c.regEffect a door off be data

/-! ### Requests (R64, R308) -/

/-- The registers that can be written in safe state (R308). -/
def RegAt.safeWritable (a : RegAt) (off : Nat) : Bool :=
  match a.row.kind with
  | .fltCap | .fltSticky | .fltCnt | .tableauCfg => true
  | _ => decide (0x3C0000 ≤ off)

/-- Registers whose writes only load their fields. -/
def RegKind.loadsOnly : RegKind → Bool
  | .region | .bankOwn | .handover | .seqCtrl | .cs | .csSwap | .csCtrl | .grpSwap | .wingCfg | .cnt | .cntAdd | .curCfg | .curCtrl | .strCtx | .strCmd
  | .win | .winCmd | .twinCfg | .twinCkpt | .marchCmd | .usCmd | .intmCmd | .wimgCmd | .timeSet | .fltCfg | .fltKick | .fltKill | .injBank | .injLine
  | .pwrOp | .pwrMode | .fwCmd | .mbCtrl | .ctrl => false
  | _ => true

/-- A word of an offset is loaded by what writes it, and governs when such a write does. -/
def Ctl.reload (c : Ctl) (a : RegAt) (off : Nat) (m v : Word) : Ctl :=
  if a.row.kind.deferred then c.setLater off m v else c.setReg off (mix (c.reg off) m v)

/-- Registers whose writes check or do more than they load, and that a second write of the same value leaves as the first did. -/
def RegKind.redone : RegKind → Bool
  | .region | .bankOwn | .cs | .wingCfg | .cnt | .curCfg | .strCtx | .win | .twinCfg | .fltCfg | .injBank | .pwrOp => true
  | _ => false

/-- The offsets that a command of the control port writes, of the registers that `RegKind.redone` names. -/
def portOffsets : Instr → List Nat
  | .registerWrite _ off _ _ => [off]
  | .regionWrite n _ _ => [oRegion n]
  | .bankOwnWrite k _ _ => [oBankOwn k]
  | .csShadowWrite q s w _ _ => [csOff q 0 s w]
  | .csActiveWrite q s w _ _ => [csOff q 1 s w]
  | .cntLoad i _ _ => [oCnt i]
  | .curtainCfgWrite k _ _ => [oCurCfg k]
  | .ctxWrite x w _ _ => [oStrCtx x + 8 * w]
  | .windowWrite n w _ _ => [oWin n + 8 * w]
  | .twinCfgWrite _ _ | .resync => [oTwinCfg]
  | .injBank _ _ => [oInjBank, oInjBank + 8]
  | .opTransition _ => [oPwrOp]
  | _ => []

/-- The stage door and the control port in one cc: the door's value stands in the fields that both load, whichever of them came first in the
queue (R365, R371, log entry 121): at once for registers that a write only loads, with the end of the cc for those of `RegKind.redone`. -/
def Ctl.doorStands (c : Ctl) (a : RegAt) (door : Bool) (off : Nat) (be : BitVec 2) (data : Word) : Ctl :=
  let m := a.loads &&& beMask be
  let v := BitVec.ofNat 64 (c.addEvents a off (beMask be) data.toNat)
  if !a.row.kind.loadsOnly then
    (if door && a.row.kind.redone then { c with notes := { c.notes with again := c.notes.again ++ [(off, be, data)] } } else c)
  else if door then
    if ((if a.row.kind.deferred then c.regNext off else c.reg off) ^^^ v) &&& m = 0 then { c with notes := { c.notes with door := c.notes.door ++ [(off, m, v)] } } else c
  else (c.notes.door.filter fun e => decide (e.1 = off)).foldl (fun c e => c.reload a off e.2.1 e.2.2) c

/-- A write as R64 judges it: the effect, and the status 0 OK, 1 DECERR, 2 BAD_BE, 3 IGNORED. -/
def Ctl.writeReq (c : Ctl) (door : Bool) (off : Nat) (be : BitVec 2) (data : Word) : Ctl × Nat :=
  if be = 0 then (c, 2)
  else match regFind off with
    | none => (c.decErr off, 1)
    | some a => if c.blackout && !a.safeWritable off then (c, 3) else ((c.regWrite a door off be data).doorStands a door off be data, 0)

/-- At the end of a cc the stage door's writes take effect anew where a later one of the control port has written the same register (R371). -/
def Ctl.doorAgain (c : Ctl) : Ctl :=
  (c.notes.again.filter fun e => c.notes.port.any fun i => (portOffsets i).contains e.1).foldl (fun c e =>
    match regFind e.1 with
    | some a => if c.blackout && !a.safeWritable e.1 then c else c.regWrite a true e.1 e.2.1 e.2.2
    | none => c) c

/-- The stage door may write an offset (R354, R356): after sys_ready any, before it the stage manager's group; not in recovery mode,
in tableau, or while the clocks are stopped. -/
def Ctl.doorWrites (c : Ctl) (off : Nat) : Bool := c.smRuns && decide (c.boot.phase ≠ .recovery) && (c.sysReady || decide (0x3C0000 ≤ off))

/-- A write of a register from either side. The stage door's answer is part of WRITE_REG. -/
def Ctl.registerWrite (c : Ctl) (src : WSrc) (off : Nat) (be : BitVec 2) (data : Word) : Ctl :=
  match src with
  | .control =>
    c.onPort (.registerWrite .control off be data) (fun c => (c.writeReq false off be data).1)
      { valid := true, status := BitVec.ofNat 2 (c.writeReq false off be data).2 }
  | _ => if c.doorWrites off then (c.writeReq true off be data).1 else c

/-! ### c_req_ready (R63) -/

/-- The commands that are requests of the control port. -/
def ctlRequest : Instr → Bool
  | .registerWrite src _ _ _ => decide (src = .control)
  | .readReg src _ _ => decide (src = .control)
  | .fwActivate src => decide (src = .control)
  | .start _ | .park _ | .reset _ | .cntAdd _ _ _ | .cntLoad _ _ _ | .curtainCfgWrite _ _ _ | .curtainReset _ | .ctxWrite _ _ _ _ | .arm _ | .disarm _
  | .cancel _ | .clear _ | .openWin _ | .closeWin _ | .windowWrite _ _ _ _ | .sendArm _ | .sendDisarm _ | .sendClear _ | .badCmd _ _ _
  | .twinCfgWrite _ _ | .resync | .ckptIdWrite _ _ | .regionWrite _ _ _ | .bankOwnWrite _ _ _ | .handover _ _ | .csShadowWrite _ _ _ _ _ | .copy _ | .csSwap _ _
  | .csActiveWrite _ _ _ _ _ | .groupSwapGo _ _ | .groupSwapCancel _ | .marchCmd _ _ _ _ _ | .migrate _ _ | .replace _ _ | .fence _ _
  | .save _ _ | .restore _ | .resume | .wimgOpen _ | .seal _ | .release _ | .timeSet _ _ | .timeSetCancel | .timeNowRead | .kill _ | .injBank _ _
  | .injLine _ _ | .lock | .opTransition _ | .h2sSend | .s2hAck => true
  | _ => false

/-- Control-port requests that wait in the queue or have been accepted, and have not completed, the one that completes in this cc included (R63). -/
def State.outstanding (s : State) : Nat := (s.pending.filter ctlRequest).length + s.c.outstanding

/-- c_req_ready (R36, R63): 0 while sys_ready is 0 and while four requests are outstanding. -/
def State.reqReady (s : State) : Bool := s.c.sysReady && decide (s.outstanding < 4)

/-! ### The commands -/

/-- REGISTER_WRITE: offsets lie below 0x40_0000, at multiples of 8 (R366). -/
def execRegisterWrite (src : WSrc) (off : Nat) (be : BitVec 2) (data : Word) (s : State) : Out :=
  onUnit (decide (off < 0x400000 ∧ off % 8 = 0)) s fun c => c.registerWrite src off be data

end Sys2Proof.Machine
end

