-- ==== Sys2Proof/Machine/Boot.lean ====
section
/-! DEFINITION. Reset and start-up: the key, the firmware slots, the configuration and repair records, the start checks, recovery mode,
and the exit from P4 (R261 to R267, R272, R273, R320, R333, R343 to R355). -/

namespace Sys2Proof.Machine

/-! ### Reset (R320, R343) -/

/-- MIO_FLT_STAT shows factory test mode (R312, R320). -/
def Ctl.factoryShown (c : Ctl) : Ctl :=
  if c.boot.factory then
    { (c.setFld oFltStat fltStat_FACTORY 1).setFld oFltStat fltStat_ALIVE_STOP 3 with faults := { c.faults with stop := 3 } }
  else c

/-- What an assertion of rst_n leaves: the reset state, with factory test mode and the levels of input pins kept. The count of free values
goes on. -/
def Ctl.afterReset (c : Ctl) : Ctl :=
  ({ boot := { factory := c.boot.factory }, free := c.free, cReady := c.cReady, power := { vwarn := c.power.vwarn } } : Ctl).factoryShown

/-! ### The repair record (R272, R273, R352) -/

/-- Bits c of a list of clusters of quadrant q, given as q * 65 + c. -/
def clusterBits (q : Nat) (l : List Nat) : Nat := (((List.range 64).filter fun cl => l.contains (q * 65 + cl)).map fun cl => 2 ^ cl).sum

/-- The 24 bytes of quadrant q in the body of the repair record. -/
def Ctl.repairQuad (c : Ctl) (q : Nat) : List Byte :=
  let u := c.under q
  let map := match u.map with | some cl => cl | none => 0x7F
  leBytes 1 (map + 128 * u.unavail.toNat) ++ leBytes 1 (if u.map.isSome then u.how else 0)
    ++ leBytes 1 (Nat.testBit (c.fld oGeom geom_QUAD_FENCED) q).toNat ++ leBytes 5 0
    ++ leBytes 8 (clusterBits q c.fenced) ++ leBytes 8 (clusterBits q c.boot.marchFail)

/-- The body of the repair record (R272). -/
def Ctl.repairBody (c : Ctl) : List Byte :=
  leBytes 4 0x201 ++ leBytes 4 c.boot.repairSeq.toNat ++ leBytes 8 0 ++ (List.range 4).flatMap c.repairQuad

/-- Offset of a copy of the repair record. -/
def repairOff (k : Nat) : Nat := 0x10000 + 0x1000 * k

/-- The record is rewritten into the other copy, the check word last (R272, R352). MIO_SM_BOOT.REPAIR_COPY goes on telling the copy that the
most recent start used. -/
def Ctl.repairRewrite (c : Ctl) : Ctl :=
  if !c.boot.repairNew then c
  else
    let k := 1 - c.boot.repairAt
    let c := c.setBoot fun (b : Boot) => { b with repairNew := false, repairSeq := b.repairSeq + 1, repairAt := k }
    let body := c.repairBody
    c.setNvm fun t => nvmWrite (nvmErase t (repairOff k) 0x1000) (repairOff k) (body ++ leBytes 4 (crc32c body))

/-- The body of a copy. -/
def Ctl.repairCopy (c : Ctl) (k : Nat) : List Byte := nvmRead 112 (repairOff k) c.boot.dev.bytes

/-- A copy passes (R352). -/
def Ctl.repairPasses (c : Ctl) (k : Nat) : Bool :=
  c.boot.dev.readable && decide (crc32c (c.repairCopy k) = leNat (nvmRead 4 (repairOff k + 0x70) c.boot.dev.bytes)) && decide (hdr (c.repairCopy k) 0 4 = 0x201)

/-- The copy in force: of two that pass, the one whose SEQ is ahead. -/
def Ctl.repairChoice (c : Ctl) : Option Nat :=
  match c.repairPasses 0, c.repairPasses 1 with
  | true, true => if ahead (hdr (c.repairCopy 0) 4 4) (hdr (c.repairCopy 1) 4 4) then some 0 else some 1
  | true, false => some 0
  | false, true => some 1
  | false, false => none

/-- An understudy takes the name of a cluster at start: init fill follows, so nothing is copied (R273). -/
def Ctl.assignUnder (c : Ctl) (q cl how : Nat) : Ctl :=
  let c := c.setUnder q { c.under q with map := some cl, how := how }
  [(usStat_STATE, 2), (usStat_CLUSTER, cl), (usStat_LOST, (decide (how = 3 ∨ how = 4)).toNat)].foldl (fun c x => c.setFld (oUsStat q) x.1 x.2) c

/-- The record of one quadrant applied (R273). -/
def Ctl.repairApplyQuad (c : Ctl) (q : Nat) (r : List Byte) : Ctl :=
  let o := 0x10 + 24 * q
  let m := hdr r o 1
  let c := if m % 128 < Config.cpq then c.assignUnder q (m % 128) (hdr r (o + 1) 1) else c
  let c := if 128 ≤ m then (c.setUnder q { c.under q with unavail := true }).setFld (oUsStat q) usStat_STATE 3 else c
  let c := forAll ((List.range Config.cpq).filter (Nat.testBit (hdr r (o + 8) 8))) (fun cl c => c.fenceCluster q cl) c
  let fails := ((List.range Config.cpq).filter (Nat.testBit (hdr r (o + 16) 8))).map fun cl => q * 65 + cl
  let c := c.setBoot fun (b : Boot) => { b with marchFail := b.marchFail ++ fails }
  if hdr r (o + 2) 1 % 2 = 1 then c.quadFence q else c

/-- Step 4: the repair record. -/
def Ctl.repairApply (c : Ctl) : Ctl :=
  match c.repairChoice with
  | none => c.setFld oSmBoot smBoot_REPAIR_DEF 1
  | some k =>
    let r := c.repairCopy k
    let c := (c.setFld oSmBoot smBoot_REPAIR_COPY k).setBoot fun (b : Boot) => { b with repairSeq := BitVec.ofNat 32 (hdr r 4 4), repairAt := k }
    (forAll (List.range 4) (fun q c => c.repairApplyQuad q r) c).setBoot fun (b : Boot) => { b with repairNew := false }

/-! ### The configuration record (R349 to R351) -/

/-- `n` bytes of the record at an offset. -/
def Ctl.cfgBytes (c : Ctl) (o n : Nat) : List Byte := nvmRead n o c.boot.dev.bytes

/-- COUNT. -/
def Ctl.cfgCount (c : Ctl) : Nat := leNat (c.cfgBytes 0x0C 4)

/-- MARCH. -/
def Ctl.cfgMarch (c : Ctl) : Nat := leNat (c.cfgBytes 0x10 1)

/-- OFFSET, BE with the zero bits above it, and VALUE of entry i. -/
structure CfgEntry where
  off : Nat
  be : Nat
  value : Word
  deriving DecidableEq, Repr

/-- The entries in a run of bytes. -/
def cfgEntries : Nat → List Byte → List CfgEntry
  | 0, _ => []
  | n + 1, l => ⟨leNat (l.take 4), leNat ((l.drop 4).take 4), BitVec.ofNat 64 (leNat ((l.drop 8).take 8))⟩ :: cfgEntries n (l.drop 16)

/-- The entries of the record. -/
def Ctl.cfgList (c : Ctl) : List CfgEntry := cfgEntries c.cfgCount (c.cfgBytes 0x40 (16 * c.cfgCount))

/-- The record passes CHECK (R351), its zero fields in the header and in every entry included. -/
def Ctl.cfgCheck (c : Ctl) : Bool :=
  let n := c.cfgCount
  decide (leNat (c.cfgBytes 0 4) = 0x4D434647 ∧ leNat (c.cfgBytes 8 4) = 0x201 ∧ n ≤ 4091)
    && decide (leNat (c.cfgBytes 6 2) = 0 ∧ leNat (c.cfgBytes 0x11 47) = 0 ∧ c.cfgMarch ≤ 2)
    && decide (crc32c (c.cfgBytes 0 (0x40 + 16 * n)) = leNat (c.cfgBytes (0x40 + 16 * n) 4))
    && c.cfgList.all fun e => decide (e.off % 8 = 0 ∧ e.be < 4)

/-- An entry may name an offset (R350). -/
def cfgNames (off : Nat) : Bool :=
  match regFind off with
  | none => false
  | some a =>
    match a.row.kind with
    | .ctrl | .cs => true
    | .cnt | .injBank | .injLine => false
    | _ => decide (off < 0x3C0000) && decide (a.loads ≠ 0) && decide ((a.mask fun t => decide (t = .wo ∨ t = .w1s)) = 0)

/-- One entry applied: none where it is refused or leaves a field holding another value. -/
def Ctl.cfgApply (c : Ctl) (e : CfgEntry) : Option Ctl :=
  match regFind e.off with
  | none => none
  | some a =>
    let be := BitVec.ofNat 2 e.be
    let r := c.writeReq false e.off be e.value
    let c := r.1.laterNow
    let m := a.loads &&& beMask be
    if r.2 = 0 ∧ c.reg e.off &&& m = e.value &&& m then some c else none

/-- Entries applied in order: the index of the one that fails. -/
def Ctl.cfgApplyAll (c : Ctl) : Nat → List CfgEntry → Ctl × Option Nat
  | _, [] => (c, none)
  | i, e :: l => match c.cfgApply e with
    | some c => c.cfgApplyAll (i + 1) l
    | none => (c, some i)

/-- The record as R351 judges it: the block with it applied, or reason and entry of its failure. Every quadrant counts as held. -/
def Ctl.cfgTry (c : Ctl) : Option Ctl × Nat × Nat :=
  let need := hdrCfg c.boot.runHeader
  let format := leNat (c.cfgBytes 4 2)
  if !c.boot.dev.readable then (none, 6, 0)
  else if !c.cfgCheck then (none, 1, 0)
  else if format < need then (none, 2, 0)
  else if need < format then (none, 3, 0)
  else match c.cfgList.findIdx? fun e => !cfgNames e.off with
    | some i => (none, 4, i)
    | none =>
      let r := (c.setFld oCsStat csStat_HELD 0xF).cfgApplyAll 0 c.cfgList
      match r.2 with
      | some i => (none, 5, i)
      | none => (some (r.1.setFld oCsStat csStat_HELD 0), 0, 0)

/-- Step 4: the configuration record, or the mask-ROM defaults. -/
def Ctl.cfgRecord (c : Ctl) : Ctl :=
  match c.cfgTry with
  | (some k, _, _) => k.setFld oSmBoot smBoot_MARCH c.cfgMarch
  | (none, reason, i) =>
    ((c.setFld oStatus status_CFG_DEFAULTED 1).setFld oSmBoot smBoot_CFG_REASON reason).setFld oSmBoot smBoot_CFG_ENTRY i

/-! ### Steps 5 to 9 (R261 to R267, R344, R345, R355) -/

/-- The units that failed the self-test, but for the two that stop the start (R263). -/
def Ctl.selfTestRemove (c : Ctl) (bad : Nat) : Ctl :=
  let c := forAll ((List.range 4).filter fun q => Nat.testBit bad q || Nat.testBit bad (q + 4)) (fun q c => c.quadFence q) c
  let c := forAll ((List.range Config.stackPorts).filter fun n => Nat.testBit bad (n + 8)) (fun n c => c.sportRemove n) c
  let c := forAll ((List.range Config.linkPorts).filter fun n => Nat.testBit bad (n + 32)) (fun n c => c.linkRemove n) c
  if Nat.testBit bad 48 then c.twinRemove else c

/-- The four message seeds (R262): all bits 0, all bits 1, and the alternating patterns with bit 0 equal to 0 and to 1. -/
def selfSeed (rep : Bool) (k : Nat) : Nat :=
  match k with
  | 0 => 0
  | 1 => 2 ^ codeK rep - 1
  | 2 => (List.range (codeK rep / 2)).foldl (fun m i => m + 2 ^ (2 * i + 1)) 0
  | _ => (List.range (codeK rep / 2)).foldl (fun m i => m + 2 ^ (2 * i)) 0

/-- The encoded seed: the mask-ROM reference of an encoder. -/
def selfWord (rep : Bool) (k : Nat) : Granule := encode rep (selfSeed rep k)

/-- An encoded seed with `n` consecutive code-word positions from `pos` on in error, modulo 288 (R262). -/
def selfPattern (rep : Bool) (k n pos : Nat) : Granule :=
  ofCodeWord rep (flipBits (codeWord rep (selfWord rep k)) ((List.range n).map fun i => (pos + i) % 288))

/-- The expected classification of a pattern: 0 CLEAN, 1 CORRECTED, 2 UNCORRECTABLE (R262). -/
def selfExpect (rep : Bool) (n : Nat) : Nat := if n = 0 then 0 else if n ≤ codeT rep then 1 else 2

/-- A unit of MIO_SELFTEST that the block has, and whether it is an encoder: the operation units and poisoned-granule formers are (R250, R262). -/
def selfUnit (unit : Nat) : Option Bool :=
  if unit < 4 then some false
  else if unit < 8 then some true
  else if unit < 8 + Config.stackPorts ∨ (32 ≤ unit ∧ unit < 32 + Config.linkPorts) ∨ (48 ≤ unit ∧ unit ≤ 50) then some false
  else none

/-- What a unit has shown is of a pattern of the self-test and differs from its expectation (R262). A decoder sees the encoded seed and the
errors of its code kind up to one position beyond its limit; the script-store stage has the working code alone. -/
def selfFails (d : SelfShown) : Bool :=
  match selfUnit d.unit with
  | none => false
  | some true => decide (d.seed < 4 ∧ 8 < d.count ∧ d.word ≠ selfWord d.rep d.seed)
  | some false =>
    let cls := selfExpect d.rep d.count
    decide (d.seed < 4 ∧ d.count ≤ codeT d.rep + 1 ∧ d.pos < 288) && !(decide (d.unit = 49) && d.rep)
      && (decide (d.cls ≠ cls) || (decide (cls < 2) && decide (d.word ≠ selfWord d.rep d.seed)))

/-- The failed units as MIO_SELFTEST shows them. -/
def selfBad (l : List SelfShown) : Nat := (((List.range 51).filter fun u => l.any fun d => selfFails d && decide (d.unit = u)).map fun u => 2 ^ u).sum

/-- The self-test and its reactions, source 6 for each failed unit; the flag says that the start goes on (R262, R263). -/
def Ctl.selfTest (c : Ctl) (l : List SelfShown) : Ctl × Bool :=
  let bad := selfBad l
  let c := (c.setReg oSelftest (BitVec.ofNat 64 (bad + 2 ^ 63))).selfTestRemove bad
  (forAll ((List.range 51).filter (Nat.testBit bad)) (fun u c => c.raise 6 u) c, !Nat.testBit bad 49 && !Nat.testBit bad 50)

/-- A cluster, or with number 64 an understudy, that failed the march test at start (R267, R271, R273). -/
def Ctl.marchFailed (c : Ctl) (k : Nat) : Ctl :=
  let q := k / 65
  let cl := k % 65
  let u := c.under q
  if 4 ≤ q ∨ (cl ≠ 64 ∧ ¬ isCluster cl) then c
  else if cl = 64 then
    let c := ((c.setUnder q { u with unavail := true }).setFld (oUsStat q) usStat_STATE 3).repairNote
    match u.map with | some x => c.fenceCluster q x | none => c
  else
    let c := (c.setBoot fun (b : Boot) => { b with marchFail := if b.marchFail.contains k then b.marchFail else b.marchFail ++ [k] }).repairNote
    if u.map = some cl ∨ c.isFenced q cl then c
    else if u.map.isNone ∧ ¬ u.unavail then c.assignUnder q cl 1
    else c.fenceCluster q cl

/-- The destructive test of a cluster at start: March C-, or March SS (R264, R351). -/
def startMarch (sel k : Nat) : March := { us := decide (k % 65 = 64), cluster := k % 65, alg := decide (sel = 2), transp := false, startBc := 0 }

/-- The clusters whose test at start fails: one of its reads gave another value than the elements and backgrounds do (R264). -/
def marchFails (sel : Nat) (l : List (Nat × List MarchRead)) : List Nat :=
  (l.filter fun x => x.2.any (startMarch sel x.1).wrong).map fun x => x.1

/-- bc of the march test at start: every cluster at once, over both backgrounds, without the fill that ends a test on request (R264). -/
def marchBc (sel : Nat) : Nat := if sel = 0 then 0 else 2 * elemsTime (marchElems (decide (sel = 2)))

/-- Step 6: the understudies first, since a failed one can replace no cluster. Clusters that pass leave MARCH_FAIL, and the results enter the
repair record (R267). -/
def Ctl.marchAtStart (c : Ctl) (l : List (Nat × List MarchRead)) : Ctl :=
  let sel := c.fld oSmBoot smBoot_MARCH
  let fails := marchFails sel l
  if sel = 0 then c
  else
    let c := c.setBoot fun (b : Boot) => { b with marchFail := b.marchFail.filter fun k => fails.contains k, repairNew := true }
    (fails.filter fun k => decide (k % 65 = 64) ).foldl Ctl.marchFailed c |> (fails.filter fun k => decide (k % 65 ≠ 64)).foldl Ctl.marchFailed

/-- The rows of every bank and understudy: 4 quadrants of 65 clusters of 16 banks of 4,096 rows. -/
def allRows : Nat := 4 * 65 * 65536

/-- µs since the release of rst_n, as ref_clk measures them. -/
def Ctl.startUs (c : Ctl) : Nat := min (c.clk.ref / 100) (2 ^ 32 - 1)

/-- A defaulted configuration record, a defaulted repair record and a start from slot 1 each raise the CONFIG source as sys_ready rises (R345). -/
def Ctl.defaults (c : Ctl) : Nat :=
  c.fld oStatus status_CFG_DEFAULTED + c.fld oSmBoot smBoot_REPAIR_DEF + c.fld oSmBoot smBoot_SLOT

/-- Step 9: sys_ready rises. A microcode mismatch leaves STEP at 8 (R345). -/
def Ctl.rise (c : Ctl) (mismatch : Bool) : Ctl :=
  let c := (c.setFld oSmBoot smBoot_STEP (if mismatch then 8 else 0xF)).setFld oSmBoot smBoot_START_US c.startUs
  let c : Ctl := { c.setBoot fun (b : Boot) => { b with phase := .ready } with sysReady := true, everReady := true, clk := { c.clk with readyBc := c.clk.bc } }
  forAll (List.range c.defaults) (fun _ c => c.raise 22 0) c

/-- The cc of a start-up step of `n` bc, which the command carries out at once, have passed: a reaction that was ordered before it is in force
(R306; log entry 48). ref_clk is not counted on. -/
def Ctl.stepPasses (c : Ctl) (n : Nat) : Ctl :=
  ({ c with clk := { c.clk with pre := c.clk.pre + (n + 7) / 8 * 8 } } : Ctl).brownNow.faultsLate

/-- Steps begin at an edge of cc. -/
def Ctl.stepAligned (c : Ctl) : Ctl := { c with clk := { c.clk with pre := c.clk.pre + (8 - c.tbc % 8) % 8 } }

/-- Step 7: every row takes the fill granule, and both halves of the script store hold zero (R261). -/
def Ctl.initFill (c : Ctl) : Ctl := { c with store := [], storeSeen := [], storeFix := [] }

/-- From the repair record to sys_ready. -/
def Ctl.startRest (c : Ctl) (ck : StartChecks) : Ctl × List BankOp :=
  let c := c.stepAligned.cfgRecord.repairApply
  let c := c.setFld oSmBoot smBoot_STEP 5
  let t := c.selfTest ck.selfTest
  if !t.2 then ((t.1.setFld oSmBoot smBoot_STOPPED 1).setBoot fun (b : Boot) => { b with phase := .stopped }, [])
  else
    let c := (t.1.stepPasses 8072).marchAtStart ck.march
    let c := (c.initFill.stepPasses (marchBc (c.fld oSmBoot smBoot_MARCH) + 4096)).setFld oSmBoot smBoot_STEP 8
    ((((c.microcode ck.microcode).stepPasses 8).rise (decide (ck.microcode ≠ 0))), [.clear 0 allRows])

/-- The start goes on with what PLL_LOCK brought. -/
def Ctl.startOn (c : Ctl) : Ctl × List BankOp :=
  match c.boot.pll with
  | some p => c.startRest p.2
  | none => (c, [])

/-! ### Step 4 up to the firmware (R346, R347, R353, R354) -/

/-- Recovery mode with a result: 16, a check word that fails, has no code in the manual and shows a free value. -/
def Ctl.recover (c : Ctl) (r : Nat) : Ctl :=
  let v := c.draw
  let c := if r = 16 then v.2.fwResult (v.1.toNat % 16) else c.fwResult r
  (c.setFld oSmBoot smBoot_RECOVERY 1).setBoot fun (b : Boot) => { b with phase := .recovery }

/-- A firmware slot starts (R353). -/
def Ctl.startSlot (c : Ctl) (s : Nat) : Ctl :=
  let h := c.slotHeader s
  (c.runImage h (c.openImage h (c.slotBody s)).2).setFld oSmBoot smBoot_SLOT s

/-- The key is there: slot 0, then slot 1, then recovery mode. -/
def Ctl.startSlots (c : Ctl) : Ctl × List BankOp :=
  if c.slotCode 0 = 0 then (c.startSlot 0).startOn
  else if c.slotCode 1 = 0 then (c.startSlot 1).startOn
  else (c.recover (c.slotCode 1), [])

/-- The read mode of the device (R5, R347): every feature that the SFDP table offers is used, quad read and 4-byte addressing each by itself.
R5 says only what is used where the table offers neither (DESIGN CHOICE, log entry 101). -/
def nvmMode (d : NvmDevice) : Nat := if d.sfdp then 2 * d.quad.toNat + d.four.toNat else 0

/-- Steps 2 to 4 up to the key: the clocks run, the boot ROM clears the RAMs and opens the stage door. -/
def Ctl.startRom (c : Ctl) (dev : NvmDevice) (ck : StartChecks) : Ctl × List BankOp :=
  let c := c.clocksRun
  let c := (c.setFld oSmBoot smBoot_STEP 4).setFld oSmBoot smBoot_NVM_MODE (nvmMode dev)
  let c := c.setBoot fun (b : Boot) => { b with dev := dev, pll := some (dev, ck), iramRun := [], iramIdle := [], dram := [], phase := .waitKey, keyFrom := c.tbc }
  if c.boot.key.isSome then c.startSlots else (c, [])

/-- 2^28 cc have passed since the end of step 3 (R345). -/
def Ctl.keyLate (c : Ctl) : Bool := decide (c.boot.keyFrom + 8 * 2 ^ 28 ≤ c.tbc)

/-! ### Exit from P4 (R333) -/

/-- The exit from P4 once the PLL has locked: the units as P4 leaves them, the raise, the self-test, the fill and the microcode. -/
def Ctl.exitP4 (c : Ctl) (ck : StartChecks) : Ctl × List BankOp :=
  let c := (c.setPower fun (p : Power) => { p with locking := false }).afterP4.factoryShown.clocksOn
  let c := if c.brown then c else c.opBegin (c.pw pwrOp_TARGET)
  let t := c.selfTest ck.selfTest
  if !t.2 then ((t.1.setFld oSmBoot smBoot_STOPPED 1).setBoot fun (b : Boot) => { b with phase := .stopped }, [])
  else
    let f := (t.1.stepPasses 8072).initFill.wakeFill
    ((f.1.stepPasses 4096).microcode ck.microcode, f.2)

/-- PLL_LOCK: at start not before the end of step 1 and the guard of R325, 8 and 32 ref_clk cycles (R344). -/
def Ctl.pllLock (c : Ctl) (dev : NvmDevice) (ck : StartChecks) : Ctl × List BankOp :=
  if c.boot.phase = .waitPll then (if c.clk.ref < 40 then (c, []) else c.startRom dev ck)
  else if c.power.locking then c.exitP4 ck
  else (c, [])

/-- KEY_DELIVERY (R346): accepted once for each release of rst_n. -/
def Ctl.keyIn (c : Ctl) (key : BitVec 256) (id : BitVec 16) : Ctl × List BankOp :=
  if !c.keyReady then (c, [])
  else
    let c := c.setBoot fun (b : Boot) => { b with key := some (key, id) }
    if c.boot.phase = .waitKey then c.startSlots else (c, [])

/-! ### The commands -/

/-- RST_N_ASSERT: the banks keep their rows until the next init fill. -/
def execRstNAssert (s : State) : Out := onDoor true s Ctl.afterReset
/-- SUPPLY_RESTORE: the supplies end every retained state; rst_n is asserted. -/
def execSupplyRestore (s : State) : Out :=
  .next { s with banks := [], c := { free := s.c.free, cReady := s.c.cReady, power := { vwarn := s.c.power.vwarn } } }
/-- START_UP: the release of rst_n. -/
def execStartUp (tstMode : Bool) (s : State) : Out :=
  onDoor true s fun c => if c.boot.phase = .inReset then c.setBoot fun (b : Boot) => { b with phase := .waitPll, tst := tstMode, unlocks := 0 } else c
/-- PLL_LOCK. -/
def execPllLock (dev : NvmDevice) (checks : StartChecks) (s : State) : Out := onBanks true s fun _ c => c.pllLock dev checks
/-- KEY_DELIVERY. -/
def execKeyDelivery (key : BitVec 256) (keyId : BitVec 16) (s : State) : Out := onBanks true s fun _ c => c.keyIn key keyId
/-- KEY_TIMEOUT. -/
def execKeyTimeout (s : State) : Out :=
  onUnit true s fun c => if c.boot.phase = .waitKey ∧ c.keyLate then c.recover 6 else c

end Sys2Proof.Machine
end

