-- ==== Sys2Proof/Machine/Door.lean ====
section
/-! DEFINITION. The stage door and the TAP (R296, R297, R356 to R358), with the firmware commands that come over them (R360 to R362). -/

namespace Sys2Proof.Machine

/-! ### Frames (R356) -/

/-- A frame is answered: opcode, door result (0 OK, 1 FRAME, 2 DENIED, 3 BUSY, 4 BAD_OP) and the bytes of the response. -/
def Ctl.answer (c : Ctl) (op result : Nat) (resp : List Byte) : Ctl :=
  { c with door := { c.door with lastOp := BitVec.ofNat 8 op, result := result, resp := resp } }

/-- A frame of the stage manager's own commands: FRAME if it ends too early, DENIED while the stage manager does not run. -/
def Ctl.smFrame (c : Ctl) (op : Nat) (whole : Bool) (f : Ctl → Ctl) : Ctl :=
  if !c.doorUp then c
  else if !whole then c.answer op 1 []
  else if !c.smRuns then c.answer op 2 []
  else (f c).answer op 0 []

/-- A frame that only tableau serves (R297). -/
def Ctl.tableauFrame (c : Ctl) (op : Nat) (f : Ctl → Ctl × Nat) : Ctl :=
  if !c.doorUp then c
  else if !c.clk.frozen then c.answer op 2 []
  else let r := f c
    r.1.answer op 0 (leBytes 36 r.2)

/-! ### Registers -/

/-- READ_REG may read an offset: in tableau every one, otherwise as R354 and R356 state, never while the clocks are stopped. -/
def Ctl.doorReads (c : Ctl) (off : Nat) : Bool := c.clk.frozen || (c.smRuns && (c.sysReady || decide (0x3C0000 ≤ off)))

/-- READ_REG: DATA and the STATUS byte. In tableau no read changes any state beside the door's own. DATA of a refused read is free. -/
def Ctl.readFrame (c : Ctl) (off : Nat) : Ctl :=
  if !c.doorUp then c
  else if !c.doorReads off then
    let v := c.draw
    v.2.answer 1 2 (leBytes 8 v.1.toNat ++ [4])
  else
    let quiet := c.clk.frozen
    match c.readReg off with
    | some w => (if quiet then c else c.afterRead off).answer 1 0 (leBytes 8 w.toNat ++ [0])
    | none => (if quiet then c else c.decErr off).answer 1 0 (leBytes 8 0 ++ [1])

/-- WRITE_REG, which returns no byte. -/
def Ctl.writeFrame (c : Ctl) (off : Nat) (data : Word) : Ctl :=
  if !c.doorUp then c
  else if !c.doorWrites off then c.answer 2 2 []
  else (c.writeReq true off 3 data).1.answer 2 0 []

/-! ### Tableau reads (R297) -/

/-- What a row of a cluster as built holds: under march test what its operations so far have written (R264, R265), else the stored row. -/
def Ctl.rowHeld (c : Ctl) (b : Tab Granule) (q cl bank row : Nat) : Granule :=
  let g := rowAt b (rowKey q cl bank row)
  match c.marches.find? fun m => decide (m.1 = q) && decide ((if m.2.us then 64 else m.2.cluster) = cl) with
  | some m => m.2.rowNow (c.bc - m.2.startBc) row g
  | none => g

/-- The code kind of a cluster as built: that of the regions that name it, and of an understudy that of the cluster it carries (R23). -/
def Ctl.rowRep (c : Ctl) (q : Nat) (us : Bool) (cl : Nat) : Bool :=
  if us then (match (c.under q).map with | some x => c.clusterRep q x | none => false) else c.clusterRep q cl

/-- A raw row as its code word, position 0 first (R247, R356; log entry 135); of a cluster that is not built the manual gives no content: a
free value. -/
def Ctl.rawRow (c : Ctl) (b : Tab Granule) (l : RowLoc) : Ctl × Nat :=
  if l.us ∨ isCluster l.cluster then
    (c, codeWord (c.rowRep l.quad l.us l.cluster) (c.rowHeld b l.quad (if l.us then 64 else l.cluster) l.bank l.row))
  else let v := c.draw
    (v.2, v.1.toNat)

/-- A raw granule of the script store by half * 32768 + granule, in the same order. The manual gives no arrangement of the context store: a
free value. -/
def Ctl.rawStore (c : Ctl) (sel idx : Nat) : Ctl × Nat :=
  if sel = 0 ∧ idx < 65536 then (c, codeWord false (Tab.get fillGranule c.store idx))
  else let v := c.draw
    (v.2, v.1.toNat)

/-! ### Status and unlock -/

/-- The door status word. The last frame is the one before GET_STATUS. -/
def Ctl.doorStatus (c : Ctl) : Nat :=
  c.door.lastOp.toNat + (c.door.result <<< 8) + (c.fw fwStat_RESULT <<< 12) + (c.fld oSmBoot smBoot_STEP <<< 16)
    + (c.fld oSmBoot smBoot_RECOVERY <<< 20) + (c.sysReady.toNat <<< 21) + (c.boot.factory.toNat <<< 22) + (c.fw fwStat_UPLOADING <<< 23)

/-- What the response must be (R358): the digest, first byte at bits [7:0]. -/
def Ctl.unlockWord (c : Ctl) : Nat := digestNat ([0x4D, 0x49, 0x4F, 0x55, 0x4E, 0x4C, 0x43, 0x4B] ++ c.keyBytes)

/-- UNLOCK is accepted (R320, R358). -/
def Ctl.unlockOk (c : Ctl) (resp : BitVec 256) : Bool :=
  c.boot.tst && !c.everReady && c.boot.key.isSome && decide (resp.toNat = c.unlockWord) && decide (c.boot.unlocks < 3)

/-- UNLOCK. -/
def Ctl.unlock (c : Ctl) (resp : BitVec 256) : Ctl :=
  if !c.smRuns then c.answer 0x20 2 []
  else if c.unlockOk resp then ((c.setBoot fun (b : Boot) => { b with factory := true }).factoryShown).answer 0x20 0 []
  else (c.setBoot fun (b : Boot) => { b with unlocks := b.unlocks + 1 }).answer 0x20 2 []

/-! ### Firmware -/

/-- An activate: in recovery mode it starts the staged image, and the start goes on (R354). -/
def Ctl.fwActivate (c : Ctl) : Ctl × List BankOp :=
  if c.boot.phase ≠ .recovery then (c.activate, [])
  else
    let r := c.activateCode
    let c := c.fwResult r
    if r ≠ 0 then (c, [])
    else
      let c := ((c.runImage c.boot.stagedHdr c.boot.iramIdle).setFw fwStat_STAGED 0).setFld oSmBoot smBoot_RECOVERY 0
      c.copyBegin.startOn

/-- FW_ACTIVATE from either side. -/
def Ctl.fwActivateFrom (c : Ctl) (src : WSrc) : Ctl × List BankOp :=
  match src with
  | .control =>
    if c.portTakes && c.portOpen then let r := c.fwActivate
      ({ r.1.notePort (.fwActivate .control) with cRsp := { valid := true }, cTurn := false }, r.2)
    else (c.onPort (.fwActivate .control) id {}, [])
  | _ =>
    if !c.doorUp then (c, [])
    else if !c.smRuns then (c.answer 0x13 2 [], [])
    else let r := c.fwActivate
      (r.1.answer 0x13 0 [], r.2)

/-! ### Wake, tableau, TAP -/

/-- WAKE (R334). -/
def Ctl.wakeFrame (c : Ctl) : Ctl × List BankOp :=
  if !c.doorUp then (c, [])
  else if c.clk.frozen ∨ c.boot.phase = .recovery then (c.answer 0x30 2 [], [])
  else
    let r := if c.wakeOn 1 then c.wakeBy 1 else (c, [])
    (r.1.answer 0x30 0 [], r.2)

/-- The TAP controller after one TCK with a value of TMS (IEEE 1149.1). -/
def TapState.next : TapState → Bool → TapState
  | .testLogicReset, tms => if tms then .testLogicReset else .runTestIdle
  | .runTestIdle, tms => if tms then .selectDr else .runTestIdle
  | .selectDr, tms => if tms then .selectIr else .captureDr
  | .captureDr, tms => if tms then .exit1Dr else .shiftDr
  | .shiftDr, tms => if tms then .exit1Dr else .shiftDr
  | .exit1Dr, tms => if tms then .updateDr else .pauseDr
  | .pauseDr, tms => if tms then .exit2Dr else .pauseDr
  | .exit2Dr, tms => if tms then .updateDr else .shiftDr
  | .updateDr, tms => if tms then .selectDr else .runTestIdle
  | .selectIr, tms => if tms then .testLogicReset else .captureIr
  | .captureIr, tms => if tms then .exit1Ir else .shiftIr
  | .shiftIr, tms => if tms then .exit1Ir else .shiftIr
  | .exit1Ir, tms => if tms then .updateIr else .pauseIr
  | .pauseIr, tms => if tms then .exit2Ir else .pauseIr
  | .exit2Ir, tms => if tms then .updateIr else .shiftIr
  | .updateIr, tms => if tms then .selectDr else .runTestIdle

/-- The TAP controller after a row of TMS values. -/
def TapState.walk (t : TapState) (tms : List Bool) : TapState := tms.foldl TapState.next t

/-- TMS of a scan of the instruction register (8 bits) from Run-Test/Idle, of one of the data register (`n` bits), and back. -/
def irScan : List Bool := [true, true, false, false] ++ List.replicate 7 false ++ [true, true, false]
def drScan (n : Nat) : List Bool := [true, false, false] ++ List.replicate (n - 1) false ++ [true, true, false]

/-- The TAP takes an instruction and, when data register bits are scanned, comes back to Run-Test/Idle: its instruction and the bits that
shift out, first bit first. -/
def Ctl.tap (c : Ctl) (ir : Nat) (out : List Bool) : Ctl :=
  let t := (c.door.tap.walk [false]).walk (irScan ++ drScan (max 1 out.length))
  { c with door := { c.door with tap := t, tapIr := BitVec.ofNat 8 ir, tapOut := out } }

/-- The TAP comes to Test-Logic-Reset, by TMS or by its test reset, which selects IDCODE (R5, R357). -/
def Ctl.tapReset (c : Ctl) : Ctl :=
  { c with door := { c.door with tap := c.door.tap.walk (List.replicate 5 true), tapIr := 0x01, tapOut := [] } }

/-- Bits of bytes as a frame sends them, most significant bit first (R356). -/
def frameBits (l : List Byte) : List Bool := l.flatMap fun b => (List.range 8).map fun i => b.getLsbD (7 - i)

/-- The answer of a frame goes out where it came in: on the TAP under its instruction DOOR, whose next Shift-DR gives the bytes of the response
(R357, log entry 110). -/
def Ctl.doorOut (via : DoorVia) (c : Ctl) : Ctl :=
  match via with
  | .spi | .spiCut => c
  | .tap | .tapCut => c.tap 0x40 (if c.doorUp then frameBits c.door.resp else [])

/-- The frame ends before its opcode's last MOSI byte. -/
def frameCut (via : DoorVia) : Bool := decide (via = .spiCut ∨ via = .tapCut)

/-- A frame whose opcode has MOSI bytes: cut short, it is discarded with door result FRAME (R356). -/
def Ctl.frame (c : Ctl) (via : DoorVia) (op : Nat) (f : Ctl → Ctl) : Ctl :=
  (if c.doorUp && frameCut via then c.answer op 1 [] else f c).doorOut via

/-- TABLEAU from the stage door or the TAP (R296, R354, R357). -/
def Ctl.tableauFrom (c : Ctl) (src : TabSrc) : Ctl :=
  match src with
  | .tapBit =>
    let c := c.tap 0x41 [false]
    if c.boot.phase = .inReset then c else c.tableauReq
  | .frame via =>
    let c := if !c.doorUp then c
      else if c.boot.phase = .recovery then c.answer 0x31 2 []
      else c.tableauReq.answer 0x31 0 []
    c.doorOut via

/-- `n` bits of a number, least significant first. -/
def lsbBits (n v : Nat) : List Bool := (List.range n).map (Nat.testBit v)

/-- IDCODE (R357). -/
def idcode : Nat := 1 + (Config.integ.toNat <<< 1) + (0x4D10 <<< 12) + (2 <<< 28)

/-- SCAN_n: zero outside tableau; the manual gives no content of a chain, so in tableau its first 32 bits are free. -/
def Ctl.scan (c : Ctl) (n : Nat) : Ctl :=
  if c.clk.frozen then let v := c.draw
    v.2.tap (0x50 + n) (lsbBits 32 v.1.toNat)
  else c.tap (0x50 + n) (List.replicate 32 false)

/-- The opcodes of R356. -/
def doorOpcodes : List Nat := [1, 2, 3, 4, 5, 6, 0x10, 0x11, 0x12, 0x13, 0x20, 0x30, 0x31]

/-- The frame comes over the TAP. -/
def viaTap : DoorVia → Bool
  | .tap | .tapCut => true
  | _ => false

/-- A command is a frame of the SPI target. -/
def spiFrame : Instr → Bool
  | .readReg (.frame via) _ _ | .writeReg via _ _ | .readRow via _ | .readStore via _ _ | .getStatus via | .getId via | .fwBegin via _ | .fwData via _ _
  | .fwEnd via | .unlock via _ | .wake via | .tableau (.frame via) | .unknownOpcode via _ => !viaTap via
  | .fwActivate src => decide (src = .door)
  | _ => false

/-- A frame on the TAP meets one of the SPI target that began in the same cc, before it or after it in the queue (R357; log entry 136). While
no cc passes, only one that waits in the queue counts. -/
def State.spiHolds (s : State) (via : DoorVia) : Bool :=
  viaTap via && ((s.c.clk.run && !s.c.clk.frozen && decide (s.c.door.spiCc = some s.c.tcc)) || s.pending.any spiFrame)

/-- The engine takes a frame: one of the SPI target holds it for the cc. -/
def Ctl.frameBegins (c : Ctl) (via : DoorVia) : Ctl := if viaTap via then c else { c with door := { c.door with spiCc := some c.tcc } }

/-- The answer BUSY, which has no other effect (R357). -/
def Ctl.frameBusy (c : Ctl) (via : DoorVia) (op : Nat) : Ctl := (if c.doorUp then c.answer op 3 [] else c).doorOut via

/-- A meaning of a frame with an opcode: one that meets a frame on the other port is answered BUSY. -/
def onFrame (ok : Bool) (s : State) (via : DoorVia) (op : Nat) (f : Ctl → Ctl) : Out :=
  onDoor ok s fun c => if s.spiHolds via then c.frameBusy via op else f (c.frameBegins via)

/-- As `onFrame`, for a frame that may write banks. -/
def onFrameBanks (s : State) (via : DoorVia) (op : Nat) (f : Ctl → Ctl × List BankOp) : Out :=
  onDoorBanks true s fun _ c => if s.spiHolds via then (c.frameBusy via op, []) else f (c.frameBegins via)

/-! ### The commands -/

/-- READ_REG of the stage door (R356); from the control port, a read of R63. -/
def execReadReg (src : ReadSrc) (off : Nat) (be : BitVec 2) (s : State) : Out :=
  match src with
  | .control => onUnit (decide (off < 0x400000 ∧ off % 8 = 0)) s fun c => c.readAccept off be
  | .frame via => onFrame (decide (off < 2 ^ 32)) s via 1 fun c => c.frame via 1 fun c => c.readFrame off
/-- WRITE_REG. -/
def execWriteReg (via : DoorVia) (off : Nat) (data : Word) (s : State) : Out :=
  onFrame (decide (off < 2 ^ 32)) s via 2 fun c => c.frame via 2 fun c => c.writeFrame off data
/-- READ_ROW. -/
def execReadRow (via : DoorVia) (loc : RowLoc) (s : State) : Out :=
  onFrame (decide (loc.quad < 4 ∧ loc.cluster < 64 ∧ loc.bank < 16 ∧ loc.row < 4096)) s via 3 fun c =>
    c.frame via 3 fun c => c.tableauFrame 3 fun c => c.rawRow s.banks loc
/-- READ_STORE. -/
def execReadStore (via : DoorVia) (sel idx : Nat) (s : State) : Out :=
  onFrame (decide (sel < 256 ∧ idx < 2 ^ 32)) s via 4 fun c => c.frame via 4 fun c => c.tableauFrame 4 fun c => c.rawStore sel idx
/-- GET_STATUS. -/
def execGetStatus (via : DoorVia) (s : State) : Out :=
  onFrame true s via 5 fun c => (if c.doorUp then c.answer 5 0 (leBytes 4 c.doorStatus) else c).doorOut via
/-- GET_ID. -/
def execGetId (via : DoorVia) (s : State) : Out :=
  onFrame true s via 6 fun c => (if c.doorUp then c.answer 6 0 (leBytes 8 (regReset oId).toNat) else c).doorOut via
/-- FW_BEGIN. -/
def execFwBegin (via : DoorVia) (header : List Byte) (s : State) : Out :=
  onFrame true s via 0x10 fun c => c.frame via 0x10 fun c => c.smFrame 0x10 (decide (128 ≤ header.length)) fun c => c.fwBegin (header.take 128)
/-- FW_DATA: answered BUSY while what came before is being programmed. -/
def execFwData (via : DoorVia) (off : Nat) (data : List Byte) (s : State) : Out :=
  onFrame (decide (off < 2 ^ 32)) s via 0x11 fun c => c.frame via 0x11 fun c =>
    let d := c.smFrame 0x11 (decide (256 ≤ data.length)) fun c => c.fwData off (data.take 256)
    if c.smRuns && c.fwHeld && decide (256 ≤ data.length) then d.answer 0x11 3 [] else d
/-- FW_END. -/
def execFwEnd (via : DoorVia) (s : State) : Out := onFrame true s via 0x12 fun c => (c.smFrame 0x12 true Ctl.fwEnd).doorOut via
/-- FW_ACTIVATE. -/
def execFwActivate (src : WSrc) (s : State) : Out :=
  if src = .control then onBanks true s fun _ c => c.fwActivateFrom .control
  else
    let via := if src = .tap then DoorVia.tap else .spi
    onFrameBanks s via 0x13 fun c =>
      let r := c.fwActivateFrom src
      (r.1.doorOut via, r.2)
/-- UNLOCK. -/
def execUnlock (via : DoorVia) (response : BitVec 256) (s : State) : Out :=
  onFrame true s via 0x20 fun c => c.frame via 0x20 fun c => if c.doorUp then c.unlock response else c
/-- WAKE. -/
def execWake (via : DoorVia) (s : State) : Out :=
  onFrameBanks s via 0x30 fun c =>
    let r := c.wakeFrame
    (r.1.doorOut via, r.2)
/-- TABLEAU. -/
def execTableau (src : TabSrc) (s : State) : Out :=
  match src with
  | .tapBit => onDoor true s fun c => c.tableauFrom .tapBit
  | .frame via => onFrame true s via 0x31 fun c => c.tableauFrom (.frame via)
/-- UNKNOWN_OPCODE: an opcode of R356 is another row's. -/
def execUnknownOpcode (via : DoorVia) (op : Byte) (s : State) : Out :=
  if doorOpcodes.contains op.toNat then onDoor true s id
  else onFrame true s via op.toNat fun c => (if c.doorUp then c.answer op.toNat 4 [] else c).doorOut via
/-- IDCODE: scanned out, or selected by Test-Logic-Reset. -/
def execIdcode (reset : Bool) (s : State) : Out := onDoor true s fun c => if reset then c.tapReset else c.tap 0x01 (lsbBits 32 idcode)
/-- SCAN_n. -/
def execScanN (n : Nat) (s : State) : Out := onDoor (decide (n < 15)) s fun c => c.scan n
/-- BYPASS: one bit, which a capture sets to 0. -/
def execBypass (s : State) : Out := onDoor true s fun c => c.tap 0xFF [false]

end Sys2Proof.Machine
end

