-- ==== Sys2Proof/Machine/Clock.lean ====
section
/-! DEFINITION. The passing of time while no command waits: one bc, or one ref_clk edge while the bank clock does not run (R12, R13,
R88, R298, R323; log entry 1). -/

namespace Sys2Proof.Machine

/-- One rising edge of ref_clk. While the clocks are stopped a brownout is answered at once (R329). -/
def Ctl.refEdge (c : Ctl) : Ctl :=
  let c := ({ c with clk := { c.clk with ref := c.clk.ref + 1 } } : Ctl).vwarnSample
  let c := if c.clk.run then c else c.brownNow
  if c.timeRuns then c.timeTick else c

/-- Commands of the cc before, whose last ec was `x`, settle where they show their outcome with the end of their cc (R82, R103, R203, R215). -/
def Ctl.ccSettles (c : Ctl) (x : Nat) : Ctl := (((c.swapSettle x).parksSettle x).ctxsSettle x).sendsSettle x

/-- What happens in a new cc whatever is commanded: commands of the cc before settle, headers that came in it are checked, writes that govern
from this cc, a hand-over, the injected pair, the ends of power entry and exit, and the rewrite of the repair record; the oldest read of the
control port completes last. -/
def Ctl.newCc (c : Ctl) : Ctl :=
  let c := ({ c.ccSettles c.ec with notes := {} } : Ctl).rxAll.laterNow.brownNow.handoverEnd.csSwapEnd.injTick.p2Stop.clampsEnd.wakeDone.raiseDue.logNow.faultsLate
  let c := forAll (List.range 4) (fun q c => c.lapRaise q) c
  (if c.smRuns then c.repairRewrite else c).readsNow

/-- The outputs of the read ports and of write status show valid for the ec in which they are driven alone, and zeros otherwise (R37, R40, R46). -/
def Ctl.outsFall (c : Ctl) : Ctl :=
  { c with rdOut := c.rdOut.filter fun e => decide (e.2.ec = c.ec), stOut := c.stOut.filter fun e => decide (e.2.ec = c.ec) }

/-- What happens in a new ec: outputs of the ec before fall, heads and triggers come to their new values, and link ports drive and return one beat and one credit. -/
def Ctl.newEc (c : Ctl) : Ctl :=
  let x := c.ec
  let c := c.outsFall
  let c := forAll (c.curtains.map fun e => e.1) (fun k c => c.curStart k) c
  let c := forAll (List.range Config.groups) (fun g c => c.groupSample g x) c
  (c.linksEc x).intmAdvance.restoreOn

/-- The first bc of a frame: the switch of a REPLACE (R269). -/
def Ctl.newFrame (c : Ctl) : Ctl := forAll (List.range 4) (fun q c => c.replaceSwitch q) c

/-- The service accesses of a bc that wait for no command: fills by rows and the debug read paths (R23, R286, R316). -/
def State.service (s : State) : State :=
  let r := s.c.fillsStep
  let b := applyOps s.banks r.2
  { s with c := forAll (List.range 4) (fun q c => c.debugStep b q) r.1, banks := b }

/-- The end of a bc: what its service requesters do, the accounts of arbiters, write channels and stack ports, and with the second bc of an ec
the counts of the curtains. -/
def State.endBc (s : State) : State :=
  let s := s.service
  let c := (s.c.suppressedAfter s.banks).forwardsEnd.arbsEnd.sportsBc
  let c := if c.bc % 2 = 1 then forAll (c.curtains.map fun e => e.1) (fun k c => c.curEnd k) c else c
  { s with c := if c.bc % 8 = 7 then c.doorAgain else c }

/-- A new bc: D × 2 periods of the root VCO, of which 102 make a ref_clk period (R12, R323). -/
def Ctl.bankEdge (c : Ctl) : Ctl :=
  let v := c.clk.vco + 2 * c.clk.div
  let c : Ctl := { c with clk := { c.clk with bc := c.clk.bc + 1, vco := v % 102 } }
  let c := (if 102 ≤ v then c.refEdge else c).wbNow
  let c := if c.bc % 256 = 0 then c.newFrame else c
  let c := if c.bc % 8 = 0 then c.newCc else c
  if c.bc % 2 = 0 then c.newEc else c

/-- The bank clock runs and is counted: from the first rise of sys_ready on (R88). -/
def Ctl.counts (c : Ctl) : Bool := c.clk.run && c.everReady

/-- What happens in a new cc before the first rise of sys_ready: the fault collector and the brownout unit run (R306, R344). -/
def Ctl.earlyCc (c : Ctl) : Ctl :=
  let c := ({ c with notes := {} } : Ctl).laterNow.brownNow.raiseDue.logNow.faultsLate
  if c.smRuns then c.repairRewrite else c

/-- A new bc before the first rise of sys_ready, which R88 does not count. -/
def Ctl.earlyEdge (c : Ctl) : Ctl :=
  let v := c.clk.vco + 2 * c.clk.div
  let c : Ctl := { c with clk := { c.clk with pre := c.clk.pre + 1, vco := v % 102 } }
  let c := if 102 ≤ v then c.refEdge else c
  if c.tbc % 8 = 0 then c.earlyCc else c

/-- In a new cc the oldest request that waits at the control port comes to the front of the queue if it writes and no response stands (R63). -/
def State.portTurn (s : State) : State :=
  match s.c.cReqs with
  | .write i :: rest =>
    if s.c.bc % 8 = 0 ∧ s.c.cRsp.valid = false ∧ s.c.clamped = false then
      { s with pending := i :: s.pending, c := { s.c with cReqs := rest, cTurn := true } }
    else s
  | _ => s

/-- What the block does while no command waits. Under reset and in tableau nothing passes. -/
def tick (s : State) : State :=
  if s.c.clk.frozen || decide (s.c.boot.phase = .inReset) then s
  else if s.c.counts then
    let s := s.endBc
    { s with c := s.c.bankEdge }.portTurn
  else if s.c.clk.run then { s with c := s.c.earlyEdge }
  else
    let r := s.c.refEdge.wakeOwed
    { s with c := r.1, banks := applyOps s.banks r.2 }

end Sys2Proof.Machine
end

