-- ==== Sys2Proof/Machine/Deliver.lean ====
section
/-! DEFINITION. What leaves on the engine ports: read deliveries, write statuses, gather outputs (R40 to R43, R46, R106 to R119, R126 to R128, R141 to R146). -/

namespace Sys2Proof.Machine

/-! ### The granules of a delivered access -/

/-- A delivered lane: the granule, and whether it is in the repertory code (R43). -/
structure OutLane where
  granule : Granule
  rep     : Bool := false
  deriving DecidableEq, Repr

/-- A produced granule: working code, full 1, epoch 0; poisoned ones have data zero (R106, R118). -/
def produced (bad : Bool) (data : Nat) : OutLane := { granule := if bad then poisonGranule false else mkWorking data false true 0 }

/-- A lane of a repertory region whose format code does not fit SRC (R119). -/
def RLane.misfit (l : RLane) (src : Nat) : Bool := l.rep && !l.bad && !fmtOk src l.scale (gFormat l.granule)

/-- What an output granule is: delivered data, and whether it is poisoned by the error of a lane or by a format code. -/
structure ConvOut where
  data   : Nat
  bad    : Bool
  format : Bool
  deriving DecidableEq, Repr

/-- The output granules of a conversion of element granules `els` (bad, misfit, data), with MX positions and scale (R113 to R119). -/
def convOuts (src : Nat) (d : Dst) (sat : Bool) (els : List (Bool × Bool × Nat)) (pos : List Nat) (scale : Option (Bool × Bool × Nat)) : List ConvOut :=
  let data := packData (els.map fun e => e.2.2)
  let sc : Bool × Bool × Nat := scale.getD (false, false, 0)
  (List.range (convD src d els.length)).map fun k =>
    let r := convLanes src d k
    let from_ := (els.drop r.1).take (r.2 + 1 - r.1)
    { data := convGranule src d sat data pos sc.2.2 k, bad := sc.1 || from_.any fun e => e.1, format := sc.2.1 || from_.any fun e => e.2.1 }

/-- A read-conversion access (OPMODE 0x1): its lanes, and the lanes poisoned under R115 or R119. -/
def convDeliver (arg : Nat) (lanes : List RLane) : List OutLane × Nat :=
  let src := argSrc arg
  let els := lanes.filter fun l => !l.scale
  let sc := (lanes.find? fun l => l.scale).map fun l => (l.bad, l.misfit src, gData l.granule)
  let gis := els.map fun l => l.gi
  match dstOf (argDst arg) with
  | none => ([], 0)
  | some d =>
    let os := convOuts src d (argSat arg) (els.map fun l => (l.bad, l.misfit src, gData l.granule)) (gis.map fun x => x % mxGroup src) sc
    if srcMx src && !mxLanesOk src gis then (os.map fun _ => produced true 0, os.length)
    else (os.map fun o => produced (o.bad || o.format) o.data, (os.filter fun o => o.format).length)

/-- The rows of the tile that starts with read access `first`: bad, misfit, data (R108). A forwarded row of a later access of the tile
whose value is not formed when an earlier access delivers has none to give: it counts as poisoned (DESIGN CHOICE, log entry 124). -/
def Seq.tileRows (q : Seq) (first src : Nat) : List (Bool × Bool × Nat) :=
  (List.range 32).map fun r =>
    match q.reads.find? fun x => decide (x.id = first + r / 8) with
    | none => (true, false, 0)
    | some x => match x.lanes[r % 8]? with
      | none => (true, false, 0)
      | some l => (l.bad || (l.fwd.isSome && !l.got), l.misfit src, gData l.granule)

/-- A transposed access, the `k`-th of its tile (R109 to R111). -/
def transDeliver (mode arg k : Nat) (rows : List (Bool × Bool × Nat)) : List OutLane × Nat :=
  let esize := if mode = 2 then argEsize arg else srcWidth (argSrc arg) / 8
  let rows := if mode = 2 then rows.map fun r => (r.1, false, r.2.2) else rows
  let data := rows.map fun r => r.2.2
  let outs := (List.range 8).map fun i =>
    let j := 8 * k + i
    let rs := (transRows esize j).map fun r => rows.getD r (true, false, 0)
    let bad := rs.any fun r => r.1
    (bad, rs.any (fun r => r.2.1), if bad then 0 else transGranule esize data j)
  if mode = 2 then (outs.map fun o => produced o.1 o.2.2, 0)
  else match dstOf (argDst arg) with
    | none => ([], 0)
    | some d =>
      let os := convOuts (argSrc arg) d (argSat arg) outs [] none
      (os.map fun o => produced (o.bad || o.format) o.data, (os.filter fun o => o.format).length)

/-- The lanes that a read access delivers outside safe state, and the lanes counted in MIO_MSO_STAT_q.FORMAT. -/
def Seq.deliverLanes (q : Seq) (r : RAccess) : List OutLane × Nat :=
  let m := r.opmode.toNat
  let arg := r.oparg.toNat
  if m = 0 then (r.lanes.map fun l => { granule := l.granule, rep := l.rep }, 0)
  else if m = 1 then convDeliver arg r.lanes
  else match r.tile with
    | none => ([], 0)
    | some x => transDeliver m arg x.2 (q.tileRows x.1 (argSrc arg))

/-- A mask with a bit for each lane that satisfies `p`. -/
def laneMask (l : List OutLane) (p : OutLane → Bool) : BitVec 8 :=
  BitVec.ofNat 8 ((l.mapIdx fun k x => if p x then 2 ^ k else 0).foldl (fun a b => a + b) 0)

/-- Drive xN_rd_* in ec `e` (R40, R42, R43). In safe state every lane is poisoned with data zero (R307). -/
def Ctl.drive (c : Ctl) (n e : Nat) (l : List OutLane) : Ctl :=
  let dark := c.blackout
  let l := if dark then l.map fun x => { x with granule := poisonGranule x.rep } else l
  let pois := (l.filter fun x => gPoison x.granule).length
  let c := if dark then c else c.satAdd (oPstat n) pstat_POIS pois
  let o : ReadOut := { ec := e, valid := true, lanes := laneMask l fun _ => true, data := l.map fun x => x.granule }
  { c with rdOut := Tab.set {} c.rdOut n { o with pois := laneMask l fun x => gPoison x.granule, rep := laneMask l fun x => x.rep } }

/-! ### The read-ahead wing (R146, R148, R149) -/

/-- The ec at whose end an entry inserted in ec `d` for `gi` is already known to go: a write sampled in ec `d` or later. -/
def Seq.goneAt (q : Seq) (d gi : Nat) : Option Nat :=
  (q.writes.filter fun a => !a.index && decide (d ≤ a.w) && a.lanes.any fun l => decide (l.gi = gi)).head?.map fun a => a.w

/-- A read issued in ec `issue` and delivered in ec `d` inserts nothing for a granule that an ACQUIRE between the two covers (R149),
or that the port's own write channel has sampled in between: later reads are forwarded, and then read the bank (R138, R148). -/
def Seq.overtaken (q : Seq) (d issue gi : Nat) : Bool :=
  (q.acquires.any fun a => decide (issue < a.1 ∧ a.1 < d ∧ a.2.1 ≤ gi ∧ gi ≤ a.2.2))
    || q.writes.any fun a => !a.index && decide (issue ≤ a.w ∧ a.w < d) && a.lanes.any fun l => decide (l.gi = gi)

/-- An entry counts among those in the wing in ec `d`: one that an insertion has replaced or pushed out counts no more. -/
def RaEntry.present (d : Nat) (e : RaEntry) : Bool := !e.out && match e.gone with | some x => decide (d ≤ x) | none => true

/-- An insertion in ec `d` takes the entry out of the wing; reads issued in that ec still hit it. -/
def RaEntry.push (d : Nat) (e : RaEntry) : RaEntry := { e.leave d with out := true }

/-- Insert one entry in ec `d`: it replaces an entry of its granule, and the 129th pushes out the oldest (R146). -/
def Seq.raInsert (q : Seq) (d issue : Nat) (l : RLane) : Seq :=
  if q.overtaken d issue l.gi then q
  else
    let kept := q.ra.filter fun e => match e.gone with | some x => decide (d < x + 64) | none => true
    let ra := kept.map fun e => if e.gi = l.gi then e.push d else e
    let live := ra.filter fun e => decide (e.gi ≠ l.gi) && e.present d
    let ra := if live.length < 128 then ra
      else match live with
        | [] => ra
        | o :: _ => ra.map fun e => if e = o then e.push d else e
    let a := (q.acquires.filter fun a => decide (d ≤ a.1 ∧ a.2.1 ≤ l.gi ∧ l.gi ≤ a.2.2)).head?.map fun a => a.1
    let w := q.goneAt d l.gi
    let gone := match a, w with | some x, some y => some (min x y) | some x, none => some x | none, y => y
    { q with ra := ra ++ [{ gi := l.gi, granule := l.granule, rep := l.rep, since := d, gone := gone }] }

/-- The lanes of a delivered plain read that insert an entry: one for each granule (R146). -/
def insertLanes (lanes : List RLane) : List RLane :=
  (lanes.filter fun l => !l.bad && decide (l.cause = 0) && l.fwd.isNone && !l.hit).foldl
    (fun acc l => if acc.any fun x => decide (x.gi = l.gi) then acc else acc ++ [l]) []

/-! ### READ_DELIVERY -/

/-- Accesses that nothing in flight refers to any more are forgotten: delivered reads whose tile is complete, and reported
writes that no unreported write was absorbed into and no undelivered read forwards from. -/
def Seq.prune (q : Seq) : Seq :=
  let busyTile := fun (r : RAccess) => match r.tile with
    | none => false
    | some x => q.reads.any fun y => !y.done && (match y.tile with | some z => decide (z.1 = x.1) | none => false)
  let used := fun (a : WAccess) => (q.writes.any fun b => !b.told && b.lanes.any fun l => match l.follow with | some x => decide (x.1 = a.id) | none => false)
    || q.reads.any fun r => !r.done && r.lanes.any fun l => match l.fwd with | some x => decide (x.1 = a.id) | none => false
  { q with reads := q.reads.filter fun r => !r.done || busyTile r, writes := q.writes.filter fun a => !a.told || !a.done || used a }

/-- The read access that is delivered next, if its ec has come. -/
def Seq.nextDelivery (q : Seq) (e : Nat) : Option RAccess :=
  let l := q.reads.filter fun r => !r.done && decide (r.deliver ≤ e)
  l.find? fun r => l.all fun x => decide (r.deliver < x.deliver ∨ (r.deliver = x.deliver ∧ r.id ≤ x.id))

/-- A read access is delivered in its published ec (R40), or discarded (R41). -/
def Ctl.readDeliver (c : Ctl) (n : Nat) (r : RAccess) : Ctl :=
  let r : RAccess := { r with done := true }
  let q := c.seq n
  let q : Seq := { q with reads := q.reads.map fun y => if y.id = r.id then r else y }
  if r.dropped then c.setSeq n q.prune
  else
    let o := q.deliverLanes r
    let c := if c.blackout ∨ o.2 = 0 then c
      else c.satAdd (oMsoStat (c.place (match r.lanes with | l :: _ => l.gi | [] => 0)).quad) msoStat_FORMAT o.2
    let fill := decide (r.opmode.toNat = 0) && decide (c.fld (oWing n) wingCfg_RA_EN = 1) && !c.blackout
    let q := if fill then (insertLanes r.lanes).foldl (fun q l => q.raInsert r.deliver r.issue l) q else q
    (c.setSeq n q.prune).drive n r.deliver o.1

/-- The bank accesses that a delivery takes granules from have been made, its own and those of its tile, and so have those of the writes
that it forwards from. In safe state nothing is forwarded any more (R307). -/
def Ctl.delivers (c : Ctl) (q : Seq) (r : RAccess) : Bool :=
  r.checked && (c.blackout || !r.waits) && (match r.tile with
    | none => true
    | some x => q.reads.all fun y => y.checked || (match y.tile with | some z => decide (z.1 ≠ x.1) | none => true))

/-- READ_DELIVERY: the next read access of port `n`, once its ec has come and its bank access has been made. -/
def Ctl.readDelivery (c : Ctl) (n : Nat) : Ctl :=
  let c' := if c.sysReady ∧ ¬ c.blackout then c.forwardsOf c.bc c.ec n else c
  match (c'.seq n).nextDelivery c.ec with
  | none => c
  | some r => if c.sysReady ∧ c'.delivers (c'.seq n) r then c'.readDeliver n r else c

/-! ### WING_GROUP_ISSUE, WRITE_STATUS -/

/-- The oldest group issues its remaining lanes at its due ec (R142). A group without lanes has no bank access. -/
def Ctl.groupIssue (c : Ctl) (n : Nat) : Ctl :=
  match (c.seq n).writes.find? fun a => !a.issued && decide (a.t ≤ c.ec) with
  | none => c
  | some a =>
    if c.sysReady then
      let none_ := a.own.isEmpty
      c.putWrite n { a with issued := true, via := c.routeOf n (a.own.map fun l => l.gi), first := a.first || none_, done := a.done || none_ }
    else c

/-- Status code of a lane: its own, or that of the entry it was absorbed into (R143). -/
def Seq.laneCode (q : Seq) (l : WLane) : BitVec 2 :=
  match l.follow with
  | none => l.code
  | some x => match q.source x with | some y => y.2.code | none => l.code

/-- The entries that the lanes of an access entered have taken their bank access. -/
def Seq.settled (q : Seq) (a : WAccess) : Bool :=
  a.done && a.lanes.all fun l => match l.follow with
    | none => true
    | some x => (match q.source x with | some y => y.1.done | none => true)

/-- WRITE_STATUS: the oldest access whose status ec has come reports on xN_st_* (R46). -/
def Ctl.writeStatus (c : Ctl) (n : Nat) : Ctl :=
  let q := c.seq n
  match q.writes.find? fun a => !a.told with
  | none => c
  | some a =>
    let a : WAccess := if a.own.isEmpty then { a with issued := true, first := true, done := true } else a
    if c.sysReady ∧ c.statusEc a ≤ c.ec ∧ q.settled a then
      let code := (a.lanes.map fun l => (q.laneCode l).toNat <<< (2 * l.lane)).foldl (fun x y => x + y) 0
      let q : Seq := { q with writes := q.writes.map fun y => if y.id = a.id then { a with told := true } else y }
      let c := (c.rehWrite n a fun l => (q.laneCode l).toNat).setSeq n q.prune
      { c with stOut := Tab.set {} c.stOut n { ec := c.statusEc a, valid := true, seqNo := a.seqNo, lanes := a.mask, code := BitVec.ofNat 16 code } }
    else c

/-! ### Gather (R126 to R128) -/

/-- One fetch as a class C read: what it contributes (none for a null index), whether it is poisoned, and its cause. -/
def Ctl.fetchRow (c : Ctl) (b : Tab Granule) (n : Nat) (g : Gather) (m j bc : Nat) : Ctl × Option Nat × Bool × Cause :=
  match g.words[m]? with
  | none => (c, none, true, 0)
  | some w =>
    if w.2 then (c, none, true, 0)
    else if nullIndex w.1 then (c, none, false, 0)
    else match g.target m j with
      | none => (c, none, true, 0)
      | some gi =>
        if c.blackout ∨ cutBy g.cut bc ∨ (m * g.nRow + j) ∈ g.turned then (c, none, true, 0)
        else
          let x := c.pathCause (c.groupOf n) gi bc
          if x ≠ 0 then (c, none, true, x)
          else
            let r := c.bankRead b 0 n gi bc
            let d := r.2
            if c.tagChecked gi && !tagReadOk (if d.bad ∨ d.pois then none else some (gFull d.word)) then (r.1, none, true, 4)
            else (r.1, some (gData d.word), d.bad || d.pois, 0)

/-- The sum of granule `j` of a bag after one more contribution (R127). -/
def sumStep (rowType : Nat) (old : Option Nat × Bool) (x : Option Nat) (bad : Bool) : Option Nat × Bool :=
  (match old.1, x with
    | s, none => s
    | none, some v => some (accFirst rowType v)
    | some s, some v => some (accData rowType s v), old.2 || bad)

/-- A read takes the bus in the delivery ec `d` of an output that counts as issued in ec `e`: it was issued no later (R41, R127). Of a
read and an output issued in one ec the manual names no winner: the model lets the read win (DESIGN CHOICE, log entry 93). -/
def Seq.outLoses (q : Seq) (d e : Nat) : Bool := q.reads.any fun x => decide (x.deliver = d ∧ x.issue ≤ e) && !x.dropped

/-- GATHER_FETCH: the next fetch of port `n`, once its bank-access bc has come. The output that it completes is discarded where it loses
the bus: the fetch then violates DELIVERY, unless it violates otherwise (R41, R93). -/
def Ctl.gatherFetch (c : Ctl) (b : Tab Granule) (n : Nat) : Ctl :=
  match (c.seq n).gather with
  | none => c
  | some g =>
    let f := g.next
    let bc := 2 * (g.s + 1 + f) + 8
    if ¬ c.sysReady ∨ g.limit ≤ f ∨ c.bc < bc then c
    else
      let m := f / g.nRow
      let j := f % g.nRow
      let r := c.fetchRow b n g m j bc
      let d := g.s + 1 + f + c.gatherLat
      let lost := decide (m % g.bag = g.bag - 1) && (c.seq n).outLoses d (g.s + 1 + f)
      let x := if r.2.2.2 = 0 ∧ lost ∧ ¬ c.blackout ∧ ¬ cutBy g.cut bc then 5 else r.2.2.2
      let gi := (g.target m j).getD 0
      let c := if x = 0 then r.1 else (r.1.countRead n x).cueViolation n false 0 x gi bc g.sceneNo.toNat (g.s + 1 + f - g.ec0)
      let old := if m % g.bag = 0 then (none, false) else g.sums.getD j (none, false)
      let sum := sumStep g.rowType old r.2.1 r.2.2.1
      let sums := (List.range g.nRow).map fun k => if k = j then sum else g.sums.getD k (none, false)
      let o : GatherOut := { ec := d, issue := g.s + 1 + f, gi := gi, granule := (produced sum.2 (sum.1.getD 0)).granule, lost := lost }
      let outs := if m % g.bag = g.bag - 1 then g.outs ++ [o] else g.outs
      c.setSeq n { c.seq n with gather := some { g with next := f + 1, sums := sums, outs := outs } }

/-- GATHER_OUTPUT: the next output granule of port `n` in its delivery ec. -/
def Ctl.gatherOutput (c : Ctl) (n : Nat) : Ctl :=
  match (c.seq n).gather with
  | none => c
  | some g => match g.outs with
    | [] => c
    | o :: t =>
      if ¬ c.sysReady ∨ c.ec < o.ec then c
      else
        let c' := c.setSeq n { c.seq n with gather := some { g with outs := t } }
        if o.lost then c' else c'.drive n o.ec [{ granule := o.granule }]

/-! ### The commands -/

/-- READ_DELIVERY. -/
def execReadDelivery (n : Nat) (s : State) : Out := onUnit (decide (n < Config.seqs)) s fun c => c.readDelivery n
/-- WING_GROUP_ISSUE. -/
def execWingGroupIssue (n : Nat) (s : State) : Out := onUnit (decide (n < Config.seqs)) s fun c => c.groupIssue n
/-- WRITE_STATUS. -/
def execWriteStatus (n : Nat) (s : State) : Out := onUnit (decide (n < Config.seqs)) s fun c => c.writeStatus n
/-- GATHER_FETCH. -/
def execGatherFetch (n : Nat) (s : State) : Out := onBanks (decide (n < Config.seqs)) s fun b c => (c.gatherFetch b n, [])
/-- GATHER_OUTPUT. -/
def execGatherOutput (n : Nat) (s : State) : Out := onUnit (decide (n < Config.seqs)) s fun c => c.gatherOutput n

end Sys2Proof.Machine
end

