-- ==== Sys2Proof/Machine/Merge.lean ====
section
/-! DEFINITION. The second slot of a partial merge (R61). -/

namespace Sys2Proof.Machine

/-- PARTIAL_MERGE (R61): the second slot of a read-modify-write of a stream, a packet, the reorder stage or the journal. -/
def Ctl.partialMerge (c : Ctl) (id : Nat) : Ctl × List BankOp :=
  match c.reqOf id with
  | none => (c, [])
  | some a => match a.kind with
    | .streamLand x s d =>
      let r := c.mergeSecond a (c.cxWriter x)
      (r.1.streamLanded x s d r.2.2, r.2.1)
    | .linkLand p _ => c.linkSlot p (c.mergeSecond a .other)
    | .stageApply p _ => c.linkSlot p (c.mergeSecond a .other)
    | _ => (c, [])

/-- PARTIAL_MERGE. -/
def execPartialMerge (id : Nat) (s : State) : Out := onBanks true s fun _ c => c.partialMerge id

end Sys2Proof.Machine
end

