-- ==== Sys2Proof/Machine/Dispatch.lean ====
section
/-! DEFINITION. The meaning of every command, one arm each. -/

namespace Sys2Proof.Machine

/-- The effect of a command on everything but the queue. -/
def exec (i : Instr) (s : State) : Host.Outcome State Fault Refusal :=
  match i with
  | .rstNAssert => Sys2Proof.Machine.execRstNAssert s
  | .startUp tstMode => Sys2Proof.Machine.execStartUp tstMode s
  | .pllLock dev checks => Sys2Proof.Machine.execPllLock dev checks s
  | .keyDelivery key keyId => Sys2Proof.Machine.execKeyDelivery key keyId s
  | .keyTimeout => Sys2Proof.Machine.execKeyTimeout s
  | .registerWrite src off be data => Sys2Proof.Machine.execRegisterWrite src off be data s
  | .set n => Sys2Proof.Machine.execSet n s
  | .run n drives => Sys2Proof.Machine.execRun n drives s
  | .sigCounterAdd n => Sys2Proof.Machine.execSigCounterAdd n s
  | .sigCurtainEntry n => Sys2Proof.Machine.execSigCurtainEntry n s
  | .sigStreamStart n => Sys2Proof.Machine.execSigStreamStart n s
  | .wait n => Sys2Proof.Machine.execWait n s
  | .scene n => Sys2Proof.Machine.execScene n s
  | .flush n => Sys2Proof.Machine.execFlush n s
  | .acquire n => Sys2Proof.Machine.execAcquire n s
  | .loop n => Sys2Proof.Machine.execLoop n s
  | .jump n => Sys2Proof.Machine.execJump n s
  | .delay n => Sys2Proof.Machine.execDelay n s
  | .halt n => Sys2Proof.Machine.execHalt n s
  | .start n => Sys2Proof.Machine.execStart n s
  | .park n => Sys2Proof.Machine.execPark n s
  | .reset n => Sys2Proof.Machine.execReset n s
  | .releaseApply n => Sys2Proof.Machine.execReleaseApply n s
  | .startDecision g => Sys2Proof.Machine.execStartDecision g s
  | .sceneStart g => Sys2Proof.Machine.execSceneStart g s
  | .scheduledBankAccess n write => Sys2Proof.Machine.execScheduledBankAccess n write s
  | .readDelivery n => Sys2Proof.Machine.execReadDelivery n s
  | .wingGroupIssue n => Sys2Proof.Machine.execWingGroupIssue n s
  | .writeStatus n => Sys2Proof.Machine.execWriteStatus n s
  | .accWriteback n => Sys2Proof.Machine.execAccWriteback n s
  | .gatherFetch n => Sys2Proof.Machine.execGatherFetch n s
  | .gatherOutput n => Sys2Proof.Machine.execGatherOutput n s
  | .partialMerge id => Sys2Proof.Machine.execPartialMerge id s
  | .cntAdd j be data => Sys2Proof.Machine.execCntAdd j be data s
  | .cntLoad j be data => Sys2Proof.Machine.execCntLoad j be data s
  | .watchdogExpiry g => Sys2Proof.Machine.execWatchdogExpiry g s
  | .tagStallLimit id => Sys2Proof.Machine.execTagStallLimit id s
  | .curArrive port beat => Sys2Proof.Machine.execCurArrive port beat s
  | .curRelease port beat => Sys2Proof.Machine.execCurRelease port beat s
  | .curtainCfgWrite c be data => Sys2Proof.Machine.execCurtainCfgWrite c be data s
  | .curtainReset c => Sys2Proof.Machine.execCurtainReset c s
  | .lendAssert n => Sys2Proof.Machine.execLendAssert n s
  | .ctxWrite x word be data => Sys2Proof.Machine.execCtxWrite x word be data s
  | .arm x => Sys2Proof.Machine.execArm x s
  | .disarm x => Sys2Proof.Machine.execDisarm x s
  | .cancel x => Sys2Proof.Machine.execCancel x s
  | .clear x => Sys2Proof.Machine.execClear x s
  | .triggerStart x => Sys2Proof.Machine.execTriggerStart x s
  | .streamRequestIssue port tag ready => Sys2Proof.Machine.execStreamRequestIssue port tag ready s
  | .stackWriteBeat port ready => Sys2Proof.Machine.execStackWriteBeat port ready s
  | .contextLate x => Sys2Proof.Machine.execContextLate x s
  | .stackRspBeat port tag lanes last err data => Sys2Proof.Machine.execStackRspBeat port tag lanes last err data s
  | .stackWack port tag err => Sys2Proof.Machine.execStackWack port tag err s
  | .tagTimeout port tag => Sys2Proof.Machine.execTagTimeout port tag s
  | .streamLanding id => Sys2Proof.Machine.execStreamLanding id s
  | .spillSourceRead id => Sys2Proof.Machine.execSpillSourceRead id s
  | .drainComplete x => Sys2Proof.Machine.execDrainComplete x s
  | .osetRoundApply k => Sys2Proof.Machine.execOsetRoundApply k s
  | .deadlockDetect w => Sys2Proof.Machine.execDeadlockDetect w s
  | .linkUp port => Sys2Proof.Machine.execLinkUp port s
  | .linkDown port => Sys2Proof.Machine.execLinkDown port s
  | .creditReturn port => Sys2Proof.Machine.execCreditReturn port s
  | .dataPacket port beat => Sys2Proof.Machine.execDataPacket port beat s
  | .linkLanding id => Sys2Proof.Machine.execLinkLanding id s
  | .roundApply w => Sys2Proof.Machine.execRoundApply w s
  | .ack port beat => Sys2Proof.Machine.execAck port beat s
  | .openWin w => Sys2Proof.Machine.execOpenWin w s
  | .closeWin w => Sys2Proof.Machine.execCloseWin w s
  | .windowClosed w => Sys2Proof.Machine.execWindowClosed w s
  | .windowWrite w word be data => Sys2Proof.Machine.execWindowWrite w word be data s
  | .sendArm e => Sys2Proof.Machine.execSendArm e s
  | .sendDisarm e => Sys2Proof.Machine.execSendDisarm e s
  | .sendClear e => Sys2Proof.Machine.execSendClear e s
  | .badCmd idx send cmd => Sys2Proof.Machine.execBadCmd idx send cmd s
  | .sendStart e => Sys2Proof.Machine.execSendStart e s
  | .sendPacket e => Sys2Proof.Machine.execSendPacket e s
  | .ackTimeout e seq => Sys2Proof.Machine.execAckTimeout e seq s
  | .twinCfgWrite be data => Sys2Proof.Machine.execTwinCfgWrite be data s
  | .jcopy beat => Sys2Proof.Machine.execJcopy beat s
  | .jconf beat => Sys2Proof.Machine.execJconf beat s
  | .journalLanding id => Sys2Proof.Machine.execJournalLanding id s
  | .soloEntry => Sys2Proof.Machine.execSoloEntry s
  | .ckptIdWrite be data => Sys2Proof.Machine.execCkptIdWrite be data s
  | .ckpt beat => Sys2Proof.Machine.execCkpt beat s
  | .resync => Sys2Proof.Machine.execResync s
  | .rtab beat last => Sys2Proof.Machine.execRtab beat last s
  | .replay beat last => Sys2Proof.Machine.execReplay beat last s
  | .rsigSend => Sys2Proof.Machine.execRsigSend s
  | .rsig beat => Sys2Proof.Machine.execRsig beat s
  | .regionWrite n be data => Sys2Proof.Machine.execRegionWrite n be data s
  | .refillDone r => Sys2Proof.Machine.execRefillDone r s
  | .bankOwnWrite k be data => Sys2Proof.Machine.execBankOwnWrite k be data s
  | .handover be data => Sys2Proof.Machine.execHandover be data s
  | .csShadowWrite q sl w be data => Sys2Proof.Machine.execCsShadowWrite q sl w be data s
  | .copy qmask => Sys2Proof.Machine.execCopy qmask s
  | .csSwap be data => Sys2Proof.Machine.execCsSwap be data s
  | .csSwapEffect => Sys2Proof.Machine.execCsSwapEffect s
  | .csActiveWrite q sl w be data => Sys2Proof.Machine.execCsActiveWrite q sl w be data s
  | .quadrantHeld q => Sys2Proof.Machine.execQuadrantHeld q s
  | .groupSwapGo g half => Sys2Proof.Machine.execGroupSwapGo g half s
  | .groupSwapCancel g => Sys2Proof.Machine.execGroupSwapCancel g s
  | .groupSwapEffect g => Sys2Proof.Machine.execGroupSwapEffect g s
  | .programDigestDone h => Sys2Proof.Machine.execProgramDigestDone h s
  | .correctionWriteback q bank => Sys2Proof.Machine.execCorrectionWriteback q bank s
  | .ssCorrectionRewrite h g => Sys2Proof.Machine.execSsCorrectionRewrite h g s
  | .scrubRead q cluster bank => Sys2Proof.Machine.execScrubRead q cluster bank s
  | .scrubWriteback q cluster bank => Sys2Proof.Machine.execScrubWriteback q cluster bank s
  | .marchCmd q cluster us alg transp => Sys2Proof.Machine.execMarchCmd q cluster us alg transp s
  | .marchDone q reads => Sys2Proof.Machine.execMarchDone q reads s
  | .migrate q cluster => Sys2Proof.Machine.execMigrate q cluster s
  | .migrateSwitch q => Sys2Proof.Machine.execMigrateSwitch q s
  | .replace q cluster => Sys2Proof.Machine.execReplace q cluster s
  | .usFillDone q => Sys2Proof.Machine.execUsFillDone q s
  | .fence q cluster => Sys2Proof.Machine.execFence q cluster s
  | .save atEn atScene => Sys2Proof.Machine.execSave atEn atScene s
  | .intmQuiesced => Sys2Proof.Machine.execIntmQuiesced s
  | .saveDone => Sys2Proof.Machine.execSaveDone s
  | .restore sheets => Sys2Proof.Machine.execRestore sheets s
  | .restoreDone => Sys2Proof.Machine.execRestoreDone s
  | .resume => Sys2Proof.Machine.execResume s
  | .wimgOpen k => Sys2Proof.Machine.execWimgOpen k s
  | .seal k => Sys2Proof.Machine.execSeal k s
  | .release k => Sys2Proof.Machine.execRelease k s
  | .wimgHashDone k => Sys2Proof.Machine.execWimgHashDone k s
  | .inputDigestDone => Sys2Proof.Machine.execInputDigestDone s
  | .tableau src => Sys2Proof.Machine.execTableau src s
  | .tableauStop => Sys2Proof.Machine.execTableauStop s
  | .timeSet sec atPps => Sys2Proof.Machine.execTimeSet sec atPps s
  | .timeSetCancel => Sys2Proof.Machine.execTimeSetCancel s
  | .timeNowRead => Sys2Proof.Machine.execTimeNowRead s
  | .ppsEdge => Sys2Proof.Machine.execPpsEdge s
  | .holdover => Sys2Proof.Machine.execHoldover s
  | .faultRaise src pair rails unit => Sys2Proof.Machine.execFaultRaise src pair rails unit s
  | .faultReaction => Sys2Proof.Machine.execFaultReaction s
  | .kill g => Sys2Proof.Machine.execKill g s
  | .strikeBegin q cluster => Sys2Proof.Machine.execStrikeBegin q cluster s
  | .strikeDone pbank => Sys2Proof.Machine.execStrikeDone pbank s
  | .aliveToggle => Sys2Proof.Machine.execAliveToggle s
  | .kick => Sys2Proof.Machine.execKick s
  | .injBank w0 w1 => Sys2Proof.Machine.execInjBank w0 w1 s
  | .injLine be data => Sys2Proof.Machine.execInjLine be data s
  | .lock => Sys2Proof.Machine.execLock s
  | .opTransition target => Sys2Proof.Machine.execOpTransition target s
  | .dChange => Sys2Proof.Machine.execDChange s
  | .vack => Sys2Proof.Machine.execVack s
  | .vackTimeout => Sys2Proof.Machine.execVackTimeout s
  | .brownout vwarn => Sys2Proof.Machine.execBrownout vwarn s
  | .brownoutRestore => Sys2Proof.Machine.execBrownoutRestore s
  | .wfi => Sys2Proof.Machine.execWfi s
  | .entryCc => Sys2Proof.Machine.execEntryCc s
  | .wakeEvent src => Sys2Proof.Machine.execWakeEvent src s
  | .watchSlice => Sys2Proof.Machine.execWatchSlice s
  | .clampRel => Sys2Proof.Machine.execClampRel s
  | .readReg src off be => Sys2Proof.Machine.execReadReg src off be s
  | .writeReg via off data => Sys2Proof.Machine.execWriteReg via off data s
  | .readRow via loc => Sys2Proof.Machine.execReadRow via loc s
  | .readStore via sel idx => Sys2Proof.Machine.execReadStore via sel idx s
  | .getStatus via => Sys2Proof.Machine.execGetStatus via s
  | .getId via => Sys2Proof.Machine.execGetId via s
  | .idcode reset => Sys2Proof.Machine.execIdcode reset s
  | .scanN n => Sys2Proof.Machine.execScanN n s
  | .bypass => Sys2Proof.Machine.execBypass s
  | .fwBegin via header => Sys2Proof.Machine.execFwBegin via header s
  | .fwData via off data => Sys2Proof.Machine.execFwData via off data s
  | .fwEnd via => Sys2Proof.Machine.execFwEnd via s
  | .fwActivate src => Sys2Proof.Machine.execFwActivate src s
  | .activateResume microcode => Sys2Proof.Machine.execActivateResume microcode s
  | .slotCopy => Sys2Proof.Machine.execSlotCopy s
  | .unlock via response => Sys2Proof.Machine.execUnlock via response s
  | .wake via => Sys2Proof.Machine.execWake via s
  | .h2sSend => Sys2Proof.Machine.execH2sSend s
  | .s2hAck => Sys2Proof.Machine.execS2hAck s
  | .supplyRestore => Sys2Proof.Machine.execSupplyRestore s
  | .h2sMessageTaken => Sys2Proof.Machine.execH2sMessageTaken s
  | .s2hMessagePost words => Sys2Proof.Machine.execS2hMessagePost words s
  | .pwrModeWrite mode => Sys2Proof.Machine.execPwrModeWrite mode s
  | .nvmProgramEraseDone ok => Sys2Proof.Machine.execNvmProgramEraseDone ok s
  | .unknownOpcode via op => Sys2Proof.Machine.execUnknownOpcode via op s

end Sys2Proof.Machine
end

