-- ==== Sys2Proof/WellFormed.lean ====
section
/-! DEFINITION. Which commands name units that the block has: the reference configuration (R3, R4) and the ranges of the operands. -/

namespace Sys2Proof

/-- The command names ports, units, banks and words that exist, and operands that fit their fields. -/
def Instr.wf : Instr → Bool
  | .rstNAssert => true
  | .startUp _ => true
  | .pllLock _ _ => true
  | .keyDelivery _ _ => true
  | .keyTimeout => true
  | .registerWrite _ off _ _ => decide (off < 0x400000 ∧ off % 8 = 0)
  | .set n => decide (n < Config.seqs)
  | .run n _ => decide (n < Config.seqs)
  | .sigCounterAdd n => decide (n < Config.seqs)
  | .sigCurtainEntry n => decide (n < Config.seqs)
  | .sigStreamStart n => decide (n < Config.seqs)
  | .wait n => decide (n < Config.seqs)
  | .scene n => decide (n < Config.seqs)
  | .flush n => decide (n < Config.seqs)
  | .acquire n => decide (n < Config.seqs)
  | .loop n => decide (n < Config.seqs)
  | .jump n => decide (n < Config.seqs)
  | .delay n => decide (n < Config.seqs)
  | .halt n => decide (n < Config.seqs)
  | .start n => decide (n < Config.seqs)
  | .park n => decide (n < Config.seqs)
  | .reset n => decide (n < Config.seqs)
  | .releaseApply n => decide (n < Config.seqs)
  | .startDecision g => decide (g < Config.groups)
  | .sceneStart g => decide (g < Config.groups)
  | .scheduledBankAccess n _ => decide (n < Config.seqs)
  | .readDelivery n => decide (n < Config.seqs)
  | .wingGroupIssue n => decide (n < Config.seqs)
  | .writeStatus n => decide (n < Config.seqs)
  | .accWriteback n => decide (n < Config.seqs)
  | .gatherFetch n => decide (n < Config.seqs)
  | .gatherOutput n => decide (n < Config.seqs)
  | .partialMerge _ => true
  | .cntAdd i _ _ => decide (i < Config.counters)
  | .cntLoad i _ _ => decide (i < Config.counters)
  | .watchdogExpiry g => decide (g < Config.groups)
  | .tagStallLimit _ => true
  | .curArrive port _ => decide (port < Config.linkPorts)
  | .curRelease port _ => decide (port < Config.linkPorts)
  | .curtainCfgWrite c _ _ => decide (c < Config.curtains)
  | .curtainReset c => decide (c < Config.curtains)
  | .lendAssert n => decide (n < Config.seqs)
  | .ctxWrite x word _ _ => decide (x < Config.contexts) && decide (word < 8)
  | .arm x => decide (x < Config.contexts)
  | .disarm x => decide (x < Config.contexts)
  | .cancel x => decide (x < Config.contexts)
  | .clear x => decide (x < Config.contexts)
  | .triggerStart x => decide (x < Config.contexts)
  | .streamRequestIssue port tag _ => decide (port < Config.stackPorts ∧ tag < 2048)
  | .stackWriteBeat port _ => decide (port < Config.stackPorts)
  | .contextLate x => decide (x < Config.contexts)
  | .stackRspBeat port tag _ _ _ _ => decide (port < Config.stackPorts ∧ tag < 2048)
  | .stackWack port tag _ => decide (port < Config.stackPorts ∧ tag < 2048)
  | .tagTimeout port tag => decide (port < Config.stackPorts ∧ tag < 2048)
  | .streamLanding _ => true
  | .spillSourceRead _ => true
  | .drainComplete x => decide (x < Config.contexts)
  | .osetRoundApply k => decide (1 ≤ k ∧ k < 16)
  | .deadlockDetect w => decide (w < 64)
  | .linkUp port => decide (port ≤ 16)
  | .linkDown port => decide (port ≤ 16)
  | .creditReturn port => decide (port ≤ 16)
  | .dataPacket port _ => decide (port ≤ 16)
  | .linkLanding _ => true
  | .roundApply w => decide (w < Config.windows)
  | .ack port _ => decide (port < Config.linkPorts)
  | .openWin w => decide (w < Config.windows)
  | .closeWin w => decide (w < Config.windows)
  | .windowClosed w => decide (w < Config.windows)
  | .windowWrite w word _ _ => decide (w < Config.windows) && decide (word < 4)
  | .sendArm e => decide (e < Config.sends)
  | .sendDisarm e => decide (e < Config.sends)
  | .sendClear e => decide (e < Config.sends)
  | .badCmd idx _ _ => decide (idx < 1024)
  | .sendStart e => decide (e < Config.sends)
  | .sendPacket e => decide (e < Config.sends)
  | .ackTimeout e _ => decide (e < Config.sends)
  | .twinCfgWrite _ _ => true
  | .jcopy _ => true
  | .jconf _ => true
  | .journalLanding _ => true
  | .soloEntry => true
  | .ckptIdWrite _ _ => true
  | .ckpt _ => true
  | .resync => true
  | .rtab _ _ => true
  | .replay _ _ => true
  | .rsigSend => true
  | .rsig _ => true
  | .regionWrite n _ _ => decide (n < Config.regions)
  | .refillDone r => decide (r < Config.regions)
  | .bankOwnWrite k _ _ => decide (k < 512)
  | .handover _ _ => true
  | .csShadowWrite q s w _ _ => decide (q < 4 ∧ s < 256 ∧ w < 2)
  | .copy _ => true
  | .csSwap _ _ => true
  | .csSwapEffect => true
  | .csActiveWrite q s w _ _ => decide (q < 4 ∧ s < 256 ∧ w < 2)
  | .quadrantHeld q => decide (q < 4)
  | .groupSwapGo g _ => decide (g < Config.groups)
  | .groupSwapCancel g => decide (g < Config.groups)
  | .groupSwapEffect g => decide (g < Config.groups)
  | .programDigestDone h => decide (h < 2)
  | .correctionWriteback q bank => decide (q < 4 ∧ bank < 16 * Config.cpq)
  | .ssCorrectionRewrite h g => decide (h < 2 ∧ g < 32768)
  | .scrubRead q cluster bank => decide (q < 4 ∧ bank < 16) && decide (cluster < Config.cpq)
  | .scrubWriteback q cluster bank => decide (q < 4 ∧ bank < 16) && decide (cluster < Config.cpq)
  | .marchCmd q cluster _ _ _ => decide (q < 4 ∧ cluster < 64)
  | .marchDone q _ => decide (q < 4)
  | .migrate q cluster => decide (q < 4 ∧ cluster < 64)
  | .migrateSwitch q => decide (q < 4)
  | .replace q cluster => decide (q < 4 ∧ cluster < 64)
  | .usFillDone q => decide (q < 4)
  | .fence q cluster => decide (q < 4 ∧ cluster < 64)
  | .save _ _ => true
  | .intmQuiesced => true
  | .saveDone => true
  | .restore _ => true
  | .restoreDone => true
  | .resume => true
  | .wimgOpen k => decide (k < Config.wimgs)
  | .seal k => decide (k < Config.wimgs)
  | .release k => decide (k < Config.wimgs)
  | .wimgHashDone k => decide (k < Config.wimgs)
  | .inputDigestDone => true
  | .tableau _ => true
  | .tableauStop => true
  | .timeSet _ _ => true
  | .timeSetCancel => true
  | .timeNowRead => true
  | .ppsEdge => true
  | .holdover => true
  | .faultRaise src _ _ _ => decide (src < 23)
  | .faultReaction => true
  | .kill g => decide (g < Config.groups)
  | .strikeBegin q cluster => decide (q < 4) && decide (cluster < Config.cpq)
  | .strikeDone pbank => decide (pbank < Config.banks)
  | .aliveToggle => true
  | .kick => true
  | .injBank _ _ => true
  | .injLine _ _ => true
  | .lock => true
  | .opTransition _ => true
  | .dChange => true
  | .vack => true
  | .vackTimeout => true
  | .brownout _ => true
  | .brownoutRestore => true
  | .wfi => true
  | .entryCc => true
  | .wakeEvent src => decide (src < 5)
  | .watchSlice => true
  | .clampRel => true
  | .readReg src off _ => (match src with | .control => decide (off < 0x400000 ∧ off % 8 = 0) | .frame _ => decide (off < 2 ^ 32))
  | .writeReg _ off _ => decide (off < 2 ^ 32)
  | .readRow _ loc => decide (loc.quad < 4 ∧ loc.cluster < 64 ∧ loc.bank < 16 ∧ loc.row < 4096)
  | .readStore _ sel idx => decide (sel < 256 ∧ idx < 2 ^ 32)
  | .getStatus _ => true
  | .getId _ => true
  | .idcode _ => true
  | .scanN n => decide (n < 15)
  | .bypass => true
  | .fwBegin _ _ => true
  | .fwData _ off _ => decide (off < 2 ^ 32)
  | .fwEnd _ => true
  | .fwActivate _ => true
  | .activateResume _ => true
  | .slotCopy => true
  | .unlock _ _ => true
  | .wake _ => true
  | .h2sSend => true
  | .s2hAck => true
  | .supplyRestore => true
  | .h2sMessageTaken => true
  | .s2hMessagePost _ => true
  | .pwrModeWrite _ => true
  | .nvmProgramEraseDone _ => true
  | .unknownOpcode _ _ => true

end Sys2Proof
end

