-- ==== Sys2Proof/Safety.lean ====
section
/-! DEFINITION. What counts as a good state, and the classes of commands that claims speak of. -/

namespace Sys2Proof

/-- What keeps running in tableau (R296, R297): reset and start-up, the root PLL, the stage door, the TAP, the firmware frames, the supplies. -/
def Instr.keepsInTableau : Instr → Bool
  | .rstNAssert | .startUp _ | .supplyRestore => true
  | .writeReg _ _ _ | .readRow _ _ | .readStore _ _ _ | .getStatus _ | .getId _ | .unknownOpcode _ _ => true
  | .readReg src _ _ => decide (src ≠ .control)
  | .idcode _ | .scanN _ | .bypass | .tableau _ | .tableauStop => true
  | .fwBegin _ _ | .fwData _ _ _ | .fwEnd _ | .fwActivate _ | .unlock _ _ | .wake _ => true
  | _ => false

/-- The commands that can write bank rows. -/
def Instr.writesBanks : Instr → Bool
  | .supplyRestore | .pllLock _ _ | .keyDelivery _ _ => true
  | .scheduledBankAccess _ _ | .accWriteback _ | .partialMerge _ => true
  | .streamLanding _ | .linkLanding _ | .journalLanding _ => true
  | .refillDone _ | .strikeDone _ | .usFillDone _ | .marchDone _ _ => true
  | .correctionWriteback _ _ | .scrubRead _ _ _ | .scrubWriteback _ _ _ => true
  | .restoreDone | .wakeEvent _ | .watchSlice | .fwActivate _ | .wake _ => true
  | _ => false

/-- The commands that are writes of a register through the control port, with the byte enables of the write. The registers
of the stage manager's group (R365), which safe state does not close, are not among them. -/
def Instr.portWrite : Instr → Option (BitVec 2)
  | .cntAdd _ be _ | .cntLoad _ be _ | .curtainCfgWrite _ be _ | .ctxWrite _ _ be _ | .windowWrite _ _ be _ => some be
  | .twinCfgWrite be _ | .ckptIdWrite be _ | .regionWrite _ be _ | .bankOwnWrite _ be _ | .handover be _ => some be
  | .csShadowWrite _ _ _ be _ | .csSwap be _ | .csActiveWrite _ _ _ be _ | .injLine be _ => some be
  | .start _ | .park _ | .reset _ | .curtainReset _ | .arm _ | .disarm _ | .cancel _ | .clear _ => some 3
  | .openWin _ | .closeWin _ | .sendArm _ | .sendDisarm _ | .sendClear _ | .badCmd _ _ _ | .resync => some 3
  | .copy _ | .groupSwapGo _ _ | .groupSwapCancel _ | .marchCmd _ _ _ _ _ | .migrate _ _ | .replace _ _ | .fence _ _ => some 3
  | .save _ _ | .restore _ | .resume | .wimgOpen _ | .seal _ | .release _ | .timeSet _ _ | .timeSetCancel => some 3
  | .kill _ | .injBank _ _ | .lock | .opTransition _ => some 3
  | _ => none

namespace Machine

/-- The banks are in their canonical form. -/
def State.wf (s : State) : Prop := Memory.wf s.banks = true

/-- The keys of a table rise strictly. -/
def risingKeys {α : Type} (t : Tab α) : Prop := (t.map fun e => e.1).Pairwise (· < ·)

/-- The registers are canonical: their offsets rise strictly, and none that holds its reset value is listed. -/
def Ctl.regsOk (c : Ctl) : Prop := risingKeys c.regs ∧ ∀ e ∈ c.regs, e.2 ≠ regReset e.1

/-- The script store and the tables of the units are canonical. Tables whose entries change in place only keep their keys rising. -/
def Ctl.tablesOk (c : Ctl) : Prop :=
  c.regsOk ∧ Tab.ok fillGranule c.store = true ∧ Tab.ok {} c.seqs = true ∧ Tab.ok {} c.groups = true ∧
  Tab.ok {} c.rdOut = true ∧ Tab.ok {} c.stOut = true ∧ Tab.ok {} c.sOut = true ∧ Tab.ok [] c.cntHist = true ∧
  Tab.ok {} c.curtains = true ∧ Tab.ok {} c.ctxs = true ∧ Tab.ok {} c.osets = true ∧ Tab.ok 0 c.dlTold = true ∧
  Tab.ok {} c.arbs = true ∧ Tab.ok {} c.wins = true ∧ Tab.ok [] c.wbq = true ∧ Tab.ok [] c.wbNew = true ∧
  Tab.ok none c.fills = true ∧ Tab.ok {} c.scrubs = true ∧ Tab.ok 0 c.lapCorr = true ∧ Tab.ok {} c.unders = true ∧
  risingKeys c.sports ∧ risingKeys c.links ∧ risingKeys c.sends ∧ risingKeys c.marches

/-- The bounds of a sequencer: a head of up to eight conditions on counters and curtains that exist (R66, R72), generators of up to eight
lanes (R70), and plain reads of up to eight granules. -/
def Seq.bounded (q : Seq) : Prop :=
  q.head.length ≤ 8 ∧ (∀ h ∈ q.head, h.target < 4096) ∧ q.ag0.lanes ≤ 8 ∧ q.ag1.lanes ≤ 8 ∧
  ∀ r ∈ q.reads, r.opmode = 0 → r.lanes.length ≤ 8

/-- The invariant of the tables: canonical, and every sequencer within its bounds. -/
def Ctl.inv (c : Ctl) : Prop := c.tablesOk ∧ ∀ n, (c.seq n).bounded

/-- The block answers commands outside a tableau (R36, R296). -/
def State.live (s : State) : Prop := s.c.sysReady = true ∧ s.c.clk.frozen = false

/-- The block works: it answers, and it is not in safe state (R36, R296, R307). -/
def State.working (s : State) : Prop := s.live ∧ s.c.blackout = false

/-- The block answers, and a request of the control port completes at once: none accepted before it is outstanding (R63). -/
def State.open_ (s : State) : Prop := s.live ∧ s.c.portOpen = true

/-- The control port accepts writes, and they complete at once: sys_ready is 1, neither a tableau nor safe state is in force, and no request accepted
before is outstanding (R36, R63, R296, R308). -/
def State.accepting (s : State) : Prop := s.open_ ∧ s.c.blackout = false

/-- The answer OK to a write through the control port (R63, R64). -/
def okRsp : CRsp := { valid := true, rdata := 0, status := 0 }

/-- The state after command i, a write through the control port, has completed with the units `c` and the answer `r`: queue and banks as they were. Where
the stage door has written in this cc too, the command is noted (R371, log entry 121). -/
def State.answered (s : State) (i : Instr) (c : Ctl) (r : CRsp) : State := { s with c := { c.notePort i with cRsp := r, cTurn := false } }

/-- The same with OK answered. -/
def State.wrote (s : State) (i : Instr) (c : Ctl) : State := s.answered i c okRsp

/-- The state with the units `c`: queue and banks as they were. -/
def State.units (s : State) (c : Ctl) : State := { s with c := c }

end Machine

end Sys2Proof
end

