-- ==== Sys2Proof/Certificates/Slice0/Obligations.lean ====
section
/-! DEFINITION. The statements about the model. A statement with several parts is the conjunction of named rules. -/

open Sys2Proof Sys2Proof.Machine

/-! ### The machine as a whole -/

/-- A step of the block with a command at the front of its queue is the command's effect with the rest of the queue. -/
def Obligations.StepRunsFrontCommand : Prop :=
  ∀ (s : State) (i : Instr) (rest : List Instr), s.pending = i :: rest → step s = exec i { s with pending := rest }

/-- With no command waiting, a step is one time step of the block (log entry 1, the model's choice): one bc while the bank clock runs, with the root VCO's
periods that it takes and a ref_clk edge after every 102 of them (R12, R323); R88 counts the bc from the first rise of sys_ready on, and entry to P5
clears the count; with the bank clock stopped a ref_clk edge alone; under reset and in tableau (R296) nothing. The queue stays empty, but for a write that
waits at the control port, whose turn can come (R63, log entry 109). -/
def Obligations.IdleStepLetsTimePass : Prop :=
  ∀ s t : State, s.pending = [] → t = tick s → step s = .next t ∧
    (s.c.clk.frozen = true ∨ s.c.boot.phase = .inReset → t = s) ∧
    (s.c.clk.frozen = false → s.c.boot.phase ≠ .inReset → s.c.clk.run = true →
      t.c.clk.vco = (s.c.clk.vco + 2 * s.c.clk.div) % 102 ∧
      t.c.clk.ref = s.c.clk.ref + (if 102 ≤ s.c.clk.vco + 2 * s.c.clk.div then 1 else 0) ∧
      t.c.clk.pre = s.c.clk.pre + (if s.c.everReady = true then 0 else 1) ∧
      (t.c.clk.bc = s.c.clk.bc + (if s.c.everReady = true then 1 else 0) ∨
        (s.c.power.mode = 5 ∧ t.c.power.asleep = true ∧ t.c.clk.bc = 0 ∧ t.c.clk.run = false))) ∧
    (s.c.clk.frozen = false → s.c.boot.phase ≠ .inReset → s.c.clk.run = false →
      t.c.clk.ref = s.c.clk.ref + 1 ∧ t.c.clk.vco = s.c.clk.vco ∧ t.c.clk.pre = s.c.clk.pre ∧
      (t.c.clk.bc = s.c.clk.bc ∨ (s.c.power.mode = 5 ∧ t.c.clk.bc = 0))) ∧
    (t.pending = [] ∨ ∃ i rest, s.c.cReqs = .write i :: rest ∧ t.c.bc % 8 = 0 ∧ t.pending = [i] ∧ t.c.cReqs = rest ∧ t.c.cTurn = true)

/-- Every command that names units of the reference configuration (R3, R4) and offsets and words of its register map (R366, R373) completes and leaves the queue
alone; every other one faults, which is the model's own choice (log entry 87), and none is refused. -/
def Obligations.WellFormedCommandsComplete : Prop :=
  ∀ (i : Instr) (s : State), (i.wf = true → ∃ t, exec i s = .next t ∧ t.pending = s.pending) ∧
    (i.wf = false → exec i s = .fault .noSuchUnit)

/-- The bank rows keep their canonical form under every step: whatever a command writes, equal memories stay equal data. -/
def Obligations.StepKeepsBanksCanonical : Prop :=
  ∀ s t : State, s.wf → step s = .next t → t.wf

/-- The banks, the registers and the tables are canonical at reset, and every sequencer is within its bounds. -/
def resetBanksCanonicalRule : Prop := State.reset.wf ∧ State.reset.c.inv

/-- The registers, the script store and the tables of the units keep their canonical form under every step, and every sequencer the bounds of its
head, its generators and its plain reads (R66, R70, R72), which statements about heads and deliveries assume. -/
def Obligations.StepKeepsTablesCanonical : Prop :=
  ∀ s t : State, s.c.inv → step s = .next t → t.c.inv

/-- Safe state ends with rst_n, or the supplies, alone: every other step keeps it, leaves every HALTED sequencer HALTED, and as a write of the control port,
outside the stage manager's group, loads no register (R307, R308). -/
def Obligations.SafeStateHolds : Prop :=
  ∀ s t : State, s.c.blackout = true → s.pending.head? ≠ some .rstNAssert → s.pending.head? ≠ some .supplyRestore → step s = .next t →
    t.c.blackout = true ∧ (∀ n, (s.c.seq n).state = .halted → (t.c.seq n).state = .halted) ∧
    (∀ i be, s.pending.head? = some i → i.portWrite = some be → ∀ o, t.c.reg o = s.c.reg o) ∧
    (∀ o be v a, s.pending.head? = some (.registerWrite .control o be v) → regFind o = some a → a.safeWritable o = false →
      ∀ p, t.c.reg p = s.c.reg p)

/-- The frame of the banks: a command that is none of the bank writers leaves every row as it was. Who writes rows follows from what the chapters give the
commands: scheduled writes, merges and stream landings (03, 06, 09), landings of packets and of the journal (10), scrubs, corrections, marches and
understudies (12), fills and strikes (02, 14), and the power states (15). -/
def Obligations.OtherCommandsKeepEveryRow : Prop :=
  ∀ (i : Instr) (s t : State), i.writesBanks = false → exec i s = .next t → ∀ k, rowAt t.banks k = rowAt s.banks k

/-- In tableau (R296) no command but the stage door's, the TAP's, reset and the supplies changes anything, and no time passes. -/
def Obligations.TableauKeepsEverything : Prop :=
  ∀ s : State, s.c.clk.frozen = true →
    (∀ i : Instr, i.wf = true → i.keepsInTableau = false → exec i s = .next s) ∧ (s.pending = [] → step s = .next s)

/-- While sys_ready is 0 no write through the control port has an effect, unless it was accepted before (R36). -/
def portWritesNeedSysReadyRule : Prop :=
  ∀ (i : Instr) (be : BitVec 2) (s : State), i.portWrite = some be → i.wf = true → s.c.sysReady = false → s.c.cTurn = false → exec i s = .next s

/-- In safe state a write through the control port with a byte enable set is answered IGNORED and changes nothing else (R308). -/
def safeStateIgnoresPortWritesRule : Prop :=
  ∀ (i : Instr) (be : BitVec 2) (s : State), i.portWrite = some be → i.wf = true → s.open_ → be ≠ 0 → s.c.blackout = true →
    exec i s = .next (s.answered i s.c { valid := true, rdata := 0, status := 3 })

/-- A write through the control port with no byte enable is answered BAD_BE and changes nothing else (R64). -/
def noByteEnableIsBadBeRule : Prop :=
  ∀ (i : Instr) (s : State), i.portWrite = some 0 → i.wf = true → s.open_ →
    exec i s = .next (s.answered i s.c { valid := true, rdata := 0, status := 2 })

/-- A write while a request accepted before is outstanding waits behind it, and with four outstanding it does not transfer (R63, R367); nothing else changes
(log entry 109). -/
def portWritesWaitTheirTurnRule : Prop :=
  ∀ (i : Instr) (be : BitVec 2) (s : State), i.portWrite = some be → i.wf = true → s.live → s.c.portOpen = false →
    (s.c.outstanding < 4 → exec i s = .next (s.units { s.c with cReqs := s.c.cReqs ++ [.write i] })) ∧
    (4 ≤ s.c.outstanding → exec i s = .next s)

/-- Control-port writes without sys_ready, in safe state and without byte enable: portWritesNeedSysReadyRule, safeStateIgnoresPortWritesRule, noByteEnableIsBadBeRule, portWritesWaitTheirTurnRule. -/
def Obligations.ControlPortGates : Prop := portWritesNeedSysReadyRule ∧ safeStateIgnoresPortWritesRule ∧ noByteEnableIsBadBeRule ∧ portWritesWaitTheirTurnRule

/-- What reset leaves, as the register tables give it: the outputs of the sequencers and of the response channel, and one
register of each group. -/
def resetLeavesTableValuesRule : Prop :=
  State.reset.pending = [] ∧ State.reset.c.sysReady = false ∧ State.reset.c.cRsp = { valid := false, rdata := 0, status := 0 } ∧
  (∀ n, State.reset.c.stateOut n = 0 ∧ State.reset.c.sceneOut n = false ∧ State.reset.c.lendOut n = false) ∧
  State.reset.c.fltErr = (true, false) ∧ State.reset.c.keyReady = false ∧ State.reset.c.vreq = 0 ∧
  State.reset.c.reg (oRegion 0) = 0x0001_0000_C080_4000 ∧ State.reset.c.reg (oSportCfg 0) = 0x0000_0001_0014_0800 ∧
  State.reset.c.reg (oGrpCfg 31) = 8 ∧ State.reset.c.reg (oCnt 4095) = 0 ∧ State.reset.c.reg (oLinkCfg 15) = 0x0001_1040 ∧
  State.reset.c.reg oTwinCfg = 0x0C00 ∧ State.reset.c.reg oEccCfg = 0x0001_0100 ∧ State.reset.c.reg (oRehSig 3) = 0xFFFF_FFFF_FFFF_FFFF ∧
  State.reset.c.reg oTimeCtl = 0x0064_0000_0000_0000 ∧ State.reset.c.reg oFltCfg = 0x1400 ∧ State.reset.c.reg oPwrOp = 0x0031_0000 ∧
  State.reset.c.reg oSmBoot = 3 ∧ State.reset.c.reg oCap0 = 0x1000_0400_8100_4068

/-- What reset leaves: table values, canonical banks: resetBanksCanonicalRule, resetLeavesTableValuesRule. -/
def Obligations.ResetState : Prop := resetBanksCanonicalRule ∧ resetLeavesTableValuesRule

/-! ### Reset, start-up and the key port -/

/-- The reset state with the levels of the input pins vwarn_n and c_rsp_ready, which reset does not drive, and the model's count of free values. -/
def pinsKept (c : Ctl) : Ctl := { free := c.free, cReady := c.cReady, power := { vwarn := c.power.vwarn } }

/-- The assertion of rst_n takes every unit to its reset state and closes every port (R36, R343); the banks keep their rows
and factory test mode stays (R320). The end of the supplies loses the rows as well (both of the rows: log entry 38, the model's choice). -/
def resetReturnsEveryUnitRule : Prop :=
  (∀ s : State, s.c.boot.factory = false → exec .rstNAssert s = .next (s.units (pinsKept s.c))) ∧
  (∀ s : State, s.c.boot.factory = true → ∃ t, exec .rstNAssert s = .next t ∧ t.c.boot = { factory := true } ∧ t.c.sysReady = false ∧
    t.c.fld oFltStat fltStat_FACTORY = 1 ∧ (∀ o, o ≠ oFltStat → t.c.reg o = regReset o) ∧ t.banks = s.banks) ∧
  (∀ s : State, exec .supplyRestore s = .next { pending := s.pending, banks := [], c := pinsKept s.c })

/-- The release of rst_n starts step 1 and records tst_mode; the lock of the root PLL, after step 1 and the guard of R325, starts the clocks and awaits
the key, and makes a POWER raise that a stopped clock has owed (R341); a key is taken once, from the end of step 1 on; a key that does not come within 2^28 cc
leads to recovery with RESULT 6 (R344 to R346). That the lock brings the device's contents and the checks' outcomes is log entries 48 and 89, and the
count of the 2^28 cc from the end of step 3 log entry 49. -/
def startUpUpToTheKeyRule : Prop :=
  (∀ (s : State) (m : Bool), s.c.boot.phase = .inReset →
    exec (.startUp m) s = .next (s.units { s.c with boot := { s.c.boot with phase := .waitPll, tst := m, unlocks := 0 } })) ∧
  (∀ (s : State) (d : NvmDevice) (k : StartChecks), s.c.boot.phase = .waitPll → s.c.clk.ref < 40 → exec (.pllLock d k) s = .next s) ∧
  (∀ (s : State) (d : NvmDevice) (k : StartChecks), s.c.boot.phase = .waitPll → 40 ≤ s.c.clk.ref → s.c.boot.key = none → s.c.clk.frozen = false →
    ∃ t, exec (.pllLock d k) s = .next t ∧ t.c.clk = { s.c.clk with run := true } ∧ t.c.boot.phase = .waitKey ∧ t.c.boot.dev = d ∧
      t.c.boot.pll = some (d, k) ∧ t.c.boot.iramRun = [] ∧ t.c.boot.iramIdle = [] ∧ t.c.boot.dram = [] ∧
      t.c.fld oSmBoot smBoot_STEP = 4 ∧ t.banks = s.banks ∧ (s.c.power.owed = false → ∀ o, o ≠ oSmBoot → t.c.reg o = s.c.reg o) ∧
      (s.c.power.owed = true → t.c.power.owed = false ∧ ∀ o, o ≠ oSmBoot → t.c.reg o = (s.c.clocksRun).reg o)) ∧
  (∀ (s : State) (key : BitVec 256) (id : BitVec 16), s.c.clk.ref < 8 → s.c.keyReady = false ∧ exec (.keyDelivery key id) s = .next s) ∧
  (∀ (s : State) (key : BitVec 256) (id : BitVec 16), s.c.boot.phase = .waitPll → 8 ≤ s.c.clk.ref → s.c.boot.key = none → s.c.clk.frozen = false →
    s.c.keyReady = true ∧ exec (.keyDelivery key id) s = .next (s.units { s.c with boot := { s.c.boot with key := some (key, id) } })) ∧
  (∀ (s : State) (key : BitVec 256) (id : BitVec 16), s.c.boot.key.isSome = true → exec (.keyDelivery key id) s = .next s) ∧
  (∀ s : State, s.c.boot.phase = .waitKey → s.c.boot.keyFrom + 8 * 2 ^ 28 ≤ s.c.tbc → s.c.clk.frozen = false →
    ∃ t, exec .keyTimeout s = .next t ∧ t.c.boot = { s.c.boot with phase := .recovery } ∧ t.c.sysReady = s.c.sysReady ∧
      t.c.fld oFwStat fwStat_RESULT = 6 ∧ t.c.fld oSmBoot smBoot_RECOVERY = 1 ∧
      (∀ o, o ≠ oFwStat → o ≠ oSmBoot → t.c.reg o = s.c.reg o) ∧ t.banks = s.banks)

/-- Reset, release, root PLL, key and key time-out: resetReturnsEveryUnitRule, startUpUpToTheKeyRule. -/
def Obligations.ResetAndStartUp : Prop := resetReturnsEveryUnitRule ∧ startUpUpToTheKeyRule

/-- A key that arrives while step 4 waits for it, with a device in whose slot 0 a valid image lies and whose configuration
and repair records do not pass, starts that image with the defaults: sys_ready rises, every row holds the fill granule, and
the running version is the image's (R344, R345, R351 to R353). That all steps after the key are inside its one command is the model's choice (log entry 48). -/
def Obligations.ValidImageStartsTheBlock : Prop :=
  ∀ (s : State) (key : BitVec 256) (id : BitVec 16) (d : NvmDevice),
    s.c.boot.phase = .waitKey → 8 ≤ s.c.clk.ref → s.c.boot.key = none → s.c.clk.frozen = false →
    s.c.boot.pll = some (d, { selfTest := [], march := [], microcode := 0 }) →
    (s.c.setBoot fun (b : Boot) => { b with key := some (key, id) }).slotCode 0 = 0 → s.c.cfgCheck = false → s.c.repairChoice = none →
    ∃ t, exec (.keyDelivery key id) s = .next t ∧ t.c.sysReady = true ∧ t.c.everReady = true ∧ t.c.boot.phase = .ready ∧
      t.c.boot.key = some (key, id) ∧ t.c.boot.runHeader = s.c.slotHeader 0 ∧
      t.c.fld oFwStat fwStat_RUN_VER = hdrVer (s.c.slotHeader 0) % 2 ^ 32 ∧ t.c.fld oSmBoot smBoot_STEP = 15 ∧
      t.c.fld oSmBoot smBoot_SLOT = 0 ∧ t.c.fld oSmBoot smBoot_REPAIR_DEF = 1 ∧ t.c.fld oSmBoot smBoot_CFG_REASON = 1 ∧
      t.c.fld oStatus status_CFG_DEFAULTED = 1 ∧ (∀ k, k < 4 * 65 * 65536 → rowAt t.banks k = fillGranule)

/-! ### Registers -/

/-- Registers of one 64-bit RW field that only store what is written: MIO_PWR_RET, MIO_PROV_SEQ. -/
def plainRegs : List Nat := [oPwrRet, oProvSeq]

/-- A write of both halves of a plain RW register loads it, of one half that half, and changes no other register (R64, R369, R370); where the stage door has
written it in the same cc, its value stands (R371, next statement). -/
def registerWriteLoadsEnabledHalvesRule : Prop :=
  ∀ (s : State) (o : Nat) (be : BitVec 2) (v : Word), o ∈ plainRegs → be ≠ 0 → s.accepting →
    (∀ e ∈ s.c.notes.counts, e.1 ≠ o) → (∀ e ∈ s.c.notes.door, e.1 ≠ o) →
    ∃ n : CcNotes, exec (.registerWrite .control o be v) s = .next (s.wrote (.registerWrite .control o be v) { s.c.setReg o
      ((if be.getLsbD 1 then v else s.c.reg o).extractLsb 63 32 ++ (if be.getLsbD 0 then v else s.c.reg o).extractLsb 31 0) with notes := n })

/-- The order of R64 on a register write: with no byte enable BAD_BE, else at an unmapped offset DECERR, else in safe state
IGNORED; none of them loads a register, and only DECERR is recorded in MIO_STATUS. -/
def registerWriteRefusalOrderRule : Prop :=
  ∀ (s : State) (o : Nat) (be : BitVec 2) (v : Word), o < 0x400000 → o % 8 = 0 → s.open_ →
    (be = 0 → exec (.registerWrite .control o be v) s = .next (s.answered (.registerWrite .control o be v) s.c { valid := true, rdata := 0, status := 2 })) ∧
    (be ≠ 0 → regFind o = none → exec (.registerWrite .control o be v) s = .next (s.answered (.registerWrite .control o be v)
      ((s.c.flag oStatus status_DECODE_ERR).setFld oStatus status_LAST_DECERR o) { valid := true, rdata := 0, status := 1 })) ∧
    (be ≠ 0 → o ∈ plainRegs → s.c.blackout = true →
      exec (.registerWrite .control o be v) s = .next (s.answered (.registerWrite .control o be v) s.c { valid := true, rdata := 0, status := 3 }))

/-- What a cc does to a field beside a write of it: a W1C field that the block sets in that cc reads 1 after a write that clears it, and 0 where it does not (DECODE_ERR); a written
event count takes in the events of that cc, and saturates (MIO_FLT_CNT_k); a plain register that the stage door and the control port both write
holds the door's value, whichever comes first in the queue (R371; that it stands whatever the queue's order, and is noted until the cc ends, is log entry
121, the model's choice). -/
def changesOfOneCcRule : Prop :=
  (∀ (s : State) (v : Word), s.accepting → v.getLsbD 3 = true →
    (∃ t, exec (.registerWrite .control oStatus 3 v) { s with c := s.c.flag oStatus status_DECODE_ERR } = .next t ∧ t.c.fld oStatus status_DECODE_ERR = 1) ∧
    (Tab.get 0 s.c.notes.ones oStatus = 0 → ∃ t, exec (.registerWrite .control oStatus 3 v) s = .next t ∧ t.c.fld oStatus status_DECODE_ERR = 0)) ∧
  (∀ (s : State) (k x : Nat) (v : Word), s.accepting → k < 24 → s.c.notes.counts = [] → s.c.notes.door = [] → ∃ t,
    exec (.registerWrite .control (oFltCnt k) 3 v) { s with c := s.c.satAdd (oFltCnt k) fltCnt_COUNT x } = .next t ∧
      t.c.fld (oFltCnt k) fltCnt_COUNT = min (v.toNat % 2 ^ 32 + x) (2 ^ 32 - 1)) ∧
  (∀ (s : State) (v w : Word) (o : Nat), s.accepting → o ∈ plainRegs → s.c.notes.counts = [] → s.c.notes.door = [] → s.c.smRuns = true → s.c.boot.phase ≠ .recovery →
    (∃ t u, exec (.writeReg .spi o v) s = .next t ∧ exec (.registerWrite .control o 3 w) t = .next u ∧ u.c.reg o = v) ∧
    (∃ t u, exec (.registerWrite .control o 3 w) s = .next t ∧ exec (.writeReg .spi o v) t = .next u ∧ u.c.reg o = v))
/-! ### Cue words (R66 to R82) -/

/-- Register writes: enabled halves, order of refusals, and changes of one cc: registerWriteLoadsEnabledHalvesRule, registerWriteRefusalOrderRule, changesOfOneCcRule. -/
def Obligations.RegisterWrites : Prop := registerWriteLoadsEnabledHalvesRule ∧ registerWriteRefusalOrderRule ∧ changesOfOneCcRule

/-- Sequencer `n` of a live block comes to execute word `w`, fetched clean of poison and free of every cause to trap; `c` are
the units after the fetch, which may have counted a correction. -/
def AtWord (s : State) (n w : Nat) (c : Ctl) : Prop :=
  s.live ∧ n < 104 ∧ (s.c.seq n).state = .running ∧ (s.c.seq n).wordEc ≤ s.c.ec ∧ (s.c.seq n).pc ≤ 65535 ∧
    s.c.fetch (s.c.seq n).half (s.c.seq n).pc = (c, w, false) ∧ (s.c.seq n).trapCause n (s.c.seq n).pc w false false = 0

/-- Nothing but sequencer `n` differs from the units `c`, and neither the queue nor the banks from `s`. -/
def OnlySeq (s : State) (c : Ctl) (n : Nat) (t : State) : Prop :=
  t = s.units { c with seqs := t.c.seqs } ∧ ∀ m, m ≠ n → t.c.seq m = c.seq m

/-- The sequencer's place after its word at `pc`: the next word, by the loop rules of R71, begins `cost` ec after the word. Until then MIO_SEQ_STAT_n shows
the word's index, and the loop stack as the word has found it. -/
def GoesOn (q q' : Seq) (cost : Nat) : Prop :=
  q'.state = .running ∧ (q'.pc, q'.loops) = nextPc q.pc q.loops ∧ q'.wordEc = q.wordEc + cost ∧ q'.lastPc = q.pc ∧ q'.lastLoops = q.loops

/-- SET loads one part of the generator it names, returns its position to the origin, leaves the other generator, and costs 1 ec (R66, R67). -/
def setLoadsOneGeneratorPartRule : Prop :=
  ∀ (s : State) (n w : Nat) (c : Ctl), AtWord s n w c → wOp w = 1 → ∃ t, exec (.set n) s = .next t ∧ OnlySeq s c n t ∧
    GoesOn (c.seq n) (t.c.seq n) 1 ∧
    (∀ g g', (g, g') = (if wAg w = 0 then ((c.seq n).ag0, (t.c.seq n).ag0) else ((c.seq n).ag1, (t.c.seq n).ag1)) →
      g'.idx = [0, 0, 0, 0] ∧
      (wPart w = 0 → g'.base.toNat = wBase w ∧ g'.lanes = wLanes w ∧ g'.opmode.toNat = wOpmode w ∧ g'.oparg.toNat = wOparg w ∧
        g'.count = g.count ∧ g'.stride = g.stride) ∧
      (wPart w = 1 → g'.count = (bits w 8 16 + 1) :: (bits w 52 16 + 1) :: g.count.drop 2 ∧
        g'.stride = sint 28 (bits w 24 28) :: sint 28 (bits w 68 28) :: g.stride.drop 2 ∧
        g'.base = g.base ∧ g'.lanes = g.lanes ∧ g'.opmode = g.opmode ∧ g'.oparg = g.oparg) ∧
      (wPart w = 2 → g'.count = g.count.take 2 ++ [bits w 8 16 + 1, bits w 52 16 + 1] ∧
        g'.stride = g.stride.take 2 ++ [sint 28 (bits w 24 28), sint 28 (bits w 68 28)] ∧
        g'.base = g.base ∧ g'.lanes = g.lanes ∧ g'.opmode = g.opmode ∧ g'.oparg = g.oparg)) ∧
    (wAg w = 0 → (t.c.seq n).ag1 = (c.seq n).ag1) ∧ (wAg w = 1 → (t.c.seq n).ag0 = (c.seq n).ag0)

/-- The registers in which the sampling of a port's writes records errors: its status counts, the checks of the write channel, a gather's counts, the record
of a cue violation, and what raises of sources 7 and 10 record. -/
def errorRegs (n : Nat) : List Nat :=
  [oPstat n, oEccCnt 7, oMsoStat (seqQuad n), oCvRec0, oCvRec1, oCvRec2, oCvCount, oFltCnt 7, oFltCnt 10, oFltSticky, oFltStat, oFltCap, oFltCap + 8]

/-- The granules of the k-th access of a generator that is at `a` before the first one. -/
def accessOf (a : AddrGen) (k : Nat) : List Nat := (AddrGen.take a.lanes (AddrGen.take (k * a.lanes) a).2).1

/-- RUN issues N accesses on each channel it uses, one every G + 1 ec from the ec of the word on, a gather's index accesses counting as write
accesses, and costs N + (N - 1) G ec. Access k of a channel names the granules that its generator gives it, from the origin with RESTART, and the
generator goes on behind the last (R67, R68, R70). Accesses issued before stay, but for data that later plain writes replace (R143); a channel that the word
does not use, the other generator, the gather unit unless the word is a gather, the releases, the other sequencers, the banks, the queue and every
register but those that record errors stay as they were, and after a word that only reads all of them. -/
def runWordIssuesRule : Prop :=
  ∀ (s : State) (n w : Nat) (c : Ctl) (d : List EngineDrive) (q : Seq) (rd wr gt : Bool), AtWord s n w c → wOp w = 2 → q = c.seq n →
    rd = q.runReads n w → gt = q.isGather n w → wr = (runWrites w && !gt) →
    ∃ t q', exec (.run n d) s = .next t ∧ q' = t.c.seq n ∧ GoesOn q q' (wN w + (wN w - 1) * wGap w) ∧
      q'.readCount = q.readCount + (if rd then wN w else 0) ∧
      q'.writeCount = q.writeCount + (if runWrites w then wN w else 0) ∧
      q'.seqCount = q.seqCount + BitVec.ofNat 16 (if runWrites w then wN w else 0) ∧
      (∀ a : AddrGen, a = (if wRestart w then q.ag0.restart else q.ag0) → rd = true →
        q'.ag0 = (AddrGen.take (wN w * a.lanes) a).2 ∧ q'.reads.length = q.reads.length + wN w ∧ q'.reads.take q.reads.length = q.reads ∧
        ∀ (k : Nat) (r : RAccess), k < wN w → q'.reads[q.reads.length + k]? = some r → r.id = q.readCount + k ∧
          r.issue = q.wordEc + k * (wGap w + 1) ∧ r.opmode = a.opmode ∧ r.oparg = a.oparg ∧
          (r.lanes.filter fun l => !l.scale).map (fun l => l.gi) = accessOf a k) ∧
      (∀ a : AddrGen, a = (if wRestart w then (q.writeAg n).restart else q.writeAg n) → wr = true →
        q'.writeAg n = (AddrGen.take (wN w * a.lanes) a).2 ∧ q'.writes.length = q.writes.length + wN w ∧
        (∀ (k : Nat) (x x' : WAccess), q.writes[k]? = some x → q'.writes[k]? = some x' → x' = { x with lanes := x'.lanes } ∧
          x'.lanes.map (fun l => (l.lane, l.gi, l.follow)) = x.lanes.map (fun l => (l.lane, l.gi, l.follow))) ∧
        ∀ (k : Nat) (x : WAccess), k < wN w → q'.writes[q.writes.length + k]? = some x → x.id = q.writeCount + k ∧
          x.seqNo = q.seqCount + BitVec.ofNat 16 k ∧ x.w = q.wordEc + k * (wGap w + 1) ∧ x.acc = a.accType ∧ x.lanes.map (fun l => l.gi) = accessOf a k) ∧
      (rd = false → q'.reads = q.reads ∧ (wr = false ∨ isVector n = true → q'.ag0 = q.ag0)) ∧
      (runWrites w = false → q'.writes = q.writes ∧ q'.ra = q.ra ∧ q'.ag1 = q.ag1 ∧ OnlySeq s c n t) ∧ (gt = false → q'.gather = q.gather) ∧
      q'.releases = q.releases ∧ (∀ m, m ≠ n → t.c.seq m = c.seq m) ∧ (∀ o, o ∉ errorRegs n → t.c.reg o = c.reg o) ∧
      t = s.units { c with seqs := t.c.seqs, regs := t.c.regs, notes := t.c.notes, logq := t.c.logq, faults := t.c.faults, free := t.c.free }

/-- An address generator gives BASE plus the sum of index times stride, modulo 2^27, and its position goes on by one, the innermost dimension first, with a
carry at each count; a run of granules is what it gives one after the other (R70). -/
def generatorTraversesRule : Prop :=
  (∀ (a : AddrGen) (i0 i1 i2 i3 n0 n1 n2 n3 : Nat) (s0 s1 s2 s3 : Int), a.idx = [i0, i1, i2, i3] → a.count = [n0, n1, n2, n3] → a.stride = [s0, s1, s2, s3] →
    (AddrGen.take 1 a).1 = [((a.base.toNat + i0 * s0 + i1 * s1 + i2 * s2 + i3 * s3 : Int) % 2 ^ 27).toNat] ∧
    (AddrGen.take 1 a).2 = { a with idx :=
      if i0 + 1 < n0 then [i0 + 1, i1, i2, i3] else if i1 + 1 < n1 then [0, i1 + 1, i2, i3]
      else if i2 + 1 < n2 then [0, 0, i2 + 1, i3] else if i3 + 1 < n3 then [0, 0, 0, i3 + 1] else [0, 0, 0, 0] }) ∧
  (∀ (j k : Nat) (a : AddrGen), (AddrGen.take (j + k) a).1 = (AddrGen.take j a).1 ++ (AddrGen.take k (AddrGen.take j a).2).1 ∧
    (AddrGen.take (j + k) a).2 = (AddrGen.take k (AddrGen.take j a).2).2)

/-- RUN issues every access with the granules of its generator, and what it leaves: runWordIssuesRule, generatorTraversesRule. -/
def Obligations.RunIssuesEveryAccess : Prop := runWordIssuesRule ∧ generatorTraversesRule

/-- A SIG queues its release for the release point of R150, in program order, and costs 1 ec; nothing is released yet. -/
def sigQueuesReleaseRule : Prop :=
  ∀ (s : State) (n w : Nat) (c : Ctl), AtWord s n w c → wOp w = 3 →
    ∀ i, i = (if wKind w = 0 then Instr.sigCounterAdd n else if wKind w = 1 then .sigCurtainEntry n else .sigStreamStart n) →
    ∃ t, exec i s = .next t ∧ OnlySeq s c n t ∧ GoesOn (c.seq n) (t.c.seq n) 1 ∧
      ∃ r : Release, (t.c.seq n).releases = (c.seq n).releases ++ [r] ∧ r.target = wTarget w ∧ r.scope = wScope w ∧
        r.value = BitVec.ofNat 32 (wValue w) ∧
        r.kind = (if wKind w = 0 then .counterAdd else if wKind w = 1 then .curtainEntry else .streamStart) ∧
        r.x = (c.seq n).releasePoint (c.seq n).wordEc (wKind w) (wScope w) ∧ (c.seq n).wordEc + 1 ≤ r.x

/-- SET loads one generator part; SIG words queue their release: setLoadsOneGeneratorPartRule, sigQueuesReleaseRule. -/
def Obligations.SetAndSigWords : Prop := setLoadsOneGeneratorPartRule ∧ sigQueuesReleaseRule

/-- A group of the write wing that is held in ec `f` and has an entry in the range of the word `w` (R144). -/
def heldInRange (f w : Nat) (a : WAccess) : Bool := !a.index && decide (f < a.t) && a.own.any fun l => inRangeOf w l.gi

/-- What a release after a FLUSH `w` of ec `f` waits for, over the write accesses `ws` of the channel as the FLUSH leaves them: the ec after the FLUSH and
what FLUSHes before it noted at scope port; the ec in which each access of an earlier write ec that touches the range (in quadrant `quad`, if any) is visible;
and that of each access that an earlier FLUSH waits for (R145, R150). -/
def Awaited (c : Ctl) (q : Seq) (ws : List WAccess) (f w : Nat) (quad : Option Nat) (x : Nat) : Prop :=
  x = max q.flushPort (f + 1) ∨
    (∃ a ∈ ws, a.index = false ∧ a.w < f ∧ c.touches w quad a = true ∧ x = c.lanesVisible ws a) ∨
    (∃ y ∈ q.flushes, (quad.isSome = true → y.quad = true) ∧ ∃ a, ws.find? (fun a => decide (a.id = y.id)) = some a ∧ x = c.lanesVisible ws a)

/-- The completion at a scope is the latest of what is awaited there (R145). -/
def FlushDone (c : Ctl) (q : Seq) (ws : List WAccess) (f w : Nat) (quad : Option Nat) (new : Nat) : Prop :=
  Awaited c q ws f w quad new ∧ ∀ x, Awaited c q ws f w quad x → x ≤ new

/-- FLUSH: every group of the wing up to the newest one held with an entry in its range takes the due ec min(d, f + 1), and no other group
another; no group moves where none is so held. It is complete at scope port in the ec after it, at scope quadrant and block in the latest ec in which
an earlier access that touches its range (in the port's quadrant) becomes visible, the ec after it at the earliest. ACQUIRE: every read-ahead entry of its range that is in the wing leaves it at the
end of its ec, any other entry stays as it was, and the range is noted with its ec. Each costs 1 ec, and touches its sequencer alone
(R67, R144, R145, R149). -/
def flushAndAcquireRule : Prop :=
  ∀ (s : State) (n w : Nat) (c : Ctl) (q : Seq), AtWord s n w c → q = c.seq n →
    (wOp w = 6 → ∃ t q', exec (.flush n) s = .next t ∧ q' = t.c.seq n ∧ OnlySeq s c n t ∧ GoesOn q q' 1 ∧
      (∀ b, (q.writes.filter (heldInRange q.wordEc w)).getLast? = some b → q'.writes.length = q.writes.length ∧
        ∀ (k : Nat) (a a' : WAccess), q.writes[k]? = some a → q'.writes[k]? = some a' → a'.id = a.id ∧ a'.lanes = a.lanes ∧
          a'.due = if a.index = false ∧ q.wordEc < a.t ∧ a.id ≤ b.id then min a.due (q.wordEc + 1) else a.due) ∧
      ((q.writes.filter (heldInRange q.wordEc w)) = [] → q'.writes = q.writes) ∧
      q'.flushed 0 0 = max q.flushPort (q.wordEc + 1) ∧ FlushDone c q q'.writes q.wordEc w (some (seqQuad n)) (q'.flushed 0 1) ∧
      FlushDone c q q'.writes q.wordEc w none (q'.flushed 0 2) ∧ q'.flushed 0 3 = q'.flushed 0 2 ∧ q'.flushed 2 0 = q'.flushed 0 2 ∧ q'.reads = q.reads ∧ q'.ra = q.ra ∧ q'.releases = q.releases) ∧
    (wOp w = 7 → ∃ t q', exec (.acquire n) s = .next t ∧ q' = t.c.seq n ∧ OnlySeq s c n t ∧ GoesOn q q' 1 ∧
      q'.ra.length = q.ra.length ∧
      (∀ (k : Nat) (e e' : RaEntry), q.ra[k]? = some e → q'.ra[k]? = some e' →
        (wBase w ≤ e.gi ∧ e.gi ≤ wBase w + wLen w ∧ e.since ≤ q.wordEc → e' = { e with gone := some (min q.wordEc (e.gone.getD q.wordEc)) }) ∧
        (¬ (wBase w ≤ e.gi ∧ e.gi ≤ wBase w + wLen w ∧ e.since ≤ q.wordEc) → e' = e)) ∧
      (q.wordEc, wBase w, wBase w + wLen w) ∈ q'.acquires ∧ q'.writes = q.writes ∧ q'.reads = q.reads ∧ q'.releases = q.releases)

/-- LOOP pushes its body and trips on the loop stack and goes on at the next word after 1 ec; JUMP goes on at its destination after 12 ec;
DELAY goes on after its count of ec and changes nothing else of its sequencer; HALT ends the scene, whose ec offset stops, leaves the sequencer HALTED
with its pending releases and generators, and drops a pending PARK (R67, R71, R81). None of the four touches another unit. -/
def controlWordsRule : Prop :=
  ∀ (s : State) (n w : Nat) (c : Ctl), AtWord s n w c →
    (wOp w = 8 → exec (.loop n) s = .next (s.units (c.setSeq n
      { c.seq n with loops := { first := (c.seq n).pc + 1, last := (c.seq n).pc + wBody w + 1, left := wTrips w } :: (c.seq n).loops,
                     pc := (c.seq n).pc + 1, lastPc := (c.seq n).pc, lastLoops := (c.seq n).loops, wordEc := (c.seq n).wordEc + 1 }))) ∧
    (wOp w = 9 → exec (.jump n) s = .next (s.units (c.setSeq n
      { c.seq n with pc := wDest w, lastPc := (c.seq n).pc, lastLoops := (c.seq n).loops, wordEc := (c.seq n).wordEc + 12 }))) ∧
    (wOp w = 0xA → ∃ t, exec (.delay n) s = .next t ∧ OnlySeq s c n t ∧ GoesOn (c.seq n) (t.c.seq n) (wDelay w) ∧
      t.c.seq n = { c.seq n with pc := (t.c.seq n).pc, loops := (t.c.seq n).loops, lastPc := (c.seq n).pc, lastLoops := (c.seq n).loops, wordEc := (c.seq n).wordEc + wDelay w }) ∧
    (wOp w = 0xB → ∃ t, exec (.halt n) s = .next t ∧ OnlySeq s c n t ∧ (t.c.seq n).state = .halted ∧ (t.c.seq n).inScene = false ∧
      (t.c.seq n).parkPend = false ∧ (t.c.seq n).releases = (c.seq n).releases ∧ (t.c.seq n).ag0 = (c.seq n).ag0 ∧
      (t.c.seq n).ag1 = (c.seq n).ag1 ∧ (t.c.seq n).sceneNo = (c.seq n).sceneNo ∧
      ((c.seq n).inScene = true → (t.c.seq n).offset = (c.seq n).wordEc - (c.seq n).ec0))

/-- FLUSH, ACQUIRE and the control words: flushAndAcquireRule, controlWordsRule. -/
def Obligations.ControlFlowWords : Prop := flushAndAcquireRule ∧ controlWordsRule

/-- SCENE ends the scene, and its ec offset stops. With a PARK pending the sequencer is HALTED. Otherwise it is WAITING from the ec of the word on: held with
its head not evaluated while a load into its half is under way; else its head is evaluated in that ec. After a word that is no WAIT the head is
empty and the body begins there; after one counter WAIT and a word that is none, WT0 takes the target (of mode REL: the sum with WT0) and the
condition is one that is not met yet. The scene to come has the number after the one before (INC) or the number in the word (R69, R72, R74, R82, R164). -/
def sceneWordRule : Prop :=
  ∀ (s : State) (n w : Nat) (c : Ctl) (q : Seq), AtWord s n w c → wOp w = 5 → q = c.seq n →
    (∃ t, exec (.scene n) s = .next t ∧ (t.c.seq n).inScene = false ∧ (q.inScene = true → (t.c.seq n).offset = q.wordEc - q.ec0) ∧
      (∀ m, m ≠ n → t.c.seq m = c.seq m) ∧ t.banks = s.banks ∧ t.pending = s.pending) ∧
    (q.parkPend = true → ∃ t, exec (.scene n) s = .next t ∧ OnlySeq s c n t ∧ (t.c.seq n).state = .halted ∧ (t.c.seq n).parkPend = false) ∧
    (q.parkPend = false → c.loading q.half = true → ∃ t, exec (.scene n) s = .next t ∧ OnlySeq s c n t ∧ (t.c.seq n).state = .waiting ∧
      (t.c.seq n).waitSince = q.wordEc ∧ (t.c.seq n).loadHold = true ∧ (t.c.seq n).evaluated = false) ∧
    (∀ (w1 : Nat) (p : Nat × List LoopEntry), q.parkPend = false → c.loading q.half = false → p = nextPc q.pc q.loops → p.1 ≤ 65535 →
      c.fetch q.half p.1 = (c, w1, false) →
      (wOp w1 ≠ 4 → ∃ t, exec (.scene n) s = .next t ∧ OnlySeq s c n t ∧ (t.c.seq n).state = .waiting ∧ (t.c.seq n).waitSince = q.wordEc ∧
        (t.c.seq n).loadHold = false ∧ (t.c.seq n).evaluated = true ∧ (t.c.seq n).evalEc = q.wordEc ∧ (t.c.seq n).head = [] ∧
        (t.c.seq n).bodyPc = p.1 ∧ (t.c.seq n).nextNo = (if wInc w then q.baseNo + 1 else BitVec.ofNat 32 (wSceneNo w))) ∧
      (∀ (w2 : Nat) (p' : Nat × List LoopEntry), wOp w1 = 4 → wKind w1 = 0 → q.trapCause n p.1 w1 false true = 0 → p' = nextPc p.1 p.2 → p'.1 ≤ 65535 →
        c.fetch q.half p'.1 = (c, w2, false) → wOp w2 ≠ 4 →
        ∃ t, exec (.scene n) s = .next t ∧ (t.c.seq n).state = .waiting ∧ (t.c.seq n).evaluated = true ∧ (t.c.seq n).evalEc = q.wordEc ∧
          (t.c.seq n).head = [{ curtain := false, target := wTarget w1, scope := wScope w1, met := false }] ∧ (t.c.seq n).bodyPc = p'.1 ∧
          t.c.wt n 0 = (if wMode w1 = 1 then c.wt n 0 + wValue w1 else wValue w1) % 2 ^ 32))

/-- A head WAIT: the head of a WAITING sequencer, once evaluated, is sampled in each later ec (it has up to eight conditions, on counters and curtains that exist): a condition is met afterwards if it was, or if its counter
has reached its target WTk, or its curtain's round is latched; the sequencer stays WAITING, and no other sequencer changes (R162, R164). -/
def headWaitRule : Prop :=
  ∀ (s : State) (n : Nat), s.working → n < 104 → (s.c.seq n).state = .waiting → (s.c.seq n).evaluated = true → (s.c.seq n).evalEc < s.c.ec →
    (s.c.seq n).head.length ≤ 8 → (∀ h ∈ (s.c.seq n).head, h.target < 4096) →
    ∃ t, exec (.wait n) s = .next t ∧ t.c.seq n = { s.c.seq n with head := (t.c.seq n).head } ∧
      (t.c.seq n).head.length = (s.c.seq n).head.length ∧
      (∀ (k : Nat) (h : HeadCond), (s.c.seq n).head[k]? = some h → (t.c.seq n).head[k]? = some { h with met :=
        h.met || (if h.curtain then s.c.curMet h.target n s.c.ec else reached (s.c.cntAt h.target s.c.ec) (s.c.wt n k)) }) ∧
      (∀ m, m ≠ n → t.c.seq m = s.c.seq m) ∧ t.banks = s.banks ∧ t.pending = s.pending

/-- A word whose opcode is reserved traps the sequencer with cause 1, a poisoned word with cause 4, whichever word command
comes: the scene ends, and MIO_SEQ_TRAP_n holds the cause, the half, the PC and the scene number (R79). -/
def badWordTrapsRule : Prop :=
  ∀ (s : State) (n w : Nat) (c : Ctl) (pois : Bool) (i : Instr),
    i ∈ [Instr.set n, .run n [], .sigCounterAdd n, .sigCurtainEntry n, .sigStreamStart n, .flush n, .acquire n, .loop n, .jump n, .delay n, .halt n, .scene n, .wait n] →
    s.live → n < 104 → (s.c.seq n).state = .running → (s.c.seq n).wordEc ≤ s.c.ec → (s.c.seq n).pc ≤ 65535 →
    s.c.fetch (s.c.seq n).half (s.c.seq n).pc = (c, w, pois) → (pois = true ∨ wOp w = 0 ∨ 0xC ≤ wOp w) →
    ∃ t, exec i s = .next t ∧ (t.c.seq n).state = .trapped ∧ (t.c.seq n).inScene = false ∧ (t.c.seq n).pc = (s.c.seq n).pc ∧
      t.c.fld (oSeqTrap n) seqTrap_CAUSE = (if pois then 4 else 1) ∧ t.c.fld (oSeqTrap n) seqTrap_PC = (s.c.seq n).pc ∧
      t.c.fld (oSeqTrap n) seqTrap_HALF = (s.c.seq n).half.toNat ∧ t.c.fld (oSeqTrap n) seqTrap_SCENE_NO = (s.c.seq n).sceneNo.toNat ∧
      (∀ m, m ≠ n → t.c.seq m = s.c.seq m) ∧ t.banks = s.banks

/-- SCENE heads, WAIT words and traps: sceneWordRule, headWaitRule, badWordTrapsRule. -/
def Obligations.SceneHeadsAndTraps : Prop := sceneWordRule ∧ headWaitRule ∧ badWordTrapsRule

/-! ### Sequencer commands and scene starts (R65, R81 to R86) -/

/-- START of a HALTED sequencer leaves it WAITING at its entry word, its loop stack empty, its generators as they were; PARK of a RUNNING
sequencer, or of a WAITING one that a start decision has taken, is pending; PARK of another WAITING one settles at the end of the cc: it is HALTED unless
its group's start was decided meanwhile; RESET of a HALTED or TRAPPED sequencer leaves it HALTED with generators, loop stack and WT0 to WT7
cleared. START and RESET take every read-ahead entry out of the wing at the end of the ec. START and RESET in any other state only set CMD_REFUSED
(R82, R86, R159). That START and RESET act in the ec of their command, and a PARK of a WAITING sequencer with the end of its cc, is log entry 80 (DEDUCED). -/
def sequencerCommandsRule : Prop :=
  ∀ (s : State) (n : Nat), s.accepting → n < 104 →
    ((s.c.seq n).state = .halted → ∃ t, exec (.start n) s = .next t ∧ t = s.wrote (.start n) (s.c.setSeq n (t.c.seq n)) ∧ (t.c.seq n).state = .waiting ∧
      (t.c.seq n).half = decide (s.c.fld (oSeqCfg n) seqCfg_ENTRY_HALF = 1) ∧ (t.c.seq n).pc = s.c.fld (oSeqCfg n) seqCfg_ENTRY_PC ∧
      (t.c.seq n).loops = [] ∧ (t.c.seq n).ra = (s.c.seq n).ra.map (RaEntry.leave s.c.ec) ∧ (t.c.seq n).ag0 = (s.c.seq n).ag0 ∧ (t.c.seq n).ag1 = (s.c.seq n).ag1 ∧
      (t.c.seq n).waitSince = s.c.ec ∧ (t.c.seq n).evaluated = false) ∧
    ((s.c.seq n).state ≠ .halted → exec (.start n) s = .next (s.wrote (.start n) (s.c.flag (oSeqStat n) seqStat_CMD_REFUSED))) ∧
    ((s.c.seq n).state = .running → exec (.park n) s = .next (s.wrote (.park n) (s.c.setSeq n { s.c.seq n with parkPend := true }))) ∧
    ((s.c.seq n).state = .waiting → (s.c.group (s.c.groupOf n)).decided = none →
      exec (.park n) s = .next (s.wrote (.park n) (s.c.setSeq n { s.c.seq n with parkAt := some (4 * (s.c.cc + 1)) }))) ∧
    ((s.c.seq n).parkAt = some (4 * s.c.cc) → (s.c.seq n).state = .waiting → ∀ q, q = ((s.c.parksSettle (4 * s.c.cc)).seq n) →
      ((s.c.group (s.c.groupOf n)).decided = none → q.state = .halted ∧ q.parkPend = false ∧ q.parkAt = none) ∧
      ((s.c.group (s.c.groupOf n)).decided.isSome = true → n ∈ (s.c.group (s.c.groupOf n)).who →
        q.state = .waiting ∧ q.parkPend = true ∧ q.parkAt = none)) ∧
    ((s.c.seq n).state = .waiting → (s.c.group (s.c.groupOf n)).decided.isSome = true → n ∈ (s.c.group (s.c.groupOf n)).who →
      exec (.park n) s = .next (s.wrote (.park n) (s.c.setSeq n { s.c.seq n with parkPend := true }))) ∧
    ((s.c.seq n).state = .halted ∨ (s.c.seq n).state = .trapped → ∃ t, exec (.reset n) s = .next t ∧ (t.c.seq n).state = .halted ∧
      (t.c.seq n).ag0 = {} ∧ (t.c.seq n).ag1 = {} ∧ (t.c.seq n).loops = [] ∧ (t.c.seq n).ra = (s.c.seq n).ra.map (RaEntry.leave s.c.ec) ∧ (∀ k, k < 8 → t.c.wt n k = 0) ∧
      (∀ m, m ≠ n → t.c.seq m = s.c.seq m) ∧ t.banks = s.banks) ∧
    ((s.c.seq n).state = .waiting ∨ (s.c.seq n).state = .running →
      exec (.reset n) s = .next (s.wrote (.reset n) (s.c.flag (oSeqStat n) seqStat_CMD_REFUSED)))

/-- The start decision of a group that was ready first in ec m is taken for the first ec at least 4 after m whose slot index is
a multiple of 2^ALIGN_LOG, for its sequencers that are not HALTED, whose pwr_lend bits are 0 from the ec after m on; at its ec 0 each of them that is WAITING
runs its scene, under the number that its SCENE word gave, from the first body word on (R73, R85, R179). -/
def sceneStartsWhenDecidedRule : Prop :=
  (∀ (s : State) (g m : Nat) (c : Ctl), s.live → g < 32 → c = s.c.groupSample g s.c.ec → (c.group g).ready = some m → c.intmStops g = false →
    ∃ t e, exec (.startDecision g) s = .next t ∧ (t.c.group g).decided = some e ∧ m + 4 ≤ e ∧
      2 * e % 2 ^ c.fld (oGrpCfg g) grpCfg_ALIGN_LOG = 0 ∧
      (∀ e', m + 4 ≤ e' → 2 * e' % 2 ^ c.fld (oGrpCfg g) grpCfg_ALIGN_LOG = 0 → e ≤ e') ∧
      (t.c.group g).who = (c.members g).filter (fun n => decide ((c.seq n).state ≠ .halted)) ∧
      (∀ n ∈ (t.c.group g).who, t.c.seq n = { c.seq n with lendOff := some (m + 1) }) ∧
      (∀ n, n ∉ (t.c.group g).who → t.c.seq n = c.seq n) ∧ t.banks = s.banks) ∧
  (∀ (s : State) (g e : Nat), s.live → g < 32 → (s.c.group g).decided = some e → e ≤ s.c.ec →
    ∃ t, exec (.sceneStart g) s = .next t ∧ (t.c.group g).decided = none ∧ t.banks = s.banks ∧
      (∀ n ∈ (s.c.group g).who, (s.c.seq n).state = .waiting → (t.c.seq n).state = .running ∧ (t.c.seq n).ec0 = e ∧ (t.c.seq n).wordEc = e ∧
        (t.c.seq n).inScene = true ∧ (t.c.seq n).sceneNo = (s.c.seq n).nextNo ∧ (t.c.seq n).pc = (s.c.seq n).bodyPc) ∧
      (∀ n, n ∉ (s.c.group g).who → t.c.seq n = s.c.seq n))
/-! ### Scheduled accesses at the banks (R40 to R48, R92 to R95, R122, R126 to R128, R141 to R143) -/

/-- START, PARK, RESET, RELEASE and the start of a scene: sequencerCommandsRule, sceneStartsWhenDecidedRule. -/
def Obligations.SequencerCommandsAndStart : Prop := sequencerCommandsRule ∧ sceneStartsWhenDecidedRule

/-- The rows that a write to the row `key` reaches: the row and, while a MIGRATE copies its cluster, the same row of the
quadrant's understudy (R24, R269). -/
def KeyWritten (c : Ctl) (key k : Nat) : Prop :=
  k = key ∨ ((c.under (key / 65536 / 65)).copying = some (key / 65536 % 65) ∧ k = rowKey (key / 65536 / 65) 64 (key / 4096 % 16) (key % 4096))

/-- Exactly the rows that a write to the row `key` reaches change, and they hold `g`. -/
def Puts (s t : State) (key : Nat) (g : Granule) : Prop :=
  ∀ k, (KeyWritten s.c key k → rowAt t.banks k = g) ∧ (¬ KeyWritten s.c key k → rowAt t.banks k = rowAt s.banks k)

/-- Granule index `gi` is committed: exactly the rows of its write change, and they hold `g`. -/
def Commits (s t : State) (gi : Nat) (g : Granule) : Prop := Puts s t (s.c.keyOf (s.c.place gi)) g

/-- Exactly the rows of a set change, and they hold the fill granule (R17). -/
def Fills (s t : State) (rows : Nat → Prop) : Prop :=
  ∀ k, (rows k → rowAt t.banks k = fillGranule) ∧ (¬ rows k → rowAt t.banks k = rowAt s.banks k)

/-- The rows of cluster `cl` as built of quadrant `q`. -/
def ClusterRow (q cl k : Nat) : Prop := ∃ b row, b < 16 ∧ row < 4096 ∧ k = rowKey q cl b row

/-- A plain scheduled write of one lane, at its bank-access bc: a passing lane's granule is what its row holds afterwards, and
no other row changes; a failing lane changes no row, and reports the code of its cause, 2 for OWNER and 1 for SLOT, BANK and
TAG (R47, R93). Outside factory test mode, in which a commit may be injected with errors (R321). -/
def scheduledWriteCommitsRule : Prop :=
  ∀ (s : State) (n : Nat) (a : WAccess) (l : WLane), s.live → n < 104 → s.c.boot.factory = false →
    (s.c.seq n).dueWrite s.c.bc = some a → a.acc = none → a.lanes = [l] → l.follow = none → l.passed = false →
    (s.c.plainLane s.banks n a l = 0 → ∃ t, exec (.scheduledBankAccess n true) s = .next t ∧ Commits s t l.gi l.granule ∧
      t.pending = s.pending ∧ ∃ a' l', a' ∈ (t.c.seq n).writes ∧ a'.id = a.id ∧ a'.first = true ∧ a'.done = true ∧ a'.lanes = [l'] ∧
        l'.passed = true ∧ l'.after = l.granule ∧ l'.code = (if l.fault then 3 else 0)) ∧
    (s.c.plainLane s.banks n a l ≠ 0 → s.c.plainLane s.banks n a l ≤ 5 → ∃ t, exec (.scheduledBankAccess n true) s = .next t ∧ t.banks = s.banks ∧
      t.c.fld oCvCount ⟨0, 0, 32⟩ = min (s.c.fld oCvCount ⟨0, 0, 32⟩ + 1) 0xFFFFFFFF ∧
      ∃ a' l', a' ∈ (t.c.seq n).writes ∧ a'.id = a.id ∧ a'.done = true ∧ a'.lanes = [l'] ∧ l'.passed = false ∧
        l'.code = (if s.c.plainLane s.banks n a l = 1 then 2 else 1))

/-- A plain scheduled read of one lane that neither forwards nor hits the read-ahead wing, and whose port has written the granule in no access of the
same ec, at its bank-access bc: a passing
lane carries the decoded granule of its row; a lane with the cause OWNER, SLOT or BANK carries a poisoned granule and is a counted cue violation; no row
changes (R33, R42, R93, R94, R141, R147). -/
def scheduledReadTakesTheRowRule : Prop :=
  ∀ (s : State) (n : Nat) (r : RAccess) (l : RLane), s.working → n < 104 →
    (s.c.seq n).dueRead s.c.bc = some r → r.lanes = [l] → r.opmode = 0 → r.cut = none → r.dropped = false → l.fwd = none → l.scale = false →
    (s.c.seq n).raHit l.gi r.issue = none → (isVector n = true → (s.c.seq n).sameEc r.issue l.gi = none) →
    (s.c.pathCause (s.c.groupOf n) l.gi r.bankBc = 0 → s.c.tagChecked l.gi = false →
      ∃ t, exec (.scheduledBankAccess n false) s = .next t ∧ t.banks = s.banks ∧
        ∃ r' l', r' ∈ (t.c.seq n).reads ∧ r'.id = r.id ∧ r'.checked = true ∧ r'.lanes = [l'] ∧
          l'.granule = (decodeG (s.c.repOf l.gi) (rowAt s.banks (s.c.keyOf (s.c.place l.gi)))).word ∧ l'.rep = s.c.repOf l.gi) ∧
    (∀ x, s.c.pathCause (s.c.groupOf n) l.gi r.bankBc = x → x ≠ 0 →
      ∃ t, exec (.scheduledBankAccess n false) s = .next t ∧ t.banks = s.banks ∧
        t.c.fld oCvCount ⟨0, 0, 32⟩ = min (s.c.fld oCvCount ⟨0, 0, 32⟩ + 1) 0xFFFFFFFF ∧
        ∃ r' l', r' ∈ (t.c.seq n).reads ∧ r'.id = r.id ∧ r'.checked = true ∧ r'.lanes = [l'] ∧ l'.cause = x ∧
          l'.granule = poisonGranule (s.c.repOf l.gi))

/-- The rows that lanes of a write reach meet only where the lanes name one granule. -/
def RowsApart (c : Ctl) (lanes : List WLane) : Prop :=
  ∀ l ∈ lanes, ∀ m ∈ lanes, ∀ k, KeyWritten c (c.keyOf (c.place l.gi)) k → KeyWritten c (c.keyOf (c.place m.gi)) k → l.gi = m.gi

/-- `l` is the highest of the lanes that pass `dec` and name its granule. -/
def Highest (lanes : List WLane) (dec : WLane → Cause) (l : WLane) : Prop :=
  l ∈ lanes ∧ dec l = 0 ∧ ∀ m ∈ lanes, m.gi = l.gi → dec m = 0 → m.lane ≤ l.lane

/-- A plain write of several lanes: each granule that a lane passes for takes the data of the highest such lane, no other row changes, every lane that passes
reports the code of that one bank write, and the others the code of their cause (R47, R48). -/
def writeOfSeveralLanesRule : Prop :=
  ∀ (s : State) (n : Nat) (a : WAccess) (dec : WLane → Cause), s.live → n < 104 → s.c.boot.factory = false → (s.c.seq n).dueWrite s.c.bc = some a → a.acc = none →
    (∀ l ∈ a.lanes, l.follow = none ∧ l.passed = false) → a.lanes.Pairwise (fun l m => l.lane < m.lane) → RowsApart s.c a.lanes → dec = s.c.plainLane s.banks n a →
    ∃ t, exec (.scheduledBankAccess n true) s = .next t ∧ t.pending = s.pending ∧
      (∀ l, Highest a.lanes dec l → ∀ k, KeyWritten s.c (s.c.keyOf (s.c.place l.gi)) k → rowAt t.banks k = l.granule) ∧
      (∀ k, (∀ l ∈ a.lanes, dec l = 0 → ¬ KeyWritten s.c (s.c.keyOf (s.c.place l.gi)) k) → rowAt t.banks k = rowAt s.banks k) ∧
      ∃ a' ∈ (t.c.seq n).writes, a'.id = a.id ∧ a'.first = true ∧ a'.done = true ∧ a'.lanes.length = a.lanes.length ∧
        ∀ (i : Nat) (l l' : WLane), a.lanes[i]? = some l → a'.lanes[i]? = some l' → l'.passed = decide (dec l = 0) ∧
          (∀ h, dec l = 0 → Highest a.lanes dec h → h.gi = l.gi → l'.code = (if h.fault then 3 else 0) ∧ l'.after = h.granule) ∧
          (dec l ≠ 0 → dec l ≤ 5 → l'.code = (if dec l = 1 then 2 else 1))

/-- A read of several lanes, each by itself: with a cause a poisoned granule; read-ahead lanes their entry's granule; others the decoded granule of their
row. A lane that forwards takes the granule as the write left it once that write is over; where the write cannot be over two ec before the delivery it fails with DELIVERY;
else it waits (R42, R93, R141, R147). -/
def readOfSeveralLanesRule : Prop :=
  ∀ (s : State) (n : Nat) (r : RAccess), s.working → n < 104 → (s.c.seq n).dueRead s.c.bc = some r → r.cut = none → r.dropped = false →
    (∀ l ∈ r.lanes, l.cause = 0 ∧ l.got = false ∧ l.bad = false) →
    ∃ t, exec (.scheduledBankAccess n false) s = .next t ∧ t.banks = s.banks ∧ ∃ r' ∈ (t.c.seq n).reads, r'.id = r.id ∧ r'.checked = true ∧
      r'.lanes.length = r.lanes.length ∧ ∀ (i : Nat) (l l' : RLane) (x : Cause) (d : Decoded), r.lanes[i]? = some l → r'.lanes[i]? = some l' →
        x = s.c.pathCause (s.c.groupOf n) l.gi r.bankBc → d = decodeG (s.c.repOf l.gi) (rowAt s.banks (s.c.keyOf (s.c.place l.gi))) →
        l'.gi = l.gi ∧ l'.scale = l.scale ∧ l'.fwd = l.fwd ∧
        (x ≠ 0 → l'.cause = x ∧ l'.bad = true ∧ l'.granule = poisonGranule (s.c.repOf l.gi)) ∧
        (x = 0 → s.c.tagChecked l.gi = false → l.fwd = none →
          (∀ e, r.opmode = 0 → (s.c.seq n).raHit l.gi r.issue = some e → l'.cause = 0 ∧ l'.granule = e.granule ∧ l'.rep = e.rep) ∧
          (r.opmode ≠ 0 ∨ (s.c.seq n).raHit l.gi r.issue = none → isVector n = false ∨ (s.c.seq n).sameEc r.issue l.gi = none →
            l'.cause = 0 ∧ l'.granule = d.word ∧ l'.rep = s.c.repOf l.gi ∧ l'.bad = (d.bad || d.pois))) ∧
        (∀ y a w, x = 0 → l.fwd = some y → (s.c.seq n).source y = some (a, w) →
          (a.staysLate r.deliver s.c.ec = true → l'.cause = 5 ∧ l'.granule = poisonGranule (s.c.repOf l.gi)) ∧
          (a.lateFor r.deliver = false → a.done = true → a.lastBc < s.c.bc → s.c.tagChecked l.gi = false → l'.cause = 0 ∧ l'.got = true ∧ l'.granule = w.after) ∧
          (a.lateFor r.deliver = false → a.done = false → l'.cause = 0 ∧ l'.got = false))

/-- An accumulating write of one lane, alone at its bank: its first slot forms the sum of the stored granule and its own and
changes no row; its second slot, 8 bc later, commits that result (R122, R123). -/
def accumulateInTwoSlotsRule : Prop :=
  (∀ (s : State) (n : Nat) (a : WAccess) (l : WLane) (ty : Nat), s.live → n < 104 →
    (s.c.seq n).dueWrite s.c.bc = some a → a.acc = some ty → a.lanes = [l] → l.follow = none → s.c.accLane s.banks n a l = 0 →
    (∃ u, s.c.stepUses s.banks l.gi a.firstBc = [u] ∧ u.port = n ∧ u.id = a.id ∧ u.lane = l.lane ∧ u.granule = l.granule ∧ u.fault = l.fault) →
    s.c.chainResults l.gi a.firstBc = [] →
    ∃ t, exec (.scheduledBankAccess n true) s = .next t ∧ t.banks = s.banks ∧
      ∃ a' l', a' ∈ (t.c.seq n).writes ∧ a'.id = a.id ∧ a'.first = true ∧ a'.done = false ∧ a'.lanes = [l'] ∧ l'.passed = true ∧
        l'.prior = accStep (s.c.repOf l.gi) ty (decodeG (s.c.repOf l.gi) (rowAt s.banks (s.c.keyOf (s.c.place l.gi)))).word [l.granule] l.fault) ∧
  (∀ (s : State) (n : Nat) (a : WAccess) (l : WLane) (ty : Nat), s.working → n < 104 → s.c.boot.factory = false → (s.c.seq n).writes = [a] →
    a.acc = some ty → a.first = true → a.done = false → a.lastBc ≤ s.c.bc → a.lanes = [l] → l.follow = none → l.passed = true →
    s.c.leadsStep n a l = true →
    ∃ t, exec (.accWriteback n) s = .next t ∧ Commits s t l.gi l.prior ∧ t.pending = s.pending ∧
      ∃ a' l', (t.c.seq n).writes = [a'] ∧ a'.done = true ∧ a'.lanes = [l'] ∧ l'.after = l.prior ∧ l'.code = l.code)

/-- Scheduled writes and reads at their bank-access bc: scheduledWriteCommitsRule, scheduledReadTakesTheRowRule, accumulateInTwoSlotsRule. -/
def Obligations.ScheduledAccesses : Prop := scheduledWriteCommitsRule ∧ scheduledReadTakesTheRowRule ∧ accumulateInTwoSlotsRule

/-- An accumulating write of several lanes: the result of a granule's step is the stored granule plus the contributions of every accumulating lane that uses its
bank in that bc, in port and lane order; with one of them at fault nothing is added and the result is poisoned. A lane reports POISON_IN for its own fault,
else OK. The second slot commits each granule's result once, and no other row changes (R48, R122). -/
def accumulateOfSeveralLanesRule : Prop :=
  (∀ (s : State) (n : Nat) (a : WAccess) (ty : Nat), s.live → n < 104 → (s.c.seq n).dueWrite s.c.bc = some a → a.acc = some ty →
    (∀ l ∈ a.lanes, l.follow = none ∧ l.passed = false) →
    ∃ t, exec (.scheduledBankAccess n true) s = .next t ∧ t.banks = s.banks ∧ ∃ a' ∈ (t.c.seq n).writes, a'.id = a.id ∧ a'.first = true ∧
      a'.lanes.length = a.lanes.length ∧ ∀ (i : Nat) (l l' : WLane) (us : List BankUse) (g : Granule), a.lanes[i]? = some l → a'.lanes[i]? = some l' →
        us = s.c.stepUses s.banks l.gi a.firstBc → g = (decodeG (s.c.repOf l.gi) (rowAt s.banks (s.c.keyOf (s.c.place l.gi)))).word →
        l'.passed = decide (s.c.accLane s.banks n a l = 0) ∧
        (s.c.accLane s.banks n a l = 0 → l'.code = (if l.fault then 3 else 0) ∧
          (s.c.chainResults l.gi a.firstBc = [] → gPoison g = false → (∀ u ∈ us, u.fault = false) →
            gData l'.prior = (us.map fun u => gData u.granule).foldl (accData ty) (gData g)) ∧
          (s.c.chainResults l.gi a.firstBc = [] → (∃ u ∈ us, u.fault = true) → l'.prior = setPoison (s.c.repOf l.gi) g))) ∧
  (∀ (s : State) (n : Nat) (a : WAccess), s.working → n < 104 → s.c.boot.factory = false → (s.c.seq n).writes = [a] → a.acc.isSome = true →
    a.first = true → a.done = false → a.lastBc ≤ s.c.bc → (∀ l ∈ a.lanes, l.follow = none) → RowsApart s.c a.lanes →
    ∃ t, exec (.accWriteback n) s = .next t ∧ t.pending = s.pending ∧
      (∀ l ∈ a.lanes, l.passed = true → s.c.leadsStep n a l = true → (∀ m ∈ a.lanes, s.c.leadsStep n a m = true → m.passed = true → m.gi = l.gi → m = l) →
        ∀ k, KeyWritten s.c (s.c.keyOf (s.c.place l.gi)) k → rowAt t.banks k = l.prior) ∧
      ∀ k, (∀ l ∈ a.lanes, l.passed = true → s.c.leadsStep n a l = true → ¬ KeyWritten s.c (s.c.keyOf (s.c.place l.gi)) k) → rowAt t.banks k = rowAt s.banks k)

/-- Scheduled accesses of several lanes: writes, reads, forwarding, accumulation: writeOfSeveralLanesRule, readOfSeveralLanesRule, accumulateOfSeveralLanesRule. -/
def Obligations.AccessesOfSeveralLanes : Prop := writeOfSeveralLanesRule ∧ readOfSeveralLanesRule ∧ accumulateOfSeveralLanesRule

/-- The wing issues the oldest group at its due ec, once; the status of the oldest unreported access appears on xN_st_* in its
status ec with its sequence number, lanes and codes (R46, R142, R143). -/
def wingIssueAndStatusRule : Prop :=
  (∀ (s : State) (n : Nat) (a : WAccess), s.live → n < 104 →
    ((s.c.seq n).writes.find? fun x => !x.issued && decide (x.t ≤ s.c.ec)) = some a →
    ∃ t, exec (.wingGroupIssue n) s = .next t ∧ t = s.units (s.c.setSeq n (t.c.seq n)) ∧
      t.c.seq n = { s.c.seq n with writes := (t.c.seq n).writes } ∧ (t.c.seq n).writes.length = (s.c.seq n).writes.length ∧
      ∃ a' ∈ (t.c.seq n).writes, a'.id = a.id ∧ a'.issued = true) ∧
  (∀ (s : State) (n : Nat) (a : WAccess) (l : WLane), s.live → n < 104 → ((s.c.seq n).writes.find? fun x => !x.told) = some a →
    a.lanes = [l] → l.follow = none → l.lane < 8 → a.done = true → s.c.statusEc a ≤ s.c.ec →
    ∃ t, exec (.writeStatus n) s = .next t ∧ t.banks = s.banks ∧ (∀ m, m ≠ n → t.c.seq m = s.c.seq m) ∧
      Tab.get {} t.c.stOut n = StatusOut.mk (s.c.statusEc a) true a.seqNo a.mask (BitVec.ofNat 16 (l.code.toNat <<< (2 * l.lane))))

/-- The read access `r` of sequencer `n` is the one delivered next and can be: its ec has come, and its bank access and those of its tile have been made;
it waits for no forwarded value, and the accesses of the channel have numbers of their own. -/
def Delivers (s : State) (n : Nat) (r : RAccess) : Prop :=
  (s.c.seq n).nextDelivery s.c.ec = some r ∧ s.c.delivers (s.c.seq n) r = true ∧ r.dropped = false ∧ r.waits = false ∧
    ((s.c.seq n).reads.map fun x => x.id).Nodup

/-- READ_DELIVERY of `n` gives `t`, with `data` on the lanes of its bus from lane 0 in ec `e`, and each lane's poison; no other port's bus changes and no row. -/
def Drives (s t : State) (n e : Nat) (o : ReadOut) : Prop :=
  exec (.readDelivery n) s = .next t ∧ Tab.get {} t.c.rdOut n = o ∧ o.ec = e ∧ o.valid = true ∧ o.lanes = BitVec.ofNat 8 (2 ^ o.data.length - 1) ∧
    (∀ (k : Nat) (g : Granule), o.data[k]? = some g → o.pois.getLsbD k = gPoison g) ∧
    (∀ m, m ≠ n → Tab.get {} t.c.rdOut m = Tab.get {} s.c.rdOut m ∧ t.c.seq m = s.c.seq m) ∧ t.banks = s.banks

/-- A plain read is delivered in its ec: the bus carries its lanes in order from lane 0, with the poison and repertory bits of each (R40, R42, R43). -/
def readDeliveryDrivesTheBusRule : Prop :=
  ∀ (s : State) (n : Nat) (r : RAccess), s.working → n < 104 → Delivers s n r → r.opmode = 0 → r.tile = none → r.lanes.length ≤ 8 →
    ∃ t o, Drives s t n r.deliver o ∧ o.data = r.lanes.map (fun l => l.granule) ∧ ∀ (k : Nat) (l : RLane), r.lanes[k]? = some l → o.rep.getLsbD k = l.rep

/-- A lane that forwards from a write that has passed its last bank access in time carries the granule as that write left it when its read is delivered; while
a value is still to come nothing is delivered (R141). -/
def forwardedLanesAreDeliveredRule : Prop :=
  (∀ (s : State) (n : Nat) (r : RAccess), s.working → n < 104 → (s.c.seq n).reads = [r] → r.checked = true → r.done = false → r.dropped = false →
    r.opmode = 0 → r.tile = none → r.deliver ≤ s.c.ec → r.lanes.length ≤ 8 →
    (∀ l ∈ r.lanes, l.cause = 0 ∧ l.got = false ∧ ∀ x, l.fwd = some x → ∃ y, (s.c.seq n).source x = some y ∧ y.1.lateFor r.deliver = false ∧
      y.1.done = true ∧ y.1.lastBc < s.c.bc ∧ s.c.tagChecked l.gi = false) →
    ∃ t o, Drives s t n r.deliver o ∧ o.data = r.lanes.map fun l => match l.fwd with
      | none => l.granule
      | some x => ((s.c.seq n).source x).elim l.granule fun y => y.2.after) ∧
  (∀ (s : State) (n : Nat) (r : RAccess) (l : RLane) (x : Nat × Nat) (y : WAccess × WLane), s.working → n < 104 → (s.c.seq n).reads = [r] → r.checked = true →
    r.done = false → l ∈ r.lanes → l.cause = 0 → l.got = false → l.fwd = some x → (s.c.seq n).source x = some y → y.1.lateFor r.deliver = false →
    y.1.done = false → exec (.readDelivery n) s = .next s)

/-- Wing issue, write status and read delivery: wingIssueAndStatusRule, readDeliveryDrivesTheBusRule, forwardedLanesAreDeliveredRule. -/
def Obligations.WingAndReadDelivery : Prop := wingIssueAndStatusRule ∧ readDeliveryDrivesTheBusRule ∧ forwardedLanesAreDeliveredRule

/-- Stored element `e` of an access whose element lanes hold `data`, `w` bits each, in ascending lane and address order (R113). -/
def storedElement (w : Nat) (data : List Nat) (e : Nat) : Nat := bits (packData data) (w * e) w

/-- The block of element `e` in its MX group, its lanes at the group positions `pos` (R114): all of a granule, half of one, or 24 bytes of three granules. -/
def blockOf (src : Nat) (pos : List Nat) (e : Nat) : Nat :=
  if srcWidth src = 8 then pos.getD (e / 32) 0 - 1
  else if srcWidth src = 4 then 2 * (pos.getD (e / 64) 0 - 1) + e % 64 / 32
  else ((pos.getD 0 0 - 1) / 3 * 128 + e) / 32

/-- The value of stored element `e`: its own, times the scale of its block for an MX format (R112, R114). -/
def elementValue (src : Nat) (data pos : List Nat) (scale e : Nat) : FVal :=
  let v := srcValue src (storedElement (srcWidth src) data e)
  if srcMx src then scaleBy (bits scale (8 * blockOf src pos e) 8) v else v

/-- Lane `i` of an access contributes an element of `w` bits to output granule `k` of `per` elements (R118). -/
def contributes (w per k i : Nat) : Bool := decide (w * per * k < 256 * (i + 1) ∧ 256 * i < w * per * (k + 1))

/-- A lane that contributes to output granule `k`, or the scale granule, satisfies `p`. -/
def someSource (w per k : Nat) (els : List RLane) (sc : RLane) (p : RLane → Bool) : Bool :=
  p sc || (els.mapIdx fun i l => contributes w per k i && p l).any id

/-- A conversion read drives LANES times w_out / w_in granules: element e of the output stream is stored element e converted, for an MX format times the scale
of its block. An output granule to which a lane that is bad or of another format code contributes, or whose scale granule is, is poisoned with data zero;
those poisoned by a format code are counted in MIO_MSO_STAT_q.FORMAT. An MX access whose lanes break R115 delivers only poisoned granules, all counted
(R113 to R119). -/
def convertedReadsAreDeliveredRule : Prop :=
  ∀ (s : State) (n src : Nat) (r : RAccess) (d : Dst) (els : List RLane) (sc : RLane) (data pos : List Nat) (len per q : Nat), s.working → n < 104 →
    Delivers s n r → r.opmode = 1 → r.tile = none → src = argSrc r.oparg.toNat → dstOf (argDst r.oparg.toNat) = some d →
    els = r.lanes.filter (fun l => !l.scale) → sc = (r.lanes.find? fun l => l.scale).getD { gi := 0 } →
    data = els.map (fun l => gData l.granule) → pos = els.map (fun l => l.gi % mxGroup src) →
    convOk src (argDst r.oparg.toNat) els.length = true → len = els.length * d.width / srcWidth src → per = 256 / d.width →
    q = (s.c.place (r.lanes.headD { gi := 0 }).gi).quad →
    ∃ t o, Drives s t n r.deliver o ∧ o.data.length = len ∧
      (srcMx src = true → mxLanesOk src (els.map fun l => l.gi) = false → (∀ g ∈ o.data, g = poisonGranule false) ∧
        t.c.fld (oMsoStat q) msoStat_FORMAT = min (s.c.fld (oMsoStat q) msoStat_FORMAT + len) 0xFFFF) ∧
      (srcMx src = false ∨ mxLanesOk src (els.map fun l => l.gi) = true →
        t.c.fld (oMsoStat q) msoStat_FORMAT = min (s.c.fld (oMsoStat q) msoStat_FORMAT
          + ((List.range len).filter fun k => someSource (srcWidth src) per k els sc fun l => l.misfit src).length) 0xFFFF ∧
        ∀ (k : Nat) (g : Granule), o.data[k]? = some g →
          (someSource (srcWidth src) per k els sc (fun l => l.bad || l.misfit src) = true → g = poisonGranule false) ∧
          (someSource (srcWidth src) per k els sc (fun l => l.bad || l.misfit src) = false → gPoison g = false ∧ ∀ i, i < per →
            bits (gData g) (d.width * i) d.width = convElem d (argSat r.oparg.toNat) (elementValue src data pos (gData sc.granule) (per * k + i))))

/-- Row and column of element `e` of access `k` of a tile whose elements have `esize` bytes: with j = 8k + the granule it lies in, column j / ESIZE and row
(j mod ESIZE) (32 / ESIZE) plus its place in the granule (R109). -/
def tileSource (esize k e : Nat) : Nat × Nat :=
  let j := 8 * k + e / (32 / esize)
  ((j % esize) * (32 / esize) + e % (32 / esize), j / esize)

/-- A transposed read of a complete tile drives eight granules: element e of access k is the element of R109's row and column. Under OPMODE 0x3
each element is converted, and 8 w_out / w_in granules are driven. An output granule with a bad source row (or, converted, one of another format
code) is poisoned with data zero, and the others are driven as they are (R108 to R111). -/
def transposedReadsAreDeliveredRule : Prop :=
  ∀ (s : State) (n first k esize : Nat) (r : RAccess) (rows : List RLane), s.working → n < 104 → Delivers s n r → r.tile = some (first, k) → k < 4 →
    rows.length = 32 → (∀ (i : Nat) (l : RLane), rows[i]? = some l → l.fwd = none ∧
      ∃ x, (s.c.seq n).reads.find? (fun x => decide (x.id = first + i / 8)) = some x ∧ x.lanes[i % 8]? = some l) →
    (∀ m, r.opmode = 2 → esize = argEsize r.oparg.toNat → esize ≤ 4 → m = 32 / esize →
      ∃ t o, Drives s t n r.deliver o ∧ o.data.length = 8 ∧ ∀ (i : Nat) (g : Granule), o.data[i]? = some g →
        ((∃ (e : Nat) (l : RLane), e / m = i ∧ rows[(tileSource esize k e).1]? = some l ∧ l.bad = true) → g = poisonGranule false) ∧
        ((∀ (e : Nat) (l : RLane), e / m = i → rows[(tileSource esize k e).1]? = some l → l.bad = false) → gPoison g = false ∧
          ∀ (e : Nat) (l : RLane), e / m = i → rows[(tileSource esize k e).1]? = some l →
            bits (gData g) (8 * esize * (e % m)) (8 * esize) = bits (gData l.granule) (8 * esize * (tileSource esize k e).2) (8 * esize))) ∧
    (∀ (m src : Nat) (d : Dst), r.opmode = 3 → src = argSrc r.oparg.toNat → esize = srcWidth src / 8 → dstOf (argDst r.oparg.toNat) = some d →
      transConvOk src (argDst r.oparg.toNat) = true → m = 256 / d.width →
      ∃ t o, Drives s t n r.deliver o ∧ o.data.length = 8 * d.width / srcWidth src ∧ ∀ (i : Nat) (g : Granule), o.data[i]? = some g →
        ((∃ (e : Nat) (l : RLane), e / m = i ∧ rows[(tileSource esize k e).1]? = some l ∧ (l.bad = true ∨ l.misfit src = true)) → g = poisonGranule false) ∧
        ((∀ (e : Nat) (l : RLane), e / m = i → rows[(tileSource esize k e).1]? = some l → l.bad = false ∧ l.misfit src = false) → gPoison g = false ∧
          ∀ (e : Nat) (l : RLane), e / m = i → rows[(tileSource esize k e).1]? = some l → bits (gData g) (d.width * (e % m)) d.width =
            convElem d (argSat r.oparg.toNat) (srcValue src (bits (gData l.granule) (8 * esize * (tileSource esize k e).2) (8 * esize)))))

/-- Converted and transposed reads at their delivery: convertedReadsAreDeliveredRule, transposedReadsAreDeliveredRule. -/
def Obligations.ConvertedAndTransposedReads : Prop := convertedReadsAreDeliveredRule ∧ transposedReadsAreDeliveredRule

/-- A gather fetch takes its row granule into the sum of its bag, a null index nothing; an output granule of the gather unit
appears alone on lane 0 in its ec (R125 to R128). -/
def Obligations.GatherFetchAndOutput : Prop :=
  (∀ (s : State) (n : Nat) (g : Gather) (w gi : Nat), s.working → n < 104 → (s.c.seq n).gather = some g → g.next < g.limit →
    2 * (g.s + 1 + g.next) + 8 ≤ s.c.bc → g.words[g.next / g.nRow]? = some (w, false) →
    (w = 0xFFFFFFFF → ∃ t g', exec (.gatherFetch n) s = .next t ∧ (t.c.seq n).gather = some g' ∧ g'.next = g.next + 1 ∧ t.banks = s.banks ∧
      (g.next % g.nRow < g.nRow → g.next / g.nRow % g.bag ≠ 0 → g'.sums[g.next % g.nRow]? = some (g.sums.getD (g.next % g.nRow) (none, false)))) ∧
    (w ≠ 0xFFFFFFFF → g.target (g.next / g.nRow) (g.next % g.nRow) = some gi → g.cut = none → g.next ∉ g.turned →
      s.c.pathCause (s.c.groupOf n) gi (2 * (g.s + 1 + g.next) + 8) = 0 → s.c.tagChecked gi = false → 0 < g.nRow →
      ∃ t g' d, exec (.gatherFetch n) s = .next t ∧ (t.c.seq n).gather = some g' ∧ g'.next = g.next + 1 ∧ t.banks = s.banks ∧
        d = decodeG (s.c.repOf gi) (rowAt s.banks (s.c.keyOf (s.c.place gi))) ∧
        g'.sums[g.next % g.nRow]? = some (sumStep g.rowType
          (if g.next / g.nRow % g.bag = 0 then (none, false) else g.sums.getD (g.next % g.nRow) (none, false))
          (some (gData d.word)) (d.bad || d.pois)))) ∧
  (∀ (s : State) (n : Nat) (g : Gather) (o : GatherOut) (rest : List GatherOut), s.working → n < 104 → (s.c.seq n).gather = some g →
    g.outs = o :: rest → o.ec ≤ s.c.ec → o.lost = false →
    ∃ t, exec (.gatherOutput n) s = .next t ∧ (t.c.seq n).gather = some { g with outs := rest } ∧ t.banks = s.banks ∧
      (Tab.get {} t.c.rdOut n).ec = o.ec ∧ (Tab.get {} t.c.rdOut n).valid = true ∧ (Tab.get {} t.c.rdOut n).lanes = 1 ∧
      (Tab.get {} t.c.rdOut n).data = [o.granule] ∧ (Tab.get {} t.c.rdOut n).pois.getLsbD 0 = gPoison o.granule)

/-! ### Releases, hangs and reports (R152, R155, R161, R169, R177 to R179) -/

/-- RELEASE_APPLY: the oldest pending release of the sequencer, once its release point has come, leaves the queue and takes effect. A counter add adds
its value to the counter modulo 2^32, and records source SIG and its scope where the counter has not changed recently; no other counter changes.
A curtain entry of a participant that is OUT, at a curtain in use, makes it ENTERED at its parity, raises the own count of that round by one and narrows its
scope; every other participant and curtain stays. A stream start of an IDLE context that passes the checks, outside ordered sets and no script-store load,
leaves it RUNNING with nothing issued or counted, from 2 ec on. No bank row changes. Before its point, nothing changes (R150 to R154, R161, R172, R183, R185). -/
def releaseAppliesInOrderRule : Prop :=
  ∀ (s : State) (n : Nat) (r : Release) (rest : List Release), s.working → n < 104 → (s.c.seq n).releases = r :: rest →
    (s.c.ec < r.x → exec (.releaseApply n) s = .next s) ∧
    (r.x ≤ s.c.ec → r.kind = .counterAdd → r.target < 4096 → r.scope < 4 → ∃ t, exec (.releaseApply n) s = .next t ∧ (t.c.seq n).releases = rest ∧
      t.c.fld (oCnt r.target) cnt_VALUE = (s.c.fld (oCnt r.target) cnt_VALUE + r.value.toNat) % 2 ^ 32 ∧
      (Tab.get [] s.c.cntHist r.target = [] → t.c.fld (oCnt r.target) cnt_LAST_SRC = 1 ∧ t.c.fld (oCnt r.target) cnt_REL_SCOPE = r.scope) ∧
      (∀ o, o ≠ oCnt r.target → t.c.reg o = s.c.reg o) ∧ (∀ m, m ≠ n → t.c.seq m = s.c.seq m) ∧ t.banks = s.banks ∧ t.pending = s.pending) ∧
    (∀ (u : Curtain) (p : Participant), r.x ≤ s.c.ec → r.kind = .curtainEntry → s.c.fld (oCurCfg r.target) curCfg_EXPECT ≠ 0 →
      u = (s.c.curSettle r.target r.x).curtain r.target → p = u.part n → p.state = .out →
      ∃ t, exec (.releaseApply n) s = .next t ∧ (t.c.seq n).releases = rest ∧ (t.c.curtain r.target).part n = { p with state := .entered } ∧
        ((t.c.curtain r.target).round p.parity).own = (u.round p.parity).own + 1 ∧
        ((t.c.curtain r.target).round p.parity).scope = min (u.round p.parity).scope r.scope ∧
        (∀ m, m ≠ n → (t.c.curtain r.target).part m = u.part m ∧ t.c.seq m = s.c.seq m) ∧ (∀ k, k ≠ r.target → t.c.curtain k = s.c.curtain k) ∧
        t.c.regs = s.c.regs ∧ t.banks = s.banks ∧ t.pending = s.pending) ∧
    (∀ x, r.x ≤ s.c.ec → r.kind = .streamStart → x = r.target → x < 16384 → s.c.startCode x true = 0 → s.c.cx x strCtx_OSET = 0 → s.c.cx x strCtx_DIR ≠ 2 →
      ∃ t, exec (.releaseApply n) s = .next t ∧ (t.c.seq n).releases = rest ∧ t.c.cx x strCtx_STATE = 2 ∧ t.c.cx x strCtx_STATUS = 0 ∧
        t.c.cx x strCtx_ISSUED = 0 ∧ t.c.cx x strCtx_COUNTED = 0 ∧ t.c.cx x strCtx_OUTST = 0 ∧ (t.c.ctx x).startBc = 2 * (r.x + 2) ∧
        (∀ o, o ≠ oStrCtx x → o ≠ oStrCtx x + 48 → o ≠ oStrCtx x + 56 → t.c.reg o = s.c.reg o) ∧ (∀ y, y ≠ x → t.c.ctx y = s.c.ctx y) ∧
        t.banks = s.banks ∧ t.pending = s.pending)

/-- CNT_ADD and CNT_LOAD with the low half enabled, on a counter without a recent change: the sum modulo 2^32, with source 4 and scope block (2), or the
value loaded, with source 5 and scope block. An add adds whatever changed recently; a load of a bound counter is refused: it is reported and counted in
MIO_SYNC_STAT. No other register changes. A change is applied in ec x: an observer of a later ec sees it, one of ec x or before does not (R161, R165). -/
def counterAddAndLoadRule : Prop :=
  ∀ (s : State) (i : Nat) (be : BitVec 2) (v : Word), s.accepting → i < 4096 → be.getLsbD 0 = true →
    (∃ t, exec (.cntAdd i be v) s = .next t ∧ t = s.wrote (.cntAdd i be v) { s.c with regs := t.c.regs, cntHist := t.c.cntHist } ∧
      t.c.fld (oCnt i) cnt_VALUE = (s.c.fld (oCnt i) cnt_VALUE + v.toNat % 2 ^ 32) % 2 ^ 32 ∧ (∀ o, o ≠ oCnt i → t.c.reg o = s.c.reg o) ∧
      (Tab.get [] s.c.cntHist i = [] → t.c.fld (oCnt i) cnt_LAST_SRC = 4 ∧ t.c.fld (oCnt i) cnt_REL_SCOPE = 2)) ∧
    (s.c.bound i = false → Tab.get [] s.c.cntHist i = [] →
      ∃ t, exec (.cntLoad i be v) s = .next t ∧ t = s.wrote (.cntLoad i be v) { s.c with regs := t.c.regs, cntHist := t.c.cntHist } ∧
        t.c.fld (oCnt i) cnt_VALUE = v.toNat % 2 ^ 32 ∧ t.c.fld (oCnt i) cnt_LAST_SRC = 5 ∧ t.c.fld (oCnt i) cnt_REL_SCOPE = 2 ∧
        (∀ o, o ≠ oCnt i → t.c.reg o = s.c.reg o)) ∧
    (s.c.bound i = true → ∃ t nn, exec (.cntLoad i be v) s = .next t ∧ t = s.wrote (.cntLoad i be v) { s.c with regs := t.c.regs, notes := nn } ∧
      t.c.fld oSyncStat syncStat_LOAD_REFUSED = 1 ∧ t.c.fld oSyncStat syncStat_LOAD_CNT_NO = i ∧
      t.c.fld oSyncStat syncStat_REFUSALS = min (s.c.fld oSyncStat syncStat_REFUSALS + 1) 0xFFFF ∧ (∀ o, o ≠ oSyncStat → t.c.reg o = s.c.reg o)) ∧
    (∀ (x y rank amount scope : Nat), rank ≠ 5 → s.c.ec ≤ y + 64 →
      (s.c.cntChange i x rank amount scope).cntAt i y = if y ≤ x then s.c.cntAt i y else (s.c.cntAt i y + amount) % 2 ^ 32)

/-- Releases apply in order; counter add and load: releaseAppliesInOrderRule, counterAddAndLoadRule. -/
def Obligations.ReleasesAndCounters : Prop := releaseAppliesInOrderRule ∧ counterAddAndLoadRule

/-- The watchdog of a group with an overdue WAITING sequencer, that has no start decision and is not ready for one in this ec, halts every WAITING sequencer
of the group, and files a hang report with reason WATCHDOG, the group and its lowest-numbered overdue sequencer where none is held. A stalled access
at the limit of 2^TAGSTALL_EXP bc is reported once, with reason TAG_STALL, its group, granule and class. Each raises source 11 (R169, R177, R178; in safe state too: log entry 82). -/
def hangsAreReportedRule : Prop :=
  (∀ (s : State) (g n : Nat) (l : List Nat), s.live → g < 32 → (s.c.groupSample g s.c.ec).overdue g = n :: l → (s.c.group g).decided = none →
    ((s.c.groupSample g s.c.ec).group g).ready = none → s.c.fld oHangHdr hangHdr_VALID = 0 →
    ∃ t, exec (.watchdogExpiry g) s = .next t ∧ t.banks = s.banks ∧
      (∀ m ∈ s.c.members g, (s.c.seq m).state = .waiting → (t.c.seq m).state = .halted) ∧
      (∀ m, m ∉ s.c.members g → t.c.seq m = s.c.seq m) ∧
      t.c.fld oHangHdr hangHdr_VALID = 1 ∧ t.c.fld oHangHdr hangHdr_REASON = 1 ∧ t.c.fld oHangHdr hangHdr_GROUP = g ∧
      t.c.fld oHangHdr hangHdr_SEQ = n ∧ t.c.fld (oFltCnt 11) fltCnt_COUNT = min (s.c.fld (oFltCnt 11) fltCnt_COUNT + 1) 0xFFFFFFFF) ∧
  (∀ (s : State) (id b : Nat) (a : AReq), s.live → s.c.reqOf id = some a → a.stall = some b → a.reported = false →
    s.c.fld oSyncCfg syncCfg_TAGSTALL_EXP ≠ 0 → b + 2 ^ s.c.fld oSyncCfg syncCfg_TAGSTALL_EXP ≤ s.c.bc →
    s.c.fld oHangHdr hangHdr_VALID = 0 → a.group < 32 →
    ∃ t, exec (.tagStallLimit id) s = .next t ∧ t.banks = s.banks ∧ (∃ a', t.c.reqOf id = some a' ∧ a' = { a with reported := true }) ∧
      t.c.fld oHangHdr hangHdr_VALID = 1 ∧ t.c.fld oHangHdr hangHdr_REASON = 2 ∧ t.c.fld oHangHdr hangHdr_GROUP = a.group ∧
      t.c.fld oHangTag hangTag_GI = a.gi % 2 ^ 27 ∧ t.c.fld oHangTag hangTag_CLASS = reqClass a.req ∧
      t.c.fld (oFltCnt 11) fltCnt_COUNT = min (s.c.fld (oFltCnt 11) fltCnt_COUNT + 1) 0xFFFFFFFF)

/-- The pwr_lend bit of a sequencer rises once it has been parked for LEND_THRESH ec with nothing in flight and no start of its group decided; nothing else
changes (R179). -/
def lendAssertsRule : Prop :=
  ∀ (s : State) (n : Nat), s.live → n < 104 → s.c.fld oSyncCfg syncCfg_LEND_THRESH ≠ 0 → (s.c.seq n).idle s.c.ec = true →
    s.c.fld oSyncCfg syncCfg_LEND_THRESH ≤ s.c.ec - (s.c.seq n).parkedSince → (s.c.group (s.c.groupOf n)).decided = none →
    exec (.lendAssert n) s = .next (s.units (s.c.setSeq n { s.c.seq n with lend := true, lendOff := none }))

/-- Watchdog, tag stall and hang reports; pwr_lend: hangsAreReportedRule, lendAssertsRule. -/
def Obligations.HangsAndLending : Prop := hangsAreReportedRule ∧ lendAssertsRule

/-! ### Curtains (R170 to R175, R212) -/

/-- A control packet of one header whose granule decodes without an error comes to an enabled link port that takes part in what arrives, with an
empty receive buffer, outside safe state. -/
def CleanHeader (s : State) (port : Nat) (header : Granule) (h : Nat) : Prop :=
  s.working ∧ port < 16 ∧ s.c.hears port = true ∧ (s.c.link port).inbox = [] ∧ s.c.linkEnabled port = true ∧
    (decodeG false header).fixed = 0 ∧ hdrData port header = some h

/-- What a control packet leaves of its own: its one beat is owed as a credit, and the receiver discards no more, but for the rest of a refused packet between
whose beats it came (R207, R209, R212). -/
def AfterHeader (s : State) (port : Nat) : Ctl := (s.c.setSkip port (if (s.c.link port).skip = .packet then .packet else .nothing)).creditBack port 1

/-- CUR_ARRIVE of the configured epoch from a child of the tree adds its count to the children's count of its round and narrows the scope.
At the end of an ec in which the count of a round has grown to EXPECT, and no further, the root releases the round: every participant ENTERED at
the parity is LATCHED in that ec, and the round starts anew. CUR_RELEASE of the configured epoch from the parent is noted for the ec after its acceptance,
at whose end it releases the round in the same way. A release records its scope and parity in MIO_CUR_STAT. A packet of another epoch or port only
counts as STALE; the first event of the curtain is recorded with its port (R172 to R174; that rounds are evaluated at the end of an ec is log entry 118). -/
def curtainPacketsRule : Prop :=
  (∀ (s : State) (port h k : Nat) (header : Granule) (r : CurRound), CleanHeader s port header h → k = hCurtain h →
    r = (s.c.curtain k).round (hParity h) →
    (hKind h = 3 → hEpoch h = s.c.fld (oCurCfg k) curCfg_EPOCH → Nat.testBit (s.c.fld (oCurCfg k) curCfg_CHILD_MASK) port = true →
      exec (.curArrive port (ctlBeat header)) s = .next (s.units ((AfterHeader s port).setCurtain k
        ((s.c.curtain k).setRound (hParity h) { r with child := r.child + hCount h, scope := min r.scope (hScope h), grown := some s.c.ec })))) ∧
    (hKind h = 4 → hEpoch h = s.c.fld (oCurCfg k) curCfg_EPOCH → port = s.c.fld (oCurCfg k) curCfg_PARENT →
      exec (.curRelease port (ctlBeat header)) s = .next (s.units ((AfterHeader s port).setCurtain k
        { s.c.curtain k with rel := (s.c.curtain k).rel ++ [(hParity h, hScope h, s.c.ec + 1)] }))) ∧
    (∀ i, (hKind h = 3 ∧ i = Instr.curArrive port (ctlBeat header) ∧
          (hEpoch h ≠ s.c.fld (oCurCfg k) curCfg_EPOCH ∨ Nat.testBit (s.c.fld (oCurCfg k) curCfg_CHILD_MASK) port = false)) ∨
        (hKind h = 4 ∧ i = Instr.curRelease port (ctlBeat header) ∧
          (hEpoch h ≠ s.c.fld (oCurCfg k) curCfg_EPOCH ∨ port ≠ s.c.fld (oCurCfg k) curCfg_PARENT)) →
      ∃ t, exec i s = .next t ∧ t.banks = s.banks ∧ t.pending = s.pending ∧ (∀ m, t.c.curtain m = s.c.curtain m) ∧
        t.c.fld (oCurStat k) curStat_STALE_CNT = min (s.c.fld (oCurStat k) curStat_STALE_CNT + 1) 0x3FF ∧
        t.c.fld (oCurStat k) curStat_EVENT = 1 ∧ (s.c.fld (oCurStat k) curStat_EVENT = 0 → t.c.fld (oCurStat k) curStat_KIND = 3 ∧
          t.c.fld (oCurStat k) curStat_WHO = port) ∧ (∀ o, o ≠ oCurStat k → t.c.reg o = s.c.reg o))) ∧
  (∀ (c c' : Ctl) (k e : Nat) (p : Bool) (r : CurRound), k < 64 → r = (c.curtain k).round p → c.fld (oCurCfg k) curCfg_EXPECT ≠ 0 →
    r.total = c.fld (oCurCfg k) curCfg_EXPECT → c.fld (oCurCfg k) curCfg_PARENT = 16 → r.scope < 4 → c' = c.curGrown k p e →
    (c'.curtain k).round p = {} ∧ (c'.curtain k).round (!p) = (c.curtain k).round (!p) ∧ (c'.curtain k).parts = latchAll p e (c.curtain k).parts ∧
      c'.fld (oCurStat k) curStat_REL_SCOPE = r.scope ∧ c'.fld (oCurStat k) curStat_LAST_PARITY = p.toNat ∧ (∀ m, m ≠ k → c'.curtain m = c.curtain m)) ∧
  (∀ (c c' : Ctl) (k e sc : Nat) (p : Bool), k < 64 → c.blackout = false → (c.curtain k).round0.grown = none → (c.curtain k).round1.grown = none →
    (c.curtain k).rel = [(p, sc, e)] → sc < 4 → c' = c.curEnd k →
    (c.ec < e → ∀ m, c'.curtain m = c.curtain m) ∧
    (e ≤ c.ec → (c'.curtain k).round p = {} ∧ (c'.curtain k).round (!p) = (c.curtain k).round (!p) ∧ (c'.curtain k).rel = [] ∧
      (c'.curtain k).parts = latchAll p e (c.curtain k).parts ∧ c'.fld (oCurStat k) curStat_REL_SCOPE = sc ∧
      c'.fld (oCurStat k) curStat_LAST_PARITY = p.toNat ∧ (∀ m, m ≠ k → c'.curtain m = c.curtain m)))

/-- CURTAIN_RESET clears rounds, participants and releases of a curtain, and CURTAIN_CFG_WRITE, of a curtain that is idle and with a PARENT that names a
port or the root, loads the writable fields and sets every participant to OUT(0); entries of streams for a coming ec stay. A configuration
write of a curtain that is not idle, or with another PARENT, only sets BUSY (R175; what of a coming ec stays, log entry 118). -/
def curtainConfigurationRule : Prop :=
  ∀ (s : State) (k : Nat) (be : BitVec 2) (data v : Word) (c : Ctl), s.accepting → k < 64 → be ≠ 0 → v = merge (s.c.reg (oCurCfg k)) be data →
    c = s.c.curSettle k s.c.ec →
    exec (.curtainReset k) s = .next (s.wrote (.curtainReset k) (s.c.setCurtain k { coming := (s.c.curtain k).coming })) ∧
    (c.curIdle k = true → bits v.toNat 16 5 ≤ 16 → exec (.curtainCfgWrite k be data) s =
      .next (s.wrote (.curtainCfgWrite k be data) ((c.setReg (oCurCfg k) (v &&& 0x0000FFFFFF1FFFFF)).setCurtain k { coming := (c.curtain k).coming, rel := (c.curtain k).rel }))) ∧
    (c.curIdle k = false ∨ 16 < bits v.toNat 16 5 → exec (.curtainCfgWrite k be data) s = .next (s.wrote (.curtainCfgWrite k be data) (c.flag (oCurStat k) curStat_BUSY)))

/-- Curtain packets and configuration: curtainPacketsRule, curtainConfigurationRule. -/
def Obligations.CurtainRounds : Prop := curtainPacketsRule ∧ curtainConfigurationRule

/-! ### Stream contexts (R180 to R206) -/

/-- The bits of word `w` of a context that only the block writes (R181). -/
def ctxOwn (w : Nat) : Word :=
  if w = 0 then 0xBFF000000001FFFF else if w = 4 then 0x0000000080000000 else if w = 6 then 0xFFFFFFFF00000000 else if w = 7 then 0xFFFFFFFFFFFFFFFF else 0

/-- CTX_WRITE of a word of an IDLE context loads the enabled bits that software writes, and no other bit or register; of a context in another state it only
sets CFG_REFUSED; where it enables no bit that software writes, it changes nothing (R181). -/
def contextWordWritesRule : Prop :=
  ∀ (s : State) (x w : Nat) (be : BitVec 2) (data old : Word), s.accepting → x < 16384 → w < 8 → be ≠ 0 → old = s.c.reg (oStrCtx x + 8 * w) →
    (beMask be &&& ~~~ ctxOwn w ≠ 0 → s.c.ctxState x = 0 → exec (.ctxWrite x w be data) s = .next (s.wrote (.ctxWrite x w be data)
      (s.c.setReg (oStrCtx x + 8 * w) ((merge old be data &&& ~~~ ctxOwn w) ||| (old &&& ctxOwn w))))) ∧
    (beMask be &&& ~~~ ctxOwn w ≠ 0 → s.c.ctxState x ≠ 0 → exec (.ctxWrite x w be data) s = .next (s.wrote (.ctxWrite x w be data) (s.c.flag oStrStat strStat_CFG_REFUSED))) ∧
    (beMask be &&& ~~~ ctxOwn w = 0 → exec (.ctxWrite x w be data) s = .next (s.wrote (.ctxWrite x w be data) s.c))

/-- ARM of an IDLE context forms its trigger target and leaves it ARMED, sampled from the next cc on; DISARM of an ARMED and CANCEL of an ARMED or RUNNING
context are noted for the end of the cc (log entry 85): the context is then IDLE (of a CANCEL: with status DRAINED), or, cancelled while RUNNING outside
ordered sets, drains; CLEAR of a HALTED context leaves it IDLE. A DISARM after the trigger was met in the cc, and a CANCEL after a natural completion
in the cc, are LATE (2). In any other state a command only shows the result REFUSED (1). MIO_STR_CMD_STAT shows each (R186, R199, R201, R203). -/
def contextCommandsRule : Prop :=
  (∀ (s : State) (x : Nat), s.accepting → x < 16384 →
    (s.c.ctxState x = 0 → exec (.arm x) s = .next (s.wrote (.arm x)
      ((((s.c.cmdShow x 1 0).setFld (oStrCtx x) strCtx_TRIG_TARGET ((if s.c.cx x strCtx_TRIG_REL = 1 then s.c.cx x strCtx_TRIG_TARGET else 0) + s.c.cx x strCtx_TRIG_VALUE)).setFld
        (oStrCtx x) strCtx_STATE 1).setCtx x { armedAt := 4 * (s.c.cc + 1) }))) ∧
    (s.c.ctxState x = 1 → (s.c.ctx x).trigCc ≠ some s.c.cc →
      exec (.disarm x) s = .next (s.wrote (.disarm x) ((s.c.cmdShow x 2 0).setCtx x { s.c.ctx x with disarmAt := some (4 * (s.c.cc + 1)) }))) ∧
    (s.c.ctxState x = 1 ∨ s.c.ctxState x = 2 → (s.c.ctx x).doneCc ≠ some s.c.cc →
      exec (.cancel x) s = .next (s.wrote (.cancel x) ((s.c.cmdShow x 3 0).setCtx x { s.c.ctx x with cancelAt := some (4 * (s.c.cc + 1)) }))) ∧
    (s.c.ctxState x = 4 → exec (.clear x) s = .next (s.wrote (.clear x) ((s.c.cmdShow x 4 0).setFld (oStrCtx x) strCtx_STATE 0))) ∧
    ((s.c.ctx x).trigCc = some s.c.cc → exec (.disarm x) s = .next (s.wrote (.disarm x) (s.c.cmdShow x 2 2))) ∧
    ((s.c.ctx x).doneCc = some s.c.cc → exec (.cancel x) s = .next (s.wrote (.cancel x) (s.c.cmdShow x 3 2))) ∧
    (s.c.ctxState x ≠ 0 → exec (.arm x) s = .next (s.wrote (.arm x) (s.c.cmdShow x 1 1))) ∧
    (s.c.ctxState x ≠ 1 → (s.c.ctx x).trigCc ≠ some s.c.cc → exec (.disarm x) s = .next (s.wrote (.disarm x) (s.c.cmdShow x 2 1))) ∧
    (s.c.ctxState x ≠ 1 → s.c.ctxState x ≠ 2 → (s.c.ctx x).doneCc ≠ some s.c.cc → exec (.cancel x) s = .next (s.wrote (.cancel x) (s.c.cmdShow x 3 1))) ∧
    (s.c.ctxState x ≠ 4 → exec (.clear x) s = .next (s.wrote (.clear x) (s.c.cmdShow x 4 1)))) ∧
  (∀ (c c' : Ctl) (x e d : Nat), x < 16384 → d ≤ e → c' = c.ctxSettle x e → (∀ b ∈ c.areqs, b.req < 61) →
    ((c.ctx x).disarmAt = some d → (c.ctx x).cancelAt = none → c.ctxState x = 1 → c'.ctxState x = 0) ∧
    ((c.ctx x).disarmAt = none → (c.ctx x).cancelAt = some d → c.ctxState x = 1 → c'.ctxState x = 0 ∧ c'.cx x strCtx_STATUS = 2) ∧
    ((c.ctx x).disarmAt = none → (c.ctx x).cancelAt = some d → c.ctxState x = 2 → c.cx x strCtx_OSET = 0 → c'.ctxState x = 3 ∧
      (c'.ctx x).drain = some .cancelled))

/-- Context words and commands: contextWordWritesRule, contextCommandsRule. -/
def Obligations.ContextConfiguration : Prop := contextWordWritesRule ∧ contextCommandsRule

/-- TRIGGER_START of an ARMED context, once its counter has reached the target: an accepted start leaves it RUNNING with the fields of R185, and outside
ordered sets and script-store loads, with the trigger recorded at scope block, changes nothing else; a member of an ordered set that has not failed
joins it, and a script-store load shows in MIO_SS_STAT. A refused start ends in IDLE with status REFUSED and is reported; a trigger not met changes nothing
(R155, R183, R185, R186, R197). -/
def Obligations.TriggerStartsTheContext : Prop :=
  ∀ (s : State) (x e : Nat), s.working → x < 16384 → s.c.ctxState x = 1 → e = s.c.ec → (s.c.ctx x).disarmAt = none →
    (reached (s.c.cntAt (s.c.cx x strCtx_TRIG_CNT) e) (s.c.cx x strCtx_TRIG_TARGET) = false ∨ e < (s.c.ctx x).armedAt → exec (.triggerStart x) s = .next s) ∧
    (reached (s.c.cntAt (s.c.cx x strCtx_TRIG_CNT) e) (s.c.cx x strCtx_TRIG_TARGET) = true → (s.c.ctx x).armedAt ≤ e →
      (s.c.startCode x false = 0 → 2 ≤ s.c.cntScopeAt (s.c.cx x strCtx_TRIG_CNT) e → s.c.cx x strCtx_OSET = 0 → s.c.cx x strCtx_DIR ≠ 2 → ∃ t, exec (.triggerStart x) s = .next t ∧
        t.c.cx x strCtx_STATE = 2 ∧ t.c.cx x strCtx_STATUS = 0 ∧ t.c.cx x strCtx_ISSUED = 0 ∧ t.c.cx x strCtx_COUNTED = 0 ∧
        t.c.cx x strCtx_OUTST = 0 ∧ t.c.cx x strCtx_EPOCH = (s.c.cx x strCtx_EPOCH + 1) % 1024 ∧
        t.c.cx x strCtx_CREDIT_START = s.c.cntAt (s.c.cx x strCtx_CREDIT_CNT) e % 2 ^ 32 ∧
        t.c.ctx x = { startBc := 2 * (e + 2), movedCc := e / 4, cancelAt := (s.c.ctx x).cancelAt, trigCc := some s.c.cc, doneCc := (s.c.ctx x).doneCc } ∧
        (∀ o, o ≠ oStrCtx x → o ≠ oStrCtx x + 48 → o ≠ oStrCtx x + 56 → t.c.reg o = s.c.reg o) ∧ (∀ y, y ≠ x → t.c.ctx y = s.c.ctx y) ∧
        t = s.units { s.c with regs := t.c.regs, ctxs := t.c.ctxs }) ∧
      (∀ c, c = s.c.scopeEvent (s.c.cntScopeAt (s.c.cx x strCtx_TRIG_CNT) e) 2 0 (s.c.cx x strCtx_TRIG_CNT) 1 x → c.startCode x false = 0 →
        (c.oset (c.cx x strCtx_OSET)).failed = none → ∃ t, exec (.triggerStart x) s = .next t ∧ t.c.cx x strCtx_STATE = 2 ∧ t.c.cx x strCtx_STATUS = 0 ∧
        t.c.cx x strCtx_ISSUED = 0 ∧ t.c.cx x strCtx_COUNTED = 0 ∧ (t.c.ctx x).startBc = 2 * (e + 2) ∧
        (s.c.cx x strCtx_OSET ≠ 0 → x ∈ (t.c.oset (s.c.cx x strCtx_OSET)).started) ∧
        (s.c.cx x strCtx_DIR = 2 → t.c.loading (s.c.cxHalf x) = true) ∧ t.banks = s.banks ∧ t.pending = s.pending) ∧
      (∀ k, s.c.startCode x false = k → 1 < k → 2 ≤ s.c.cntScopeAt (s.c.cx x strCtx_TRIG_CNT) e → ∃ t, exec (.triggerStart x) s = .next t ∧ t.c.cx x strCtx_STATE = 0 ∧ t.c.cx x strCtx_STATUS = 3 ∧
        t.c.fld oStrStat strStat_REFUSED = 1 ∧ t.c.fld oStrStat strStat_REF_CTX = x ∧ t.c.fld oStrStat strStat_REF_CODE = k ∧
        t.c.fld oStrStat strStat_REFUSALS = min (s.c.fld oStrStat strStat_REFUSALS + 1) 0xFFFF ∧
        t.c.fld (oFltCnt 14) fltCnt_COUNT = min (s.c.fld (oFltCnt 14) fltCnt_COUNT + 1) 0xFFFFFFFF ∧
        (∀ y, y ≠ x → t.c.ctx y = s.c.ctx y) ∧ t.c.seqs = s.c.seqs ∧ t.banks = s.banks))

/-- DRAIN_COMPLETE: a draining context with nothing in flight ends, HALTED with the status of its cause after a halt, IDLE with status DRAINED after a
CANCEL, IDLE with status KILLED after a kill, and the granules issued and not counted in MIO_STR_CMD_STAT. While something is in
flight nothing changes. A member leaves its ordered set by it; a context outside sets that loads no script store changes nothing else (R198, R201, R202, R204). -/
def drainCompletesRule : Prop :=
  ∀ (s : State) (x : Nat) (d : DrainTo), s.working → x < 16384 → s.c.ctxState x = 3 → s.c.cx x strCtx_DIR ≠ 2 ∨ s.c.waiters (s.c.cxHalf x) = [] →
    (s.c.ctx x).drain = some d →
    (s.c.ctxIdle x = false → exec (.drainComplete x) s = .next s) ∧
    (s.c.ctxIdle x = true → ∃ t, exec (.drainComplete x) s = .next t ∧ t.c.ctx x = {} ∧
      t.c.cx x strCtx_STATE = (match d with | .halted _ => 4 | _ => 0) ∧
      t.c.cx x strCtx_STATUS = (match d with | .cancelled => 2 | .killed => 8 | .halted st => st.toNat) ∧
      t.c.fld oStrCmdStat strCmdStat_DRAIN_CNT = s.c.cx x strCtx_ISSUED - s.c.cx x strCtx_COUNTED ∧ t.banks = s.banks ∧ t.pending = s.pending ∧
      (∀ y, y ≠ x → t.c.ctx y = s.c.ctx y) ∧ (s.c.cx x strCtx_DIR = 2 → t.c.loading (s.c.cxHalf x) = false) ∧
      (s.c.cx x strCtx_OSET ≠ 0 → x ∈ (s.c.oset (s.c.cx x strCtx_OSET)).started →
        x ∈ (t.c.oset (s.c.cx x strCtx_OSET)).ended ∨ t.c.oset (s.c.cx x strCtx_OSET) = {})) ∧
    (s.c.ctxIdle x = true → s.c.cx x strCtx_OSET = 0 → s.c.cx x strCtx_DIR ≠ 2 → ∃ t, exec (.drainComplete x) s = .next t ∧
      (∀ o, o ≠ oStrCtx x → o ≠ oStrCmdStat → t.c.reg o = s.c.reg o) ∧ t = s.units { s.c with regs := t.c.regs, ctxs := t.c.ctxs })

/-- CONTEXT_LATE: a context is LATE once its oldest request has been outstanding for 2^LATE_EXP bc, and not before. OSET_ROUND_APPLY of a complete ordered
set presents the reads of its contributions in ascending context, request and destination. DEADLOCK_DETECT of a wait set, not reported before, whose
members have all stood for 2^DL_EXP cc without credit for what they have still to issue fills an empty report with the set and the number of members, and raises
source 15; it changes no context (R189, R197, R206). -/
def lateSetsAndDeadlocksRule : Prop :=
  (∀ (s : State) (x : Nat) (g : StackTag), s.working → x < 16384 → s.c.oldestTag x = some g →
    exec (.contextLate x) s = .next (if g.useBc + 2 ^ s.c.fld oStrCfg strCfg_LATE_EXP ≤ s.c.bc
      then s.units (s.c.setCtx x { s.c.ctx x with late := true }) else s)) ∧
  (∀ (s : State) (k : Nat), s.working → 1 ≤ k → k < 16 → s.c.osetComplete k = true → ∃ t new, exec (.osetRoundApply k) s = .next t ∧
    t.c.oset k = { s.c.oset k with applying := true } ∧ t.c.areqs = s.c.areqs ++ new ∧
    new.map AReq.kind = (s.c.liveCtxs.filter fun x => (s.c.oset k).started.contains x).flatMap
      (fun x => (sortHeld (s.c.ctx x).osetHeld).map fun h => AKind.osetRead x h.2.1) ∧
    (∀ a ∈ new, a.since = s.c.bc ∧ a.write = false ∧ a.second = none) ∧
    t = s.units { s.c with osets := t.c.osets, areqs := t.c.areqs, nextReq := t.c.nextReq }) ∧
  (∀ (s : State) (w e : Nat), s.working → 0 < w → w < 64 → e = s.c.fld oStrCfg strCfg_DL_EXP → e ≠ 0 → s.c.waitSet w ≠ [] →
    (∀ x ∈ s.c.waitSet w, s.c.cx x strCtx_ISSUED < s.c.cx x strCtx_LEN ∧ s.c.creditOk x s.c.ec = false ∧ s.c.stillSince x + 2 ^ e ≤ s.c.cc) →
    Tab.get 0 s.c.dlTold w = 0 → s.c.fld oDlHdr dlHdr_VALID = 0 →
    ∃ t, exec (.deadlockDetect w) s = .next t ∧ t.banks = s.banks ∧ t.c.fld oDlHdr dlHdr_VALID = 1 ∧ t.c.fld oDlHdr dlHdr_WSET = w ∧
      t.c.fld oDlHdr dlHdr_MEM_COUNT = min 32 (s.c.waitSet w).length ∧
      t.c.fld (oFltCnt 15) fltCnt_COUNT = min (s.c.fld (oFltCnt 15) fltCnt_COUNT + 1) 0xFFFFFFFF ∧
      Tab.get 0 t.c.dlTold w = s.c.cc + 1 ∧ (∀ y, t.c.ctx y = s.c.ctx y) ∧ (∀ y, t.c.seq y = s.c.seq y))

/-- Drains, late sets and deadlocks: drainCompletesRule, lateSetsAndDeadlocksRule. -/
def Obligations.ContextEndsAndDeadlocks : Prop := drainCompletesRule ∧ lateSetsAndDeadlocksRule

/-! ### Stack ports and landings (R50 to R62, R187 to R194) -/

/-- STREAM_REQUEST_ISSUE on a port with no request presented and no hash request due: the next request of the selected context is presented with a tag that is free, its
address, length and direction; ISSUED grows by its granules and OUTST by one. It transfers in a bc in which the port is ready: its tag
is in use from that bc, and a SPILL presents the reads of its source granules. Until then it stays presented as it is. A hash request that is due goes out
before those of contexts (R50, R51, R187, R188, R193, R286; that ISSUED and OUTST count from the presentation on, and a SPILL's reads from the transfer, is log entry 90). -/
def stackRequestTransfersRule : Prop :=
  (∀ (s : State) (n tag x m : Nat) (ready : Bool), s.working → n < 24 → tag < 2048 → (s.c.sport n).shown = none → s.c.portIssues n = true →
    (∀ u ∈ (s.c.sport n).tags, u.tag ≠ tag) → tag ∉ (s.c.sport n).quar → s.c.hashDue n = none → s.c.select n = some x → s.c.osetOver x = false →
    m = s.c.nextLen x → s.c.cx x strCtx_SPORT = n →
    ∃ (t : State) (new : List AReq) (u : StackTag), exec (.streamRequestIssue n tag ready) s = .next t ∧ t.banks = s.banks ∧ t.c.areqs = s.c.areqs ++ new ∧
      (t.c.sout n).reqValid = true ∧ (t.c.sout n).tag = BitVec.ofNat 11 tag ∧ (t.c.sout n).len = BitVec.ofNat 7 (max 2 m - 1) ∧
      (t.c.sout n).write = decide (s.c.cx x strCtx_DIR = 1) ∧
      (t.c.sout n).gaddr = BitVec.ofNat 36 ((s.c.cx x strCtx_SADDR + s.c.cx x strCtx_ISSUED) % 2 ^ 36 -
        (if m = 1 ∧ (s.c.cx x strCtx_SADDR + s.c.cx x strCtx_ISSUED) % 2 ^ 36 % 128 = 127 then 1 else 0)) ∧
      t.c.cx x strCtx_ISSUED = (s.c.cx x strCtx_ISSUED + m) % 2 ^ 32 ∧ t.c.cx x strCtx_OUTST = (s.c.cx x strCtx_OUTST + 1) % 2 ^ 10 ∧
      u.tag = tag ∧ u.ctx = x ∧ u.from_ = s.c.cx x strCtx_ISSUED ∧ u.n = m ∧ u.useBc = s.c.bc ∧ u.total = max 2 m ∧
      (ready = true → (t.c.sport n).shown = none ∧ (t.c.sport n).tags = (s.c.sport n).tags ++ [u]) ∧
      (ready = false → (t.c.sport n).shown = some u ∧ (t.c.sport n).tags = (s.c.sport n).tags) ∧
      (s.c.cx x strCtx_DIR ≠ 1 ∨ ready = false → new = []) ∧
      (s.c.cx x strCtx_DIR = 1 → ready = true → new.map AReq.kind = (List.range m).map fun i => AKind.spillRead x (s.c.cx x strCtx_ISSUED + i)) ∧
      (∀ k, k ≠ n → t.c.sport k = s.c.sport k)) ∧
  (∀ (s : State) (n tag : Nat) (u : StackTag), s.working → n < 24 → tag < 2048 → (s.c.sport n).shown = some u →
    exec (.streamRequestIssue n tag false) s = .next s ∧
    ((s.c.sport n).issueBc ≠ some s.c.bc → ∃ (t : State) (new : List AReq), exec (.streamRequestIssue n tag true) s = .next t ∧ t.banks = s.banks ∧
      t.c.areqs = s.c.areqs ++ new ∧ t.c.sOut = s.c.sOut ∧ (t.c.sport n).shown = none ∧
      (t.c.sport n).tags = (s.c.sport n).tags ++ [{ u with useBc := s.c.bc }] ∧ (∀ x, t.c.ctx x = s.c.ctx x) ∧
      (u.write = false → new = [] ∧ (t.c.sport n).bursts = (s.c.sport n).bursts) ∧
      (u.write = true → u.sys = none → (t.c.sport n).bursts = (s.c.sport n).bursts ++ [{ tag := u.tag, n := u.n }] ∧
        new.map AReq.kind = (List.range u.n).map fun i => AKind.spillRead u.ctx (u.from_ + i)) ∧
      (∀ k, k ≠ n → t.c.sport k = s.c.sport k))) ∧
  (∀ (s : State) (n tag : Nat) (y : SysNext), s.working → n < 24 → tag < 2048 → (s.c.sport n).shown = none → s.c.portReady n = true →
    (∀ u ∈ (s.c.sport n).tags, u.tag ≠ tag) → tag ∉ (s.c.sport n).quar → s.c.hashDue n = some y →
    ∃ (t : State) (u : StackTag), exec (.streamRequestIssue n tag false) s = .next t ∧ t.banks = s.banks ∧ (t.c.sport n).shown = some u ∧
      u.tag = tag ∧ u.sys = some y.sys ∧ u.from_ = y.first ∧ u.n = y.n ∧ (t.c.sport n).tags = (s.c.sport n).tags ∧
      (t.c.sout n).reqValid = true ∧ (t.c.sout n).gaddr = BitVec.ofNat 36 y.gaddr ∧ (t.c.sout n).len = BitVec.ofNat 7 (max 2 y.n - 1) ∧
      (∀ k, k ≠ n → t.c.sport k = s.c.sport k) ∧ (∀ x, t.c.ctx x = s.c.ctx x))

/-- STACK_WRITE_BEAT: with no beat presented, the next beat of the oldest burst is presented once its granules, up to 32, have been read; it transfers in a bc
in which the port is ready, at once or later, and the last beat ends the burst. Until then it stays presented. While a granule of it is
missing, nothing changes (R50, R52). -/
def stackWriteBeatCarriesGranulesRule : Prop :=
  ∀ (s : State) (n m : Nat) (ready : Bool) (u : WriteBurst) (rest left : List WriteBurst) (o : StackOut), s.working → n < 24 →
    (s.c.sport n).removed = false → (s.c.sport n).bursts = u :: rest → m = min 32 (u.n - u.sent) → (s.c.sport n).beatBc ≠ some s.c.bc →
    left = (if u.sent + m = u.n then rest else { u with sent := u.sent + m } :: rest) →
    o = { s.c.sout n with wdValid := true, wdData := (List.range m).map (fun i => Tab.get 0 u.data (u.sent + i)), wdLanes := BitVec.ofNat 32 (2 ^ m - 1),
                          wdLast := decide (u.sent + m = u.n) } →
    ((s.c.sport n).beat = false → (∀ i, i < m → u.data.any (fun e => decide (e.1 = u.sent + i)) = true) →
      ∃ t, exec (.stackWriteBeat n ready) s = .next t ∧ t.c.sout n = o ∧
        t.c.sport n = (if ready then { s.c.sport n with bursts := left, beat := false, beatBc := some s.c.bc }
          else { s.c.sport n with beat := true, beatBc := some s.c.bc }) ∧
        (∀ k, k ≠ n → t.c.sport k = s.c.sport k ∧ t.c.sout k = s.c.sout k) ∧ t = s.units { s.c with sports := t.c.sports, sOut := t.c.sOut }) ∧
    ((s.c.sport n).beat = false → (∃ i, i < m ∧ u.data.any (fun e => decide (e.1 = u.sent + i)) = false) → exec (.stackWriteBeat n ready) s = .next s) ∧
    ((s.c.sport n).beat = true → exec (.stackWriteBeat n ready) s = .next (if ready
      then s.units (s.c.setSport n { s.c.sport n with bursts := left, beat := false, beatBc := some s.c.bc }) else s))

/-- Stack requests and write beats: stackRequestTransfersRule, stackWriteBeatCarriesGranulesRule. -/
def Obligations.StackRequests : Prop := stackRequestTransfersRule ∧ stackWriteBeatCarriesGranulesRule

/-- The granule that lands at `gi` for an arriving one of context `x`, and whether it is at fault: checked under the code of its destination, or of the stack side
that RECODE names; uncorrectable or with rsp_err a poisoned granule; else as it is, recoded, stamped or with the format code of FMT_MODE (R57, R58, R190). -/
def landsAs (c : Ctl) (x gi : Nat) (err : Bool) (g : Granule) : Granule × Bool :=
  let rep := c.repOf gi
  let kind := if c.cx x strCtx_RECODE = 0 then rep else decide (c.cx x strCtx_RECODE = 2)
  let d := decodeG kind g
  let data := gData d.word
  let f := c.cx x strCtx_FMT
  (if err || d.bad then poisonGranule rep
    else if c.cx x strCtx_FMT_MODE = 1 then mkRep data d.pois f
    else if c.cx x strCtx_FMT_MODE = 2 then mkRep data d.pois (if gi % (if f = 2 ∨ f = 5 then 32 else 16) = 0 then 1 else f)
    else if c.cx x strCtx_TAG_STAMP = 1 then mkWorking data d.pois true (c.cx x strCtx_EPOCH)
    else if kind = rep then d.word
    else if rep then mkRep data d.pois 0 else mkWorking data d.pois true 0,
   err || d.bad || d.pois)

/-- A plain FILL that runs, outside ordered sets: the fields of a context whose granules land one for one. -/
def PlainFill (c : Ctl) (n x : Nat) : Prop :=
  x < 16384 ∧ c.ctxState x = 2 ∧ c.cx x strCtx_SPORT = n ∧ c.cx x strCtx_DIR = 0 ∧ c.cx x strCtx_XOP = 0 ∧ c.cx x strCtx_OSET = 0 ∧ c.cx x strCtx_FMT_MODE ≠ 3 ∧
    (c.ctx x).drain = none ∧ (c.ctx x).fail = none ∧ ∀ b ∈ c.areqs, b.party ≠ (0, x)

/-- A beat of a read in order presents the landing of each granule it carries, and the last frees its tag. A granule that is poisoned, uncorrectable or comes
with rsp_err lands poisoned: with POIS_PASS = 1 the context goes on; else the context halts with status POISON at the first such granule, which still
lands, and those behind it do not. A beat with an unknown tag, out of place or with wrong lanes is refused and reported; the last beat of a quarantined tag
frees it (R53 to R58, R190, R199, R202). -/
def stackBeatsLandRule : Prop :=
  ∀ (s : State) (n tag : Nat) (lanes : BitVec 32) (last err : Bool) (data : List Granule), s.working → n < 24 → tag < 2048 → s.c.rspReady n = true →
    ((s.c.sport n).quar.contains tag = true → exec (.stackRspBeat n tag lanes last err data) s =
      .next (s.units (if last then s.c.setSport n { s.c.sport n with quar := (s.c.sport n).quar.filter fun q => decide (q ≠ tag) } else s.c))) ∧
    ((s.c.sport n).quar.contains tag = false → ((s.c.sport n).tags.find? fun t => decide (t.tag = tag) && !t.write) = none →
      ∃ t, exec (.stackRspBeat n tag lanes last err data) s = .next t ∧ t.c.sports = s.c.sports ∧ t.c.areqs = s.c.areqs ∧ t.banks = s.banks ∧
        t.c.fld (oSportStat n) sportStat_LAST_KIND = 1 ∧ t.c.fld (oSportStat n) sportStat_LAST_TAG = tag ∧
        t.c.fld (oSportStat n) sportStat_PROTO_ERR = min (s.c.fld (oSportStat n) sportStat_PROTO_ERR + 1) 0xFFFF ∧
        t.c.fld (oFltCnt 16) fltCnt_COUNT = min (s.c.fld (oFltCnt 16) fltCnt_COUNT + 1) 0xFFFFFFFF) ∧
    (∀ (g : StackTag) (x : Nat), (s.c.sport n).quar.contains tag = false → ((s.c.sport n).tags.find? fun t => decide (t.tag = tag) && !t.write) = some g →
      x = g.ctx →
      (beatKind g lanes.toNat last ≠ 0 → ∃ t, exec (.stackRspBeat n tag lanes last err data) s = .next t ∧ t.c.areqs = s.c.areqs ∧ t.banks = s.banks ∧
        t.c.fld (oSportStat n) sportStat_LAST_KIND = beatKind g lanes.toNat last ∧
        t.c.fld (oSportStat n) sportStat_PROTO_ERR = min (s.c.fld (oSportStat n) sportStat_PROTO_ERR + 1) 0xFFFF ∧
        (t.c.sport n).tags.map (fun u => (u.tag, u.beats)) = (s.c.sport n).tags.map fun u => (u.tag, u.beats)) ∧
      (∀ (count : Nat) (place gi : Nat → Nat) (land : Nat → Granule × Bool), beatKind g lanes.toNat last = 0 → g.sys = none → PlainFill s.c n x → g.skip = 0 → 1 < g.n →
        Nat.testBit (s.c.fld oPertStream pertStream_PORTS) n = false → count = min 32 (g.total - 32 * g.beats) →
        (∀ i, place i = g.from_ + (32 * g.beats + i)) → (∀ i, gi i = s.c.ringGi x (place i)) → (∀ i, land i = landsAs s.c x (gi i) err (data.getD i 0)) →
        ∃ t new, exec (.stackRspBeat n tag lanes last err data) s = .next t ∧ t.banks = s.banks ∧ t.c.areqs = s.c.areqs ++ new ∧
          (∀ a ∈ new, a.since = s.c.bc ∧ a.second = none ∧ a.acc = none) ∧
          (last = true → (∀ u ∈ (t.c.sport n).tags, u.tag ≠ tag) ∧ t.c.cx x strCtx_OUTST = s.c.cx x strCtx_OUTST - 1) ∧
          (s.c.cx x strCtx_POIS_PASS = 1 ∨ (∀ i, i < count → (land i).2 = false) → t.c.ctxState x = 2 ∧
            new.map (fun a => (a.kind, a.gi, a.granule)) = (List.range count).map (fun i => (AKind.streamLand x (place i) (place i), gi i, (land i).1))) ∧
          (∀ f, s.c.cx x strCtx_POIS_PASS = 0 → f < count → (land f).2 = true → (∀ i, i < f → (land i).2 = false) →
            t.c.ctxState x = 3 ∧ (t.c.ctx x).drain = some (.halted 4) ∧ (t.c.ctx x).fail = some (place f) ∧
            new.map (fun a => (a.kind, a.gi, a.granule)) = (List.range (f + 1)).map (fun i => (AKind.streamLand x (place i) (place i), gi i, (land i).1)))))

/-- The acknowledgement of a SPILL request frees its tag and counts its granules; one with err halts the context with status 6 at the
first granule of the request, and so does a time-out with status 5, which also quarantines the tag, and the withdrawal of a presented
request whose port is removed, which does not, and what the port shows falls at the end of that bc (R53, R56, R57, R193, R199, R313; log entry 90). -/
def stackAcksAndTimeoutsRule : Prop :=
  ∀ (s : State) (n tag x : Nat) (g : StackTag), s.working → n < 24 → tag < 2048 → g.tag = tag → g.sys = none → x = g.ctx → x < 16384 → (∀ b ∈ s.c.areqs, b.req < 61) →
    s.c.cx x strCtx_OSET = 0 → s.c.cx x strCtx_XOP = 0 →
    (g.write = true → (s.c.sport n).quar.contains tag = false → ((s.c.sport n).tags.find? fun t => decide (t.tag = tag) && t.write) = some g →
      (s.c.ctxState x = 2 → ∃ t, exec (.stackWack n tag true) s = .next t ∧ t.banks = s.banks ∧ t.c.ctxState x = 3 ∧ (t.c.ctx x).drain = some (.halted 6) ∧
        (t.c.ctx x).fail = some g.from_ ∧ (∀ u ∈ (t.c.sport n).tags, u.tag ≠ tag) ∧ t.c.cx x strCtx_OUTST = s.c.cx x strCtx_OUTST - 1) ∧
      (s.c.ctxState x = 2 → s.c.cx x strCtx_DIR = 1 → (s.c.ctx x).acked = [] → (s.c.ctx x).drain = none → (s.c.ctx x).fail = none →
        s.c.cx x strCtx_COUNTED = g.from_ → 0 < g.n → g.from_ + g.n < s.c.cx x strCtx_LEN →
        ∃ t, exec (.stackWack n tag false) s = .next t ∧ t.banks = s.banks ∧ t.c.ctxState x = 2 ∧ t.c.cx x strCtx_COUNTED = g.from_ + g.n ∧
          t.c.cx x strCtx_OUTST = s.c.cx x strCtx_OUTST - 1 ∧ (∀ u ∈ (t.c.sport n).tags, u.tag ≠ tag) ∧
          t.c.fld (oCnt (s.c.cx x strCtx_ARR_CNT)) cnt_VALUE = (s.c.fld (oCnt (s.c.cx x strCtx_ARR_CNT)) cnt_VALUE + g.n) % 2 ^ 32)) ∧
    (((s.c.sport n).tags.find? fun t => decide (t.tag = tag)) = some g → s.c.ctxState x = 2 → s.c.fld (oSportCfg n) sportCfg_TIMEOUT_EXP ≠ 0 →
      (s.c.bc < g.useBc + 2 ^ s.c.fld (oSportCfg n) sportCfg_TIMEOUT_EXP → exec (.tagTimeout n tag) s = .next s) ∧
      (g.useBc + 2 ^ s.c.fld (oSportCfg n) sportCfg_TIMEOUT_EXP ≤ s.c.bc → ∃ t, exec (.tagTimeout n tag) s = .next t ∧ t.banks = s.banks ∧
        (t.c.sport n).quar = tag :: (s.c.sport n).quar ∧ (∀ u ∈ (t.c.sport n).tags, u.tag ≠ tag) ∧ t.c.ctxState x = 3 ∧
        (t.c.ctx x).drain = some (.halted 5) ∧ (t.c.ctx x).fail = some g.from_ ∧ t.c.fld (oSportStat n) sportStat_LAST_KIND = 5 ∧
        t.c.fld (oSportStat n) sportStat_LAST_TAG = tag ∧
        t.c.fld (oSportStat n) sportStat_TIMEOUTS = min (s.c.fld (oSportStat n) sportStat_TIMEOUTS + 1) 0xFFFF)) ∧
    ((s.c.sport n).removed = false → (s.c.sport n).tags = [] → (s.c.sport n).shown = some g → s.c.ctxState x = 2 → ∀ c, c = s.c.sportRemove n →
      (c.sport n).shown = none ∧ (c.sport n).quar = (s.c.sport n).quar ∧ c.sOut = s.c.sOut ∧ (c.sportsBc.sout n).reqValid = false ∧ (c.sportsBc.sout n).wdValid = false ∧ c.fld (oSportCfg n) sportCfg_ENABLE = 0 ∧ c.ctxState x = 3 ∧
      (c.ctx x).drain = some (.halted 5) ∧ (c.ctx x).fail = some g.from_ ∧ c.cx x strCtx_OUTST = s.c.cx x strCtx_OUTST - 1 ∧
      c.fld (oSportStat n) sportStat_TIMEOUTS = s.c.fld (oSportStat n) sportStat_TIMEOUTS)

/-- Stack read beats, acknowledgements and time-outs: stackBeatsLandRule, stackAcksAndTimeoutsRule. -/
def Obligations.StackResponses : Prop := stackBeatsLandRule ∧ stackAcksAndTimeoutsRule

/-- A stream landing in its slot commits its granule, and the granule that a script-store load lands is in the store; a source
read of a SPILL in its slot puts the formed granule into its write burst and leaves every row (R190, R193, R194). -/
def streamLandingRowsRule : Prop :=
  (∀ (s : State) (id x m d : Nat) (a : AReq) (c : Ctl), s.live → (∀ b ∈ s.c.areqs, b.req < 61) → x < 16384 → s.c.boot.factory = false → s.c.reqOf id = some a → a.kind = .streamLand x m d →
    s.c.slotless a = false → a.second = none → a.acc = none → a.mask = 0xFFFFFFFF → s.c.firstSlot a = some (c, true) →
    (c.ownsAsync a.group a.gi true = true → c.tagChecked a.gi = false → ∃ t, exec (.streamLanding id) s = .next t ∧ Commits s t a.gi a.granule ∧
      t.pending = s.pending) ∧
    (c.ownsAsync a.group a.gi true = false → ∃ t, exec (.streamLanding id) s = .next t ∧ t.banks = s.banks ∧ t.pending = s.pending)) ∧
  (∀ (s : State) (id x m d : Nat) (a : AReq), s.working → s.c.reqOf id = some a → a.kind = .streamLand x m d → s.c.cx x strCtx_DIR = 2 →
    a.acc = none → a.since ≤ s.c.bc → ∃ t, exec (.streamLanding id) s = .next t ∧ t.banks = s.banks ∧
      Tab.get fillGranule t.c.store a.gi = a.granule ∧ (∀ k, k ≠ a.gi → Tab.get fillGranule t.c.store k = Tab.get fillGranule s.c.store k)) ∧
  (∀ (s : State) (id x m : Nat) (a : AReq) (c : Ctl), s.live → (∀ b ∈ s.c.areqs, b.req < 61) → x < 16384 → s.c.reqOf id = some a → a.kind = .spillRead x m → s.c.firstSlot a = some (c, true) →
    (c.dropReq id).ownsAsync a.group a.gi false = true → ∃ t, exec (.spillSourceRead id) s = .next t ∧ t.banks = s.banks ∧ t.c.reqOf id = none ∧
      (t.c.sport a.req).bursts = (s.c.sport a.req).bursts.map (fun u => if u.tag = a.order
        then { u with data := Tab.put (s.c.spillForm x a.gi (decodeG (s.c.repOf a.gi) (rowAt s.banks (s.c.keyOf (s.c.place a.gi))))) a.dest u.data } else u))

/-- The second slot of a partial merge of a stream, a packet or the reorder stage commits the merged granule formed in the first,
and changes no other row (R61). -/
def mergeCommitsInItsSecondSlotRule : Prop :=
  ∀ (s : State) (id e : Nat) (a : AReq) (c : Ctl) (g : Granule), s.live → s.c.boot.factory = false → s.c.reqOf id = some a → a.base.isSome = true →
    a.second = some (e, g) → s.c.secondSlot a = some c →
    ((∃ x m d, a.kind = .streamLand x m d) ∨ (∃ p k, a.kind = .linkLand p k) ∨ (∃ p k, a.kind = .stageApply p k)) →
    ∃ t, exec (.partialMerge id) s = .next t ∧ Commits s t a.gi g ∧ t.pending = s.pending

/-- Stream landings and merges commit: streamLandingRowsRule, mergeCommitsInItsSecondSlotRule. -/
def Obligations.StreamLandingsCommit : Prop := streamLandingRowsRule ∧ mergeCommitsInItsSecondSlotRule

/-! ### Links (R207 to R210) -/

/-- A link that comes up loads its transmit credits, and the rise is noted for the wake source; a returned credit counts up by one (without a CAP in MIO_PERT_LINK).
A link that goes down loses credits, owed returns, the beat under way and the packet that has come in part; what has come whole stays and
gives no credit; the fall of a link port is counted. A packet that it has begun to send is cut and its descriptor, unless journaled, halts
with status 3. An event that finds the link as it would leave it changes nothing (R207, R208, R225; log entry 111). -/
def Obligations.LinkUpDownAndCredits : Prop :=
  ∀ (s : State) (n : Nat), s.working → n ≤ 16 → s.c.fld oPertLink pertLink_CAP = 0 →
    ((s.c.link n).up = false → s.c.boot.phase ≠ .inReset → exec (.linkUp n) s = .next (s.units
      (Ctl.setLink { s.c with power := { s.c.power with rose := if Nat.testBit s.c.power.rose n then s.c.power.rose else s.c.power.rose + 2 ^ n } } n
        { s.c.link n with up := true, credits := if n = 16 then 64 else s.c.fld (oLinkCfg n) linkCfg_TX_CREDITS }))) ∧
    ((s.c.link n).up = true → exec (.linkUp n) s = .next s) ∧
    ((s.c.link n).up = true → exec (.creditReturn n) s = .next (s.units (s.c.setLink n { s.c.link n with credits := (s.c.link n).credits + 1 }))) ∧
    ((s.c.link n).up = false → exec (.creditReturn n) s = .next s ∧ exec (.linkDown n) s = .next s) ∧
    ((s.c.link n).up = true → n < 16 → (∀ d ∈ (s.c.link n).data, d.sent = 0) → ∃ t, exec (.linkDown n) s = .next t ∧
      t.c.link n = { s.c.link n with up := false, credits := 0, beat := none, owed := [], rxCrd := false, skip := .nothing,
                                     inbox := ((s.c.link n).inbox.filter fun p => p.whole.isSome).map fun p => { p with stale := true } } ∧
      t.c.fld (oLinkStat n) linkStat_DOWNS = min (s.c.fld (oLinkStat n) linkStat_DOWNS + 1) 0xFFFF ∧
      (∀ m, m ≠ n → t.c.link m = s.c.link m) ∧ (∀ o, o ≠ oLinkStat n → t.c.reg o = s.c.reg o) ∧
      t = s.units { s.c with regs := t.c.regs, notes := t.c.notes, links := t.c.links }) ∧
    ((s.c.link n).up = true → n = 16 → (∀ d ∈ (s.c.link n).data, d.sent = 0) → ∃ t, exec (.linkDown n) s = .next t ∧
      t.c.link n = { s.c.link n with up := false, credits := 0, beat := none, owed := [], rxCrd := false, skip := .nothing,
                                     inbox := ((s.c.link n).inbox.filter fun p => p.whole.isSome).map fun p => { p with stale := true } } ∧
      (∀ m, m ≠ n → t.c.link m = s.c.link m) ∧ t.banks = s.banks ∧ t.pending = s.pending) ∧
    (∀ (d : TxPkt) (rest : List TxPkt) (e : Nat), (s.c.link n).up = true → n < 16 → (s.c.link n).data = d :: rest → d.sent ≠ 0 →
      (∀ d' ∈ rest, d'.sent = 0) → d.desc = some e → e < 256 → s.c.sdState e = 2 → s.c.sd e lsend_JOURNALED = 0 →
      ∃ t, exec (.linkDown n) s = .next t ∧ t.banks = s.banks ∧ (t.c.link n).up = false ∧ (t.c.link n).credits = 0 ∧
        t.c.sdState e = 3 ∧ t.c.sd e lsend_STATUS = 3)

/-! ### Windows and packets (R211 to R220) -/

/-- What a granule under code kind `rep` becomes at a port's check point (R58, R252). -/
def checked (rep : Bool) (g : Granule) : Granule := if (decodeG rep g).bad then poisonGranule rep else (decodeG rep g).word

/-- OPEN of a window that passes the checks of R214 opens it and clears what a former use left, one that fails reports its code and does nothing;
CLOSE of an OPEN window leaves it CLOSING with nothing held and nothing journaled to land, and the window is CLOSED once no packet
remains; words of a window that is not CLOSED are protected, and a command that does not fit its target reports BAD_CMD (R213 to R215). -/
def Obligations.WindowCommands : Prop :=
  ∀ (s : State) (w : Nat), s.accepting → w < 1024 →
    (s.c.openCode w = 0 → exec (.openWin w) s = .next (s.wrote (.openWin w)
      (((((s.c.winResult 0).setFld (oWin w) win_STATE 1).setWin w {}).dropTracks w).setFld (oInDig w) inDig_VALID 0))) ∧
    (s.c.openCode w ≠ 0 → exec (.openWin w) s = .next (s.wrote (.openWin w) (s.c.winResult (s.c.openCode w)))) ∧
    (s.c.wn w win_STATE ≠ 1 → exec (.closeWin w) s = .next (s.wrote (.closeWin w) (s.c.winResult 1))) ∧
    (s.c.wn w win_STATE = 1 → ∃ t, exec (.closeWin w) s = .next t ∧ t.banks = s.banks ∧ t.c.wn w win_STATE = 2 ∧ t.c.fld oWinCmd winCmd_RESULT = 0 ∧
      (∀ p ∈ t.c.packets, p.window = w → p.phase ≠ .staging ∧ p.phase ≠ .held) ∧ (∀ p ∈ t.c.packets, p ∈ s.c.packets) ∧
      (∀ p ∈ s.c.packets, p.window ≠ w ∨ p.phase = .landing ∨ p.phase = .applying → p ∈ t.c.packets) ∧
      (∀ j ∈ t.c.twin.journal, hWindow j.header = w → j.landed = false → j.landing = false → j.void = true)) ∧
    (s.c.wn w win_STATE = 2 → (∀ p ∈ s.c.packets, p.window ≠ w) →
      exec (.windowClosed w) s = .next (s.units (((s.c.setFld (oWin w) win_STATE 0).setWin w {}).dropTracks w))) ∧
    (s.c.wn w win_STATE = 2 → (∃ p ∈ s.c.packets, p.window = w) → exec (.windowClosed w) s = .next s) ∧
    (∀ (k : Nat) (be : BitVec 2) (v : Word), be ≠ 0 → k < 4 →
      (s.c.wn w win_STATE = 0 ∨ k = 3 → exec (.windowWrite w k be v) s = .next (s.wrote (.windowWrite w k be v) (s.c.setReg (oWin w + 8 * k)
        ((merge (s.c.reg (oWin w + 8 * k)) be v &&& winMask k) ||| (s.c.reg (oWin w + 8 * k) &&& ~~~ winMask k))))) ∧
      (s.c.wn w win_STATE ≠ 0 → k < 3 → exec (.windowWrite w k be v) s = .next (s.wrote (.windowWrite w k be v) (s.c.winResult 1)))) ∧
    (∀ (send : Bool) (cmd : BitVec 3), 6 ≤ cmd.toNat ∨ (send = false ∧ 3 ≤ cmd.toNat ∧ cmd.toNat ≠ 0) ∨ (send = true ∧ (cmd.toNat = 1 ∨ cmd.toNat = 2)) →
      exec (.badCmd w send cmd) s = .next (s.wrote (.badCmd w send cmd) (s.c.winResult 6)))

/-- A header granule that a port hears outside safe state, which decodes without an error, with the receive buffer empty. -/
def HeardHeader (s : State) (port : Nat) (header : Granule) (h : Nat) : Prop :=
  s.working ∧ port ≤ 16 ∧ s.c.hears port = true ∧ (port = 16 → s.c.twinMode ≠ 0) ∧ (s.c.link port).inbox = [] ∧
    (decodeG false header).fixed = 0 ∧ hdrData port header = some h

/-- A packet of which the beats up to number i have come, the first in ec x and that one in ec y (R209). -/
def arrived (P : Packet) (h i x y : Nat) (last : Bool) : RxPkt :=
  { h := h, payload := P.payload.take (8 * i + 7), came := x, whole := if i + 1 = packetBeats P.payload.length then some y else none, last := last }

/-- A packet stands alone and whole in the receive buffer of a port; `x` is the ec of its last beat. -/
def AloneWhole (c : Ctl) (port : Nat) (p : RxPkt) (x : Nat) : Prop :=
  p.held = false ∧ (c.link port).inbox = [p] ∧ p.whole = some x ∧ p.payload.length = hLen p.h ∧ p.stale = false

/-- DATA_PACKET, a beat of a DATA packet of the header's length (log entry 57): the first beat, with a header that decodes without an error and an empty buffer, and each beat after
it put the header's fields and the payload so far into the receive buffer. At the start of the next cc the buffer gives what it can (`rxDrain`; log entry 112): a packet
for a held window stays. Else a whole packet leaves it. One that is not journaled and passes the checks is counted by its window, and the landing of each granule, as
checked, is presented at the granule that BASE and OFFSET give (an ordered one: its writing into the stage). One for a window that is not ordered that fails a check is
refused with its kind and lands nothing; a journaled one that the journal knows is answered DUPLICATE. A first beat whose header R212 refuses is counted as kind HDR,
and nothing of it stays (R209, R212, R216 to R218, R227, R279; log entry 86). -/
def Obligations.DataPacketsLandOrAreRefused : Prop :=
  (∀ (s : State) (port h : Nat) (P : Packet), HeardHeader s port P.header h → hKind h = 1 → P.payload.length = hLen h →
    exec (.dataPacket port (P.beat 0)) s =
      .next (s.units (s.c.setLink port { s.c.link port with inbox := [arrived P h 0 s.c.ec s.c.ec false], skip := .nothing }))) ∧
  (∀ (s : State) (port h i x y : Nat) (P : Packet), s.working → port ≤ 16 → s.c.hears port = true → hKind h = 1 → P.payload.length = hLen h →
    i + 1 < packetBeats P.payload.length → (s.c.link port).inbox = [arrived P h i x y false] → exec (.dataPacket port (P.beat (i + 1))) s =
      .next (s.units (s.c.setLink port { s.c.link port with inbox := [arrived P h (i + 1) x s.c.ec false] }))) ∧
  (∀ (c c' : Ctl) (port h w x : Nat) (p : RxPkt), port < 16 → AloneWhole c port p x → h = p.h → hKind h = 1 → w = hWindow h → c' = c.rxDrain port →
    (c.pktHeld p = true → c' = c.setInbox port [{ p with held := true }]) ∧
    (c.pktHeld p = false → c.dataKind port h = 0 → hJournaled h = false →
      (c'.link port).inbox = [] ∧ c'.wn w win_ACCEPTED = (c.wn w win_ACCEPTED + 1) % 2 ^ 32 ∧ ∃ new, c'.areqs = c.areqs ++ new ∧
        (hOrdered h = false → new.map (fun a => (a.kind, a.gi, a.granule, a.mask)) = (List.range (hLen h)).map (fun k =>
            (AKind.linkLand c.nextPkt k, c.pktGi w (hOffset h) k, checked (c.repOf (c.pktGi w (hOffset h) k)) (p.payload.getD k 0), pktMask h k)) ∧
          ∃ q : Accepted, c'.packets = c.packets ++ [q] ∧ q.id = c.nextPkt ∧ q.header = h ∧ q.window = w ∧ q.left = hLen h ∧ q.phase = .landing) ∧
        (hOrdered h = true → new.map (fun a => (a.kind, a.dest, a.granule)) = (List.range (hLen h)).map (fun k =>
            (AKind.stageWrite c.nextPkt k, c.pktGi w (hOffset h) k, checked (c.repOf (c.pktGi w (hOffset h) k)) (p.payload.getD k 0))) ∧
          ∃ q : Accepted, c'.packets = c.packets ++ [q] ∧ q.id = c.nextPkt ∧ q.header = h ∧ q.window = w ∧ q.left = hLen h ∧ q.phase = .staging)) ∧
    (∀ k, c.pktHeld p = false → c.dataKind port h = k → k ≠ 0 → hJournaled h = false → c.wn w win_ORDERED = 0 →
      (c'.link port).inbox = [] ∧ c'.areqs = c.areqs ∧ c'.packets = c.packets ∧ c'.wn w win_ACCEPTED = c.wn w win_ACCEPTED ∧
      c'.wn w win_REFUSED = min (c.wn w win_REFUSED + 1) 0xFFFF ∧ c'.wn w win_LAST_REFUSE = k ∧
      c'.fld (oLinkStat port) linkStat_REFUSED = min (c.fld (oLinkStat port) linkStat_REFUSED + 1) 0xFFFF ∧
      c'.fld (oLinkStat port) linkStat_LAST_KIND = k ∧
      c'.fld (oFltCnt 17) fltCnt_COUNT = min (c.fld (oFltCnt 17) fltCnt_COUNT + 1) 0xFFFFFFFF) ∧
    (c.pktHeld p = false → c.dataKind port h = 0 → hJournaled h = true → c.journalCode h = 1 →
      (c'.link port).inbox = [] ∧ c'.areqs = c.areqs ∧ c'.packets = c.packets ∧ c'.twin = c.twin ∧
      (c'.link port).wait = waitInsert { header := mkHeader (ackHeader 1 w (hRank h) (hSeq h)), payload := [] } (c.link port).wait)) ∧
  (∀ (s : State) (port : Nat) (P : Packet), s.working → port < 16 → s.c.hears port = true → (s.c.link port).inbox = [] → hdrData port P.header = none →
    hdrAnswer port P.header = none → ∃ t, exec (.dataPacket port (P.beat 0)) s = .next t ∧ t.banks = s.banks ∧ t.c.areqs = s.c.areqs ∧ t.c.packets = s.c.packets ∧
      (t.c.link port).inbox = [] ∧ (t.c.link port).wait = (s.c.link port).wait ∧ t.c.fld (oLinkStat port) linkStat_LAST_KIND = 1 ∧
      t.c.fld (oLinkStat port) linkStat_REFUSED = min (s.c.fld (oLinkStat port) linkStat_REFUSED + 1) 0xFFFF ∧
      t.c.fld (oFltCnt 17) fltCnt_COUNT = min (s.c.fld (oFltCnt 17) fltCnt_COUNT + 1) 0xFFFFFFFF)

/-- A landing of a link port commits its granule in its slot; a complete round of an ordered window is applied: its packets
go to the phase of application and their granules are read back in ascending rank, sequence and offset (R135, R218). -/
def Obligations.PacketLandingsAndRounds : Prop :=
  (∀ (s : State) (id p k : Nat) (a : AReq) (c : Ctl), s.live → (∀ b ∈ s.c.areqs, b.req < 61) → s.c.boot.factory = false → s.c.reqOf id = some a →
    a.kind = .linkLand p k → s.c.slotless a = false → a.req ≠ 40 → a.second = none → a.acc = none → a.mask = 0xFFFFFFFF → s.c.firstSlot a = some (c, true) →
    c.ownsAsync a.group a.gi true = true → c.tagChecked a.gi = false → ∃ t, exec (.linkLanding id) s = .next t ∧ Commits s t a.gi a.granule ∧
      t.pending = s.pending) ∧
  (∀ (s : State) (w : Nat), s.working → w < 1024 → s.c.wn w win_STATE = 1 → s.c.wn w win_ORDERED = 1 → s.c.roundHeld w ≠ [] →
    (s.c.roundHeld w).length = s.c.wn w win_ORD_RANKS * s.c.wn w win_ORD_PER_RANK → ∃ t new, exec (.roundApply w) s = .next t ∧
      t.c.areqs = s.c.areqs ++ new ∧ new.map AReq.kind = ((s.c.roundHeld w).foldr insPacket []).flatMap
        (fun p => (List.range (hLen p.header)).map fun k => AKind.stageRead p.id k) ∧ (∀ a ∈ new, a.since = s.c.bc) ∧
      (∀ p ∈ s.c.roundHeld w, ∃ p' ∈ t.c.packets, p'.id = p.id ∧ p'.phase = .applying) ∧
      t = s.units { s.c with packets := t.c.packets, areqs := t.c.areqs, nextReq := t.c.nextReq }) ∧
  (∀ (s : State) (w : Nat), s.working → w < 1024 → (s.c.roundHeld w).length < s.c.wn w win_ORD_RANKS * s.c.wn w win_ORD_PER_RANK →
    exec (.roundApply w) s = .next s)

/-! ### Send descriptors (R222 to R225) -/

/-- ARM, DISARM and CLEAR of a send descriptor, in their states and outside them (R222). -/
def sendCommandsRule : Prop :=
  ∀ (s : State) (e : Nat), s.accepting → e < 256 →
    (s.c.sdState e = 0 → s.c.sd e lsend_PORT < 16 → s.c.sd e lsend_ALT_PORT < 16 → s.c.provOver e = false →
      s.c.ownsExtent (s.c.sd e lsend_GROUP) (s.c.sd e lsend_SRC_BASE) (s.c.sd e lsend_LEN) true = true →
      exec (.sendArm e) s = .next (s.wrote (.sendArm e) ((((s.c.winResult 0).setFld (oLsend e) lsend_TRIG_TARGET
        (s.c.sd e lsend_TRIG_TARGET + s.c.sd e lsend_TRIG_VALUE)).setFld (oLsend e) lsend_STATE 1).setSend e { armedAt := 4 * (s.c.cc + 1) }))) ∧
    (s.c.sdState e ≠ 0 → exec (.sendArm e) s = .next (s.wrote (.sendArm e) (s.c.winResult 1))) ∧
    (s.c.sdState e = 1 → exec (.sendDisarm e) s = .next (s.wrote (.sendDisarm e) ((s.c.winResult 0).setSend e { s.c.send e with disarmAt := some (4 * (s.c.cc + 1)) }))) ∧
    (s.c.sdState e ≠ 1 → exec (.sendDisarm e) s = .next (s.wrote (.sendDisarm e) (s.c.winResult 1))) ∧
    (s.c.sdState e = 3 → exec (.sendClear e) s = .next (s.wrote (.sendClear e) (((s.c.winResult 0).setFld (oLsend e) lsend_STATE 0).setSend e {}))) ∧
    (s.c.sdState e ≠ 3 → exec (.sendClear e) s = .next (s.wrote (.sendClear e) (s.c.winResult 1)))

/-- A met trigger, recorded at scope block, starts an ARMED descriptor and presents the reads of its first packet; one not met changes nothing. A packet without a provenance record whose granules
are read goes to its free port under the header of R211 and moves SENT and SEQ_NEXT on; a journaled packet not acknowledged in 2^ACK_EXP ec is sent
again on the other port, and not before. An ACK counts the granules of the packet that awaits it on its port, REFUSED halts the descriptor with status 2, RETRY
and an ACK that nothing awaits change nothing but the credit of their beat (R222 to R225). -/
def sendingPacketsRule : Prop :=
  (∀ (s : State) (e x : Nat), s.working → e < 256 → x = s.c.ec → s.c.sdState e = 1 → (s.c.send e).disarmAt = none →
    2 ≤ s.c.cntScopeAt (s.c.sd e lsend_TRIG_CNT) x → s.c.sd e lsend_LEN ≠ 0 →
    ((s.c.send e).armedAt ≤ x → reached (s.c.cntAt (s.c.sd e lsend_TRIG_CNT) x) (s.c.sd e lsend_TRIG_TARGET) = true →
      ∃ t new, exec (.sendStart e) s = .next t ∧ t.banks = s.banks ∧ t.c.sdState e = 2 ∧ t.c.sd e lsend_SENT = 0 ∧ t.c.sd e lsend_DONE = 0 ∧
        t.c.sd e lsend_STATUS = 0 ∧ t.c.areqs = s.c.areqs ++ new ∧ (∀ a ∈ new, a.since = s.c.bc ∧ a.write = false) ∧ (t.c.send e).latched = s.c.latchInput e x ∧ (t.c.send e).unacked = [] ∧
        new.map AReq.kind = (List.range (min (s.c.sd e lsend_PKT_LEN + 1) (s.c.sd e lsend_LEN))).map fun i => AKind.sendRead e i) ∧
    (x < (s.c.send e).armedAt ∨ reached (s.c.cntAt (s.c.sd e lsend_TRIG_CNT) x) (s.c.sd e lsend_TRIG_TARGET) = false → exec (.sendStart e) s = .next s)) ∧
  (∀ (s : State) (e n m : Nat), s.working → e < 256 → n = s.c.sd e lsend_PORT → m = s.c.sdNext e → s.c.linkLive n = true → (s.c.link n).data = [] →
    (∀ a ∈ s.c.areqs, ∀ k, a.kind ≠ .sendRead e k) → s.c.sdReady e = true → s.c.sdTurn n = some e → s.c.sdProv e = false →
    ∃ t, exec (.sendPacket e) s = .next t ∧ t.banks = s.banks ∧ t.c.sd e lsend_SENT = (s.c.sd e lsend_SENT + m) % 2 ^ 32 ∧
      t.c.sd e lsend_SEQ_NEXT = (s.c.sd e lsend_SEQ_NEXT + 1) % 2 ^ 64 ∧ (t.c.link n).served = e + 1 ∧
      (t.c.link n).data.map (fun d => d.pkt) = [{ header := mkHeader (s.c.sdHeader e), payload := (List.range m).map fun i => Tab.get 0 (s.c.send e).gathered (s.c.sd e lsend_SENT + i) }] ∧
      (s.c.sd e lsend_JOURNALED = 0 → (t.c.send e).unacked = (s.c.send e).unacked) ∧
      (s.c.sd e lsend_JOURNALED = 1 → (t.c.send e).unacked.length = (s.c.send e).unacked.length + 1)) ∧
  (∀ (s : State) (e seq port : Nat) (u : Unacked), s.working → e < 256 → s.c.sdState e = 2 →
    (s.c.send e).unacked.find? (fun v => v.seq == BitVec.ofNat 64 seq) = some u →
    port = (if u.port = s.c.sd e lsend_PORT then s.c.sd e lsend_ALT_PORT else s.c.sd e lsend_PORT) →
    (u.sent + 2 ^ s.c.fld (oLinkCfg u.port) linkCfg_ACK_EXP ≤ s.c.ec → ∃ t, exec (.ackTimeout e seq) s = .next t ∧ t.banks = s.banks ∧
      (t.c.link port).data = (s.c.link port).data ++ [{ pkt := u.pkt, desc := some e, reps := u.reps }] ∧
      (t.c.send e).unacked = (s.c.send e).unacked.map (fun v => if v.seq = u.seq then { v with port := port, sent := s.c.ec, again := true } else v) ∧
      t.c.sd e lsend_RETX = min (s.c.sd e lsend_RETX + 1) 0xFFFFFFFF ∧ (∀ m, m ≠ port → t.c.link m = s.c.link m)) ∧
    (s.c.ec < u.sent + 2 ^ s.c.fld (oLinkCfg u.port) linkCfg_ACK_EXP → exec (.ackTimeout e seq) s = .next s)) ∧
  (∀ (s : State) (port h : Nat) (header : Granule), CleanHeader s port header h → hKind h = 2 →
    (s.c.ackOwner port h = none → exec (.ack port (ctlBeat header)) s = .next (s.units (AfterHeader s port))) ∧
    (∀ (e : Nat) (u : Unacked), s.c.ackOwner port h = some e → (s.c.send e).unacked.find? (s.c.ackMine e port h) = some u →
      (hOpn h = 3 → exec (.ack port (ctlBeat header)) s = .next (s.units (AfterHeader s port))) ∧
      (hOpn h = 2 → s.c.sdState e = 2 → ∃ t, exec (.ack port (ctlBeat header)) s = .next t ∧ t.banks = s.banks ∧ t.c.sdState e = 3 ∧ t.c.sd e lsend_STATUS = 2) ∧
      (hOpn h < 2 → s.c.sdState e = 2 → s.c.sd e lsend_DONE + u.n < s.c.sd e lsend_LEN → ∃ t, exec (.ack port (ctlBeat header)) s = .next t ∧ t.banks = s.banks ∧
        t.c.sd e lsend_DONE = s.c.sd e lsend_DONE + u.n ∧ t.c.sdState e = 2 ∧
        (t.c.send e).unacked = (s.c.send e).unacked.filter (fun v => v.seq != u.seq) ∧
        t.c.fld (oCnt (s.c.sd e lsend_DONE_CNT)) cnt_VALUE = (s.c.fld (oCnt (s.c.sd e lsend_DONE_CNT)) cnt_VALUE + u.n) % 2 ^ 32)))

/-- Send descriptors and their packets: sendCommandsRule, sendingPacketsRule. -/
def Obligations.SendDescriptors : Prop := sendCommandsRule ∧ sendingPacketsRule

/-! ### The twin (R226 to R234, R293 to R295) -/

/-- A header that the twin port hears outside safe state, clean, with nothing held before it. -/
def TwinHeader (s : State) (header : Granule) (h : Nat) : Prop :=
  s.working ∧ s.c.hears 16 = true ∧ (s.c.link 16).inbox = [] ∧ (decodeG false header).fixed = 0 ∧ hdrData 16 header = some h

/-- A change of MODE resets the twin unit and sets PHASE; a mode that the journal does not allow is refused; RESYNC of the survivor in SOLO
replays its written entries from the checkpoint on, or pairs at once when there is none (R226, R231; that it then pairs at once, and what a change of MODE
resets, is log entry 59). -/
def twinModeAndResyncRule : Prop :=
  ∀ s : State, s.accepting → s.c.fld oTwinStat twinStat_T_FAILED = 0 →
    (∀ (be : BitVec 2) (data : Word) (v mode : Nat), be.getLsbD 0 = true → v = (merge (s.c.reg oTwinCfg) be data).toNat → mode = bits v 0 2 →
      (mode = 3 ∨ (mode ≠ s.c.twinMode ∧ s.c.journalOpen = true) ∨ (mode = 1 ∧ s.c.journalRegions = []) →
        exec (.twinCfgWrite be data) s = .next (s.wrote (.twinCfgWrite be data) (s.c.flag oTwinStat twinStat_CFG_REFUSED))) ∧
      (mode ≠ 3 → mode ≠ s.c.twinMode → s.c.journalOpen = false → (mode = 1 → s.c.journalRegions ≠ []) →
        ∃ t, exec (.twinCfgWrite be data) s = .next t ∧ t.banks = s.banks ∧ t.c.twin = {} ∧ t.c.twinMode = mode ∧
          t.c.twinPhase = (if mode = 1 then (if bits v 2 1 = 1 then 3 else 1) else 0) ∧ (t.c.link 16).data = [] ∧ (t.c.link 16).wait = [] ∧
          (mode = 2 → t.c.reh = {} ∧ ∀ q, q < 4 → t.c.reg (oRehSig q) = 0xFFFFFFFFFFFFFFFF))) ∧
    (∀ (p : Nat) (js : List JEntry), s.c.twinMode = 1 → s.c.fld oTwinCfg twinCfg_RESYNC = 0 → s.c.twinPhase = 2 → s.c.journalRegions ≠ [] →
      p = (match s.c.twin.both with | some k => k.pos | none => 0) →
      js = s.c.twin.journal.filter (fun j => decide (p ≤ j.id ∧ j.left = 0) && !j.void) →
      ∃ t, exec .resync s = .next t ∧ t.banks = s.banks ∧ t.c.twinPhase = (if js = [] then 1 else 2) ∧
        (t.c.link 16).data = (s.c.link 16).data ++ js.map (fun j => { pkt := { header := mkHeader (putBits j.header 0 4 9), payload := j.payload } }))

/-- SOLO: with t_up at 0, or a JCOPY unconfirmed too long, a PAIRED twin goes to SOLO, accepts what awaited confirmation and raises
source 18; otherwise it stays (R229). -/
def soloEntryRule : Prop :=
  ∀ s : State, s.working → s.c.twinMode = 1 → s.c.twinPhase = 1 →
    ((s.c.link 16).up = false ∨ (∃ j ∈ s.c.twin.journal, ∃ x, j.confirm = some x ∧ x + 2 ^ s.c.fld oTwinCfg twinCfg_CONF_EXP ≤ s.c.ec) →
      ∃ t, exec .soloEntry s = .next t ∧ t.banks = s.banks ∧ t.c.twinPhase = 2 ∧
        t.c.fld (oFltCnt 18) fltCnt_COUNT = min (s.c.fld (oFltCnt 18) fltCnt_COUNT + 1) 0xFFFFFFFF ∧
        (∀ j ∈ s.c.twin.journal, j.confirm.isSome = true → ∃ j' ∈ t.c.twin.journal, j'.id = j.id ∧ j'.accepted = true)) ∧
    ((s.c.link 16).up = true → (∀ j ∈ s.c.twin.journal, ∀ x, j.confirm = some x → s.c.ec < x + 2 ^ s.c.fld oTwinCfg twinCfg_CONF_EXP) →
      exec .soloEntry s = .next s)

/-- Twin mode, resynchronization and solo: twinModeAndResyncRule, soloEntryRule. -/
def Obligations.TwinModesAndSolo : Prop := twinModeAndResyncRule ∧ soloEntryRule

/-- A write of CKPT_ID records the tracking table and the journal position and sends the checkpoint; a received one with an own
record of its number becomes the checkpoint of both, without one it is kept (R230). -/
def checkpointsRule : Prop :=
  (∀ (s : State) (be : BitVec 2) (data : Word) (id : BitVec 32), s.accepting → s.c.twinMode = 1 → be.getLsbD 0 = true → id = BitVec.ofNat 32 data.toNat →
    ∃ t k, exec (.ckptIdWrite be data) s = .next t ∧ t.banks = s.banks ∧ k = ({ ckptId := id, tracks := s.c.trackTable, pos := s.c.twin.position } : Checkpoint) ∧
      t.c.fld oTwinCkpt twinCkpt_CKPT_ID = id.toNat ∧
      (t.c.link 16).wait = waitInsert { header := mkHeader (7 + (id.toNat <<< 32)), payload := [] } (s.c.link 16).wait ∧
      (s.c.twin.theirs.contains id = false → k ∈ t.c.twin.own ∧ t.c.twin.both = s.c.twin.both ∧ t.c.twin.journal = s.c.twin.journal) ∧
      (s.c.twin.theirs.contains id = true → t.c.twin.both = some k ∧ t.c.fld oTwinCkpt twinCkpt_LAST_BOTH = id.toNat)) ∧
  (∀ (s : State) (header : Granule) (h : Nat) (id : BitVec 32), TwinHeader s header h → s.c.twinMode = 1 → hKind h = 7 → id = BitVec.ofNat 32 (bits h 32 32) →
    ∃ t, exec (.ckpt (ctlBeat header)) s = .next t ∧ t.banks = s.banks ∧
      (∀ k, s.c.twin.own.find? (fun k => k.ckptId == id) = some k → t.c.twin.both = some k ∧ t.c.fld oTwinCkpt twinCkpt_LAST_BOTH = id.toNat) ∧
      (s.c.twin.own.find? (fun k => k.ckptId == id) = none → t.c.twin.both = s.c.twin.both ∧ t.c.twin.theirs.contains id = true ∧
        t.c.twin.journal = s.c.twin.journal ∧ ∀ o, t.c.reg o = s.c.reg o))

/-- JCOPY and REPLAY, the beats of a mirror copy and of a replay on T, fill the receive buffer as a DATA packet's do (log entry 57). One that leaves the buffer, passes the checks and is not known to
the journal enters it whole, as a journaled DATA packet does: the writes of its header and granules to the ring are presented, and its sequence number is marked
held; a copy that is known is only confirmed again. JCONF accepts the entry that awaits it (by its place in the journal, log entry 59). RTAB sets the next sequence number of a restarted twin, which is PAIRED with
the last packet of the survivor once everything is written. A journal write, or a landing from the journal, in its slot commits its granule (R226 to R231; log entry 24). -/
def journalTrafficRule : Prop :=
  (∀ (s : State) (h : Nat) (P : Packet) (last : Bool), HeardHeader s 16 P.header h → P.payload.length = hLen h →
    (hKind h = 5 → exec (.jcopy (P.beat 0)) s =
      .next (s.units (s.c.setLink 16 { s.c.link 16 with inbox := [arrived P h 0 s.c.ec s.c.ec false], skip := .nothing }))) ∧
    (hKind h = 9 → exec (.replay (P.beat 0) last) s =
      .next (s.units (s.c.setLink 16 { s.c.link 16 with inbox := [arrived P h 0 s.c.ec s.c.ec last], skip := .nothing })))) ∧
  (∀ (s : State) (h i x y : Nat) (P : Packet) (last : Bool), s.working → s.c.hears 16 = true → P.payload.length = hLen h →
    i + 1 < packetBeats P.payload.length → (s.c.link 16).inbox = [arrived P h i x y last] →
    (∀ j, (hKind h = 5 ∧ j = Instr.jcopy (P.beat (i + 1))) ∨ (hKind h = 9 ∧ j = Instr.replay (P.beat (i + 1)) last) → exec j s =
      .next (s.units (s.c.setLink 16 { s.c.link 16 with inbox := [arrived P h (i + 1) x s.c.ec last] })))) ∧
  (∀ (c c' : Ctl) (port h w x : Nat) (p : RxPkt), AloneWhole c port p x → p.last = false → c.twinMode = 1 → c.pktHeld p = false →
    (port = 16 ∧ (hKind p.h = 5 ∨ hKind p.h = 9)) ∨ (port < 16 ∧ hKind p.h = 1 ∧ hJournaled p.h = true) → (hKind p.h = 9 ∨ c.twinPhase ≠ 3) →
    h = putBits p.h 0 4 1 → w = hWindow h → c.dataKind port h = 0 → c' = c.rxDrain port →
    (c.journalCode h = 0 → ∃ new j, c'.areqs = c.areqs ++ new ∧ (c'.link port).inbox = [] ∧
      new.map AReq.kind = (List.range (hLen h + 1)).map (fun k => AKind.journalWrite c.twin.nextId k) ∧
      c'.twin.journal = c.twin.journal ++ [j] ∧ j.id = c.twin.nextId ∧ j.header = h ∧ j.port = port ∧ j.left = hLen h + 1 ∧ j.pos = c.twin.head ∧ j.taken = x ∧
      j.payload = (List.range (hLen h)).map (fun k => checked (c.repOf (c.pktGi w (hOffset h) k)) (p.payload.getD k 0)) ∧
      (c'.track w (hRank h)).held = (c.track w (hRank h)).held ++ [BitVec.ofNat 64 (hSeq h)] ∧ (c'.track w (hRank h)).next = (c.track w (hRank h)).next) ∧
    (port = 16 → c.journalCode h = 1 → c.twinPhase ≠ 3 → c'.areqs = c.areqs ∧ c'.twin = c.twin ∧ (c'.link 16).inbox = [] ∧
      (c'.link 16).wait = waitInsert { header := mkHeader (6 + 16 + (w <<< 16) + (hRank h <<< 80) + (hSeq h <<< 96)), payload := [] } (c.link 16).wait)) ∧
  (∀ (s : State) (header : Granule) (h : Nat) (j : JEntry), TwinHeader s header h → s.c.twinMode = 1 → hKind h = 6 → s.c.twinPhase = 1 →
    s.c.twin.journal.find? (fun j => decide (hWindow j.header = hWindow h ∧ hRank j.header = hRank h ∧ hSeq j.header = hSeq h) && !j.void &&
      (j.confirm.isSome || j.resent)) = some j → j.confirm.isSome = true →
    ∃ t, exec (.jconf (ctlBeat header)) s = .next t ∧ t.banks = s.banks ∧ (∃ j' ∈ t.c.twin.journal, j'.id = j.id ∧ j'.accepted = true) ∧
      t.c.wn (hWindow h) win_ACCEPTED = (s.c.wn (hWindow h) win_ACCEPTED + 1) % 2 ^ 32) ∧
  (∀ (s : State) (header : Granule) (h : Nat) (last : Bool), TwinHeader s header h → s.c.twinMode = 1 → hKind h = 10 →
    (s.c.twinPhase ≠ 3 → exec (.rtab (ctlBeat header) last) s = .next (s.units (AfterHeader s 16))) ∧
    (s.c.twinPhase = 3 → last = false → s.c.twin.lastSeen = false → exec (.rtab (ctlBeat header) last) s =
      .next (s.units ((AfterHeader s 16).setTrack (hWindow h) (hRank h) { next := BitVec.ofNat 64 (hSeq h) }))) ∧
    (s.c.twinPhase = 3 → last = true → (∀ j ∈ s.c.twin.journal, j.left = 0) → ∃ t, exec (.rtab (ctlBeat header) last) s = .next t ∧ t.banks = s.banks ∧
      t.c.track (hWindow h) (hRank h) = { next := BitVec.ofNat 64 (hSeq h) } ∧ t.c.twinPhase = 1)) ∧
  (∀ (s : State) (id : Nat) (a : AReq) (c : Ctl), s.live → (∀ b ∈ s.c.areqs, b.req < 61) → s.c.boot.factory = false → s.c.reqOf id = some a →
    s.c.slotless a = false → s.c.firstSlot a = some (c, true) → c.tagChecked a.gi = false →
    (∃ j k, a.kind = .journalWrite j k ∧ c.ownsUnit 2 a.gi = true) ∨
      (∃ p k, a.kind = .linkLand p k ∧ a.req = 40 ∧ a.second = none ∧ a.acc = none ∧ a.mask = 0xFFFFFFFF ∧ c.ownsAsync a.group a.gi true = true) →
    ∃ t, exec (.journalLanding id) s = .next t ∧ Commits s t a.gi a.granule ∧ t.pending = s.pending)

/-- Checkpoints and journal traffic: checkpointsRule, journalTrafficRule. -/
def Obligations.CheckpointsAndJournal : Prop := checkpointsRule ∧ journalTrafficRule

/-- The scene is in its interval 0, or its length is known and lies beyond the start of the interval, or a sequencer of the group is still in it (R294). -/
def MoreIntervals (c : Ctl) (r : RehScene) : Prop :=
  r.next = 0 ∨ (∃ l, r.len = some l ∧ r.next * c.rehStep < l) ∨
    (r.len = none ∧ ∃ n ∈ c.members c.rehGroup, (c.seq n).inScene = true ∧ (c.seq n).ec0 = r.ec0)

/-- In REHEARSAL a received signature that meets the own one of its quadrant must agree with it: equal ones leave no trace, a
different one latches the first mismatch and raises source 19; RSIG_SEND, with the next interval of the
oldest scene ended and its events known, absorbs them and queues one signature for each quadrant; with events still unknown it changes nothing; a scene without a
further interval is done (R293 to R295). -/
def Obligations.RehearsalSignatures : Prop :=
  (∀ (s : State) (header : Granule) (h q : Nat) (a : RSig), TwinHeader s header h → s.c.twinMode = 2 → hKind h = 8 → q = bits h 4 2 →
    s.c.reh.got.find? (fun g => decide (g.quad = q)) = none →
    (s.c.reh.sent.find? (fun g => decide (g.quad = q)) = none → exec (.rsig (ctlBeat header)) s = .next (s.units
      { AfterHeader s 16 with reh := { s.c.reh with got := s.c.reh.got ++ [{ quad := q, sceneNo := BitVec.ofNat 32 (bits h 32 32), offset := 0, sig := BitVec.ofNat 64 (bits h 64 64) }] } })) ∧
    (s.c.reh.sent.find? (fun g => decide (g.quad = q)) = some a → ∃ t, exec (.rsig (ctlBeat header)) s = .next t ∧ t.banks = s.banks ∧
      t.c.reh.sent = dropFirst q s.c.reh.sent ∧ t.c.reh.got = s.c.reh.got ∧ t.c.reh.events = s.c.reh.events ∧
      (a.sceneNo = BitVec.ofNat 32 (bits h 32 32) → a.sig = BitVec.ofNat 64 (bits h 64 64) → ∀ o, t.c.reg o = s.c.reg o) ∧
      (a.sceneNo ≠ BitVec.ofNat 32 (bits h 32 32) ∨ a.sig ≠ BitVec.ofNat 64 (bits h 64 64) → s.c.fld oRehDiv1 rehDiv1_VALID = 0 →
        t.c.fld oRehDiv1 rehDiv1_VALID = 1 ∧ t.c.fld oRehDiv1 rehDiv1_QUAD = q ∧ t.c.fld oRehDiv rehDiv_SCENE_NO = a.sceneNo.toNat ∧
        t.c.fld oRehDiv1 rehDiv1_KIND = (if a.sceneNo ≠ BitVec.ofNat 32 (bits h 32 32) then 2 else 1) ∧
        t.c.fld (oFltCnt 19) fltCnt_COUNT = min (s.c.fld (oFltCnt 19) fltCnt_COUNT + 1) 0xFFFFFFFF))) ∧
  (∀ (s : State) (r : RehScene) (rest : List RehScene) (hi : Nat), s.working → s.c.twinMode = 2 → s.c.reh.scenes = r :: rest →
    hi = r.next * s.c.rehStep + s.c.rehStep →
    (∀ l, r.next ≠ 0 → r.len = some l → l ≤ r.next * s.c.rehStep → exec .rsigSend s = .next (s.units { s.c with reh := { s.c.reh with scenes := rest } })) ∧
    (s.c.rehKnown r.ec0 hi = true → (r.len.isSome = true ∨ r.ec0 + hi ≤ s.c.ec) → MoreIntervals s.c r → ∃ t, exec .rsigSend s = .next t ∧ t.banks = s.banks ∧
      (∀ q, q < 4 → t.c.reg (oRehSig q) = s.c.rehAbsorb r.ec0 hi q) ∧
      (t.c.link 16).wait = (s.c.link 16).wait ++ (List.range 4).map (fun q =>
        { header := mkHeader (rsigHeader q r.sceneNo (s.c.rehAbsorb r.ec0 hi q)), payload := [] })) ∧
    (s.c.rehKnown r.ec0 hi = false → MoreIntervals s.c r → exec .rsigSend s = .next s))

/-! ### Regions and owners (R20 to R28) -/

/-- REGION_WRITE, a write of a region-map entry: refused with its code it changes no entry; accepted it loads the writable bits. A valid entry with other
clusters or another code is BUSY, and the fills of its banks begin at row 0; an invalid one is noted for its refill; with nothing new,
pending or to be powered up (log entry 122) no refill begins. No other entry changes (R22, R23; which code of several that apply: log entry 94). -/
def regionMapWritesRule : Prop :=
  ∀ (s : State) (n : Nat) (be : BitVec 2) (data : Word) (old v : Nat), s.accepting → n < 64 → be ≠ 0 →
    old = (s.c.reg (oRegion n) &&& mapMask).toNat → v = (merge (s.c.reg (oRegion n)) be data &&& mapMask).toNat →
    (∀ st, s.c.regionCode n v = st → st ≠ 0 → ∃ t, exec (.regionWrite n be data) s = .next t ∧ t.banks = s.banks ∧
      t.c.fld oRegionStat regionStat_STATUS = st ∧ t.c.fld oRegionStat regionStat_OP = 1 ∧ t.c.fld oRegionStat regionStat_REGION = n ∧
      t.c.fld oRegionStat regionStat_REFUSED = 1 ∧ (s.c.locked = true → t.c.fld oStatus status_LOCK_WR = 1) ∧
      (∀ o, o ≠ oRegionStat → o ≠ oStatus → t.c.reg o = s.c.reg o) ∧
      ∃ nn, t = s.wrote (.regionWrite n be data) { s.c with regs := t.c.regs, notes := nn }) ∧
    (s.c.regionCode n v = 0 → ∃ t, exec (.regionWrite n be data) s = .next t ∧ t.banks = s.banks ∧
      t.c.fld oRegionStat regionStat_STATUS = 0 ∧ (t.c.reg (oRegion n) &&& mapMask).toNat = v ∧
      (mapValid v = true → bits old 0 32 ≠ bits v 0 32 ∨ bits old 33 1 ≠ bits v 33 1 →
        t.c.fld (oRegion n) region_BUSY = 1 ∧ t.c.refills.getLsbD n = true ∧ ∀ pb ∈ t.c.regionBanks n, t.c.fillOf pb = some { since := s.c.bc }) ∧
      (mapValid v = false → bits old 0 32 ≠ bits v 0 32 ∨ bits old 33 1 ≠ bits v 33 1 → t.c.fld (oRegion n) region_BUSY = 0 ∧ t.c.fillPend.getLsbD n = true) ∧
      (bits old 0 32 = bits v 0 32 → bits old 33 1 = bits v 33 1 → s.c.fillPend.getLsbD n = false → s.c.powersUp v = false →
        t.c.fld (oRegion n) region_BUSY = 0 ∧ t.c.refills = s.c.refills) ∧
      (∀ r, r < 64 → r ≠ n → t.c.reg (oRegion r) = s.c.reg (oRegion r)))

/-- A fill writes one row of a bank in a bc: in a service slot that the fill requester wins, or, of a strike that takes its whole cluster, in any bc. The row takes the fill
granule, and the next bc has the row after it; without the slot no row is written. REFILL_DONE of a region whose refill is under way ends it once no bank has a row left, and BUSY falls unless an
understudy is still filled; before that, or with no refill under way, it changes nothing (R17, R23, R90, R91). That the rows are written one by one at the end
of each bc and REFILL_DONE only ends the refill is log entry 119 (DESIGN CHOICE). -/
def refillFillsTheClustersRule : Prop :=
  (∀ (s : State) (r : Nat), s.working → r < 64 →
    (s.c.refills.getLsbD r = false ∨ (∃ pb ∈ s.c.regionBanks r, s.c.fillLeft pb = true) → exec (.refillDone r) s = .next s) ∧
    (s.c.refills.getLsbD r = true → (∀ pb ∈ s.c.regionBanks r, s.c.fillLeft pb = false) → ∃ t, exec (.refillDone r) s = .next t ∧
      t.c.refills.getLsbD r = false ∧ t.pending = s.pending ∧ t.banks = s.banks ∧ (s.c.fillBusy r = false → t.c.fld (oRegion r) region_BUSY = 0) ∧
      (∀ pb ∈ s.c.regionBanks r, ∀ f, t.c.fillOf pb = some f → f.strike = true))) ∧
  (∀ (c : Ctl) (pb q cl : Nat) (f : BankFill), q = pbQuad pb → cl = pbCluster pb → c.sysReady = true → c.blackout = false → c.boot.factory = false →
    c.fillOf pb = some f → c.fillLeft pb = true →
    (f.strike = true ∧ c.strikeTakes q cl = true) ∨ (c.serviceTry q cl (pb % 16) (46 + 4 * q)).2 = true →
    (c.fillStep pb).1.fillOf pb = some { f with row := f.row + 1, lastBc := c.bc, since := c.bc + 1 } ∧
      (c.fillStep pb).2 = c.putAt (rowKey q (c.built q cl) (pb % 16) f.row) fillGranule) ∧
  (∀ (c : Ctl) (pb q cl : Nat) (f : BankFill), q = pbQuad pb → cl = pbCluster pb → c.fillOf pb = some f →
    c.fillLeft pb = false ∨ c.blackout = true ∨ ((f.strike = false ∨ c.strikeTakes q cl = false) ∧ (c.serviceTry q cl (pb % 16) (46 + 4 * q)).2 = false) →
    (c.fillStep pb).2 = [] ∧ (c.fillStep pb).1.fillOf pb = some f)

/-- Region-map writes and refill: regionMapWritesRule, refillFillsTheClustersRule. -/
def Obligations.RegionMapAndRefill : Prop := regionMapWritesRule ∧ refillFillsTheClustersRule

/-- A write of eight owner entries changes those that are enabled, differ, are not STRIKING and name NONE or a cast group, and no
other; registers above the built banks ignore it. HANDOVER, a hand-over that passes its checks, is taken for the next cc, another is
refused with its code; one that got as far as the check of STRIKING is noted with its cc for a kill in it. At the start of the next cc the banks of the
region, those that its entry then names (log entry 126, DESIGN CHOICE), change owner, and no other bank (R26 to R28). -/
def Obligations.OwnersAndHandover : Prop :=
  (∀ (s : State) (k : Nat) (be : BitVec 2) (data : Word), s.accepting → k < 512 → be ≠ 0 →
    (256 ≤ k → exec (.bankOwnWrite k be data) s = .next (s.wrote (.bankOwnWrite k be data) s.c)) ∧
    (k < 256 → ∃ t, exec (.bankOwnWrite k be data) s = .next t ∧ t.banks = s.banks ∧
      (∀ j, j < 8 → t.c.owner (8 * k + j) = (if be.getLsbD (j / 4) = true ∧ s.c.striking (8 * k + j) = false ∧ ownerOk (bits data.toNat (8 * j) 6) = true
        then bits data.toNat (8 * j) 6 else s.c.owner (8 * k + j)) ∧ t.c.striking (8 * k + j) = s.c.striking (8 * k + j)) ∧
      (∀ o, o ≠ oBankOwn k → o ≠ oRegionStat → t.c.reg o = s.c.reg o))) ∧
  (∀ (s : State) (be : BitVec 2) (data : Word) (r to_ st : Nat), s.accepting → be.getLsbD 0 = true → r = bits data.toNat 0 6 → to_ = bits data.toNat 16 6 →
    st = s.c.handoverCode r (bits data.toNat 8 6) to_ →
    (st = 0 → exec (.handover be data) s = .next (s.wrote (.handover be data)
      { s.c.regionResult 2 r 0 false with handing := s.c.handing ++ [(r, to_, s.c.cc)], handCc := some s.c.cc })) ∧
    (st = 6 → exec (.handover be data) s = .next (s.wrote (.handover be data) (s.c.regionResult 2 r 6 false))) ∧
    (st ≠ 0 → st ≠ 6 → exec (.handover be data) s = .next (s.wrote (.handover be data) { s.c.regionResult 2 r st false with handCc := some s.c.cc }))) ∧
  (∀ (c : Ctl) (r o x : Nat), c.handing = [(r, o, x)] → r < 64 → o < 64 →
    (c.cc ≤ x → c.handoverEnd = c) ∧
    (x < c.cc → c.handoverEnd.handing = [] ∧ ∀ pb, pb < 2048 → c.handoverEnd.owner pb = (if pb ∈ c.regionBanks r then o else c.owner pb)))

/-! ### Cue sheets and halves (R88 to R103) -/

/-- CS_SHADOW_WRITE loads the enabled halves of word 0 of a slot of the shadow copy, unless a swap of the quadrant is pending (PENDING). CS_ACTIVE_WRITE, of a held quadrant and with a
service slot left for every built cluster, is noted for the first bc of the next cc; else it only shows NOT_HELD or NO_SERVICE. Words 1 hold no built cluster: a
write of one is answered OK and does nothing (R373). QUADRANT_HELD sets HELD of a quadrant with HOLD = 1 that no group with a scene running or decided uses, and
changes nothing else or otherwise (R96, R98, R373). -/
def cueSheetWritesRule : Prop :=
  (∀ (s : State) (q x : Nat) (be : BitVec 2) (data : Word), s.accepting → q < 4 → x < 256 → be ≠ 0 →
    exec (.csShadowWrite q x 1 be data) s = .next (s.wrote (.csShadowWrite q x 1 be data) s.c) ∧
    exec (.csActiveWrite q x 1 be data) s = .next (s.wrote (.csActiveWrite q x 1 be data) s.c) ∧
    (s.c.swapPending q = true → exec (.csShadowWrite q x 0 be data) s = .next (s.wrote (.csShadowWrite q x 0 be data) (s.c.csStatus 2))) ∧
    (s.c.swapPending q = false → exec (.csShadowWrite q x 0 be data) s = .next (s.wrote (.csShadowWrite q x 0 be data)
      ((s.c.csStatus 0).setReg (csOff q 0 x 0) (merge (s.c.reg (csOff q 0 x 0)) be data)))) ∧
    (s.c.csHeldNow q = false → exec (.csActiveWrite q x 0 be data) s = .next (s.wrote (.csActiveWrite q x 0 be data) (s.c.csStatus 4))) ∧
    (∀ c, c = s.c.setLater (csOff q 1 x 0) (beMask be) data → s.c.csHeldNow q = true →
      (c.laterNow.noService q 1 = false → exec (.csActiveWrite q x 0 be data) s = .next (s.wrote (.csActiveWrite q x 0 be data) (c.csStatus 0))) ∧
      (c.laterNow.noService q 1 = true → exec (.csActiveWrite q x 0 be data) s = .next (s.wrote (.csActiveWrite q x 0 be data) (s.c.csStatus 3))))) ∧
  (∀ (s : State) (q : Nat), s.live → q < 4 →
    ((Nat.testBit (s.c.fld oCsCtrl ⟨0, 0, 4⟩) q = true ∧ ∀ g, g < 32 → s.c.groupUses g q = true → s.c.groupBusy g = false) →
      exec (.quadrantHeld q) s = .next (s.units (s.c.setFld oCsStat csStat_HELD (s.c.fld oCsStat csStat_HELD ||| 2 ^ q)))) ∧
    ((Nat.testBit (s.c.fld oCsCtrl ⟨0, 0, 4⟩) q = false ∨ ∃ g, g < 32 ∧ s.c.groupUses g q = true ∧ s.c.groupBusy g = true) →
      exec (.quadrantHeld q) s = .next s))

/-- COPY of quadrants without a pending swap loads their shadow copies from the active ones. CS_SWAP, a whole write of MIO_CS_SWAP, is taken for a frame 2 to 2^31 - 1 ahead while none is
pending and every shadow copy it names has its service slots, else shows PENDING, LATE or NO_SERVICE; a write of one half does nothing. CS_SWAP_EFFECT in its frame exchanges the
copies of its quadrants, and no others, and before it nothing (R96, R97). -/
def cueSheetCopyAndSwapRule : Prop :=
  (∀ (s : State) (m : BitVec 4), s.accepting → m ≠ 0 → (∀ q, q < 4 → s.c.swapPending q = false) → ∃ t, exec (.copy m) s = .next t ∧ t.banks = s.banks ∧
    (∀ q x, q < 4 → x < 256 → t.c.reg (csOff q 1 x 0) = s.c.reg (csOff q 1 x 0) ∧
      t.c.reg (csOff q 0 x 0) = (if m.getLsbD q then s.c.reg (csOff q 1 x 0) else s.c.reg (csOff q 0 x 0))) ∧
    t.c.fld oCsStat csStat_STATUS = 0 ∧ t = s.wrote (.copy m) { s.c with regs := t.c.regs }) ∧
  (∀ (s : State) (data : Word) (f m d : Nat), s.accepting → f = bits data.toNat 0 32 → m = bits data.toNat 32 4 → d = (f + 2 ^ 32 - frameOf s.c.bc) % 2 ^ 32 →
    (∀ be, be ≠ 0 → be ≠ 3 → exec (.csSwap be data) s = .next (s.wrote (.csSwap be data) s.c)) ∧
    (s.c.swap.isSome = true → exec (.csSwap 3 data) s = .next (s.wrote (.csSwap 3 data) (s.c.csStatus 2))) ∧
    (s.c.swap = none → d < 2 ∨ 2 ^ 31 ≤ d → exec (.csSwap 3 data) s = .next (s.wrote (.csSwap 3 data) (s.c.csStatus 1))) ∧
    (s.c.swap = none → 2 ≤ d → d < 2 ^ 31 → (∃ q, q < 4 ∧ Nat.testBit m q = true ∧ s.c.noService q 0 = true) →
      exec (.csSwap 3 data) s = .next (s.wrote (.csSwap 3 data) (s.c.csStatus 3))) ∧
    (s.c.swap = none → 2 ≤ d → d < 2 ^ 31 → m ≠ 0 → (∀ q, q < 4 → Nat.testBit m q = true → s.c.noService q 0 = false) →
      exec (.csSwap 3 data) s = .next (s.wrote (.csSwap 3 data) { (s.c.csStatus 0).setFld oCsStat csStat_SWAP_FRAME f with
        swap := some (BitVec.ofNat 32 f, BitVec.ofNat 4 m), swapCc := none })) ∧
    (s.c.swap = none → 2 ≤ d → d < 2 ^ 31 → m = 0 → exec (.csSwap 3 data) s = .next (s.wrote (.csSwap 3 data) ((s.c.csStatus 0).setFld oCsStat csStat_SWAP_FRAME f)))) ∧
  (∀ (s : State) (f : BitVec 32) (m : BitVec 4), s.live → s.c.swap = some (f, m) → s.c.swapCc = none →
    (ahead (frameOf s.c.bc) f.toNat = false → exec .csSwapEffect s = .next s) ∧
    (ahead (frameOf s.c.bc) f.toNat = true → ∃ t, exec .csSwapEffect s = .next t ∧ t.c.swapCc = some s.c.cc ∧ t.banks = s.banks ∧
      (∀ q x, q < 4 → x < 256 → t.c.reg (csOff q 0 x 0) = (if m.getLsbD q then s.c.reg (csOff q 1 x 0) else s.c.reg (csOff q 0 x 0)) ∧
        t.c.reg (csOff q 1 x 0) = (if m.getLsbD q then s.c.reg (csOff q 0 x 0) else s.c.reg (csOff q 1 x 0))) ∧
      t = s.units { s.c with regs := t.c.regs, swapCc := some s.c.cc }))

/-- Cue sheets: writes, hold, copy and swap: cueSheetWritesRule, cueSheetCopyAndSwapRule. -/
def Obligations.CueSheets : Prop := cueSheetWritesRule ∧ cueSheetCopyAndSwapRule

/-- GROUP_SWAP_GO stays pending with its target half, swaps at once a group whose sequencers are all HALTED, also while a load into the half is in progress (R101's last sentence as
it stands, log entry 25), and is REFUSED while a swap is pending. GROUP_SWAP_CANCEL of a pending swap is noted for the end of its cc, at which the swap is cleared and not
before; one in the cc in which the swap took effect is REFUSED, another without a pending swap does nothing (log entry 63, DEDUCED). GROUP_SWAP_EFFECT, of a pending swap whose
group is ready, moves every WAITING sequencer of the group to the target half, where it is WAITING or TRAPPED, and leaves every sequencer outside the group; else it changes
nothing. A group is ready when each of its sequencers is HALTED or WAITING, no load into the target half is in progress and no start of it is decided, the last from log entry
25 (DEDUCED) (R101 to R103). -/
def Obligations.HalfSwaps : Prop :=
  (∀ (s : State) (g : Nat) (half : Bool), s.accepting → g < 32 →
    (s.c.fld (oGrpSwap g) grpSwap_PENDING = 1 → exec (.groupSwapGo g half) s = .next (s.wrote (.groupSwapGo g half) (s.c.flag (oGrpSwap g) grpSwap_REFUSED))) ∧
    (s.c.fld (oGrpSwap g) grpSwap_PENDING = 0 → (∃ n ∈ s.c.members g, (s.c.seq n).state ≠ .halted) → exec (.groupSwapGo g half) s =
      .next (s.wrote (.groupSwapGo g half) ((s.c.setFld (oGrpSwap g) grpSwap_PENDING 1).setFld (oGrpSwap g) grpSwap_PEND_HALF half.toNat))) ∧
    (s.c.fld (oGrpSwap g) grpSwap_PENDING = 0 → (∀ n ∈ s.c.members g, (s.c.seq n).state = .halted) → ∃ t, exec (.groupSwapGo g half) s = .next t ∧ t.banks = s.banks ∧
      t.c.fld (oGrpSwap g) grpSwap_PENDING = 0 ∧ t.c.fld (oGrpSwap g) grpSwap_PEND_HALF = half.toNat ∧ (t.c.group g).swapCc = some s.c.cc ∧ (∀ n, t.c.seq n = s.c.seq n)) ∧
    (s.c.fld (oGrpSwap g) grpSwap_PENDING = 1 → exec (.groupSwapCancel g) s =
      .next (s.wrote (.groupSwapCancel g) (s.c.setGroup g { s.c.group g with swapCancel := some (4 * (s.c.cc + 1)) }))) ∧
    (s.c.fld (oGrpSwap g) grpSwap_PENDING = 0 → (s.c.group g).swapCc = some s.c.cc → exec (.groupSwapCancel g) s =
      .next (s.wrote (.groupSwapCancel g) (s.c.flag (oGrpSwap g) grpSwap_REFUSED))) ∧
    (s.c.fld (oGrpSwap g) grpSwap_PENDING = 0 → (s.c.group g).swapCc ≠ some s.c.cc → exec (.groupSwapCancel g) s = .next (s.wrote (.groupSwapCancel g) s.c)) ∧
    (s.c.swapReady g = true ↔ s.c.fld (oGrpSwap g) grpSwap_PENDING = 1 ∧ (s.c.group g).decided = none ∧
      (∀ n ∈ s.c.members g, (s.c.seq n).state = .halted ∨ (s.c.seq n).state = .waiting) ∧
      s.c.loading (decide (s.c.fld (oGrpSwap g) grpSwap_PEND_HALF = 1)) = false) ∧
    (s.c.swapReady g = false → exec (.groupSwapEffect g) s = .next s) ∧
    (s.c.swapReady g = true → ∃ t, exec (.groupSwapEffect g) s = .next t ∧ t.banks = s.banks ∧ t.pending = s.pending ∧
      t.c.fld (oGrpSwap g) grpSwap_PENDING = 0 ∧ (t.c.group g).swapCc = some s.c.cc ∧
      (∀ n ∈ s.c.members g, (s.c.seq n).state = .waiting → ((t.c.seq n).state = .waiting ∨ (t.c.seq n).state = .trapped) ∧
        (t.c.seq n).half = decide (s.c.fld (oGrpSwap g) grpSwap_PEND_HALF = 1)) ∧
      (∀ n, n ∉ s.c.members g → t.c.seq n = s.c.seq n))) ∧
  (∀ (c : Ctl) (g d x : Nat), c.blackout = false → (c.group g).swapCancel = some d →
    (d ≤ x → (c.swapSettle x).fld (oGrpSwap g) grpSwap_PENDING = 0 ∧ ((c.swapSettle x).group g).swapCancel = none) ∧
    (x < d → (c.swapSettle x).fld (oGrpSwap g) grpSwap_PENDING = c.fld (oGrpSwap g) grpSwap_PENDING ∧ (c.swapSettle x).group g = c.group g))

/-! ### Integrity and repair (R254 to R273) -/

/-- CORRECTION_WRITEBACK writes the oldest write-back of a bank in a service slot of its cluster, in which it comes before every other service requester; without the slot it
writes nothing and the entry stays. SCRUB_WRITEBACK writes what the scrubber's read corrected in a slot that the scrubber wins, from the bc in which the correction
stage has passed it on (R254), and nothing where the correction queue holds the granule. SS_CORRECTION_REWRITE rewrites a corrected script-store granule. Each puts its
granule where it was read and nowhere else (R237, R240, R254, R255, R260). -/
def serviceWritesRule : Prop :=
  (∀ (s : State) (q bank : Nat) (e : WbEntry), s.working → q < 4 → bank < 512 → s.c.boot.factory = false → s.c.wbOldest q (bank / 16) (bank % 16) = some e →
    (s.c.serviceSlot q (bank / 16) = false ∨ s.c.bankUsed (bankNo q (bank / 16) (bank % 16)) = true → ∃ t, exec (.correctionWriteback q bank) s = .next t ∧
      t.banks = s.banks ∧ t.c.wbq = s.c.wbq ∧ t.c.regs = s.c.regs) ∧
    (s.c.serviceSlot q (bank / 16) = true → s.c.bankUsed (bankNo q (bank / 16) (bank % 16)) = false → s.c.striking (bankNo q (bank / 16) (bank % 16)) = false →
      s.c.mergeHolds e.gi = false → ∃ t, exec (.correctionWriteback q bank) s = .next t ∧ Puts s t e.bank e.granule ∧
      Tab.get [] t.c.wbq q = (Tab.get [] s.c.wbq q).filter (fun x => decide (x ≠ e)) ∧ t.c.bankUsed (bankNo q (bank / 16) (bank % 16)) = true)) ∧
  (∀ (s : State) (q cl bank row due : Nat) (g : Granule), s.working → q < 4 → cl < 32 → bank < 16 → s.c.boot.factory = false →
    (s.c.scrub q cl).writes.find? (fun w => decide (w.1 = bank)) = some (bank, (row, due, g)) →
    (s.c.bc < due → exec (.scrubWriteback q cl bank) s = .next s) ∧
    (due ≤ s.c.bc → (∀ e ∈ Tab.get [] s.c.wbq q, e.bank ≠ rowKey q (s.c.built q cl) bank row) → (s.c.serviceTry q cl bank (45 + 4 * q)).2 = true →
      ∃ t, exec (.scrubWriteback q cl bank) s = .next t ∧ Puts s t (rowKey q (s.c.built q cl) bank row) g ∧
        (t.c.scrub q cl).writes = Tab.drop bank (s.c.scrub q cl).writes) ∧
    (due ≤ s.c.bc → (∃ e ∈ Tab.get [] s.c.wbq q, e.bank = rowKey q (s.c.built q cl) bank row) → exec (.scrubWriteback q cl bank) s =
      .next (s.units (s.c.setScrub q cl { s.c.scrub q cl with writes := Tab.drop bank (s.c.scrub q cl).writes })))) ∧
  (∀ (s : State) (h g : Nat), s.live → h < 2 → g < 32768 → s.c.loading (decide (h = 1)) = false →
    (h * 32768 + g ∉ s.c.storeFix → exec (.ssCorrectionRewrite h g) s = .next s) ∧
    (h * 32768 + g ∈ s.c.storeFix → ∃ t, exec (.ssCorrectionRewrite h g) s = .next t ∧ t.banks = s.banks ∧ t.c.regs = s.c.regs ∧
      Tab.get fillGranule t.c.store (h * 32768 + g) = (decodeG false (Tab.get fillGranule s.c.store (h * 32768 + g))).word ∧
      (∀ k, k ≠ h * 32768 + g → Tab.get fillGranule t.c.store k = Tab.get fillGranule s.c.store k) ∧ h * 32768 + g ∉ t.c.storeFix))

/-- SCRUB_READ in a slot that the scrubber wins: of a row that is begun and not finished by it, it marks its bank as read and leaves every row; a granule that was
corrected, or is uncorrectable, is to be written back from 8 bc on, as the correction stage gives it, and a clean one is not. For a MIGRATE of the cluster it puts the decoded
row into the same row of the understudy and nowhere else. While a write-back of the bank is to come it reads nothing (R254, R259, R260, R269). -/
def scrubReadsRule : Prop :=
  (∀ (s : State) (q cl bank : Nat), s.live → q < 4 → cl < 32 → bank < 16 → (∃ w ∈ (s.c.scrub q cl).writes, w.1 = bank) → exec (.scrubRead q cl bank) s = .next s) ∧
  (∀ (s : State) (q cl bank : Nat) (d : Decoded), s.working → q < 4 → cl < 32 → bank < 16 → (s.c.serviceTry q cl bank (45 + 4 * q)).2 = true →
    (∀ w ∈ (s.c.scrub q cl).writes, w.1 ≠ bank) →
    ((s.c.under q).copying ≠ some cl → s.c.fld oScrubCfg scrubCfg_EN = 1 → (s.c.scrub q cl).read.getLsbD bank = false →
      (s.c.scrub q cl).read ||| (1#16 <<< bank) ≠ 0xFFFF →
      decodeG (s.c.clusterRep q cl) (rowAt s.banks (rowKey q (s.c.built q cl) bank (s.c.scrub q cl).row)) = d →
      ∃ t, exec (.scrubRead q cl bank) s = .next t ∧ t.banks = s.banks ∧
        (t.c.scrub q cl).read = (s.c.scrub q cl).read ||| (1#16 <<< bank) ∧ (t.c.scrub q cl).row = (s.c.scrub q cl).row ∧
        (d.bad = false → d.fixed = 0 → (t.c.scrub q cl).writes = (s.c.scrub q cl).writes) ∧
        (d.bad = true ∨ d.fixed ≠ 0 → (t.c.scrub q cl).writes.find? (fun w => decide (w.1 = bank)) = some (bank, ((s.c.scrub q cl).row, s.c.bc + 8, d.word)))) ∧
    ((s.c.under q).copying = some cl → (s.c.under q).copied.getLsbD bank = false → (s.c.under q).switchAt = none → (s.c.under q).map = none →
      (s.c.under q).copyRow < 4095 → decodeG (s.c.clusterRep q cl) (rowAt s.banks (rowKey q cl bank (s.c.under q).copyRow)) = d →
      ∃ t, exec (.scrubRead q cl bank) s = .next t ∧ rowAt t.banks (rowKey q 64 bank (s.c.under q).copyRow) = d.word ∧
        (∀ k, k ≠ rowKey q 64 bank (s.c.under q).copyRow → rowAt t.banks k = rowAt s.banks k) ∧
        (t.c.under q).copying = some cl ∧ (t.c.under q).switchAt = none))

/-- Service writes and scrub reads: serviceWritesRule, scrubReadsRule. -/
def Obligations.ServiceTraffic : Prop := serviceWritesRule ∧ scrubReadsRule

/-- MARCH_CMD that is accepted starts a test on its cluster; a refused one reports its code. MARCH_DONE, after the time of the test and with the reads that gave another value than
was stored: a destructive test of a cluster leaves its rows at the fill granule, and fails where a read differs from what the background gives: FAIL_BANKS names
the banks, FIRST_ROW and FIRST_ELEM the earliest read; a transparent one leaves every row and fails where the signatures differ. A test of the understudy leaves the
understudy's rows so; one that fails makes the understudy UNAVAILABLE, one that passes does not. Before that time, or with no test, it changes nothing (R264 to R267). The
order of the reads, by which the earliest is told, is log entry 104; that the rows take the fill granule with the event is log entry 67, and the signature log entry 105. -/
def marchTestsRule : Prop :=
  (∀ (s : State) (q cl : Nat) (us alg transp : Bool), s.accepting → q < 4 → cl < 64 →
    (s.c.marchCode q cl us alg transp ≠ 0 → exec (.marchCmd q cl us alg transp) s =
      .next (s.wrote (.marchCmd q cl us alg transp) (s.c.setFld (oMarchStat q) marchStat_RESULT (s.c.marchCode q cl us alg transp)))) ∧
    (s.c.marchCode q cl us alg transp = 0 → ∃ t, exec (.marchCmd q cl us alg transp) s = .next t ∧ t.banks = s.banks ∧
      t.c.fld (oMarchStat q) marchStat_STATE = 1 ∧ t.c.fld (oMarchStat q) marchStat_CLUSTER = cl ∧ t.c.fld (oMarchStat q) marchStat_US = us.toNat ∧
      t.c.marching q (if us then 64 else cl) = true ∧ (∀ o, o ≠ oMarchStat q → t.c.reg o = s.c.reg o))) ∧
  (∀ (s : State) (q : Nat) (m : March) (l : List MarchRead), s.working → q < 4 → s.c.boot.factory = false →
    s.c.marches.find? (fun x => decide (x.1 = q)) = some (q, m) → m.us = false → (s.c.under q).copying = none →
    (s.c.bc < m.startBc + m.time → exec (.marchDone q l) s = .next s) ∧
    (m.startBc + m.time ≤ s.c.bc → m.transp = false → ∃ t, exec (.marchDone q l) s = .next t ∧ Fills s t (ClusterRow q m.cluster) ∧
      t.c.fld (oMarchStat q) marchStat_STATE = 2 ∧ t.pending = s.pending ∧
      ((∀ d ∈ l, m.wrong d = false) → t.c.fld (oMarchStat q) marchStat_RESULT = 0 ∧ t.c.fld (oMarchStat q) marchStat_FAIL_BANKS = 0) ∧
      (∀ d, m.earliest (l.filter m.wrong) = some d → t.c.fld (oMarchStat q) marchStat_RESULT = 1 ∧ t.c.fld (oMarchStat q) marchStat_FIRST_ROW = d.row ∧
        t.c.fld (oMarchStat q) marchStat_FIRST_ELEM = d.elem ∧ ∀ b, b < 16 →
          Nat.testBit (t.c.fld (oMarchStat q) marchStat_FAIL_BANKS) b = decide (∃ e ∈ l, m.wrong e = true ∧ e.bank = b))) ∧
    (∀ fails, m.startBc + m.time ≤ s.c.bc → m.transp = true → fails = transpFails (fun bank row => rowAt s.banks (rowKey q m.cluster bank row)) l →
      ∃ t, exec (.marchDone q l) s = .next t ∧ t.banks = s.banks ∧ t.c.fld (oMarchStat q) marchStat_STATE = 2 ∧
        t.c.fld (oMarchStat q) marchStat_RESULT = fails.toNat ∧ t.c.fld (oMarchStat q) marchStat_FAIL_BANKS = (if fails then 0xFFFF else 0))) ∧
  (∀ (s : State) (q : Nat) (m : March) (l : List MarchRead), s.working → q < 4 → s.c.marches.find? (fun x => decide (x.1 = q)) = some (q, m) → m.us = true →
    m.transp = false → m.startBc + m.time ≤ s.c.bc → ∃ t, exec (.marchDone q l) s = .next t ∧ Fills s t (ClusterRow q 64) ∧ t.pending = s.pending ∧
      t.c.fld (oMarchStat q) marchStat_STATE = 2 ∧ t.c.marches.find? (fun x => decide (x.1 = q)) = none ∧
      ((∀ d ∈ l, m.wrong d = false) → t.c.fld (oMarchStat q) marchStat_RESULT = 0 ∧ t.c.under q = s.c.under q ∧ t.c.fld (oUsStat q) usStat_STATE = s.c.fld (oUsStat q) usStat_STATE) ∧
      ((∃ d ∈ l, m.wrong d = true) → t.c.fld (oMarchStat q) marchStat_RESULT = 1 ∧ (t.c.under q).unavail = true ∧ t.c.fld (oUsStat q) usStat_STATE = 3)) ∧
  (∀ (s : State) (q : Nat) (l : List MarchRead), s.live → q < 4 → s.c.marches.find? (fun x => decide (x.1 = q)) = none → exec (.marchDone q l) s = .next s)

/-- MIGRATE and REPLACE that pass their checks begin, others report their code. MIGRATE_SWITCH gives the understudy the cluster's name in its frame and not before.
US_FILL_DONE, 4,096 bc after a REPLACE's switch and not before, leaves the understudy's rows at the fill granule and the understudy MAPPED. FENCE of a built cluster fences
it and every region that names it, and changes no other region; of one that is fenced or not built it only shows OK. Fencing a whole quadrant fences every region that
names a cluster of it, built or not (R34, R269 to R271; log entry 26). -/
def understudiesAndFencesRule : Prop :=
  (∀ (s : State) (q cl : Nat), s.accepting → q < 4 → cl < 64 →
    (s.c.usCode q cl ≠ 0 → exec (.migrate q cl) s = .next (s.wrote (.migrate q cl) (s.c.usResult q (s.c.usCode q cl))) ∧
      exec (.replace q cl) s = .next (s.wrote (.replace q cl) (s.c.usResult q (s.c.usCode q cl)))) ∧
    (s.c.usCode q cl = 0 → ∃ t, exec (.migrate q cl) s = .next t ∧ t.c.under q = { copying := some cl, how := 2, copySince := s.c.bc } ∧ t.banks = s.banks ∧
      t.c.fld (oUsStat q) usStat_STATE = 1 ∧ t.c.fld (oUsStat q) usStat_CLUSTER = cl ∧ t.c.fld (oUsStat q) usStat_RESULT = 0 ∧
      (∀ o, o ≠ oUsStat q → t.c.reg o = s.c.reg o) ∧ (∀ p, p ≠ q → t.c.under p = s.c.under p)) ∧
    (s.c.usCode q cl = 0 → ∃ t, exec (.replace q cl) s = .next t ∧ (t.c.under q).filling = true ∧ (t.c.under q).switchAt = some (s.c.bc / 256 + 1) ∧
      t.banks = s.banks ∧ t.c.fld (oUsStat q) usStat_STATE = 1 ∧ t.c.fld (oUsStat q) usStat_CLUSTER = cl ∧ t.c.fld (oUsStat q) usStat_LOST = 1 ∧
      (∀ r, r < 64 → (mapClusters (s.c.reg (oRegion r)).toNat).contains (q * 64 + cl) = true → s.c.fld (oRegion r) region_VALID = 1 →
        t.c.fld (oRegion r) region_BUSY = 1) ∧ (∀ p, p ≠ q → t.c.under p = s.c.under p)) ∧
    (32 ≤ cl ∨ s.c.isFenced q cl = true → exec (.fence q cl) s = .next (s.wrote (.fence q cl) (s.c.usResult q 0))) ∧
    (cl < 32 → s.c.isFenced q cl = false → ∃ t, exec (.fence q cl) s = .next t ∧ t.c.isFenced q cl = true ∧ t.banks = s.banks ∧
      (∀ r, r < 64 → (mapClusters (s.c.reg (oRegion r)).toNat).contains (q * 64 + cl) = true → t.c.fld (oRegion r) region_FENCED = 1) ∧
      (∀ r, r < 64 → (mapClusters (s.c.reg (oRegion r)).toNat).contains (q * 64 + cl) = false → t.c.reg (oRegion r) = s.c.reg (oRegion r)))) ∧
  (∀ (s : State) (q cl f : Nat), s.working → q < 4 → (s.c.under q).copying = some cl → (s.c.under q).switchAt = some f →
    (s.c.bc / 256 < f → exec (.migrateSwitch q) s = .next s) ∧
    (f ≤ s.c.bc / 256 → ∃ t, exec (.migrateSwitch q) s = .next t ∧ t.banks = s.banks ∧ (t.c.under q).map = some cl ∧ (t.c.under q).copying = none ∧
      t.c.built q cl = 64 ∧ t.c.fld (oUsStat q) usStat_STATE = 2 ∧ (∀ p, p ≠ q → t.c.under p = s.c.under p))) ∧
  (∀ (s : State) (q cl : Nat), s.working → q < 4 → s.c.boot.factory = false → (s.c.under q).map = some cl → (s.c.under q).copying = none →
    (s.c.under q).filling = true → (s.c.under q).switchAt = none →
    (s.c.bc < (s.c.under q).fillFrom + 4096 → exec (.usFillDone q) s = .next s) ∧
    ((s.c.under q).fillFrom + 4096 ≤ s.c.bc → ∃ t, exec (.usFillDone q) s = .next t ∧ Fills s t (ClusterRow q 64) ∧ (t.c.under q).filling = false ∧
      (t.c.under q).map = some cl ∧ t.c.fld (oUsStat q) usStat_STATE = 2)) ∧
  (∀ (c : Ctl) (q : Nat), q < 4 → c.quadFenced q = false → (c.quadFence q).quadFenced q = true ∧
    ∀ r, r < 64 → (mapClusters (c.reg (oRegion r)).toNat).any (fun k => decide (k / 64 = q)) = true → (c.quadFence q).fld (oRegion r) region_FENCED = 1)

/-- March tests, understudies and fences: marchTestsRule, understudiesAndFencesRule. -/
def Obligations.MarchAndUnderstudies : Prop := marchTestsRule ∧ understudiesAndFencesRule

/-! ### Digests and weight images (R284 to R288) -/

/-- The message of R288: the header's 32 data bytes, then the payload data bytes in order, a poisoned granule's as zero. -/
def inputMessage (header : Nat) (data : List Granule) : List Byte :=
  leBytes 32 header ++ data.flatMap fun g => if gPoison g then List.replicate 32 0 else granuleBytes g

/-- A completed load's program digest is the SHA-256 of the half as fetched, word 0 first, and is valid; with a granule that is uncorrectable at the fetch check point BUSY falls
and VALID stays as the load left it, with the digest words untouched. The oldest counted input packet gives its window the SHA-256 of its header and payload, with
poisoned granules as zero, and the arrival count of the packet; no other window's words change (R284, R285, R288). The digest is formed when the DONE event is carried
out (log entry 66). -/
def programAndInputDigestsRule : Prop :=
  (∀ (s : State) (h d : Nat), s.working → h < 2 → s.c.audit.hashing.getLsbD h = true → s.c.loading (decide (h = 1)) = false →
    d = digestNat ((List.range 32768).flatMap fun i => granuleBytes (decodeG false (Tab.get fillGranule s.c.store (h * 32768 + i))).word) →
    ((∀ i, i < 32768 → (decodeG false (Tab.get fillGranule s.c.store (h * 32768 + i))).bad = false) → ∃ t, exec (.programDigestDone h) s = .next t ∧
      t.banks = s.banks ∧ t.c.store = s.c.store ∧ t.c.fld (oProgDig h) progDig_VALID = 1 ∧ t.c.fld (oProgDig h) progDig_BUSY = 0 ∧
      ∀ i, i < 4 → t.c.reg (oProgDig h + 8 * i) = BitVec.ofNat 64 (d >>> (64 * i))) ∧
    ((∃ i, i < 32768 ∧ (decodeG false (Tab.get fillGranule s.c.store (h * 32768 + i))).bad = true) → ∃ t, exec (.programDigestDone h) s = .next t ∧
      t.banks = s.banks ∧ t.c.store = s.c.store ∧ t.c.fld (oProgDig h) progDig_VALID = s.c.fld (oProgDig h) progDig_VALID ∧ t.c.fld (oProgDig h) progDig_BUSY = 0 ∧
      t.c.audit.hashing.getLsbD h = false ∧ ∀ i, i < 4 → t.c.reg (oProgDig h + 8 * i) = s.c.reg (oProgDig h + 8 * i))) ∧
  (∀ s : State, s.c.audit.hashing = 0 → ∀ h, h < 2 → exec (.programDigestDone h) s = .next s) ∧
  (∀ (s : State) (p : ToHash) (rest : List ToHash), s.working → s.c.audit.queue = p :: rest → p.window < 1024 → ∃ t, exec .inputDigestDone s = .next t ∧
    t.banks = s.banks ∧ t.c.audit = { s.c.audit with queue := rest } ∧ t.c.fld (oInDig p.window) inDig_VALID = 1 ∧
    (∀ i, i < 4 → t.c.reg (oInDig p.window + 8 * i) = BitVec.ofNat 64 (leNat (sha256Bytes (inputMessage p.header p.data)) >>> (64 * i))) ∧
    t.c.fld (oInDig p.window) inDig_COUNT = p.count.toNat ∧
    (∀ o, o < oInDig p.window ∨ oInDig p.window + 48 ≤ o → t.c.reg o = s.c.reg o))

/-- WIMG_OPEN, SEAL and RELEASE in their states, and refused with their code outside them; SEAL begins the hash with nothing read. The debug read path, in a service slot that
it wins, reads the next granule of a bank image into the hash, and one that is poisoned or uncorrectable fails it. WIMG_HASH_DONE, once every granule has been read,
stores the root of the granules and seals the image, UNSEALED if it was tainted or written meanwhile; once one has failed, the image is FAILED; before that it changes nothing (R286, R287; formed with the event: log entry 66). -/
def weightImagesRule : Prop :=
  (∀ (s : State) (k : Nat), s.accepting → k < 8 →
    (s.c.wimgCode k = 0 → exec (.wimgOpen k) s = .next (s.wrote (.wimgOpen k) (((s.c.wimgResult 0).setFld (oWimg k) wimg_STATE 1).setFld (oWimg k) wimg_TAINTED 0))) ∧
    (s.c.wimgCode k ≠ 0 → exec (.wimgOpen k) s = .next (s.wrote (.wimgOpen k) (s.c.wimgResult (s.c.wimgCode k)))) ∧
    (s.c.wi k wimg_STATE ≠ 1 → exec (.seal k) s = .next (s.wrote (.seal k) (s.c.wimgResult 1))) ∧
    (s.c.wi k wimg_STATE = 1 → ∃ t, exec (.seal k) s = .next t ∧ t.banks = s.banks ∧ t.c.wi k wimg_STATE = 2 ∧ t.c.fld oWimgCmd wimgCmd_RESULT = 0 ∧
      Tab.get none t.c.audit.hashes k = some { since := s.c.bc } ∧
      (∀ o, o ≠ oWimg k → o ≠ oWimgCmd → t.c.reg o = s.c.reg o)) ∧
    (s.c.wi k wimg_STATE = 2 → exec (.release k) s = .next (s.wrote (.release k) (s.c.wimgResult 1))) ∧
    (s.c.wi k wimg_STATE ≠ 2 → exec (.release k) s = .next (s.wrote (.release k) ((s.c.wimgResult 0).setFld (oWimg k) wimg_STATE 0)))) ∧
  (∀ (s : State) (k : Nat), s.working → k < 8 →
    (∀ h : HashRun, s.c.wi k wimg_STATE = 2 → Tab.get none s.c.audit.hashes k = some h →
      (h.failed = false → h.got.length < s.c.wi k wimg_LEN → exec (.wimgHashDone k) s = .next s) ∧
      (h.failed = false → s.c.wi k wimg_LEN ≤ h.got.length → ∃ t, exec (.wimgHashDone k) s = .next t ∧ t.banks = s.banks ∧ Tab.get none t.c.audit.hashes k = none ∧
        (∀ i, i < 4 → t.c.reg (oWimg k + 32 + 8 * i) = BitVec.ofNat 64 (imageRoot (h.got.map fun e => e.2) >>> (64 * i))) ∧
        t.c.wi k wimg_STATE = (if s.c.wi k wimg_TAINTED = 1 ∨ s.c.audit.dirty.getLsbD k = true then 4 else 3)) ∧
      (h.failed = true → ∃ t, exec (.wimgHashDone k) s = .next t ∧ t.banks = s.banks ∧ t.c.wi k wimg_STATE = 5 ∧ Tab.get none t.c.audit.hashes k = none ∧
        (∀ o, o ≠ oWimg k → t.c.reg o = s.c.reg o))) ∧
    (s.c.wi k wimg_STATE ≠ 2 ∨ Tab.get none s.c.audit.hashes k = none → exec (.wimgHashDone k) s = .next s) ∧
    (∀ (b : Tab Granule) (q n gi : Nat) (d : Decoded) (h : HashRun), q < 4 → s.c.debugNext q = some (k, n, gi) → Tab.get none s.c.audit.hashes k = some h →
      (s.c.serviceTry q (s.c.place gi).cluster (s.c.place gi).bank (48 + 4 * q)).2 = true → d = decodeG (s.c.repOf gi) (rowAt b (s.c.keyOf (s.c.place gi))) →
      Tab.get none (Ctl.debugStep b q s.c).audit.hashes k = some { h with got := Tab.put d.word n h.got, failed := h.failed || d.bad || d.pois }))

/-- Digests and weight images: programAndInputDigestsRule, weightImagesRule. -/
def Obligations.DigestsAndWeightImages : Prop := programAndInputDigestsRule ∧ weightImagesRule

/-! ### Intermissions (R277 to R283) -/

/-- A setting with which nothing can be saved (R277, MIO_INTM_CMD). -/
def cannotSave (c : Ctl) : Prop :=
  c.fld oIntmCfg intmCfg_PORTS = 0 ∨ c.fld oIntmAddr intmAddr_SADDR % 128 ≠ 0 ∨
    4096 < c.fld oIntmAddr intmAddr_CNT_FIRST + c.fld oIntmAddr intmAddr_CNT_N

/-- The state after command i, a RESUME or a SAVE ended by a trapped sequencer: PHASE 0, every hold released, nothing noted, and no other register or sequencer changed. -/
def intmOver (i : Instr) (s t : State) (res : Nat) : Prop :=
  t = s.wrote i { s.c with regs := t.c.regs, groups := t.c.groups, audit := t.c.audit } ∧ t.c.intmPhase = 0 ∧
    t.c.fld oIntmStat intmStat_RESULT = res ∧ (∀ g, g < 32 → t.c.group g = { s.c.group g with intmHeld := false }) ∧
    t.c.audit = { s.c.audit with hold := 0, quiet := 0, saveAt := none, save := none, rest := none } ∧ ∀ o, o ≠ oIntmStat → t.c.reg o = s.c.reg o

/-- No send descriptor runs. -/
def nothingSent (s : State) : Prop := ∀ e, e < 256 → s.c.sdState e ≠ 2

/-- SAVE is refused outside PHASE 0 with STATE and with a setting that cannot be saved with CONFIG. Else it is taken, and a named group whose sequencers are all HALTED is held
at once: PHASE 1 while a named group is neither held nor HALTED, PHASE 2 once every one is held; with a TRAPPED sequencer in a named group it ends with STATE (R277; the last
where no descriptor runs). -/
def saveRule : Prop :=
  ∀ (s : State) (atEn : Bool) (scene : BitVec 32), s.accepting →
    (s.c.intmPhase ≠ 0 → exec (.save atEn scene) s = .next (s.wrote (.save atEn scene) ((s.c.setIntm intmStat_RESULT 1).flag oIntmStat intmStat_REFUSED))) ∧
    (s.c.intmPhase = 0 → cannotSave s.c → exec (.save atEn scene) s = .next (s.wrote (.save atEn scene) ((s.c.setIntm intmStat_RESULT 2).flag oIntmStat intmStat_REFUSED))) ∧
    (∀ named : Nat → Prop, s.c.intmPhase = 0 → ¬ cannotSave s.c →
      (∀ g, named g ↔ g < 32 ∧ Nat.testBit (s.c.fld oIntmCfg intmCfg_GROUPS) g = true) →
      ((∀ g n, named g → n ∈ s.c.members g → (s.c.seq n).state ≠ .trapped) → ∃ t, exec (.save atEn scene) s = .next t ∧ t.banks = s.banks ∧
        t = s.wrote (.save atEn scene) { s.c with regs := t.c.regs, groups := t.c.groups, audit := t.c.audit } ∧
        t.c.fld oIntmStat intmStat_RESULT = 0 ∧ (∀ o, o ≠ oIntmStat → t.c.reg o = s.c.reg o) ∧
        (∀ g, named g → (∀ n ∈ s.c.members g, (s.c.seq n).state = .halted) → t.c.group g = { s.c.group g with intmHeld := true }) ∧
        (∀ g, ¬ named g ∨ (∃ n ∈ s.c.members g, (s.c.seq n).state ≠ .halted) → t.c.group g = s.c.group g) ∧
        ((∃ g, named g ∧ (s.c.group g).intmHeld = false ∧ ∃ n ∈ s.c.members g, (s.c.seq n).state ≠ .halted) →
          t.c.intmPhase = 1 ∧ t.c.audit = { s.c.audit with saveAt := if atEn then some scene else none }) ∧
        ((∀ g, named g → (s.c.group g).intmHeld = true ∨ ∀ n ∈ s.c.members g, (s.c.seq n).state = .halted) →
          t.c.intmPhase = 2 ∧ t.c.audit = { s.c.audit with saveAt := if atEn then some scene else none, quiet := BitVec.ofNat 32 s.c.intmMask })) ∧
      ((∃ g n, named g ∧ n ∈ s.c.members g ∧ (s.c.seq n).state = .trapped) → nothingSent s →
        ∃ t, exec (.save atEn scene) s = .next t ∧ intmOver (.save atEn scene) s t 1))

/-- The conditions of R278 on the named groups: the accesses and releases of their sequencers, the requests and landings of their RUNNING contexts, their contexts in the curtains,
the packets of their windows and the packets of their RUNNING send descriptors. -/
def quiesced (c : Ctl) : Prop :=
  (∀ g n, g < 32 → Nat.testBit c.intmMask g = true → n ∈ c.members g → (∀ r ∈ (c.seq n).reads, r.done = true) ∧ (∀ w ∈ (c.seq n).writes, w.done = true) ∧
    (c.seq n).releases = [] ∧ (c.seq n).gatherOver c.ec = true) ∧
  (∀ x, x < 16384 → c.cx x strCtx_STATE = 2 → Nat.testBit c.intmMask (c.cx x strCtx_GROUP) = true →
    c.cx x strCtx_OUTST = 0 ∧ (∀ l ∈ c.landed, l.ctx ≠ x) ∧ ∀ a ∈ c.areqs, a.kind.isCtx x = false) ∧
  (∀ k ∈ c.curtains, (∀ e ∈ k.2.parts, 0x4000 ≤ e.1 → Nat.testBit c.intmMask (c.cx (e.1 - 0x4000) strCtx_GROUP) = true → e.2.state = .out) ∧
    k.2.round0.grown = none ∧ k.2.round1.grown = none ∧ k.2.coming = []) ∧
  (∀ p ∈ c.packets, Nat.testBit c.intmMask (c.winOwner p.window) = false) ∧
  (∀ e, e < 256 → c.sdState e = 2 → Nat.testBit c.intmMask (c.sd e lsend_GROUP) = true → (c.send e).unacked = [] ∧ ∀ l ∈ c.links, ∀ t ∈ l.2.data, t.desc ≠ some e)

/-- INTM_QUIESCED, once the conditions of R278 hold, forms the image: PHASE 3, its length, the part before the banks as it stands and the banks that the groups own; before
that it changes nothing. SAVE_DONE ends the writing with PHASE 4 once every request is answered, RESULT 6 where one failed; before that it changes nothing. RESUME releases
every hold and returns to PHASE 0, and is refused with STATE in PHASE 0, 3 and 5 (R278 to R283; RESUME where no descriptor runs). -/
def quiesceRule : Prop :=
  (∀ c : Ctl, c.intmQuiet = true ↔ quiesced c) ∧
  (∀ s : State, s.working →
    (s.c.intmPhase ≠ 1 → s.c.intmPhase ≠ 2 → exec .intmQuiesced s = .next s) ∧
    (s.c.intmPhase = 2 → s.c.intmTrapped = false → ¬ quiesced s.c → exec .intmQuiesced s = .next s) ∧
    (∀ r : SaveRun, s.c.intmPhase = 2 → s.c.intmTrapped = false → quiesced s.c → r = { front := s.c.imgFront, banks := s.c.imgOwned s.c.intmMask } →
      exec .intmQuiesced s = .next (s.units { (s.c.setIntm intmStat_PHASE 3).setIntm intmStat_IMG_LEN (r.front.length + 4096 * r.banks.length) with
        audit := { s.c.audit with hold := BitVec.ofNat 32 s.c.intmMask, save := some r } })) ∧
    (s.c.audit.save = none ∨ s.c.intmPhase ≠ 3 → exec .saveDone s = .next s) ∧
    (∀ r, s.c.audit.save = some r → s.c.saveOver r = false → exec .saveDone s = .next s) ∧
    (∀ r, s.c.audit.save = some r → s.c.intmPhase = 3 → s.c.saveOver r = true → exec .saveDone s = .next (s.units
      { (s.c.setIntm intmStat_PHASE 4).setIntm intmStat_RESULT (if r.failed then 6 else 0) with audit := { s.c.audit with hold := 0, save := none } }))) ∧
  (∀ s : State, s.accepting →
    (s.c.intmPhase = 0 ∨ s.c.intmPhase = 3 ∨ 5 ≤ s.c.intmPhase →
      exec .resume s = .next (s.wrote .resume ((s.c.setIntm intmStat_RESULT 1).flag oIntmStat intmStat_REFUSED))) ∧
    (s.c.intmPhase = 1 ∨ s.c.intmPhase = 2 ∨ s.c.intmPhase = 4 → nothingSent s → ∃ t, exec .resume s = .next t ∧ intmOver .resume s t 0))

/-- Bits of word k of a window that its granule of an image holds: the others are reserved there (log entry 28). -/
def winSaved (k : Nat) : Word := if k = 0 then 0xFFFFFFFFFFFFDFFF else if k = 1 then 0x00FFFFFFFFFFFFFF else if k = 2 then 0x00000003FFFFFFFF else 0xFFFFFFFF000FFFFF

/-- The part of the image before the banks: the header of R281 with its check word, and in the order of R280 the map, the cue sheets, the read-ahead entries behind each
sequencer's state, and contexts, windows, send descriptors and counters, each section behind its map where it has one. -/
def imageRule : Prop :=
  ∀ (c : Ctl) (m h first n : Nat) (img : List Granule) (p : ImgPlan), m = c.intmMask → img = c.imgFront → h = imgNat img 0 8 → p = imgPlan h →
    first = c.fld oIntmAddr intmAddr_CNT_FIRST → n = c.fld oIntmAddr intmAddr_CNT_N →
    img.length = p.banks ∧
    (headField h 0 4 = 0x4D494E54 ∧ headField h 4 4 = 0x201 ∧ headField h 8 8 = c.geomWord ∧ headField h 0x10 8 = (c.reg oLatMap).toNat ∧ headField h 0x18 4 = m ∧
      headField h 0x1C 2 = first ∧ headField h 0x1E 2 = n ∧ headField h 0x20 8 = (c.reg oIntmCur).toNat ∧ headField h 0x28 4 = (c.imgSeqs m).length ∧
      headField h 0x2C 4 = (c.imgCtxs m).length ∧ headField h 0x30 4 = (c.imgWins m).length ∧ headField h 0x34 4 = (c.imgSends m).length ∧
      headField h 0x38 4 = (c.imgOwned m).length ∧ headField h 0x3C 4 = img.length + 4096 * (c.imgOwned m).length ∧ headField h 0x40 8 = frameOf c.bc ∧
      headField h 0x48 4 = c.time.sub / 2 ^ 32 % 2 ^ 32 ∧ headField h 0x4C 4 = c.time.sec % 2 ^ 32 ∧ headField h 0x50 48 = 0 ∧ headField h 0xC0 60 = 0 ∧
      (∀ k, k < 2 → headField h (0x80 + 32 * k) 32 = (if (c.imgSeqs m).any (fun j => decide ((c.seq j).half.toNat = k)) then c.reg256 (oProgDig k) else 0)) ∧
      headField h 0xFC 4 = crc32c (leBytes 252 h ++ dataBytes (img.drop 8))) ∧
    (∀ r, r < 64 → imgWord img 8 r = c.reg (oRegion r)) ∧ (∀ k, k < 256 → imgWord img 24 k = c.reg (oBankOwn k)) ∧
    (∀ q k, q < 4 → k < 512 → imgWord img (88 + 256 * q) k = c.reg (csOff q 1 0 0 + 8 * k) ∧ imgWord img (216 + 256 * q) k = c.reg (csOff q 0 0 0 + 8 * k)) ∧
    (∀ i j k, (c.imgSeqs m)[i]? = some j → k < 128 →
      img[p.seqs + 144 * i + 16 + k]? = some (match (c.seq j).raLive[k]? with | some e => e.granule | none => fillGranule)) ∧
    imgBits img p.ctxs 64 = c.imgCtxs m ∧
    (∀ i x k, (c.imgCtxs m)[i]? = some x → k < 8 → imgWord img (p.ctxs + 64 + 2 * i) k = c.reg (oStrCtx x + 8 * k)) ∧
    imgBits img p.wins 4 = c.imgWins m ∧
    (∀ i w k, (c.imgWins m)[i]? = some w → k < 4 → imgWord img (p.wins + 4 + i) k &&& winSaved k = c.reg (oWin w + 8 * k) &&& winSaved k) ∧
    imgBits img p.sends 1 = c.imgSends m ∧
    (∀ i e k, (c.imgSends m)[i]? = some e → k < 7 → imgWord img (p.sends + 1 + 2 * i) k = c.reg (oLsend e + 8 * k)) ∧
    (∀ i, i < n → bits (imgNat img (p.cnts + i / 8) 1) (32 * (i % 8)) 32 = c.fld (oCnt (first + i)) cnt_VALUE)

/-- SAVE, quiescence, the image before its banks, SAVE_DONE and RESUME: saveRule, quiesceRule, imageRule. -/
def Obligations.SaveAndResume : Prop := saveRule ∧ quiesceRule ∧ imageRule

/-- RESTORE is refused outside PHASE 0 and 4 with STATE; else it begins to read the image, in PHASE 5 with RESULT 0. In each ec it goes on with what has come: while the part
before the banks is not whole it asks for it; a check that fails ends it with the check's code, a read that timed out with STACK, in the phase it was taken in and with no section
written; with every check passed it holds the image's groups and goes on to the image's banks (R282). That the part before the banks is checked once when it is whole,
that an errored granule of it gives HEADER, and the return to the phase it was taken in are log entry 107 (DESIGN CHOICE). -/
def restoreRule : Prop :=
  (∀ (s : State) (sheets : Bool), s.accepting →
    (s.c.intmPhase ≠ 0 → s.c.intmPhase ≠ 4 →
      exec (.restore sheets) s = .next (s.wrote (.restore sheets) ((s.c.setIntm intmStat_RESULT 1).flag oIntmStat intmStat_REFUSED))) ∧
    (s.c.intmPhase = 0 ∨ s.c.intmPhase = 4 → exec (.restore sheets) s = .next (s.wrote (.restore sheets) ((({ s.c with audit := { s.c.audit with
      hold := BitVec.ofNat 32 s.c.intmMask, rest := some { sheets := sheets, wasHeld := decide (s.c.intmPhase = 4) } } } : Ctl).setIntm intmStat_RESULT 0).setIntm intmStat_PHASE 5)))) ∧
  (∀ (c : Ctl) (r : RestRun) (back : Nat), c.sysReady = true → c.blackout = false → c.intmPhase = 5 →
    c.audit.rest = some r → r.groups = none → back = (if r.wasHeld then 4 else 0) →
    (r.failed = true → c.restoreOn.intmPhase = back ∧ c.restoreOn.fld oIntmStat intmStat_RESULT = 6 ∧ c.restoreOn.audit = { c.audit with hold := 0, rest := none } ∧
      c.restoreOn.seqs = c.seqs ∧ c.restoreOn.groups = c.groups ∧ (r.unchecked = [] → ∀ o, o ≠ oIntmStat → c.restoreOn.reg o = c.reg o)) ∧
    (r.failed = false → r.front = none → c.restoreOn = c) ∧
    (∀ n img k, r.failed = false → r.front = some n → img = r.image n → k = (if r.erred n then 7 else c.restoreCode r.sheets img) →
      (img.length < n → c.restoreOn = { c with audit := { c.audit with rest := some { r with len := max r.len n } } }) ∧
      (n ≤ img.length → k ≠ 0 → c.restoreOn.intmPhase = back ∧ c.restoreOn.fld oIntmStat intmStat_RESULT = k ∧
        c.restoreOn.audit = { c.audit with hold := 0, rest := none } ∧ c.restoreOn.seqs = c.seqs ∧ c.restoreOn.groups = c.groups) ∧
      (n ≤ img.length → k = 0 → ∃ r' m, c.restoreOn.audit.rest = some r' ∧ m = BitVec.ofNat 32 (headField (imgNat img 0 8) 0x18 4) ∧
        r'.groups = some m ∧ r'.base = n ∧ r'.banks = imgBankList img m.toNat ∧ r'.len = n + 4096 * (imgBankList img m.toNat).length)))

/-- The bank section of a RESTORE: a granule that comes in its stream slot is the one row written, and is counted. RESTORE_DONE, once every row of the image's banks has come or
a read has timed out and nothing is under way, ends the RESTORE in PHASE 4: RESULT 6 after a time-out, 5 where a granule landed poisoned, else 0; before that it changes
nothing (R282, R283). A row is written whoever owns its bank (log entry 107, DESIGN CHOICE); one of a bank that is striking is not (R25, R314). Outside factory test mode. -/
def restoreBanksRule : Prop :=
  (∀ (s : State) (id i pb row : Nat) (a : AReq) (c : Ctl) (r : RestRun), s.live → (∀ b ∈ s.c.areqs, b.req < 61) → s.c.boot.factory = false → s.c.audit.rest = some r →
    s.c.reqOf id = some a → a.kind = .imgLand i pb row → pb < 2048 → row < 4096 → s.c.firstSlot a = some (c, true) →
    ∃ t, exec (.streamLanding id) s = .next t ∧ t.pending = s.pending ∧ t.c.reqOf id = none ∧ t.c.audit.rest = some { r with landed := r.landed + 1 } ∧
      (s.c.striking pb = true → t.banks = s.banks) ∧
      (s.c.striking pb = false → a.gi < 2 ^ 24 → Commits s t a.gi a.granule) ∧
      (s.c.striking pb = false → 2 ^ 24 ≤ a.gi → Puts s t (rowKey (pb / 512) (s.c.built (pb / 512) (pb / 16 % 32)) (pb % 16) row) a.granule)) ∧
  (∀ s : State, s.working →
    (s.c.audit.rest = none → exec .restoreDone s = .next s) ∧
    (∀ (r : RestRun) (m : BitVec 32), s.c.audit.rest = some r → r.groups = some m →
      (s.c.intmPhase ≠ 5 ∨ s.c.sysFlying .restore = true ∨ (∃ a ∈ s.c.areqs, ∃ i pb row, a.kind = .imgLand i pb row) ∨ (r.failed = false ∧ r.landed < 4096 * r.banks.length) →
        exec .restoreDone s = .next s) ∧
      (s.c.intmPhase = 5 → s.c.sysFlying .restore = false → (∀ a ∈ s.c.areqs, ∀ i pb row, a.kind ≠ .imgLand i pb row) → r.failed = true ∨ 4096 * r.banks.length ≤ r.landed →
        exec .restoreDone s = .next (s.units { (s.c.setIntm intmStat_PHASE 4).setIntm intmStat_RESULT (if r.failed then 6 else if r.pois then 5 else 0) with
          audit := { s.c.audit with rest := none } }))))

/-- RESTORE checks an image and writes its banks: restoreRule, restoreBanksRule. -/
def Obligations.RestoreWritesTheImage : Prop := restoreRule ∧ restoreBanksRule

/-! ### Time and tableau (R296 to R301) -/

/-- TIME_SET takes the set at once or keeps it for the next PPS edge, and TIME_SET_CANCEL drops it; either way what was kept before is gone (log entry 51). TIME_NOW_READ is accepted with
fewer than four requests outstanding, and changes nothing with four; when it completes, in a later cc and before any request accepted after it (log entry 109), it returns the
counter and SEC_HI takes the upper seconds. HOLDOVER leaves LOCKED after 2 s without an edge, with the count of good captures begun anew (log entry 30), and changes nothing
otherwise (R63, R298 to R300). -/
def timeRule : Prop :=
  (∀ (s : State) (sec : BitVec 48), s.accepting →
    exec (.timeSet sec true) s = .next (s.wrote (.timeSet sec true) { s.c.setFld oTimeCtl timeCtl_SET_PEND 1 with
      time := { s.c.time with pending := some sec, setCc := s.c.cc } }) ∧
    (∃ t, exec (.timeSet sec false) s = .next t ∧ t.banks = s.banks ∧ t.c.time.sec = sec.toNat ∧
      t.c.time.sub / 2 ^ 32 = s.c.fld oTimeSetNs timeSetNs_NS ∧ t.c.time.pending = none ∧ t.c.timeState = 1 ∧
      t.c.fld oTimeCtl timeCtl_SET_PEND = 0 ∧ ∀ o, o ≠ oTimeCtl → t.c.reg o = s.c.reg o) ∧
    exec .timeSetCancel s = .next (s.wrote .timeSetCancel { s.c.setFld oTimeCtl timeCtl_SET_PEND 0 with
      time := { s.c.time with pending := none, setCc := s.c.cc } })) ∧
  (∀ s : State, s.live →
    (s.c.outstanding < 4 → exec .timeNowRead s = .next (s.units { s.c with cReqs := s.c.cReqs ++ [.read oTimeNow 3] })) ∧
    (4 ≤ s.c.outstanding → exec .timeNowRead s = .next s) ∧
    (∀ e, s.c.time.since = some e → s.c.timeState = 2 → 2 * (10 ^ 9 * 2 ^ 32) ≤ e → exec .holdover s =
      .next (s.units { s.c.setFld oTimeCtl timeCtl_STATE 3 with time := { s.c.time with good := 0 } })) ∧
    (∀ e, s.c.time.since = some e → s.c.timeState ≠ 2 ∨ e < 2 * (10 ^ 9 * 2 ^ 32) → exec .holdover s = .next s)) ∧
  (∀ (c : Ctl) (rest : List CReq), c.cReqs = .read oTimeNow 3 :: rest →
    (c.cRsp.valid = true → c.cReady = false → c.readsNow = c) ∧
    (c.cRsp.valid = false ∨ c.cReady = true → c.clamped = false → c.readsNow = { c.setFld oTimeCtl timeCtl_SEC_HI (c.time.sec / 2 ^ 32) with
      cReqs := rest, cRsp := { valid := true, rdata := BitVec.ofNat 64 (c.time.sub / 2 ^ 32 + c.time.sec % 2 ^ 32 * 2 ^ 32), status := 0 } }))

/-- A detected PPS edge captures the counter minus PPS_COMP and the frame reference, moves the time state by its offset, and applies a
set that was pending before its cc; one within 500 ms of the previous is ignored (R299, R300). -/
def ppsRule : Prop :=
  ∀ s : State, s.c.clk.frozen = false → s.c.boot.phase ≠ .inReset → s.c.power.mode < 4 →
    (∀ e, s.c.time.since = some e → e < 5 * 10 ^ 8 * 2 ^ 32 → exec .ppsEdge s = .next s) ∧
    (∀ ns comp st cap, (∀ e, s.c.time.since = some e → 5 * 10 ^ 8 * 2 ^ 32 ≤ e) → ns = s.c.time.sub / 2 ^ 32 → ns < 10 ^ 9 →
      comp = s.c.fld oTimeSetNs timeSetNs_PPS_COMP → st = s.c.timeState → cap = (if comp ≤ ns then ns - comp else ns + 10 ^ 9 - comp) →
      ∃ t, exec .ppsEdge s = .next t ∧ t.banks = s.banks ∧ t.c.time.since = some 0 ∧
        t.c.fld oTimePps timePps_NS = cap ∧ t.c.fld oTimePps timePps_NEW = 1 ∧
        (comp ≤ ns → t.c.fld oTimePps timePps_SEC = s.c.time.sec % 2 ^ 16) ∧
        t.c.fld oTimeFref timeFref_FRAME = frameOf s.c.bc ∧ t.c.fld oTimeFref timeFref_SLOT = slotOf s.c.bc ∧
        (∀ o, o ≠ oTimePps → o ≠ oTimeFref → o ≠ oTimeCtl → t.c.reg o = s.c.reg o) ∧
        (s.c.time.pending = none ∨ s.c.time.setCc = s.c.cc →
          t.c.time.sec = s.c.time.sec ∧ t.c.time.sub = s.c.time.sub ∧ t.c.time.pending = s.c.time.pending ∧
          t.c.timeState = (if s.c.fld oTimeCtl timeCtl_LOCK_NS < offsetOf cap then (if st = 2 ∨ st = 3 then 1 else st)
            else if (st = 1 ∨ st = 3) ∧ 3 ≤ s.c.time.good then 2 else st)) ∧
        (∀ sec, s.c.time.pending = some sec → s.c.time.setCc ≠ s.c.cc →
          t.c.time.sec = sec.toNat ∧ t.c.time.sub = comp * 2 ^ 32 ∧ t.c.time.pending = none ∧ t.c.timeState = 1))

/-- The time counter and its PPS captures: timeRule, ppsRule. -/
def Obligations.TimeCounter : Prop := timeRule ∧ ppsRule

/-- A request for a tableau is remembered from its first cc, over the stage door's frame, which recovery mode denies, and over the TAP's instruction; TABLEAU_STOP stops the clock at
a cc edge at least 2 cc after the request, also before the first rise of sys_ready, and changes nothing otherwise (R296, R354, R357; a TAP frame where the SPI target holds none). -/
def tableauRule : Prop :=
  ∀ (s : State) (via : DoorVia),
    (s.c.boot.phase ≠ .inReset → s.c.clk.tabReq = none → exec (.tableau .tapBit) s = .next (s.units
      { s.c.tap 0x41 [false] with clk := { s.c.clk with tabReq := some s.c.tbc } })) ∧
    (s.c.boot.phase = .inReset ∨ s.c.clk.tabReq.isSome = true → exec (.tableau .tapBit) s = .next (s.units (s.c.tap 0x41 [false]))) ∧
    (s.spiHolds via = false → s.c.doorUp = true → s.c.boot.phase ≠ .recovery → s.c.clk.tabReq = none → exec (.tableau (.frame via)) s = .next (s.units
      (Ctl.doorOut via { (s.c.frameBegins via).answer 0x31 0 [] with clk := { s.c.clk with tabReq := some s.c.tbc } }))) ∧
    (s.spiHolds via = false → s.c.boot.phase = .recovery → exec (.tableau (.frame via)) s = .next (s.units (((s.c.frameBegins via).answer 0x31 2 []).doorOut via))) ∧
    (∀ r, s.c.clk.tabReq = some r → s.c.clk.run = true → s.c.tbc % 8 = 0 → r + 16 ≤ s.c.tbc →
      exec .tableauStop s = .next (s.units { s.c with clk := { s.c.clk with frozen := true } })) ∧
    (s.c.clk.tabReq = none ∨ s.c.clk.run = false ∨ s.c.tbc % 8 ≠ 0 ∨ (∃ r, s.c.clk.tabReq = some r ∧ s.c.tbc < r + 16) → exec .tableauStop s = .next s)

/-! ### Faults (R302 to R321, R374) -/

/-- FAULT_RAISE, a sample of one pair of a source: (0, 1) only ends the pair's run of bad samples; (1, 0) raises the source: it is counted, at ALERT and FATAL latches the
error state and in native mode is captured if nothing is held, and at FATAL outside safe state orders its reaction; the third
bad sample of the pair in a row raises source 0 (R303, R304, R309 to R311). The cc are counted from the release of the block's clock on, also before the first
rise of sys_ready. The decision is taken in the cc of the raise (log entry 7, DEDUCED). -/
def raiseRule : Prop :=
  ∀ (s : State) (src pair key : Nat) (unit : BitVec 16), key = pair * 32 + src → s.c.clk.frozen = false → s.c.clk.run = true → src < 23 →
    exec (.faultRaise src pair 1 unit) s = .next (s.units { s.c with faults := { s.c.faults with bad := Tab.set (0, 0) s.c.faults.bad key (0, 0) } }) ∧
    (∀ v, v = s.c.sev src → ∃ t, exec (.faultRaise src pair 2 unit) s = .next t ∧ t.banks = s.banks ∧ t.pending = s.pending ∧
      t.c.fld (oFltCnt src) fltCnt_COUNT = min (s.c.fld (oFltCnt src) fltCnt_COUNT + 1) (2 ^ 32 - 1) ∧
      (v < 2 → t.c.reg oFltStat = s.c.reg oFltStat ∧ t.c.reg oFltCap = s.c.reg oFltCap ∧ t.c.faults.orders = s.c.faults.orders) ∧
      (2 ≤ v → t.c.fld oFltStat fltStat_ERR_LATCHED = 1 ∧ (Ctl.fltErr t.c) = (true, false)) ∧
      (2 ≤ v → s.c.fld oFltCfg fltCfg_CAP_MODE = 0 → s.c.fld oFltCap fltCap_VALID = 0 →
        t.c.fld oFltCap fltCap_VALID = 1 ∧ t.c.fld oFltCap fltCap_SRC = src ∧ t.c.fld oFltCap fltCap_SEV = v ∧
        t.c.fld oFltCap fltCap_UNIT = unit.toNat ∧ t.c.fld oFltCap fltCap_REACTED = 0 ∧
        t.c.fld oFltCap fltCap_FRAME = frameOf (8 * s.c.cc) ∧ t.c.fld oFltCap fltCap_SLOT = slotOf (8 * s.c.cc)) ∧
      (v = 3 → s.c.blackout = false → t.c.faults.orders.length = s.c.faults.orders.length + 1 ∧
        ∃ o, t.c.faults.orders.getLast? = some o ∧ o.src = src ∧ o.unit = unit ∧ o.cc = s.c.tcc ∧
          (o.fence = true ↔ s.c.fld (oFltSrc src) fltSrc_REACT = 1)) ∧
      (∀ o, (∀ k, k < 23 → o ≠ oFltCnt k) → o ≠ oFltSticky → o ≠ oFltStat → o ≠ oFltCap → o ≠ oFltCap + 8 → t.c.reg o = s.c.reg o)) ∧
    (∀ rails : BitVec 2, rails = 0 ∨ rails = 3 → (Tab.get (0, 0) s.c.faults.bad key).1 = 0 → exec (.faultRaise src pair rails unit) s = .next (s.units
      { s.c with faults := { s.c.faults with bad := Tab.set (0, 0) s.c.faults.bad key (1, s.c.tcc) } })) ∧
    (∀ (rails : BitVec 2) (n : Nat), rails = 0 ∨ rails = 3 → Tab.get (0, 0) s.c.faults.bad key = (n, s.c.tcc - 1) → 1 ≤ s.c.tcc → n = 1 ∨ n = 2 →
      (n = 1 → exec (.faultRaise src pair rails unit) s = .next (s.units
        { s.c with faults := { s.c.faults with bad := Tab.set (0, 0) s.c.faults.bad key (2, s.c.tcc) } })) ∧
      (n = 2 → ∃ t, exec (.faultRaise src pair rails unit) s = .next t ∧ t.banks = s.banks ∧
        t.c.fld (oFltCnt 0) fltCnt_COUNT = min (s.c.fld (oFltCnt 0) fltCnt_COUNT + 1) (2 ^ 32 - 1)))

/-- FAULT_REACTION, the oldest orders are reacted to once their cc is over: with none it changes nothing, in safe state they lapse, and one that is not FENCE puts the block into safe
state, at the first ec of a cc, and sets every other aside. A single FENCE of source 9, 10 or 11 for a group with no strike under way kills the group (R305 to R309, R314). That orders
are reacted to once their cc is over, and the bound on it, is log entries 7 and 53 (DEDUCED). -/
def reactionRule : Prop :=
  ∀ s : State, s.c.clk.frozen = false → s.c.clk.run = true →
    (s.c.faults.orders = [] → exec .faultReaction s = .next s) ∧
    (s.c.blackout = true → s.c.faults.orders ≠ [] → exec .faultReaction s = .next (s.units { s.c with faults := { s.c.faults with orders := [] } })) ∧
    (∀ o l, s.c.faults.orders = o :: l → s.c.blackout = false → s.c.tcc ≤ o.cc → exec .faultReaction s = .next s) ∧
    (∀ o l p, s.c.faults.orders = o :: l → s.c.blackout = false → o.cc < s.c.tcc → p ∈ o :: l → p.cc = o.cc → p.fence = false →
      (s.c.tbc % 8 ≠ 0 → exec .faultReaction s = .next s) ∧
      (s.c.tbc % 8 = 0 → ∃ t, exec .faultReaction s = .next t ∧ t.banks = s.banks ∧ t.pending = s.pending ∧ t.c.blackout = true ∧ t.c.faults.orders = [] ∧
        t.c.faults.stop = (if s.c.faults.stop = 0 then 2 else s.c.faults.stop) ∧ (Ctl.fltErr t.c) = (true, false) ∧
        (p.cap = true → s.c.fld oFltCap fltCap_VALID = 1 → t.c.fld oFltCap fltCap_REACTED = 1) ∧ t.c.seqs = s.c.seqs ∧
        ∀ o, o ≠ oFltStat → o ≠ oFltCap → t.c.reg o = s.c.reg o)) ∧
    (∀ o g, s.c.faults.orders = [o] → s.c.blackout = false → o.cc < s.c.tcc → o.fence = true → o.src = 9 ∨ o.src = 10 ∨ o.src = 11 → g = o.unit.toNat / 256 % 32 →
      (∀ k ∈ s.c.strikes, k.group ≠ g) → ∃ t, exec .faultReaction s = .next t ∧ t.banks = s.banks ∧
        ∀ n, n ∈ s.c.members g → (t.c.seq n).state = .halted ∧ (t.c.seq n).releases = [])

/-- Fault raises, reactions and safe state: raiseRule, reactionRule. -/
def Obligations.FaultRaisesAndSafeState : Prop := raiseRule ∧ reactionRule

/-- KILL of a group halts its sequencers, discards their releases and takes every entry out of their read-ahead wings from the first ec of its cc on, keeps of their accesses those
issued before the cc, to be cut from the first bc of the next cc on, leaves every other sequencer and every row, and makes each working bank of the group outside fenced quadrants STRIKING;
a repertory bank stays as it is in this cc and has OWNER NONE from the next (R159, R314, R315). -/
def killRule : Prop :=
  ∀ (s : State) (g k : Nat), s.accepting → g < 32 → k = 8 * (s.c.cc + 1) → ∃ t, exec (.kill g) s = .next t ∧ t.banks = s.banks ∧ t.pending = s.pending ∧
    (∀ n, n ∈ s.c.members g → (t.c.seq n).state = .halted ∧ (t.c.seq n).releases = [] ∧
      (t.c.seq n).ra = (s.c.seq n).ra.map (RaEntry.leave (4 * s.c.cc - 1)) ∧
      (t.c.seq n).reads = ((s.c.seq n).reads.filter fun r => decide (r.issue < 4 * s.c.cc)).map (fun r => { r with cut := some (min k (r.cut.getD k)) }) ∧
      (t.c.seq n).writes = ((s.c.seq n).writes.filter fun a => decide (a.w < 4 * s.c.cc ∧ (a.index = true ∨ a.t < 4 * s.c.cc))).map
        (fun a => { a with cut := some (min k (a.cut.getD k)) })) ∧
    (∀ n, n ∉ s.c.members g → t.c.seq n = s.c.seq n) ∧
    (∀ pb, pb < 2048 → s.c.owner pb = 0x20 + g → s.c.striking pb = false → s.c.inFencedQuad pb = false → s.c.repBank pb = false →
      t.c.striking pb = true ∧ t.c.owner pb = 0x20 + g ∧ Nat.testBit (t.c.fld oStrikeStat strikeStat_ACTIVE) g = true ∧
        ∃ k ∈ t.c.strikes, k.group = g ∧ pb ∈ k.banks) ∧
    (∀ pb, pb < 2048 → s.c.owner pb = 0x20 + g → s.c.striking pb = false → s.c.inFencedQuad pb = false → s.c.repBank pb = true →
      t.c.striking pb = false ∧ t.c.owner pb = 0x20 + g ∧ t.c.laterNow.owner pb = 0) ∧
    (∀ pb, pb < 2048 → s.c.owner pb ≠ 0x20 + g → t.c.striking pb = s.c.striking pb ∧ t.c.owner pb = s.c.owner pb)

/-- What KILL does to the group's streams: an ARMED context becomes IDLE with STATUS KILLED, a RUNNING one drains to it and what it has not landed is discarded, one in another state keeps
its words; an open window enters CLOSING and keeps of its packets only landings that have reached a slot; an ARMED or RUNNING send descriptor halts with STATUS KILLED. Contexts of
other groups in no ordered set, other windows and other descriptors keep their words (R204, R215, R225; packets with different numbers). -/
def killedStreamsRule : Prop :=
  ∀ (s : State) (g : Nat), s.accepting → g < 32 → (s.c.packets.map fun p => p.id).Nodup → ∃ t, exec (.kill g) s = .next t ∧
    (∀ x, x < 16384 → s.c.cx x strCtx_GROUP = g →
      (s.c.ctxState x = 1 → t.c.ctxState x = 0 ∧ t.c.cx x strCtx_STATUS = 8) ∧
      (s.c.ctxState x = 2 → t.c.ctxState x = 3 ∧ (t.c.ctx x).drain = some .killed ∧ (∀ l ∈ t.c.landed, l.ctx ≠ x) ∧
        ∀ a ∈ t.c.areqs, ∀ i d, a.kind = .streamLand x i d → a.second.isSome = true ∨ a.keep = true) ∧
      (s.c.ctxState x ≠ 1 → s.c.ctxState x ≠ 2 → ∀ k, k < 8 → t.c.reg (oStrCtx x + 8 * k) = s.c.reg (oStrCtx x + 8 * k))) ∧
    (∀ x, x < 16384 → s.c.cx x strCtx_GROUP ≠ g → (∀ k, x ∉ (s.c.oset k).started) → ∀ k, k < 8 → t.c.reg (oStrCtx x + 8 * k) = s.c.reg (oStrCtx x + 8 * k)) ∧
    (∀ w, w < 1024 → s.c.winOwner w = g → s.c.wn w win_STATE ≠ 0 → t.c.wn w win_STATE = 2 ∧
      ∀ p ∈ t.c.packets, p.window = w → 0 < p.left ∧ p.left = t.c.pktReqs p.id ∧ p.phase ≠ .staging ∧ p.phase ≠ .held) ∧
    (∀ w, w < 1024 → s.c.winOwner w ≠ g → (∀ k, k < 4 → t.c.reg (oWin w + 8 * k) = s.c.reg (oWin w + 8 * k)) ∧
      t.c.packets.filter (fun p => decide (p.window = w)) = s.c.packets.filter (fun p => decide (p.window = w))) ∧
    (∀ e, e < 256 → s.c.sd e lsend_GROUP = g → s.c.sdState e = 1 ∨ s.c.sdState e = 2 → t.c.sdState e = 3 ∧ t.c.sd e lsend_STATUS = 5) ∧
    (∀ e, e < 256 → s.c.sd e lsend_GROUP ≠ g ∨ s.c.sdState e = 0 ∨ s.c.sdState e = 3 → ∀ k, k < 8 → t.c.reg (oLsend e + 8 * k) = s.c.reg (oLsend e + 8 * k))

/-- An access of a killed group whose bank access falls at or after the cut is suppressed: every lane of a read is to be delivered poisoned, every lane of a plain write
reports OWNER_FAULT, no row changes, and nothing is counted as a cue violation, recorded or raised (R315). -/
def suppressedRule : Prop :=
  (∀ (s : State) (n k : Nat) (r : RAccess), s.working → n < 104 → (s.c.seq n).dueRead s.c.bc = some r → r.cut = some k → k ≤ r.bankBc → (∀ l ∈ r.lanes, l.cause = 0) →
    ∃ t, exec (.scheduledBankAccess n false) s = .next t ∧ t.banks = s.banks ∧ t.pending = s.pending ∧ t.c.fld oCvCount ⟨0, 0, 32⟩ = s.c.fld oCvCount ⟨0, 0, 32⟩ ∧
      t.c.reg oCvRec0 = s.c.reg oCvRec0 ∧ t.c.faults = s.c.faults ∧ ∃ r' ∈ (t.c.seq n).reads, r'.id = r.id ∧ r'.checked = true ∧ r'.lanes.length = r.lanes.length ∧
        ∀ l ∈ r'.lanes, l.cause = 6 ∧ l.bad = true ∧ l.granule = poisonGranule (s.c.repOf l.gi)) ∧
  (∀ (s : State) (n k : Nat) (a : WAccess), s.working → n < 104 → (s.c.seq n).dueWrite s.c.bc = some a → a.cut = some k → k ≤ a.firstBc → a.acc = none →
    (∀ l ∈ a.lanes, l.follow = none ∧ l.passed = false) → ∃ t, exec (.scheduledBankAccess n true) s = .next t ∧ t.banks = s.banks ∧ t.pending = s.pending ∧
      t.c.fld oCvCount ⟨0, 0, 32⟩ = s.c.fld oCvCount ⟨0, 0, 32⟩ ∧ t.c.reg oCvRec0 = s.c.reg oCvRec0 ∧ t.c.faults = s.c.faults ∧
      ∃ a' ∈ (t.c.seq n).writes, a'.id = a.id ∧ a'.done = true ∧ a'.lanes.length = a.lanes.length ∧ ∀ l ∈ a'.lanes, l.code = 2 ∧ l.passed = false)

/-- STRIKE_BEGIN, in the first bc of a cc, begins the fills of a cluster's due banks at row 0, unless a booked second slot remains at a striking bank of it; a bank is due 4 cc after its kill at the earliest, and no
other bank or row changes. STRIKE_DONE, in a cc after that of the bank's last row, leaves it STRIKING no more with OWNER NONE, and with the last bank of a single strike shows DONE
and the group in LAST and clears its ACTIVE bit; otherwise both change nothing (R316, R317). -/
def strikeRule : Prop :=
  (∀ (c : Ctl) (pb n : Nat), c.killOf pb = some n → c.cc < n + 4 → c.strikeDue pb = false) ∧
  (∀ (s : State) (q cl : Nat), s.working → q < 4 → cl < 32 →
    (s.c.bookedIn q cl = true ∨ s.c.bc % 8 ≠ 0 ∨ (∀ b, b < 16 → s.c.strikeDue (bankNo q cl b) = false) → exec (.strikeBegin q cl) s = .next s) ∧
    (∀ b, s.c.bookedIn q cl = false → s.c.bc % 8 = 0 → b < 16 → s.c.strikeDue (bankNo q cl b) = true → ∃ t, exec (.strikeBegin q cl) s = .next t ∧ t.banks = s.banks ∧
      t.c.fillOf (bankNo q cl b) = some { strike := true, since := s.c.bc } ∧
      (∀ k, k < 16 → s.c.strikeDue (bankNo q cl k) = false → t.c.fillOf (bankNo q cl k) = s.c.fillOf (bankNo q cl k)) ∧
      (∀ pb, (∀ k, k < 16 → pb ≠ bankNo q cl k) → t.c.fillOf pb = s.c.fillOf pb) ∧ t.c.strikes = s.c.strikes ∧ t.c.seqs = s.c.seqs ∧
      ∀ o, o ≠ oEccWb q → t.c.reg o = s.c.reg o)) ∧
  (∀ (s : State) (pb : Nat), s.working → pb < 2048 →
    (s.c.fillOf pb = none ∨ s.c.striking pb = false → exec (.strikeDone pb) s = .next s) ∧
    (∀ f, s.c.fillOf pb = some f →
      (f.strike = false ∨ f.row < 4096 ∨ s.c.cc ≤ f.lastBc / 8 ∨ s.c.quadFenced (pb / 512) = true → exec (.strikeDone pb) s = .next s) ∧
      (s.c.striking pb = true → f.strike = true → 4096 ≤ f.row → f.lastBc / 8 < s.c.cc → s.c.quadFenced (pb / 512) = false →
        ∃ t, exec (.strikeDone pb) s = .next t ∧ t.banks = s.banks ∧ t.pending = s.pending ∧ t.c.striking pb = false ∧ t.c.owner pb = 0 ∧ t.c.fillOf pb = none ∧
          (∀ k, k < 2048 → k ≠ pb → t.c.striking k = s.c.striking k ∧ t.c.owner k = s.c.owner k ∧ t.c.fillOf k = s.c.fillOf k) ∧
          (∀ k, s.c.strikes = [k] → k.banks = [pb] → k.group < 32 → t.c.strikes = [] ∧ t.c.fld oStrikeStat strikeStat_DONE = 1 ∧
            t.c.fld oStrikeStat strikeStat_LAST = k.group ∧ Nat.testBit (t.c.fld oStrikeStat strikeStat_ACTIVE) k.group = false))))

/-- Kill, what it does to streams and accesses in flight, and strike: killRule, killedStreamsRule, suppressedRule, strikeRule. -/
def Obligations.KillAndStrike : Prop := killRule ∧ killedStreamsRule ∧ suppressedRule ∧ strikeRule

/-- ALIVE_TOGGLE, at a toggle edge that has not been counted, the edges being the multiples of the period (log entry 117): the output toggles in P2 to P4 (R341) and after a KICK; without one it stops, with ALIVE_STOP and a raise of source 20, but holds its level
for 2^19 cc while an activated image has not kicked; with no new edge, stopped, or in P5, it changes nothing. INJ_BANK and INJ_LINE change nothing outside factory test mode, and load their
fields in it. LOCK sets LOCK and LOCKED (R312, R320, R321, R341, R363, R374). -/
def aliveRule : Prop :=
  (∀ s : State, s.live → exec .kick s = .next (s.units { s.c with faults := { s.c.faults with kick := true }, boot := { s.c.boot with kicked := true } })) ∧
  (∀ s : State, s.c.clk.frozen = false →
    (s.c.everReady = false ∨ s.c.aliveEdge ≤ s.c.faults.lastToggle ∨ s.c.faults.stop ≠ 0 ∨ s.c.boot.factory = true ∨ s.c.power.mode = 5 → exec .aliveToggle s = .next s) ∧
    (s.c.everReady = true → s.c.faults.lastToggle < s.c.aliveEdge → s.c.faults.stop = 0 → s.c.boot.factory = false → s.c.power.mode ≠ 5 →
      ((2 ≤ s.c.power.mode ∧ s.c.sysReady = false) ∨ (s.c.sysReady = true ∧ s.c.faults.kick = true) → exec .aliveToggle s = .next (s.units { s.c with
        faults := { s.c.faults with lastToggle := s.c.aliveEdge, alive := !s.c.faults.alive, kick := false } })) ∧
      (s.c.sysReady = true → s.c.faults.kick = false → s.c.boot.kicked = true ∨ s.c.boot.actCc + 2 ^ 19 < s.c.cc → ∃ t, exec .aliveToggle s = .next t ∧ t.c.faults.stop = 1 ∧
        t.c.faults.alive = s.c.faults.alive ∧ t.c.faults.lastToggle = s.c.aliveEdge ∧ t.banks = s.banks ∧
        t.c.fld (oFltCnt 20) fltCnt_COUNT = min (s.c.fld (oFltCnt 20) fltCnt_COUNT + 1) (2 ^ 32 - 1)) ∧
      (s.c.sysReady = true → s.c.faults.kick = false → s.c.boot.kicked = false → s.c.cc ≤ s.c.boot.actCc + 2 ^ 19 →
        exec .aliveToggle s = .next (s.units { s.c with faults := { s.c.faults with lastToggle := s.c.aliveEdge } })))) ∧
  (∀ (s : State) (w0 w1 : Word) (be : BitVec 2), s.accepting → be ≠ 0 →
    (s.c.boot.factory = false → exec (.injBank w0 w1) s = .next (s.wrote (.injBank w0 w1) s.c) ∧ exec (.injLine be w0) s = .next (s.wrote (.injLine be w0) s.c)) ∧
    (s.c.boot.factory = true → ∃ t, exec (.injBank w0 w1) s = .next t ∧ t.c.reg oInjBank = w0 &&& 0x00000001C7FFFFFF ∧
      t.c.reg (oInjBank + 8) = w1 &&& 0x0000000FFFFFFFFF ∧ ∃ nn, t = s.wrote (.injBank w0 w1) { s.c with regs := t.c.regs, notes := nn }) ∧
    (s.c.boot.factory = true → be = 3 → w0.getLsbD 32 = true → ∃ t, exec (.injLine be w0) s = .next t ∧
      t.c.faults.inj = some (if bits w0.toNat 0 5 < 23 then bits w0.toNat 0 5 else s.c.fld oInjLine injLine_SRC, bits w0.toNat 8 2,
        s.c.cc + 1, bits w0.toNat 16 16) ∧ t.c.fld oInjLine injLine_GO = 1 ∧ t.banks = s.banks) ∧
    exec .lock s = .next (s.wrote .lock ((s.c.setFld oCtrl ctrl_LOCK 1).setFld oStatus status_LOCKED 1)))

/-- Alive output, injection registers and lock: aliveRule. -/
def Obligations.AliveInjectionAndLock : Prop := aliveRule

/-! ### Power (R322 to R341) -/

/-- Operating points. OP_TRANSITION: a lowering changes D first and then asks for the voltage, a raise the other way round; a request in a transition waits, and one for the point in force, or for a
higher frequency during a brownout, only sets TARGET. D_CHANGE takes effect at a cc edge 2 cc after the write or the acknowledgement. VACK is heard after the guard, and VACK_TIMEOUT
reports a voltage that is not answered in time and ends the transition (R323 to R326, R329). -/
def pointRule : Prop :=
  (∀ (s : State) (op : BitVec 2), s.accepting →
    (s.c.power.step ≠ .idle → exec (.opTransition op) s = .next (s.wrote (.opTransition op) { s.c.setPw pwrOp_TARGET op.toNat with
      power := { s.c.power with queued := some op.toNat } })) ∧
    (s.c.power.step = .idle → s.c.pw pwrOp_ACTIVE < op.toNat → exec (.opTransition op) s =
      .next (s.wrote (.opTransition op) { s.c.setPw pwrOp_TARGET op.toNat with power := { s.c.power with step := .lowerD op.toNat, stepCc := s.c.cc } })) ∧
    (s.c.power.step = .idle → s.c.brown = false → op.toNat < s.c.pw pwrOp_ACTIVE → ∃ t, exec (.opTransition op) s = .next t ∧
      t.c.pw pwrOp_TARGET = op.toNat ∧ t.c.vreq = op.toNat ∧ t.c.pw pwrOp_BUSY = 1 ∧ t.c.pw pwrOp_ACTIVE = s.c.pw pwrOp_ACTIVE ∧
      t.c.power.step = .raiseAck op.toNat ∧ t.c.power.stepRef = s.c.clk.ref ∧ t.c.clk = s.c.clk) ∧
    (s.c.power.step = .idle → op.toNat = s.c.pw pwrOp_ACTIVE ∨ (s.c.brown = true ∧ op.toNat < s.c.pw pwrOp_ACTIVE) →
      exec (.opTransition op) s = .next (s.wrote (.opTransition op) (s.c.setPw pwrOp_TARGET op.toNat)))) ∧
  (∀ (s : State) (op x : Nat), s.live → op < 4 →
    (s.c.clk.run = false ∨ s.c.bc % 8 ≠ 0 ∨ s.c.power.slice = true → exec .dChange s = .next s) ∧
    (s.c.power.step = .lowerD op → s.c.cc < s.c.power.stepCc + 2 → exec .dChange s = .next s) ∧
    (s.c.power.step = .raiseD op x → s.c.cc < x + 2 → exec .dChange s = .next s) ∧
    (s.c.power.step = .lowerD op → s.c.clk.run = true → s.c.bc % 8 = 0 → s.c.power.slice = false → s.c.power.stepCc + 2 ≤ s.c.cc → s.c.brown = false → ∃ t, exec .dChange s = .next t ∧
      t.c.pw pwrOp_ACTIVE = op ∧ t.c.clk = { s.c.clk with div := if op = 0 then 3 else if op = 1 then 4 else if op = 2 then 6 else 12 } ∧
      t.c.vreq = op ∧ t.c.pw pwrOp_BUSY = 1 ∧ t.c.power = { s.c.power with step := .lowerAck op, stepRef := s.c.clk.ref } ∧ t.banks = s.banks) ∧
    (s.c.power.step = .raiseD op x → s.c.clk.run = true → s.c.bc % 8 = 0 → s.c.power.slice = false → x + 2 ≤ s.c.cc → s.c.power.mode = 0 → s.c.power.queued = none →
      ∃ t, exec .dChange s = .next t ∧ t.c.pw pwrOp_ACTIVE = op ∧ t.c.pw pwrOp_BUSY = 0 ∧ t.c.power = { s.c.power with step := .idle } ∧
        t.c.clk = { s.c.clk with div := if op = 0 then 3 else if op = 1 then 4 else if op = 2 then 6 else 12 } ∧ t.banks = s.banks)) ∧
  (∀ (s : State) (op : Nat), s.live → s.c.brown = false → op < 4 →
    (s.c.clk.ref < s.c.power.stepRef + 32 → exec .vack s = .next s) ∧
    (s.c.power.stepRef + 32 ≤ s.c.clk.ref →
      (s.c.power.step = .lowerAck op → s.c.power.mode = 0 → s.c.power.queued = none → exec .vack s =
        .next (s.units { s.c.setPw pwrOp_BUSY 0 with power := { s.c.power with step := .idle } })) ∧
      (s.c.power.step = .raiseAck op → exec .vack s = .next (s.units { s.c with power := { s.c.power with step := .raiseD op s.c.cc } }))) ∧
    (s.c.clk.ref < s.c.power.stepRef + 32 + 2 ^ s.c.pw pwrOp_VACK_EXP → exec .vackTimeout s = .next s) ∧
    (s.c.power.stepRef + 32 + 2 ^ s.c.pw pwrOp_VACK_EXP ≤ s.c.clk.ref → s.c.power.step = .raiseAck op → s.c.power.mode = 0 →
      s.c.power.queued = none → s.c.clk.run = true → ∃ t, exec .vackTimeout s = .next t ∧ t.c.pw pwrOp_VTIMEOUT = 1 ∧
        t.c.vreq = s.c.pw pwrOp_ACTIVE ∧ t.c.pw pwrOp_BUSY = 0 ∧ t.c.power = { s.c.power with step := .idle } ∧ t.c.clk = s.c.clk ∧
        t.c.fld (oFltCnt 21) fltCnt_COUNT = min (s.c.fld (oFltCnt 21) fltCnt_COUNT + 1) (2 ^ 32 - 1)))

/-- A brownout. BROWNOUT sets the level of vwarn_n and nothing else (log entry 114, DESIGN CHOICE). Two samples of 0 on edges of ref_clk, from the ninth on, are an assertion; at a cc 2 cc later the frequency is lowered to that of OP2 at least, and the brownout is counted,
reported and marked at the groups with a scene. BROWNOUT_RESTORE acts once vwarn_n has been 1 for 2,000 ref_clk cycles: it asks for the voltage of TARGET before the frequency rises, and
where the frequency is that of TARGET already lowers a voltage above it; before that it changes nothing (R292, R327, R328; the restore rests on log entries 32 and 56). -/
def brownoutRule : Prop :=
  (∀ (s : State) (v : Bool), s.c.clk.frozen = false → exec (.brownout v) s = .next (s.units { s.c with power := { s.c.power with vwarn := v } })) ∧
  (∀ c : Ctl,
    (c.clk.ref < 8 → c.vwarnSample = c) ∧
    (8 ≤ c.clk.ref → c.power.vwarn = true → c.vwarnSample = { c with power := { c.power with lows := 0 } }) ∧
    (8 ≤ c.clk.ref → c.power.vwarn = false → c.brown = false →
      (c.power.lows = 0 → c.vwarnSample = { c with power := { c.power with lows := 1, brownRef := c.clk.ref } }) ∧
      (c.power.lows = 1 → c.vwarnSample = { c with power := { c.power with lows := 2, brownRef := c.clk.ref, recog := some c.tbc } })) ∧
    (∀ x, c.power.recog = some x → c.clk.run = true → c.tbc < x + 16 → c.brownNow = c) ∧
    (∀ x, c.power.recog = some x → c.clk.run = true → c.power.step = .idle → x + 16 ≤ c.tbc → c.brownNow.brown = true ∧
      c.brownNow.pw pwrOp_ACTIVE = max (c.pw pwrOp_ACTIVE) 2 ∧ (c.pw pwrOp_ACTIVE < 2 → c.brownNow.clk = { c.clk with div := 6 }) ∧
      (2 ≤ c.pw pwrOp_ACTIVE → c.brownNow.clk = c.clk) ∧ c.brownNow.pw pwrOp_BROWN_SEEN = 1 ∧
      c.brownNow.pw pwrOp_BROWN_CNT = min (c.pw pwrOp_BROWN_CNT + 1) (2 ^ 16 - 1) ∧ c.brownNow.power = { c.power with recog := none } ∧
      c.brownNow.fld (oFltCnt 21) fltCnt_COUNT = min (c.fld (oFltCnt 21) fltCnt_COUNT + 1) (2 ^ 32 - 1) ∧
      ∀ g n, g < 32 → n ∈ c.members g → (c.seq n).inScene = true → c.brownNow.fld (oProvGflag g) provGflag_TIMING_SUSPENDED = 1)) ∧
  (∀ s : State, s.c.clk.frozen = false →
    (s.c.brown = false ∨ s.c.power.vwarn = false ∨ s.c.clk.ref < s.c.power.brownRef + 2000 → exec .brownoutRestore s = .next s) ∧
    (s.c.brown = true → s.c.power.vwarn = true → s.c.power.brownRef + 2000 ≤ s.c.clk.ref → s.c.power.step = .idle →
      (s.c.pw pwrOp_TARGET < s.c.pw pwrOp_ACTIVE → ∃ t, exec .brownoutRestore s = .next t ∧ t.c.vreq = s.c.pw pwrOp_TARGET ∧ t.c.pw pwrOp_BUSY = 1 ∧ t.c.brown = true ∧
        t.c.power.step = .restoreAck (s.c.pw pwrOp_TARGET) ∧ t.c.clk = s.c.clk) ∧
      (s.c.pw pwrOp_ACTIVE = s.c.pw pwrOp_TARGET → s.c.pw pwrOp_TARGET ≤ s.c.vreq → exec .brownoutRestore s = .next (s.units (s.c.setPw pwrOp_BROWNOUT 0))) ∧
      (s.c.pw pwrOp_ACTIVE = s.c.pw pwrOp_TARGET → s.c.vreq < s.c.pw pwrOp_TARGET → ∃ t, exec .brownoutRestore s = .next t ∧ t.c.brown = false ∧ t.c.vreq = s.c.pw pwrOp_TARGET ∧
        t.c.pw pwrOp_BUSY = 1 ∧ t.c.power.step = .lowerAck (s.c.pw pwrOp_TARGET) ∧ t.c.clk = s.c.clk)))

/-- Operating points and brownout: pointRule, brownoutRule. -/
def Obligations.OperatingPoints : Prop := pointRule ∧ brownoutRule

/-- Entry to a power state. PWR_MODE_WRITE takes the mode while the block is up. WFI checks a mode of P2 to P5 and begins preparation or reports why not; of another mode, or not in P0 or P1, it
changes nothing. ENTRY_CC, once preparation is over and not before: sys_ready falls and the outputs of engine and stack ports fall; beyond P2 the outputs are clamped and the clocks go to
OP3, with which entry is complete and they stop; entry to P5 clears the count of bc and flt_alive. pwr_lend keeps the bits of the entry cc. That ENTRY_CC folds these steps into one
is log entry 54 (R36, R88, R331 to R333, R339, R341, R342). -/
def entryRule : Prop :=
  (∀ (s : State) (m : BitVec 3), s.live → s.c.pmState = 0 →
    exec (.pwrModeWrite m) s = .next (s.units { s.c with power := { s.c.power with req := m.toNat } })) ∧
  (∀ s : State, s.live → s.c.pmState ≠ 0 ∨ s.c.power.req < 2 ∨ 5 < s.c.power.req → exec .wfi s = .next s) ∧
  (∀ s : State, s.live → s.c.pmState = 0 → 2 ≤ s.c.power.req → s.c.power.req ≤ 5 →
    (s.c.wfiReady s.c.power.req = false → exec .wfi s = .next (s.units (s.c.setPm pwrMode_RESULT 1))) ∧
    (s.c.wfiReady s.c.power.req = true → s.c.power.req = 3 → s.c.watchOk = false → exec .wfi s = .next (s.units (s.c.setPm pwrMode_RESULT 2))) ∧
    (s.c.wfiReady s.c.power.req = true → s.c.power.req ≠ 3 ∨ s.c.watchOk = true → ∃ t, exec .wfi s = .next t ∧ t.c.pmState = 1 ∧
      t.c.fld oPwrMode pwrMode_RESULT = 0 ∧ t.c.fld oPwrMode pwrMode_WAKE_SRC = 0 ∧
      t = s.units { s.c with regs := t.c.regs, power := { s.c.power with rose := 0, wakePend := false } } ∧
      ∀ o, o ≠ oPwrMode → t.c.reg o = s.c.reg o)) ∧
  (∀ s : State, s.live →
    (s.c.pmState ≠ 1 ∨ s.c.prepared = false → exec .entryCc s = .next s) ∧
    (s.c.pmState = 1 → s.c.prepared = true → 2 ≤ s.c.power.req → s.c.power.req ≤ 5 → ∃ t, exec .entryCc s = .next t ∧ t.c.sysReady = false ∧
      t.c.pmState = s.c.power.req ∧ t.c.power.mode = s.c.power.req ∧ t.c.power.entryCc = s.c.cc ∧ t.c.power.entryRef = s.c.clk.ref ∧
      t.c.rdOut = [] ∧ t.c.stOut = [] ∧ t.c.sOut = [] ∧
      t.c.power.lends = s.c.lendMask ∧ t.banks = s.banks ∧
      (3 ≤ s.c.power.req → t.c.fld oPwrMode pwrMode_CLAMPED = 1 ∧ ∀ n, (t.c.link n).beat = none ∧ (t.c.link n).rxCrd = false) ∧
      (s.c.power.req = 5 → s.c.power.step = .idle → s.c.pw pwrOp_ACTIVE = 3 → t.c.faults.alive = false) ∧
      (s.c.power.req = 2 → t.c.clk = s.c.clk ∧ t.c.power.asleep = false) ∧
      (3 ≤ s.c.power.req → s.c.power.step = .idle → s.c.pw pwrOp_ACTIVE < 3 → t.c.clk = s.c.clk ∧ t.c.power.asleep = false ∧ t.c.power.step = .lowerD 3) ∧
      (3 ≤ s.c.power.req → s.c.power.step = .idle → s.c.pw pwrOp_ACTIVE = 3 →
        t.c.clk = { s.c.clk with run := false, bc := if s.c.power.req = 5 then 0 else s.c.clk.bc } ∧ t.c.power.asleep = true)))

/-- Exit. WAKE_EVENT of an enabled source, or the stage door's WAKE, that finds P2 asleep starts the clocks, and sys_ready rises 8 cc later; before entry is complete it is kept; one of a
source that is not enabled does nothing. CLAMP_REL lets sys_ready rise two cc later, and the clamps end one cc before that. WATCH_SLICE begins a slice at OP3 once its period is over and ends it, of a counter, with the
comparison: without a match the clocks stop again, with one exit begins; the clamps are released in the slice and in force after it (R333 to R338, R340; log entries 54 and 55). -/
def exitRule : Prop :=
  (∀ (s : State) (src : Nat), s.c.clk.frozen = false → src < 5 →
    (s.c.wakeOn src = false → exec (.wakeEvent src) s = .next s) ∧
    (s.c.wakeOn src = true → 2 ≤ s.c.pmState → s.c.pmState ≤ 4 → s.c.power.req ≠ 5 → s.c.power.asleep = false →
      ∃ t, exec (.wakeEvent src) s = .next t ∧ Nat.testBit (t.c.fld oPwrMode pwrMode_WAKE_SRC) src = true ∧ t.banks = s.banks ∧
        t = s.units { s.c with regs := t.c.regs, power := { s.c.power with wakePend := true } } ∧ ∀ o, o ≠ oPwrMode → t.c.reg o = s.c.reg o) ∧
    (s.c.wakeOn src = true → s.c.pmState = 2 → s.c.power.mode = 2 → s.c.power.req = 2 → s.c.power.asleep = true → s.c.power.slice = false → s.c.power.owed = false →
      ∃ t, exec (.wakeEvent src) s = .next t ∧ t.c.pmState = 6 ∧ t.c.clk = { s.c.clk with run := true } ∧
        t.c.power = { s.c.power with asleep := false, wakePend := false, slice := false, riseAt := some (s.c.cc + 8) } ∧
        Nat.testBit (t.c.fld oPwrMode pwrMode_WAKE_SRC) src = true ∧ t.banks = s.banks ∧ t.pending = s.pending)) ∧
  (∀ (s : State) (via : DoorVia), s.spiHolds via = false → s.c.clk.frozen = false → s.c.doorUp = true → s.c.boot.phase ≠ .recovery → s.c.wakeOn 1 = true → s.c.power.slice = false →
    s.c.power.asleep = true → s.c.pmState = 2 → s.c.power.mode = 2 → s.c.power.req = 2 → s.c.power.owed = false →
    ∃ t, exec (.wake via) s = .next t ∧ t.c.pmState = 6 ∧ t.c.clk = { s.c.clk with run := true } ∧ t.c.power.riseAt = some (s.c.cc + 8) ∧
      t.c.door.lastOp = 0x30 ∧ t.c.door.result = 0 ∧ t.banks = s.banks) ∧
  (∀ s : State, s.c.clk.frozen = false →
    (s.c.pmState = 6 → s.c.fld oPwrMode pwrMode_CLAMPED = 1 → s.c.power.riseAt = none → s.c.clk.run = true → s.c.power.step = .idle → exec .clampRel s =
      .next (s.units { s.c with power := { s.c.power with riseAt := some (s.c.cc + 2) } })) ∧
    (s.c.pmState ≠ 6 ∨ s.c.fld oPwrMode pwrMode_CLAMPED = 0 ∨ s.c.power.riseAt.isSome = true ∨ s.c.clk.run = false → exec .clampRel s = .next s) ∧
    (∀ x, s.c.power.riseAt = some x → s.c.clampsEnd = (if x ≤ s.c.cc + 1 then s.c.setPm pwrMode_CLAMPED 0 else s.c)) ∧
    (∀ period, s.c.power.slice = false → s.c.power.mode = 3 → s.c.power.asleep = true → s.c.pmState = 3 →
      period = 2 ^ s.c.fld oPwrWatch pwrWatch_PERIOD_EXP →
      (s.c.clk.ref < s.c.power.entryRef + (s.c.power.slices + 1) * period → exec .watchSlice s = .next s) ∧
      (s.c.power.entryRef + (s.c.power.slices + 1) * period ≤ s.c.clk.ref → s.c.power.owed = false →
        exec .watchSlice s = .next (s.units (Ctl.setPoint { s.c.setPm pwrMode_CLAMPED 0 with clk := { s.c.clk with run := true }, power := { s.c.power with
          slice := true, sliceEnd := s.c.ec + 2 ^ s.c.fld oPwrWatch pwrWatch_SLICE_EXP, slices := (s.c.clk.ref - s.c.power.entryRef) / period } } 3)))) ∧
    (s.c.power.slice = true →
      (s.c.ec < s.c.power.sliceEnd ∨ s.c.packets ≠ [] ∨ s.c.areqs ≠ [] → exec .watchSlice s = .next s) ∧
      (∀ v, s.c.power.sliceEnd ≤ s.c.ec → s.c.packets = [] → s.c.areqs = [] → s.c.fld oPwrWatch pwrWatch_KIND = 0 → v = s.c.cntAt (s.c.fld oPwrWatch pwrWatch_IDX) s.c.ec →
        (s.c.watchMatch v = false → s.c.power.wakePend = false → exec .watchSlice s = .next (s.units
          { Ctl.clamp { s.c with power := { s.c.power with slice := false } } with clk := { s.c.clk with run := false } })) ∧
        (s.c.watchMatch v = true → s.c.power.asleep = true → s.c.power.mode = 3 → s.c.power.req = 3 → s.c.pmState = 3 → ∃ t, exec .watchSlice s = .next t ∧
          t.c.pmState = 6 ∧ t.c.clk.run = true ∧ Nat.testBit (t.c.fld oPwrMode pwrMode_WAKE_SRC) 4 = true))))

/-- Entry to and exit from power states: entryRule, exitRule. -/
def Obligations.PowerStates : Prop := entryRule ∧ exitRule

/-! ### The stage door and the TAP (R296, R297, R356 to R358) -/

/-- READ_REG and WRITE_REG over the stage door and over the TAP: DATA and OK for a mapped offset, DECERR recorded for another, DENIED where the stage manager may not reach it, with
DATA a free value (log entry 43); WRITE_REG answers no byte (log entry 42); one cut short is discarded with FRAME. READ_REG at the control port is accepted with fewer than
four requests outstanding, else does nothing, and completes in its turn (log entry 109) (R63, R354, R356, R357; a TAP frame likewise). -/
def doorRegisterRule : Prop :=
  (∀ (s : State) (o : Nat) (be : BitVec 2), s.live → o < 0x400000 → o % 8 = 0 →
    (s.c.outstanding < 4 → exec (.readReg .control o be) s = .next (s.units { s.c with cReqs := s.c.cReqs ++ [.read o be] })) ∧
    (4 ≤ s.c.outstanding → exec (.readReg .control o be) s = .next s)) ∧
  (∀ (s : State) (o : Nat) (be : BitVec 2) (data : Word) (src : ReadSrc) (via : DoorVia) (c : Ctl), src = .frame via → s.spiHolds via = false → c = s.c.frameBegins via →
    s.c.doorUp = true → o < 2 ^ 32 →
    (frameCut via = true → exec (.readReg src o be) s = .next (s.units ((c.answer 1 1 []).doorOut via)) ∧
      exec (.writeReg via o data) s = .next (s.units ((c.answer 2 1 []).doorOut via))) ∧ (frameCut via = false →
    (∀ w, s.c.doorReads o = true → s.c.readReg o = some w → o ≠ oTimeNow → o ≠ oScrubLap →
      exec (.readReg src o be) s = .next (s.units ((c.answer 1 0 (leBytes 8 w.toNat ++ [0])).doorOut via))) ∧
    (s.c.clk.frozen = true → o ∈ plainRegs → exec (.readReg src o be) s = .next (s.units ((c.answer 1 0 (leBytes 8 (s.c.reg o).toNat ++ [0])).doorOut via))) ∧
    (s.c.doorReads o = true → s.c.clk.frozen = false → regFind o = none → exec (.readReg src o be) s =
      .next (s.units ((((c.flag oStatus status_DECODE_ERR).setFld oStatus status_LAST_DECERR o).answer 1 0 (leBytes 8 0 ++ [1])).doorOut via))) ∧
    (s.c.doorReads o = false → ∃ b, b.length = 8 ∧ exec (.readReg src o be) s = .next (s.units ((({ c with free := c.free + 1 } : Ctl).answer 1 2 (b ++ [4])).doorOut via))) ∧
    (s.c.doorWrites o = false → exec (.writeReg via o data) s = .next (s.units ((c.answer 2 2 []).doorOut via))) ∧
    (s.c.doorWrites o = true → o ∈ plainRegs → s.c.blackout = false → (∀ e ∈ s.c.notes.counts, e.1 ≠ o) → ∃ nn : CcNotes, (o, BitVec.allOnes 64, data) ∈ nn.door ∧
      exec (.writeReg via o data) s = .next (s.units ((({ c.setReg o data with notes := nn } : Ctl).answer 2 0 []).doorOut via))))) ∧
  (∀ (c : Ctl) (o : Nat) (be : BitVec 2) (rest : List CReq), c.cReqs = .read o be :: rest → c.cRsp.valid = false ∨ c.cReady = true → c.clamped = false →
    (be = 0 → c.readsNow = { c with cReqs := rest, cRsp := { valid := true, rdata := 0, status := 2 } }) ∧
    (be ≠ 0 → regFind o = none → c.readsNow = { (c.flag oStatus status_DECODE_ERR).setFld oStatus status_LAST_DECERR o with
      cReqs := rest, cRsp := { valid := true, rdata := 0, status := 1 } }) ∧
    (∀ w, be ≠ 0 → c.readReg o = some w → o ≠ oTimeNow → o ≠ oScrubLap → c.readsNow = { c with cReqs := rest, cRsp := { valid := true, rdata := w, status := 0 } }))

/-- A frame on the TAP that meets one of the SPI target, begun in the same cc or waiting beside it, is answered BUSY and does nothing (R357; in one cc log entry 136). READ_ROW and
READ_STORE answer in tableau alone, with the code word, position 0 first (log entry 135), and with FRAME when cut short; GET_STATUS, which reports the frame before it (log entry 42), GET_ID
and UNKNOWN_OPCODE answer at any time, and WAKE is DENIED in tableau and in recovery mode. Over the TAP a frame is its instruction DOOR, which then gives the bytes of the response (log
entry 110). IDCODE, which Test-Logic-Reset selects, BYPASS and SCAN_n scan their registers, in tableau with free bits (log entry 43) (R247, R297, R356, R357). -/
def doorReadRule : Prop :=
  (∀ (s : State) (via : DoorVia), (s.spiHolds via = true ↔ (via = .tap ∨ via = .tapCut) ∧
    ((s.c.clk.run = true ∧ s.c.clk.frozen = false ∧ s.c.door.spiCc = some s.c.tcc) ∨ ∃ i ∈ s.pending, spiFrame i = true))) ∧
  (∀ c : Ctl, (c.frameBegins .spi).door.spiCc = some c.tcc ∧ c.frameBegins .tap = c) ∧
  (∀ (s : State) (via : DoorVia) (o w h g : Nat) (l : RowLoc) (be : BitVec 2) (data : Word) (b : List Byte) (r : BitVec 256) (op : Byte), s.spiHolds via = true → s.c.doorUp = true →
    o < 2 ^ 32 → w < 15 → h < 256 → g < 2 ^ 32 → l.quad < 4 → l.cluster < 64 → l.bank < 16 → l.row < 4096 → op.toNat ∉ doorOpcodes →
    ∀ x ∈ [(Instr.readReg (.frame via) o be, 1), (.writeReg via o data, 2), (.readRow via l, 3), (.readStore via h g, 4), (.getStatus via, 5), (.getId via, 6), (.fwBegin via b, 0x10),
      (.fwData via o b, 0x11), (.fwEnd via, 0x12), (.unlock via r, 0x20), (.wake via, 0x30), (.tableau (.frame via), 0x31), (.unknownOpcode via op, op.toNat)],
      exec x.1 s = .next (s.units ((s.c.answer x.2 3 []).doorOut via))) ∧
  (∀ (s : State) (via : DoorVia) (c : Ctl) (l : RowLoc) (h g : Nat), s.spiHolds via = false → c = s.c.frameBegins via → frameCut via = true → s.c.doorUp = true → l.quad < 4 →
    l.cluster < 64 → l.bank < 16 → l.row < 4096 → h < 256 → g < 2 ^ 32 →
    exec (.readStore via h g) s = .next (s.units ((c.answer 4 1 []).doorOut via)) ∧ exec (.readRow via l) s = .next (s.units ((c.answer 3 1 []).doorOut via))) ∧
  (∀ (s : State) (via : DoorVia) (c : Ctl) (l : RowLoc) (h g : Nat), s.spiHolds via = false → c = s.c.frameBegins via → frameCut via = false → s.c.doorUp = true → l.quad < 4 →
    l.bank < 16 → l.row < 4096 → h < 2 → g < 32768 →
    (s.c.clk.frozen = false → exec (.readStore via 0 (h * 32768 + g)) s = .next (s.units ((c.answer 4 2 []).doorOut via))) ∧
    (l.cluster < 32 → s.c.clk.frozen = false → exec (.readRow via l) s = .next (s.units ((c.answer 3 2 []).doorOut via))) ∧
    (l.cluster < 32 → l.us = false → s.c.marches = [] → s.c.clk.frozen = true → exec (.readRow via l) s = .next (s.units
      ((c.answer 3 0 (leBytes 36 (codeWord (s.c.clusterRep l.quad l.cluster) (rowAt s.banks (rowKey l.quad l.cluster l.bank l.row))))).doorOut via))) ∧
    (s.c.clk.frozen = true → exec (.readStore via 0 (h * 32768 + g)) s =
      .next (s.units ((c.answer 4 0 (leBytes 36 (codeWord false (Tab.get fillGranule s.c.store (h * 32768 + g))))).doorOut via)))) ∧
  (∀ (s : State) (via : DoorVia) (c : Ctl), s.spiHolds via = false → c = s.c.frameBegins via → s.c.doorUp = true →
    exec (.getId via) s = .next (s.units ((c.answer 6 0 (leBytes 8 (regReset oId).toNat)).doorOut via)) ∧
    exec (.getStatus via) s = .next (s.units ((c.answer 5 0 (leBytes 4 (s.c.door.lastOp.toNat + (s.c.door.result <<< 8) +
      (s.c.fld oFwStat fwStat_RESULT <<< 12) + (s.c.fld oSmBoot smBoot_STEP <<< 16) + (s.c.fld oSmBoot smBoot_RECOVERY <<< 20) +
      (s.c.sysReady.toNat <<< 21) + (s.c.boot.factory.toNat <<< 22) + (s.c.fld oFwStat fwStat_UPLOADING <<< 23)))).doorOut via)) ∧
    (∀ op : Byte, op.toNat ∉ doorOpcodes → exec (.unknownOpcode via op) s = .next (s.units ((c.answer op.toNat 4 []).doorOut via))) ∧
    (s.c.clk.frozen = true ∨ s.c.boot.phase = .recovery → exec (.wake via) s = .next (s.units ((c.answer 0x30 2 []).doorOut via))) ∧
    (s.c.clk.frozen = false → s.c.boot.phase ≠ .recovery → s.c.wakeOn 1 = false → exec (.wake via) s = .next (s.units ((c.answer 0x30 0 []).doorOut via)))) ∧
  (frameCut .spi = false ∧ frameCut .tap = false ∧ frameCut .spiCut = true ∧ frameCut .tapCut = true) ∧
  (∀ c : Ctl, c.doorOut .spi = c ∧ c.doorOut .spiCut = c ∧ c.doorOut .tapCut = c.doorOut .tap ∧ (c.doorUp = true → c.door.tap = .testLogicReset ∨ c.door.tap = .runTestIdle → c.doorOut .tap =
    { c with door := { c.door with tap := .runTestIdle, tapIr := 0x40, tapOut := frameBits c.door.resp } })) ∧
  (∀ s : State, exec (.idcode true) s = .next (s.units { s.c with door := { s.c.door with tap := .testLogicReset, tapIr := 0x01, tapOut := [] } })) ∧
  (∀ (s : State) (n : Nat), n < 15 → s.c.door.tap = .testLogicReset ∨ s.c.door.tap = .runTestIdle →
    (∃ v, exec (.idcode false) s = .next (s.units { s.c with door := { s.c.door with tap := .runTestIdle, tapIr := 0x01, tapOut := (List.range 32).map (Nat.testBit v) } }) ∧
      v % 2 = 1 ∧ bits v 12 16 = 0x4D10 ∧ bits v 28 4 = 2) ∧
    exec .bypass s = .next (s.units { s.c with door := { s.c.door with tap := .runTestIdle, tapIr := 0xFF, tapOut := [false] } }) ∧
    (s.c.clk.frozen = false → exec (.scanN n) s = .next (s.units { s.c with door := { s.c.door with
      tap := .runTestIdle, tapIr := BitVec.ofNat 8 (0x50 + n), tapOut := List.replicate 32 false } })) ∧
    (s.c.clk.frozen = true → ∃ b : List Bool, b.length = 32 ∧ exec (.scanN n) s = .next (s.units { s.c with free := s.c.free + 1, door := { s.c.door with
      tap := .runTestIdle, tapIr := BitVec.ofNat 8 (0x50 + n), tapOut := b } })))

/-- UNLOCK enters factory test mode only if tst_mode was 1 at the release of rst_n, sys_ready has not yet risen, the key has been delivered,
and the response is the SHA-256 of the 8 bytes MIOUNLCK and the 32 key bytes; a refused one returns DENIED, and after the third
refusal since rst_n every further one is refused until rst_n. One sent while the stage manager does not run is DENIED, one cut short FRAME; neither counts as refusal (R356, R358). -/
def unlockRule : Prop :=
  (∀ (s : State) (via : DoorVia) (c : Ctl) (resp key : BitVec 256) (id : BitVec 16) (good : Nat), s.spiHolds via = false → c = s.c.frameBegins via → frameCut via = false →
    s.c.smRuns = true → s.c.boot.key = some (key, id) → good = digestNat ([0x4D, 0x49, 0x4F, 0x55, 0x4E, 0x4C, 0x43, 0x4B] ++ leBytes 32 key.toNat) →
    (s.c.boot.tst = true → s.c.everReady = false → resp.toNat = good → s.c.boot.unlocks < 3 →
      ∃ t, exec (.unlock via resp) s = .next t ∧ t.c.boot = { s.c.boot with factory := true } ∧ t.c.door.result = 0 ∧ t.c.door.lastOp = 0x20 ∧
        t.c.fld oFltStat fltStat_FACTORY = 1 ∧ t.c.faults.stop = 3 ∧ t.banks = s.banks ∧ ∀ o, o ≠ oFltStat → t.c.reg o = s.c.reg o) ∧
    (s.c.boot.tst = false ∨ s.c.everReady = true ∨ resp.toNat ≠ good ∨ 3 ≤ s.c.boot.unlocks →
      exec (.unlock via resp) s = .next (s.units (({ c with boot := { s.c.boot with unlocks := s.c.boot.unlocks + 1 } } : Ctl).answer 0x20 2 [] |>.doorOut via)))) ∧
  (∀ (s : State) (via : DoorVia) (c : Ctl) (resp : BitVec 256), s.spiHolds via = false → c = s.c.frameBegins via → s.c.doorUp = true →
    (frameCut via = true → exec (.unlock via resp) s = .next (s.units ((c.answer 0x20 1 []).doorOut via))) ∧
    (frameCut via = false → s.c.smRuns = false → exec (.unlock via resp) s = .next (s.units ((c.answer 0x20 2 []).doorOut via))) ∧
    (frameCut via = false → s.c.smRuns = true → s.c.boot.key = none →
      exec (.unlock via resp) s = .next (s.units (({ c with boot := { s.c.boot with unlocks := s.c.boot.unlocks + 1 } } : Ctl).answer 0x20 2 [] |>.doorOut via)))) ∧
  (∀ (s : State) (m : Bool), ∃ t, exec .rstNAssert s = .next t ∧ t.c.boot.unlocks = 0 ∧ t.c.everReady = false ∧ t.c.boot.key = none ∧
    ∃ u, exec (.startUp m) t = .next u ∧ u.c.boot.tst = m)

/-- Stage door, TAP and tableau requests: tableauRule, doorRegisterRule, doorReadRule, unlockRule. -/
def Obligations.StageDoorAndTap : Prop := tableauRule ∧ doorRegisterRule ∧ doorReadRule ∧ unlockRule

/-! ### Firmware and mailbox (R359 to R365) -/

/-- An upload: a header that fails a check changes RESULT alone, one that passes erases slot 1; data are taken at the next offset only, and while the device programs what came
before they are answered BUSY; a wrong offset ends the upload with ORDER, FW_END before the whole body too, and with a tag that fails AUTH; a program or erase failure, also of the header and
check word, ends it with NVM. With a good tag the header and the check word are programmed once the body has been, RESULT BUSY meanwhile, and then the image is staged. A frame cut short changes
nothing of it (R356, R360, R361). FW_DATA and FW_END outside an upload set ORDER (log entry 36, DEDUCED), and the door answers a refused firmware command OK (log entry 41). -/
def uploadRule : Prop :=
  (∀ (s : State) (via : DoorVia) (c : Ctl) (h : List Byte) (o : Nat), s.spiHolds via = false → c = s.c.frameBegins via → s.c.doorUp = true → o < 2 ^ 32 →
    (frameCut via = true ∨ h.length < 128 → exec (.fwBegin via h) s = .next (s.units ((c.answer 0x10 1 []).doorOut via))) ∧
    (frameCut via = true ∨ (h.length < 256 ∧ s.c.smRuns = true) → exec (.fwData via o h) s = .next (s.units ((c.answer 0x11 1 []).doorOut via)))) ∧
  (∀ (s : State) (via : DoorVia) (c : Ctl) (h : List Byte) (r : Nat), s.spiHolds via = false → c = s.c.frameBegins via → frameCut via = false → s.c.smRuns = true →
    128 ≤ h.length → r = s.c.beginCode (h.take 128) →
    (s.c.fld oFwStat fwStat_UPLOADING = 1 ∨ s.c.boot.copying ≠ 0 → r = 1) ∧
    (s.c.fld oFwStat fwStat_UPLOADING = 0 → s.c.boot.copying = 0 → leNat (h.take 4) ≠ 0x4D465749 → r = 2) ∧
    (r ≠ 0 → exec (.fwBegin via h) s = .next (s.units (((c.setFld oFwStat fwStat_RESULT r).answer 0x10 0 []).doorOut via))) ∧
    (r = 0 → ∃ t, exec (.fwBegin via h) s = .next t ∧ t.c.fld oFwStat fwStat_UPLOADING = 1 ∧ t.c.fld oFwStat fwStat_STAGED = 0 ∧ t.c.fld oFwStat fwStat_RESULT = 1 ∧
      t.c.boot.uploadHdr = h.take 128 ∧ t.c.boot.upload = [] ∧ t.c.boot.iramIdle = [] ∧ t.c.boot.iramRun = s.c.boot.iramRun ∧
      t.c.boot.dev.bytes = s.c.boot.dev.bytes.filter (fun e => !decide (0x50000 ≤ e.1 ∧ e.1 < 0x80000)) ∧ t.c.boot.nvmBusy = true ∧
      t.banks = s.banks ∧ t.c.door.result = 0 ∧ ∀ o, o ≠ oFwStat → t.c.reg o = s.c.reg o)) ∧
  (∀ (s : State) (via : DoorVia) (c : Ctl) (o : Nat) (d : List Byte), s.spiHolds via = false → c = s.c.frameBegins via → frameCut via = false → s.c.smRuns = true →
    256 ≤ d.length → o < 2 ^ 32 →
    (s.c.fld oFwStat fwStat_UPLOADING = 0 → exec (.fwData via o d) s = .next (s.units (((c.setFld oFwStat fwStat_RESULT 8).answer 0x11 0 []).doorOut via))) ∧
    (s.c.fld oFwStat fwStat_UPLOADING = 1 → s.c.boot.nvmBusy = true → exec (.fwData via o d) s =
      .next (s.units (((c.setFld oFwStat fwStat_RESULT 1).answer 0x11 3 []).doorOut via))) ∧
    (s.c.fld oFwStat fwStat_UPLOADING = 1 → s.c.boot.nvmBusy = false → o ≠ s.c.boot.upload.length → ∃ t, exec (.fwData via o d) s = .next t ∧
      t.c.fld oFwStat fwStat_RESULT = 8 ∧ t.c.fld oFwStat fwStat_UPLOADING = 0 ∧ t.c.boot.upload = [] ∧ t.c.boot.iramIdle = []) ∧
    (s.c.fld oFwStat fwStat_UPLOADING = 1 → s.c.boot.nvmBusy = false → o = s.c.boot.upload.length → o < hdrLen s.c.boot.uploadHdr →
      ∃ t, exec (.fwData via o d) s = .next t ∧ t.c.fld oFwStat fwStat_RESULT = 0 ∧ t.c.boot.nvmBusy = true ∧ t.banks = s.banks ∧
        t.c.boot.upload = s.c.boot.upload ++ d.take (min 256 (hdrLen s.c.boot.uploadHdr - o)) ∧ ∀ k, k ≠ oFwStat → t.c.reg k = s.c.reg k)) ∧
  (∀ (s : State) (via : DoorVia) (c : Ctl), s.spiHolds via = false → c = s.c.frameBegins via → s.c.smRuns = true →
    (s.c.fld oFwStat fwStat_UPLOADING = 0 → exec (.fwEnd via) s = .next (s.units (((c.setFld oFwStat fwStat_RESULT 8).answer 0x12 0 []).doorOut via))) ∧
    (s.c.fld oFwStat fwStat_UPLOADING = 1 → s.c.boot.ending ≠ 0 → exec (.fwEnd via) s = .next (s.units (((c.setFld oFwStat fwStat_RESULT 1).answer 0x12 0 []).doorOut via))) ∧
    (s.c.fld oFwStat fwStat_UPLOADING = 1 → s.c.boot.ending = 0 → s.c.boot.upload.length < hdrLen s.c.boot.uploadHdr → ∃ t, exec (.fwEnd via) s = .next t ∧
      t.c.fld oFwStat fwStat_RESULT = 8 ∧ t.c.fld oFwStat fwStat_UPLOADING = 0 ∧ t.c.boot.iramIdle = []) ∧
    (s.c.fld oFwStat fwStat_UPLOADING = 1 → s.c.boot.ending = 0 → hdrLen s.c.boot.uploadHdr ≤ s.c.boot.upload.length →
      (s.c.tagOk s.c.boot.uploadHdr s.c.boot.upload = false → ∃ t, exec (.fwEnd via) s = .next t ∧
        t.c.fld oFwStat fwStat_RESULT = 9 ∧ t.c.fld oFwStat fwStat_UPLOADING = 0 ∧ t.c.boot.iramIdle = []) ∧
      (s.c.tagOk s.c.boot.uploadHdr s.c.boot.upload = true → exec (.fwEnd via) s = .next (s.units ((({ c.setFld oFwStat fwStat_RESULT 1 with
        boot := { s.c.boot with ending := if s.c.boot.nvmBusy then 2 else 1, nvmBusy := true } } : Ctl).answer 0x12 0 []).doorOut via))))) ∧
  (∀ (s : State) (ok : Bool), s.c.smRuns = true →
    (s.c.fld oFwStat fwStat_UPLOADING = 0 ∨ s.c.boot.nvmBusy = false → exec (.nvmProgramEraseDone ok) s = .next s) ∧
    (s.c.fld oFwStat fwStat_UPLOADING = 1 → s.c.boot.nvmBusy = true →
      (ok = false → ∃ t, exec (.nvmProgramEraseDone ok) s = .next t ∧ t.c.fld oFwStat fwStat_RESULT = 10 ∧ t.c.fld oFwStat fwStat_UPLOADING = 0 ∧ t.c.boot.iramIdle = []) ∧
      (ok = true → s.c.boot.ending = 0 → ∃ t, exec (.nvmProgramEraseDone ok) s = .next t ∧ t.c.boot = { s.c.boot with nvmBusy := false } ∧
        t.c.fld oFwStat fwStat_UPLOADING = 1 ∧ t.c.fld oFwStat fwStat_RESULT ≠ 1 ∧ t.banks = s.banks) ∧
      (ok = true → s.c.boot.ending = 2 → exec (.nvmProgramEraseDone ok) s = .next (s.units { s.c with boot := { s.c.boot with ending := 1 } })) ∧
      (ok = true → s.c.boot.ending = 1 → ∃ t, exec (.nvmProgramEraseDone ok) s = .next t ∧
        t.c.fld oFwStat fwStat_RESULT = 0 ∧ t.c.fld oFwStat fwStat_UPLOADING = 0 ∧ t.c.fld oFwStat fwStat_STAGED = 1 ∧
        t.c.fld oFwStaged fwStaged_VER = hdrVer s.c.boot.uploadHdr % 2 ^ 32 ∧ t.c.boot.stagedHdr = s.c.boot.uploadHdr ∧
        t.c.boot.stagedBody = s.c.boot.upload ∧ t.c.boot.nvmBusy = false ∧ t.banks = s.banks)))

/-- Firmware upload: uploadRule. -/
def Obligations.FirmwareUpload : Prop := uploadRule

/-- Activation: without a staged image, in safe state or outside P0 and P1 its RESULT is STATE, and it is BUSY while one runs; else the staged image runs from the other RAM bank with requests
paused, until it has kicked and the drain is over; then the recorded ISSUE_PAUSE is back, and slot 1 may be copied into slot 0, which loses its first sector, then the rest, takes
header and body, and the check word last (R362 to R364). -/
def activateRule : Prop :=
  (∀ s : State, s.open_ → s.c.boot.phase = .ready →
    (s.c.fld oFwStat fwStat_STAGED = 0 ∨ s.c.blackout = true ∨ s.c.pmState ≠ 0 →
      exec (.fwActivate .control) s = .next (s.wrote (.fwActivate .control) (s.c.setFld oFwStat fwStat_RESULT 11))) ∧
    (s.c.fld oFwStat fwStat_STAGED = 1 → s.c.blackout = false → s.c.pmState = 0 → s.c.activateBusy = true →
      exec (.fwActivate .control) s = .next (s.wrote (.fwActivate .control) (s.c.setFld oFwStat fwStat_RESULT 1))) ∧
    (s.c.fld oFwStat fwStat_STAGED = 1 → s.c.blackout = false → s.c.pmState = 0 → s.c.activateBusy = false → Tab.get 0 s.c.notes.wrote oStrCfg = 0 → ∃ t,
      exec (.fwActivate .control) s = .next t ∧ t.banks = s.banks ∧ t.c.fld oFwStat fwStat_RESULT = 0 ∧ t.c.fld oFwStat fwStat_STAGED = 0 ∧
        t.c.fld oFwStat fwStat_RUN_VER = hdrVer s.c.boot.stagedHdr % 2 ^ 32 ∧ t.c.fld oStrCfg strCfg_ISSUE_PAUSE = 1 ∧
        t.c.boot.iramRun = s.c.boot.iramIdle ∧ t.c.boot.iramIdle = s.c.boot.iramRun ∧ t.c.boot.kicked = false ∧
        t.c.boot.pause = some (decide (s.c.fld oStrCfg strCfg_ISSUE_PAUSE = 1)) ∧ ∀ o, o ≠ oFwStat → o ≠ oStrCfg → t.c.reg o = s.c.reg o)) ∧
  (∀ (s : State) (src : WSrc) (via : DoorVia) (c : Ctl), (src = .door ∧ via = .spi) ∨ (src = .tap ∧ via = .tap) → s.spiHolds via = false → c = s.c.frameBegins via →
    s.c.doorUp = true →
    (s.c.smRuns = false → exec (.fwActivate src) s = .next (s.units ((c.answer 0x13 2 []).doorOut via))) ∧
    (s.c.smRuns = true → s.c.boot.phase = .ready → s.c.fld oFwStat fwStat_STAGED = 0 ∨ s.c.blackout = true ∨ s.c.pmState ≠ 0 →
      exec (.fwActivate src) s = .next (s.units (((c.setFld oFwStat fwStat_RESULT 11).answer 0x13 0 []).doorOut via)))) ∧
  (∀ (s : State) (bad : BitVec 5) (old : Bool), s.c.smRuns = true → s.c.boot.pause = some old →
    (s.c.boot.kicked = false ∨ s.c.drained = false → exec (.activateResume bad) s = .next s) ∧
    (s.c.boot.kicked = true → s.c.drained = true → Tab.get 0 s.c.notes.wrote oStrCfg = 0 → ∃ t, exec (.activateResume 0) s = .next t ∧
      t.c.fld oStrCfg strCfg_ISSUE_PAUSE = old.toNat ∧ t.c.boot = { s.c.boot with pause := none, copying := 4 } ∧
      t.c.fld oFwStat fwStat_COPY = 1 ∧ t.banks = s.banks ∧ ∀ o, o ≠ oFwStat → o ≠ oStrCfg → t.c.reg o = s.c.reg o)) ∧
  (∀ (s : State) (n : Nat) (slot0 : Nat → Tab Byte), s.c.smRuns = true → n = 0x80 + hdrLen (s.c.slotHeader 1) →
    (∀ k, slot0 k = s.c.boot.dev.bytes.filter (fun e => decide (e.1 < 0x20000)) ++
      ((s.c.boot.dev.bytes.filter fun e => decide (0x50000 ≤ e.1 ∧ e.1 < 0x50000 + k)).map fun e => (e.1 - 0x30000, e.2)) ++
      s.c.boot.dev.bytes.filter (fun e => decide (0x20000 + k ≤ e.1))) →
    (s.c.boot.copying = 0 → exec .slotCopy s = .next s) ∧
    (4 ≤ s.c.boot.copying → exec .slotCopy s = .next (s.units { s.c with boot := { s.c.boot with copying := 3, dev := { s.c.boot.dev with bytes := s.c.boot.dev.bytes.filter fun e => !decide (0x20000 ≤ e.1 ∧ e.1 < 0x21000) } } })) ∧
    (s.c.boot.copying = 3 → exec .slotCopy s = .next (s.units { (s.c.setFld oFwStat fwStat_COPY 2) with boot := { s.c.boot with copying := 2, dev := { s.c.boot.dev with bytes := s.c.boot.dev.bytes.filter fun e => !decide (0x20000 ≤ e.1 ∧ e.1 < 0x50000) } } })) ∧
    (s.c.boot.copying = 2 → exec .slotCopy s = .next (s.units { s.c with boot := { s.c.boot with copying := 1, dev := { s.c.boot.dev with bytes := slot0 n } } })) ∧
    (s.c.boot.copying = 1 → exec .slotCopy s = .next (s.units { (s.c.setFld oFwStat fwStat_COPY 0) with boot := { s.c.boot with copying := 0, dev := { s.c.boot.dev with bytes := slot0 (n + 4) } } })))

/-- The mailbox: the host's full bit is set by H2S_SEND and cleared when the stage manager has taken the message, the stage manager's by S2H_MESSAGE_POST, which fills its words, and
cleared by S2H_ACK. H2S_SEND while H2S_FULL is 1 does nothing, and a write of an H2S word then is ignored and sets H2S_REFUSED; with H2S_FULL = 0 it loads the enabled halves. A second
message of the stage manager, which R365 does not bar, replaces the words of the first (R365). -/
def mailboxRule : Prop :=
  (∀ s : State, s.open_ →
    (s.c.fld oMbCtrl mbCtrl_H2S_FULL = 1 → exec .h2sSend s = .next (s.wrote .h2sSend s.c)) ∧
    (s.c.fld oMbCtrl mbCtrl_H2S_FULL = 0 → exec .h2sSend s = .next (s.wrote .h2sSend (s.c.setFld oMbCtrl mbCtrl_H2S_FULL 1))) ∧
    exec .s2hAck s = .next (s.wrote .s2hAck (s.c.setFld oMbCtrl mbCtrl_S2H_FULL 0))) ∧
  (∀ (s : State) (k : Nat) (be : BitVec 2) (data : Word) (i : Instr), s.open_ → k < 8 → be ≠ 0 → (∀ e ∈ s.c.notes.door, e.1 ≠ oMbH2s k) →
    i = .registerWrite .control (oMbH2s k) be data →
    (s.c.fld oMbCtrl mbCtrl_H2S_FULL = 1 → ∃ nn : CcNotes, exec i s = .next (s.wrote i { s.c.setFld oMbCtrl mbCtrl_H2S_REFUSED 1 with notes := nn })) ∧
    (s.c.fld oMbCtrl mbCtrl_H2S_FULL = 0 → exec i s = .next (s.wrote i (s.c.setReg (oMbH2s k) (merge (s.c.reg (oMbH2s k)) be data))))) ∧
  (∀ (s : State) (words : List Word), s.c.smRuns = true →
    exec .h2sMessageTaken s = .next (s.units (s.c.setFld oMbCtrl mbCtrl_H2S_FULL 0)) ∧
    ∃ t, exec (.s2hMessagePost words) s = .next t ∧ t.c.fld oMbCtrl mbCtrl_S2H_FULL = 1 ∧ t = s.units { s.c with regs := t.c.regs } ∧
      (∀ k, k < 8 → t.c.reg (oMbS2h k) = words.getD k (s.c.reg (oMbS2h k))) ∧
      (∀ o, (∀ k, k < 8 → o ≠ oMbS2h k) → o ≠ oMbCtrl → t.c.reg o = s.c.reg o))

/-- Activation, slot copy and mailbox: activateRule, mailboxRule. -/
def Obligations.ActivationAndMailbox : Prop := activateRule ∧ mailboxRule

/-! ### Layout and comparison (R16, R162, R163) -/

/-- The bytes of a granule (R16): data byte k is bits [8k+7:8k], word w is bits [32w+31:32w], and the lowest-addressed byte of a word is its
least significant byte. -/
def Obligations.GranuleBytesAreLittleEndian : Prop :=
  ∀ g : Granule, (granuleBytes g).length = 32 ∧
    (∀ k, k < 32 → (granuleBytes g)[k]? = some (g.extractLsb' (8 * k) 8)) ∧
    (∀ w, w < 8 → leNat (((granuleBytes g).drop (4 * w)).take 4) = bits g.toNat (32 * w) 32)

/-- A target set with d = (t - c) mod 2^32 from 1 to 2^31 is unmet and becomes met once the counter has advanced by d; one with d = 0 or
above 2^31 is met at once (R163). -/
def Obligations.TargetIsMetAfterItsDistance : Prop :=
  ∀ c t d : Nat, d = (t + 2 ^ 32 - c % 2 ^ 32) % 2 ^ 32 →
    (1 ≤ d → d ≤ 2 ^ 31 → (∀ k, k < d → reached ((c + k) % 2 ^ 32) t = false) ∧ reached ((c + d) % 2 ^ 32) t = true) ∧
    (d = 0 ∨ 2 ^ 31 < d → reached (c % 2 ^ 32) t = true)
end

