-- ==== Sys2Proof/Laws/Table.lean ====
section
/-! SUPPORT. Reads after writes of the sparse table, and its canonical form. -/

namespace Sys2Proof

variable {α : Type}

@[simp] theorem Tab.get_nil (d : α) (k : Nat) : Tab.get d [] k = d := rfl

theorem Tab.get_put_same (d v : α) (k : Nat) (t : Tab α) : Tab.get d (Tab.put v k t) k = v := by
  induction t with
  | nil => simp [Tab.put, Tab.get]
  | cons e t ih =>
    obtain ⟨a, w⟩ := e
    simp only [Tab.put]
    split
    · simp [Tab.get]
    · split
      · simp [Tab.get]
      · next h => simp [Tab.get, Ne.symm h, ih]

theorem Tab.get_put_ne (d v : α) {k k' : Nat} (h : k' ≠ k) (t : Tab α) : Tab.get d (Tab.put v k t) k' = Tab.get d t k' := by
  induction t with
  | nil => simp [Tab.put, Tab.get, Ne.symm h]
  | cons e t ih =>
    obtain ⟨a, w⟩ := e
    simp only [Tab.put]
    split
    · simp [Tab.get, Ne.symm h]
    · split
      · next hk => subst hk; simp [Tab.get, Ne.symm h]
      · simp [Tab.get, ih]

theorem Tab.get_drop_same (d : α) (k : Nat) (t : Tab α) : Tab.get d (Tab.drop k t) k = d := by
  induction t with
  | nil => rfl
  | cons e t ih =>
    obtain ⟨a, w⟩ := e
    simp only [Tab.drop]
    split
    · exact ih
    · next h => simp [Tab.get, h, ih]

theorem Tab.get_drop_ne (d : α) {k k' : Nat} (h : k' ≠ k) (t : Tab α) : Tab.get d (Tab.drop k t) k' = Tab.get d t k' := by
  induction t with
  | nil => rfl
  | cons e t ih =>
    obtain ⟨a, w⟩ := e
    simp only [Tab.drop]
    split
    · next ha => subst ha; simp [Tab.get, Ne.symm h, ih]
    · simp [Tab.get, ih]

variable [DecidableEq α]

/-- A key that was written reads as the value written. -/
@[simp] theorem Tab.get_set_same (d : α) (t : Tab α) (k : Nat) (v : α) : Tab.get d (Tab.set d t k v) k = v := by
  unfold Tab.set
  split
  · next h => rw [h, Tab.get_drop_same]
  · exact Tab.get_put_same d v k t

/-- Every other key reads as before. -/
theorem Tab.get_set_ne (d e : α) (t : Tab α) {k k' : Nat} (h : k' ≠ k) (v : α) : Tab.get e (Tab.set d t k v) k' = Tab.get e t k' := by
  unfold Tab.set
  split
  · exact Tab.get_drop_ne e h t
  · exact Tab.get_put_ne e v h t

theorem Tab.get_set (d : α) (t : Tab α) (k k' : Nat) (v : α) :
    Tab.get d (Tab.set d t k v) k' = if k' = k then v else Tab.get d t k' := by
  split
  · next h => subst h; exact Tab.get_set_same d t _ v
  · next h => exact Tab.get_set_ne d d t h v

/-! ### The canonical form -/

/-- The canonical form above a bound, entry by entry. -/
@[simp] theorem Tab.okFrom_cons {d : α} {lo a : Nat} {v : α} {t : Tab α} :
    Tab.okFrom d (some lo) ((a, v) :: t) ↔ (lo < a ∧ v ≠ d) ∧ Tab.okFrom d (some a) t := by
  simp [Tab.okFrom]

@[simp] theorem Tab.ok_cons {d : α} {a : Nat} {v : α} {t : Tab α} :
    Tab.ok d ((a, v) :: t) ↔ v ≠ d ∧ Tab.okFrom d (some a) t := by
  simp [Tab.ok, Tab.okFrom]

@[simp] theorem Tab.okFrom_nil {d : α} {lo : Option Nat} : Tab.okFrom d lo [] = true := rfl
@[simp] theorem Tab.ok_nil {d : α} : Tab.ok d [] = true := rfl

/-- The bound of a canonical tail may be lowered. -/
theorem Tab.okFrom_mono {d : α} {lo hi : Nat} (h : lo ≤ hi) {t : Tab α} (ht : Tab.okFrom d (some hi) t) : Tab.okFrom d (some lo) t := by
  cases t with
  | nil => rfl
  | cons e t =>
    obtain ⟨a, v⟩ := e
    rw [Tab.okFrom_cons] at ht ⊢
    exact ⟨⟨by omega, ht.1.2⟩, ht.2⟩

theorem Tab.ok_of_okFrom {d : α} {lo : Nat} {t : Tab α} (ht : Tab.okFrom d (some lo) t) : Tab.ok d t := by
  cases t with
  | nil => rfl
  | cons e t =>
    obtain ⟨a, v⟩ := e
    rw [Tab.okFrom_cons] at ht
    exact Tab.ok_cons.mpr ⟨ht.1.2, ht.2⟩

theorem Tab.okFrom_drop {d : α} (k : Nat) {lo : Nat} {t : Tab α} (ht : Tab.okFrom d (some lo) t) : Tab.okFrom d (some lo) (Tab.drop k t) := by
  induction t generalizing lo with
  | nil => rfl
  | cons e t ih =>
    obtain ⟨a, v⟩ := e
    rw [Tab.okFrom_cons] at ht
    simp only [Tab.drop]
    split
    · exact ih (Tab.okFrom_mono (Nat.le_of_lt ht.1.1) ht.2)
    · exact Tab.okFrom_cons.mpr ⟨ht.1, ih ht.2⟩

theorem Tab.okFrom_put {d v : α} (hv : v ≠ d) {k lo : Nat} (hk : lo < k) {t : Tab α} (ht : Tab.okFrom d (some lo) t) :
    Tab.okFrom d (some lo) (Tab.put v k t) := by
  induction t generalizing lo with
  | nil => simp [Tab.put, hk, hv]
  | cons e t ih =>
    obtain ⟨a, w⟩ := e
    rw [Tab.okFrom_cons] at ht
    simp only [Tab.put]
    split
    · next h => simp [hk, hv, h, ht.1.2, ht.2]
    · split
      · next h => subst h; simp [hk, hv, ht.2]
      · exact Tab.okFrom_cons.mpr ⟨ht.1, ih (by omega) ht.2⟩

/-- A write keeps the canonical form. -/
theorem Tab.ok_set {d : α} {t : Tab α} (ht : Tab.ok d t) (k : Nat) (v : α) : Tab.ok d (Tab.set d t k v) := by
  unfold Tab.set
  cases t with
  | nil =>
    split
    · rfl
    · next h => simp [Tab.put, h]
  | cons e t =>
    obtain ⟨a, w⟩ := e
    rw [Tab.ok_cons] at ht
    split
    · simp only [Tab.drop]
      split
      · exact Tab.ok_of_okFrom (Tab.okFrom_drop k ht.2)
      · exact Tab.ok_cons.mpr ⟨ht.1, Tab.okFrom_drop k ht.2⟩
    · next hv =>
      simp only [Tab.put]
      split
      · next h => simp [hv, h, ht.1, ht.2]
      · split
        · next h => subst h; simp [hv, ht.2]
        · exact Tab.ok_cons.mpr ⟨ht.1, Tab.okFrom_put hv (by omega) ht.2⟩

/-- At or below the bound of a canonical tail every key reads as the default. -/
theorem Tab.get_low {d : α} {lo : Nat} {t : Tab α} (ht : Tab.okFrom d (some lo) t) {k : Nat} (hk : k ≤ lo) : Tab.get d t k = d := by
  induction t generalizing lo with
  | nil => rfl
  | cons e t ih =>
    obtain ⟨a, v⟩ := e
    rw [Tab.okFrom_cons] at ht
    have : a ≠ k := by omega
    simp only [Tab.get, if_neg this]
    exact ih ht.2 (by omega)

end Sys2Proof
end

