-- ==== Sys2Proof/Laws/Ops.lean ====
section
/-! SUPPORT. What the shared operations can do: the outcomes of a meaning, and the writes to the bank rows. -/

namespace Sys2Proof.Machine

/-! ### Outcomes -/

@[simp] theorem onUnit_true (s : State) (f : Ctl → Ctl) : onUnit true s f = .next { s with c := if s.c.clk.frozen then s.c else f s.c } := rfl
@[simp] theorem onUnit_false (s : State) (f : Ctl → Ctl) : onUnit false s f = .fault .noSuchUnit := rfl
@[simp] theorem onDoor_true (s : State) (f : Ctl → Ctl) : onDoor true s f = .next { s with c := f s.c } := rfl
@[simp] theorem onDoor_false (s : State) (f : Ctl → Ctl) : onDoor false s f = .fault .noSuchUnit := rfl

/-- Outside a tableau a meaning on the units acts. -/
theorem onUnit_next {ok : Bool} (h : ok = true) {s : State} (hf : s.c.clk.frozen = false) (f : Ctl → Ctl) :
    onUnit ok s f = .next { s with c := f s.c } := by subst h; simp [hf]

/-- In tableau a meaning on the units leaves the block as it is (R296). -/
theorem onUnit_frozen {ok : Bool} (h : ok = true) {s : State} (hf : s.c.clk.frozen = true) (f : Ctl → Ctl) : onUnit ok s f = .next s := by
  subst h; simp [hf]

/-- A meaning on the units keeps the queue and the banks. -/
theorem onUnit_spec {ok : Bool} {s t : State} {f : Ctl → Ctl} (h : onUnit ok s f = .next t) : t.pending = s.pending ∧ t.banks = s.banks := by
  cases ok <;> simp_all; subst h; simp

theorem onDoor_spec {ok : Bool} {s t : State} {f : Ctl → Ctl} (h : onDoor ok s f = .next t) : t.pending = s.pending ∧ t.banks = s.banks := by
  cases ok <;> simp_all; subst h; simp

/-- A meaning that may write banks keeps the queue, and changes the banks by writes of rows. -/
theorem onBanks_spec {ok : Bool} {s t : State} {f : Tab Granule → Ctl → Ctl × List BankOp} (h : onBanks ok s f = .next t) :
    t.pending = s.pending ∧ ∃ l, t.banks = applyOps s.banks l := by
  cases ok
  · simp [onBanks] at h
  · simp only [onBanks, if_true, Host.Outcome.next.injEq] at h; subst h; exact ⟨rfl, _, rfl⟩

theorem onDoorBanks_spec {ok : Bool} {s t : State} {f : Tab Granule → Ctl → Ctl × List BankOp} (h : onDoorBanks ok s f = .next t) :
    t.pending = s.pending ∧ ∃ l, t.banks = applyOps s.banks l := by
  cases ok
  · simp [onDoorBanks] at h
  · simp only [onDoorBanks, if_true, Host.Outcome.next.injEq] at h; subst h; exact ⟨rfl, _, rfl⟩

/-- Outside a tableau a meaning on the banks acts. -/
theorem onBanks_next {ok : Bool} (h : ok = true) {s : State} (hf : s.c.clk.frozen = false) (f : Tab Granule → Ctl → Ctl × List BankOp) :
    onBanks ok s f = .next { s with c := (f s.banks s.c).1, banks := applyOps s.banks (f s.banks s.c).2 } := by
  subst h; simp [onBanks, hf]

/-- In tableau a meaning on the banks leaves the block as it is (R296). -/
theorem onBanks_frozen {ok : Bool} (h : ok = true) {s : State} (hf : s.c.clk.frozen = true) (f : Tab Granule → Ctl → Ctl × List BankOp) :
    onBanks ok s f = .next s := by
  subst h; simp [onBanks, hf, applyOps]

/-! ### The rows of the banks -/

theorem clearRows_okFrom {lo n x : Nat} {b : Tab Granule} (h : Tab.okFrom fillGranule (some x) b) :
    Tab.okFrom fillGranule (some x) (clearRows lo n b) := by
  induction b generalizing x with
  | nil => rfl
  | cons e b ih =>
    obtain ⟨a, v⟩ := e
    rw [Tab.okFrom_cons] at h
    simp only [clearRows]
    split
    · exact ih (Tab.okFrom_mono (Nat.le_of_lt h.1.1) h.2)
    · exact Tab.okFrom_cons.mpr ⟨h.1, ih h.2⟩

theorem clearRows_ok {lo n : Nat} {b : Tab Granule} (h : Tab.ok fillGranule b) : Tab.ok fillGranule (clearRows lo n b) := by
  cases b with
  | nil => rfl
  | cons e b =>
    obtain ⟨a, v⟩ := e
    rw [Tab.ok_cons] at h
    simp only [clearRows]
    split
    · exact Tab.ok_of_okFrom (clearRows_okFrom h.2)
    · exact Tab.ok_cons.mpr ⟨h.1, clearRows_okFrom h.2⟩

theorem putRows_ok (l : Tab Granule) {b : Tab Granule} (h : Tab.ok fillGranule b) : Tab.ok fillGranule (putRows l b) := by
  induction l generalizing b with
  | nil => exact h
  | cons e l ih => exact ih (Tab.ok_set h _ _)

/-- Every write of rows keeps the canonical form of the banks. -/
theorem applyOp_ok (o : BankOp) {b : Tab Granule} (h : Tab.ok fillGranule b) : Tab.ok fillGranule (applyOp b o) := by
  cases o with
  | put k g => exact Tab.ok_set h k g
  | clear lo n => exact clearRows_ok h
  | copy src dst n => exact putRows_ok _ (clearRows_ok h)

theorem applyOps_ok (l : List BankOp) {b : Tab Granule} (h : Tab.ok fillGranule b) : Tab.ok fillGranule (applyOps b l) := by
  induction l generalizing b with
  | nil => exact h
  | cons o l ih => exact ih (applyOp_ok o h)

@[simp] theorem applyOps_nil (b : Tab Granule) : applyOps b [] = b := rfl
@[simp] theorem applyOps_cons (b : Tab Granule) (o : BankOp) (l : List BankOp) : applyOps b (o :: l) = applyOps (applyOp b o) l := rfl

/-- The row written reads as written, every other row as before. -/
theorem rowAt_put (b : Tab Granule) (k k' : Nat) (g : Granule) : rowAt (applyOp b (.put k g)) k' = if k' = k then g else rowAt b k' :=
  Tab.get_set fillGranule b k k' g

/-- Cleared rows read as the fill granule, every other row as before. -/
theorem rowAt_clear (b : Tab Granule) (lo n k : Nat) :
    rowAt (applyOp b (.clear lo n)) k = if lo ≤ k ∧ k < lo + n then fillGranule else rowAt b k := by
  simp only [rowAt, applyOp]
  induction b with
  | nil => simp [clearRows]
  | cons e b ih =>
    obtain ⟨a, v⟩ := e
    simp only [clearRows]
    by_cases ha : a = k
    · subst ha
      split
      · next h => rw [ih]; simp [h]
      · next h => simp [Tab.get]
    · split
      · rw [ih]; simp [Tab.get, ha]
      · simp only [Tab.get, if_neg ha]; exact ih

end Sys2Proof.Machine
end

