-- ==== Sys2Proof/Laws/Regs.lean ====
section
/-! SUPPORT. Registers and fields: reads after writes, and what a write of a register leaves alone. -/

namespace Sys2Proof.Machine

@[simp] theorem Ctl.reg_setReg_same (c : Ctl) (o : Nat) (v : Word) : (c.setReg o v).reg o = v := Tab.get_set_same _ _ _ _

theorem Ctl.reg_setReg_ne (c : Ctl) {o o' : Nat} (h : o' ≠ o) (v : Word) : (c.setReg o v).reg o' = c.reg o' :=
  Tab.get_set_ne _ _ _ h _

theorem Ctl.reg_setReg (c : Ctl) (o o' : Nat) (v : Word) : (c.setReg o v).reg o' = if o' = o then v else c.reg o' := by
  split
  · next h => subst h; simp
  · next h => exact c.reg_setReg_ne h v

/-! ### Bit ranges of numbers -/

theorem bits_lt (v lo w : Nat) : bits v lo w < 2 ^ w := Nat.mod_lt _ (Nat.two_pow_pos w)

theorem bits_le (v lo w : Nat) : bits v lo w <<< lo ≤ v := by
  simp only [bits, Nat.shiftLeft_eq, Nat.shiftRight_eq_div_pow]
  calc v / 2 ^ lo % 2 ^ w * 2 ^ lo ≤ v / 2 ^ lo * 2 ^ lo := Nat.mul_le_mul_right _ (Nat.mod_le _ _)
    _ ≤ v := Nat.div_mul_le_self _ _

/-- A number as what lies above a bit range, the range, and what lies below. -/
theorem bits_split (v lo w : Nat) : v = v / 2 ^ (lo + w) * 2 ^ (lo + w) + bits v lo w * 2 ^ lo + v % 2 ^ lo := by
  simp only [bits, Nat.shiftRight_eq_div_pow]
  have h1 := Nat.div_add_mod v (2 ^ lo)
  have h2 := Nat.div_add_mod (v / 2 ^ lo) (2 ^ w)
  rw [Nat.div_div_eq_div_mul, ← pow_add] at h2
  calc v = 2 ^ lo * (2 ^ w * (v / 2 ^ (lo + w)) + v / 2 ^ lo % 2 ^ w) + v % 2 ^ lo := by rw [h2, h1]
    _ = _ := by rw [pow_add]; ring

/-- A bit range replaced: what lies above and below stays. -/
theorem putBits_split (v lo w x : Nat) : putBits v lo w x = v / 2 ^ (lo + w) * 2 ^ (lo + w) + (x % 2 ^ w) * 2 ^ lo + v % 2 ^ lo := by
  have h := bits_split v lo w
  have h1 := bits_le v lo w
  simp only [putBits, Nat.shiftLeft_eq] at h1 ⊢
  omega

theorem testBit_putBits (v lo w x i : Nat) :
    Nat.testBit (putBits v lo w x) i = if lo ≤ i ∧ i < lo + w then Nat.testBit x (i - lo) else Nat.testBit v i := by
  rw [putBits_split]
  have hx : x % 2 ^ w < 2 ^ w := Nat.mod_lt _ (Nat.two_pow_pos w)
  have hv : v % 2 ^ lo < 2 ^ lo := Nat.mod_lt _ (Nat.two_pow_pos lo)
  have e : v / 2 ^ (lo + w) * 2 ^ (lo + w) + (x % 2 ^ w) * 2 ^ lo + v % 2 ^ lo
      = 2 ^ lo * (2 ^ w * (v / 2 ^ (lo + w)) + x % 2 ^ w) + v % 2 ^ lo := by rw [pow_add]; ring
  rw [e, Nat.testBit_two_pow_mul_add _ hv]
  split
  · next h => rw [if_neg (by omega), Nat.testBit_mod_two_pow]; simp [h]
  · next h =>
    rw [Nat.testBit_two_pow_mul_add _ hx]
    split
    · next h2 => rw [if_pos (by omega), Nat.testBit_mod_two_pow]; simp [h2]
    · next h2 =>
      rw [if_neg (by omega), Nat.testBit_div_two_pow]; congr 1; omega

theorem testBit_bits (v lo w i : Nat) : Nat.testBit (bits v lo w) i = (decide (i < w) && Nat.testBit v (lo + i)) := by
  simp [bits, Nat.testBit_mod_two_pow, Nat.testBit_shiftRight]

/-- The range written reads as written. -/
theorem bits_putBits_same (v lo w x : Nat) : bits (putBits v lo w x) lo w = x % 2 ^ w := by
  apply Nat.eq_of_testBit_eq; intro i
  rw [testBit_bits, testBit_putBits, Nat.testBit_mod_two_pow]
  by_cases h : i < w <;> simp [h]

/-- Another range reads as before. -/
theorem bits_putBits_ne (v x : Nat) {lo w lo' w' : Nat} (h : lo' + w' ≤ lo ∨ lo + w ≤ lo') : bits (putBits v lo w x) lo' w' = bits v lo' w' := by
  apply Nat.eq_of_testBit_eq; intro i
  rw [testBit_bits, testBit_putBits, testBit_bits]
  by_cases hi : i < w'
  · rw [if_neg (by omega)]
  · simp [hi]

theorem putBits_lt {v lo w n : Nat} (x : Nat) (hv : v < 2 ^ n) (h : lo + w ≤ n) : putBits v lo w x < 2 ^ n := by
  apply Nat.lt_pow_two_of_testBit; intro i hi
  rw [testBit_putBits, if_neg (by omega)]
  exact Nat.testBit_eq_false_of_lt (lt_of_lt_of_le hv (Nat.pow_le_pow_right (by omega) hi))

/-! ### Fields -/

/-- The stored word of a field write. -/
theorem Ctl.reg_setFld (c : Ctl) (o : Nat) (f : FieldPos) (x o' : Nat) :
    (c.setFld o f x).reg o' = if o' = o + 8 * f.word then BitVec.ofNat 64 (putBits (c.reg o').toNat f.lo f.width x) else c.reg o' := by
  simp only [Ctl.setFld, Ctl.reg_setReg]
  split
  · next h => subst h; rfl
  · rfl

theorem Ctl.reg_setFld_ne (c : Ctl) {o : Nat} {f : FieldPos} (x : Nat) {o' : Nat} (h : o' ≠ o + 8 * f.word) : (c.setFld o f x).reg o' = c.reg o' := by
  rw [Ctl.reg_setFld, if_neg h]

/-- A field that was written reads as written. -/
theorem Ctl.fld_setFld_same (c : Ctl) (o : Nat) (f : FieldPos) (x : Nat) (hf : f.lo + f.width ≤ 64) : (c.setFld o f x).fld o f = x % 2 ^ f.width := by
  simp only [Ctl.fld, Ctl.reg_setFld, if_pos, BitVec.toNat_ofNat]
  rw [Nat.mod_eq_of_lt (putBits_lt x (c.reg (o + 8 * f.word)).isLt hf), bits_putBits_same]

/-- A field of another word, or of other bits, reads as before. -/
theorem Ctl.fld_setFld_ne (c : Ctl) {o o' : Nat} {f f' : FieldPos} (x : Nat) (hf : f.lo + f.width ≤ 64)
    (h : o' + 8 * f'.word ≠ o + 8 * f.word ∨ f'.lo + f'.width ≤ f.lo ∨ f.lo + f.width ≤ f'.lo) : (c.setFld o f x).fld o' f' = c.fld o' f' := by
  simp only [Ctl.fld, Ctl.reg_setFld]
  split
  · next e =>
    rw [BitVec.toNat_ofNat, Nat.mod_eq_of_lt (putBits_lt x (c.reg _).isLt hf)]
    exact bits_putBits_ne _ _ (h.resolve_left (fun k => k e))
  · rfl

theorem Ctl.fld_setReg_ne (c : Ctl) {o o' : Nat} {f : FieldPos} (v : Word) (h : o' + 8 * f.word ≠ o) : (c.setReg o v).fld o' f = c.fld o' f := by
  simp only [Ctl.fld, c.reg_setReg_ne h]

end Sys2Proof.Machine
end

