-- ==== Sys2Proof/Laws/Shape.lean ====
section
/-! SUPPORT. What every command can do: its meaning is one of the shared operations, and it acts exactly when it names units that exist. -/

namespace Sys2Proof.Machine

/-- A frame's meaning is one of the stage door's. -/
theorem onFrame_shape (ok : Bool) (s : State) (via : DoorVia) (op : Nat) (f : Ctl → Ctl) : ∃ g, onFrame ok s via op f = onDoor ok s g := ⟨_, rfl⟩

/-- A frame's meaning that may write banks is one of the stage door's. -/
theorem onFrameBanks_shape (s : State) (via : DoorVia) (op : Nat) (f : Ctl → Ctl × List BankOp) :
    ∃ g, onFrameBanks s via op f = onDoorBanks true s g := ⟨_, rfl⟩

/-- Every meaning is a shared operation guarded by the well-formedness of the command; the end of the supplies alone is none. -/
theorem exec_shape (i : Instr) (s : State) :
    (∃ f, exec i s = onUnit i.wf s f) ∨ (∃ f, exec i s = onDoor i.wf s f) ∨ (∃ f, exec i s = onBanks i.wf s f)
      ∨ (∃ f, exec i s = onDoorBanks i.wf s f) ∨ i = .supplyRestore := by
  cases i <;> simp only [exec] <;> first
    | exact .inl ⟨_, rfl⟩
    | exact .inr (.inl ⟨_, rfl⟩)
    | exact .inr (.inr (.inl ⟨_, rfl⟩))
    | exact .inr (.inr (.inr (.inl ⟨_, rfl⟩)))
    | exact .inr (.inl (onFrame_shape _ _ _ _ _))
    | exact .inr (.inr (.inr (.inl (onFrameBanks_shape _ _ _ _))))
    | simp; done
    | (unfold execReadReg; split <;> first | exact .inl ⟨_, rfl⟩ | exact .inr (.inl (onFrame_shape _ _ _ _ _)))
    | (unfold execFwActivate; split <;> first | exact .inr (.inr (.inl ⟨_, rfl⟩)) | exact .inr (.inr (.inr (.inl (onFrameBanks_shape _ _ _ _)))))
    | (unfold execUnknownOpcode; split <;> exact .inr (.inl ⟨_, rfl⟩))
    | (unfold execTableau; split <;> exact .inr (.inl ⟨_, rfl⟩))

/-- What a next state of any command keeps: the queue, and the banks but for writes of rows. -/
theorem exec_next {i : Instr} {s t : State} (h : exec i s = .next t) :
    t.pending = s.pending ∧ (t.banks = [] ∨ ∃ l, t.banks = applyOps s.banks l) := by
  rcases exec_shape i s with ⟨f, e⟩ | ⟨f, e⟩ | ⟨f, e⟩ | ⟨f, e⟩ | rfl
  · exact ⟨(onUnit_spec (e ▸ h)).1, .inr ⟨[], (onUnit_spec (e ▸ h)).2⟩⟩
  · exact ⟨(onDoor_spec (e ▸ h)).1, .inr ⟨[], (onDoor_spec (e ▸ h)).2⟩⟩
  · exact ⟨(onBanks_spec (e ▸ h)).1, .inr (onBanks_spec (e ▸ h)).2⟩
  · exact ⟨(onDoorBanks_spec (e ▸ h)).1, .inr (onDoorBanks_spec (e ▸ h)).2⟩
  · cases h; exact ⟨rfl, .inl rfl⟩

end Sys2Proof.Machine
end

