-- ==== Sys2Proof/Laws/State.lean ====
section
/-! SUPPORT. What each update of the state leaves alone, field by field, and reads after writes of the units' tables. -/

namespace Sys2Proof.Machine

/-! ### setReg -/

@[simp] theorem Ctl.setReg_notes (c : Ctl) (o : Nat) (v : Word) : (c.setReg o v).notes = c.notes := rfl
@[simp] theorem Ctl.setReg_sysReady (c : Ctl) (o : Nat) (v : Word) : (c.setReg o v).sysReady = c.sysReady := rfl
@[simp] theorem Ctl.setReg_everReady (c : Ctl) (o : Nat) (v : Word) : (c.setReg o v).everReady = c.everReady := rfl
@[simp] theorem Ctl.setReg_clk (c : Ctl) (o : Nat) (v : Word) : (c.setReg o v).clk = c.clk := rfl
@[simp] theorem Ctl.setReg_boot (c : Ctl) (o : Nat) (v : Word) : (c.setReg o v).boot = c.boot := rfl
@[simp] theorem Ctl.setReg_store (c : Ctl) (o : Nat) (v : Word) : (c.setReg o v).store = c.store := rfl
@[simp] theorem Ctl.setReg_storeSeen (c : Ctl) (o : Nat) (v : Word) : (c.setReg o v).storeSeen = c.storeSeen := rfl
@[simp] theorem Ctl.setReg_storeFix (c : Ctl) (o : Nat) (v : Word) : (c.setReg o v).storeFix = c.storeFix := rfl
@[simp] theorem Ctl.setReg_seqs (c : Ctl) (o : Nat) (v : Word) : (c.setReg o v).seqs = c.seqs := rfl
@[simp] theorem Ctl.setReg_groups (c : Ctl) (o : Nat) (v : Word) : (c.setReg o v).groups = c.groups := rfl
@[simp] theorem Ctl.setReg_rdOut (c : Ctl) (o : Nat) (v : Word) : (c.setReg o v).rdOut = c.rdOut := rfl
@[simp] theorem Ctl.setReg_stOut (c : Ctl) (o : Nat) (v : Word) : (c.setReg o v).stOut = c.stOut := rfl
@[simp] theorem Ctl.setReg_sOut (c : Ctl) (o : Nat) (v : Word) : (c.setReg o v).sOut = c.sOut := rfl
@[simp] theorem Ctl.setReg_cntHist (c : Ctl) (o : Nat) (v : Word) : (c.setReg o v).cntHist = c.cntHist := rfl
@[simp] theorem Ctl.setReg_curtains (c : Ctl) (o : Nat) (v : Word) : (c.setReg o v).curtains = c.curtains := rfl
@[simp] theorem Ctl.setReg_ctxs (c : Ctl) (o : Nat) (v : Word) : (c.setReg o v).ctxs = c.ctxs := rfl
@[simp] theorem Ctl.setReg_osets (c : Ctl) (o : Nat) (v : Word) : (c.setReg o v).osets = c.osets := rfl
@[simp] theorem Ctl.setReg_dlTold (c : Ctl) (o : Nat) (v : Word) : (c.setReg o v).dlTold = c.dlTold := rfl
@[simp] theorem Ctl.setReg_sports (c : Ctl) (o : Nat) (v : Word) : (c.setReg o v).sports = c.sports := rfl
@[simp] theorem Ctl.setReg_landed (c : Ctl) (o : Nat) (v : Word) : (c.setReg o v).landed = c.landed := rfl
@[simp] theorem Ctl.setReg_later (c : Ctl) (o : Nat) (v : Word) : (c.setReg o v).later = c.later := rfl
@[simp] theorem Ctl.setReg_areqs (c : Ctl) (o : Nat) (v : Word) : (c.setReg o v).areqs = c.areqs := rfl
@[simp] theorem Ctl.setReg_nextReq (c : Ctl) (o : Nat) (v : Word) : (c.setReg o v).nextReq = c.nextReq := rfl
@[simp] theorem Ctl.setReg_arbs (c : Ctl) (o : Nat) (v : Word) : (c.setReg o v).arbs = c.arbs := rfl
@[simp] theorem Ctl.setReg_busy (c : Ctl) (o : Nat) (v : Word) : (c.setReg o v).busy = c.busy := rfl
@[simp] theorem Ctl.setReg_links (c : Ctl) (o : Nat) (v : Word) : (c.setReg o v).links = c.links := rfl
@[simp] theorem Ctl.setReg_wins (c : Ctl) (o : Nat) (v : Word) : (c.setReg o v).wins = c.wins := rfl
@[simp] theorem Ctl.setReg_packets (c : Ctl) (o : Nat) (v : Word) : (c.setReg o v).packets = c.packets := rfl
@[simp] theorem Ctl.setReg_nextPkt (c : Ctl) (o : Nat) (v : Word) : (c.setReg o v).nextPkt = c.nextPkt := rfl
@[simp] theorem Ctl.setReg_sends (c : Ctl) (o : Nat) (v : Word) : (c.setReg o v).sends = c.sends := rfl
@[simp] theorem Ctl.setReg_twin (c : Ctl) (o : Nat) (v : Word) : (c.setReg o v).twin = c.twin := rfl
@[simp] theorem Ctl.setReg_reh (c : Ctl) (o : Nat) (v : Word) : (c.setReg o v).reh = c.reh := rfl
@[simp] theorem Ctl.setReg_fillPend (c : Ctl) (o : Nat) (v : Word) : (c.setReg o v).fillPend = c.fillPend := rfl
@[simp] theorem Ctl.setReg_refills (c : Ctl) (o : Nat) (v : Word) : (c.setReg o v).refills = c.refills := rfl
@[simp] theorem Ctl.setReg_handing (c : Ctl) (o : Nat) (v : Word) : (c.setReg o v).handing = c.handing := rfl
@[simp] theorem Ctl.setReg_handCc (c : Ctl) (o : Nat) (v : Word) : (c.setReg o v).handCc = c.handCc := rfl
@[simp] theorem Ctl.setReg_killCc (c : Ctl) (o : Nat) (v : Word) : (c.setReg o v).killCc = c.killCc := rfl
@[simp] theorem Ctl.setReg_swap (c : Ctl) (o : Nat) (v : Word) : (c.setReg o v).swap = c.swap := rfl
@[simp] theorem Ctl.setReg_swapCc (c : Ctl) (o : Nat) (v : Word) : (c.setReg o v).swapCc = c.swapCc := rfl
@[simp] theorem Ctl.setReg_wbq (c : Ctl) (o : Nat) (v : Word) : (c.setReg o v).wbq = c.wbq := rfl
@[simp] theorem Ctl.setReg_wbNew (c : Ctl) (o : Nat) (v : Word) : (c.setReg o v).wbNew = c.wbNew := rfl
@[simp] theorem Ctl.setReg_logq (c : Ctl) (o : Nat) (v : Word) : (c.setReg o v).logq = c.logq := rfl
@[simp] theorem Ctl.setReg_fills (c : Ctl) (o : Nat) (v : Word) : (c.setReg o v).fills = c.fills := rfl
@[simp] theorem Ctl.setReg_scrubs (c : Ctl) (o : Nat) (v : Word) : (c.setReg o v).scrubs = c.scrubs := rfl
@[simp] theorem Ctl.setReg_lapCorr (c : Ctl) (o : Nat) (v : Word) : (c.setReg o v).lapCorr = c.lapCorr := rfl
@[simp] theorem Ctl.setReg_lapTold (c : Ctl) (o : Nat) (v : Word) : (c.setReg o v).lapTold = c.lapTold := rfl
@[simp] theorem Ctl.setReg_marches (c : Ctl) (o : Nat) (v : Word) : (c.setReg o v).marches = c.marches := rfl
@[simp] theorem Ctl.setReg_unders (c : Ctl) (o : Nat) (v : Word) : (c.setReg o v).unders = c.unders := rfl
@[simp] theorem Ctl.setReg_fenced (c : Ctl) (o : Nat) (v : Word) : (c.setReg o v).fenced = c.fenced := rfl
@[simp] theorem Ctl.setReg_strikes (c : Ctl) (o : Nat) (v : Word) : (c.setReg o v).strikes = c.strikes := rfl
@[simp] theorem Ctl.setReg_power (c : Ctl) (o : Nat) (v : Word) : (c.setReg o v).power = c.power := rfl
@[simp] theorem Ctl.setReg_faults (c : Ctl) (o : Nat) (v : Word) : (c.setReg o v).faults = c.faults := rfl
@[simp] theorem Ctl.setReg_time (c : Ctl) (o : Nat) (v : Word) : (c.setReg o v).time = c.time := rfl
@[simp] theorem Ctl.setReg_audit (c : Ctl) (o : Nat) (v : Word) : (c.setReg o v).audit = c.audit := rfl
@[simp] theorem Ctl.setReg_door (c : Ctl) (o : Nat) (v : Word) : (c.setReg o v).door = c.door := rfl
@[simp] theorem Ctl.setReg_cRsp (c : Ctl) (o : Nat) (v : Word) : (c.setReg o v).cRsp = c.cRsp := rfl
@[simp] theorem Ctl.setReg_cReqs (c : Ctl) (o : Nat) (v : Word) : (c.setReg o v).cReqs = c.cReqs := rfl
@[simp] theorem Ctl.setReg_cTurn (c : Ctl) (o : Nat) (v : Word) : (c.setReg o v).cTurn = c.cTurn := rfl
@[simp] theorem Ctl.setReg_cReady (c : Ctl) (o : Nat) (v : Word) : (c.setReg o v).cReady = c.cReady := rfl
@[simp] theorem Ctl.setReg_free (c : Ctl) (o : Nat) (v : Word) : (c.setReg o v).free = c.free := rfl

/-! ### setFld -/

@[simp] theorem Ctl.setFld_notes (c : Ctl) (o : Nat) (f : FieldPos) (x : Nat) : (c.setFld o f x).notes = c.notes := rfl
@[simp] theorem Ctl.setFld_sysReady (c : Ctl) (o : Nat) (f : FieldPos) (x : Nat) : (c.setFld o f x).sysReady = c.sysReady := rfl
@[simp] theorem Ctl.setFld_everReady (c : Ctl) (o : Nat) (f : FieldPos) (x : Nat) : (c.setFld o f x).everReady = c.everReady := rfl
@[simp] theorem Ctl.setFld_clk (c : Ctl) (o : Nat) (f : FieldPos) (x : Nat) : (c.setFld o f x).clk = c.clk := rfl
@[simp] theorem Ctl.setFld_boot (c : Ctl) (o : Nat) (f : FieldPos) (x : Nat) : (c.setFld o f x).boot = c.boot := rfl
@[simp] theorem Ctl.setFld_store (c : Ctl) (o : Nat) (f : FieldPos) (x : Nat) : (c.setFld o f x).store = c.store := rfl
@[simp] theorem Ctl.setFld_storeSeen (c : Ctl) (o : Nat) (f : FieldPos) (x : Nat) : (c.setFld o f x).storeSeen = c.storeSeen := rfl
@[simp] theorem Ctl.setFld_storeFix (c : Ctl) (o : Nat) (f : FieldPos) (x : Nat) : (c.setFld o f x).storeFix = c.storeFix := rfl
@[simp] theorem Ctl.setFld_seqs (c : Ctl) (o : Nat) (f : FieldPos) (x : Nat) : (c.setFld o f x).seqs = c.seqs := rfl
@[simp] theorem Ctl.setFld_groups (c : Ctl) (o : Nat) (f : FieldPos) (x : Nat) : (c.setFld o f x).groups = c.groups := rfl
@[simp] theorem Ctl.setFld_rdOut (c : Ctl) (o : Nat) (f : FieldPos) (x : Nat) : (c.setFld o f x).rdOut = c.rdOut := rfl
@[simp] theorem Ctl.setFld_stOut (c : Ctl) (o : Nat) (f : FieldPos) (x : Nat) : (c.setFld o f x).stOut = c.stOut := rfl
@[simp] theorem Ctl.setFld_sOut (c : Ctl) (o : Nat) (f : FieldPos) (x : Nat) : (c.setFld o f x).sOut = c.sOut := rfl
@[simp] theorem Ctl.setFld_cntHist (c : Ctl) (o : Nat) (f : FieldPos) (x : Nat) : (c.setFld o f x).cntHist = c.cntHist := rfl
@[simp] theorem Ctl.setFld_curtains (c : Ctl) (o : Nat) (f : FieldPos) (x : Nat) : (c.setFld o f x).curtains = c.curtains := rfl
@[simp] theorem Ctl.setFld_ctxs (c : Ctl) (o : Nat) (f : FieldPos) (x : Nat) : (c.setFld o f x).ctxs = c.ctxs := rfl
@[simp] theorem Ctl.setFld_osets (c : Ctl) (o : Nat) (f : FieldPos) (x : Nat) : (c.setFld o f x).osets = c.osets := rfl
@[simp] theorem Ctl.setFld_dlTold (c : Ctl) (o : Nat) (f : FieldPos) (x : Nat) : (c.setFld o f x).dlTold = c.dlTold := rfl
@[simp] theorem Ctl.setFld_sports (c : Ctl) (o : Nat) (f : FieldPos) (x : Nat) : (c.setFld o f x).sports = c.sports := rfl
@[simp] theorem Ctl.setFld_landed (c : Ctl) (o : Nat) (f : FieldPos) (x : Nat) : (c.setFld o f x).landed = c.landed := rfl
@[simp] theorem Ctl.setFld_later (c : Ctl) (o : Nat) (f : FieldPos) (x : Nat) : (c.setFld o f x).later = c.later := rfl
@[simp] theorem Ctl.setFld_areqs (c : Ctl) (o : Nat) (f : FieldPos) (x : Nat) : (c.setFld o f x).areqs = c.areqs := rfl
@[simp] theorem Ctl.setFld_nextReq (c : Ctl) (o : Nat) (f : FieldPos) (x : Nat) : (c.setFld o f x).nextReq = c.nextReq := rfl
@[simp] theorem Ctl.setFld_arbs (c : Ctl) (o : Nat) (f : FieldPos) (x : Nat) : (c.setFld o f x).arbs = c.arbs := rfl
@[simp] theorem Ctl.setFld_busy (c : Ctl) (o : Nat) (f : FieldPos) (x : Nat) : (c.setFld o f x).busy = c.busy := rfl
@[simp] theorem Ctl.setFld_links (c : Ctl) (o : Nat) (f : FieldPos) (x : Nat) : (c.setFld o f x).links = c.links := rfl
@[simp] theorem Ctl.setFld_wins (c : Ctl) (o : Nat) (f : FieldPos) (x : Nat) : (c.setFld o f x).wins = c.wins := rfl
@[simp] theorem Ctl.setFld_packets (c : Ctl) (o : Nat) (f : FieldPos) (x : Nat) : (c.setFld o f x).packets = c.packets := rfl
@[simp] theorem Ctl.setFld_nextPkt (c : Ctl) (o : Nat) (f : FieldPos) (x : Nat) : (c.setFld o f x).nextPkt = c.nextPkt := rfl
@[simp] theorem Ctl.setFld_sends (c : Ctl) (o : Nat) (f : FieldPos) (x : Nat) : (c.setFld o f x).sends = c.sends := rfl
@[simp] theorem Ctl.setFld_twin (c : Ctl) (o : Nat) (f : FieldPos) (x : Nat) : (c.setFld o f x).twin = c.twin := rfl
@[simp] theorem Ctl.setFld_reh (c : Ctl) (o : Nat) (f : FieldPos) (x : Nat) : (c.setFld o f x).reh = c.reh := rfl
@[simp] theorem Ctl.setFld_fillPend (c : Ctl) (o : Nat) (f : FieldPos) (x : Nat) : (c.setFld o f x).fillPend = c.fillPend := rfl
@[simp] theorem Ctl.setFld_refills (c : Ctl) (o : Nat) (f : FieldPos) (x : Nat) : (c.setFld o f x).refills = c.refills := rfl
@[simp] theorem Ctl.setFld_handing (c : Ctl) (o : Nat) (f : FieldPos) (x : Nat) : (c.setFld o f x).handing = c.handing := rfl
@[simp] theorem Ctl.setFld_handCc (c : Ctl) (o : Nat) (f : FieldPos) (x : Nat) : (c.setFld o f x).handCc = c.handCc := rfl
@[simp] theorem Ctl.setFld_killCc (c : Ctl) (o : Nat) (f : FieldPos) (x : Nat) : (c.setFld o f x).killCc = c.killCc := rfl
@[simp] theorem Ctl.setFld_swap (c : Ctl) (o : Nat) (f : FieldPos) (x : Nat) : (c.setFld o f x).swap = c.swap := rfl
@[simp] theorem Ctl.setFld_swapCc (c : Ctl) (o : Nat) (f : FieldPos) (x : Nat) : (c.setFld o f x).swapCc = c.swapCc := rfl
@[simp] theorem Ctl.setFld_wbq (c : Ctl) (o : Nat) (f : FieldPos) (x : Nat) : (c.setFld o f x).wbq = c.wbq := rfl
@[simp] theorem Ctl.setFld_wbNew (c : Ctl) (o : Nat) (f : FieldPos) (x : Nat) : (c.setFld o f x).wbNew = c.wbNew := rfl
@[simp] theorem Ctl.setFld_logq (c : Ctl) (o : Nat) (f : FieldPos) (x : Nat) : (c.setFld o f x).logq = c.logq := rfl
@[simp] theorem Ctl.setFld_fills (c : Ctl) (o : Nat) (f : FieldPos) (x : Nat) : (c.setFld o f x).fills = c.fills := rfl
@[simp] theorem Ctl.setFld_scrubs (c : Ctl) (o : Nat) (f : FieldPos) (x : Nat) : (c.setFld o f x).scrubs = c.scrubs := rfl
@[simp] theorem Ctl.setFld_lapCorr (c : Ctl) (o : Nat) (f : FieldPos) (x : Nat) : (c.setFld o f x).lapCorr = c.lapCorr := rfl
@[simp] theorem Ctl.setFld_lapTold (c : Ctl) (o : Nat) (f : FieldPos) (x : Nat) : (c.setFld o f x).lapTold = c.lapTold := rfl
@[simp] theorem Ctl.setFld_marches (c : Ctl) (o : Nat) (f : FieldPos) (x : Nat) : (c.setFld o f x).marches = c.marches := rfl
@[simp] theorem Ctl.setFld_unders (c : Ctl) (o : Nat) (f : FieldPos) (x : Nat) : (c.setFld o f x).unders = c.unders := rfl
@[simp] theorem Ctl.setFld_fenced (c : Ctl) (o : Nat) (f : FieldPos) (x : Nat) : (c.setFld o f x).fenced = c.fenced := rfl
@[simp] theorem Ctl.setFld_strikes (c : Ctl) (o : Nat) (f : FieldPos) (x : Nat) : (c.setFld o f x).strikes = c.strikes := rfl
@[simp] theorem Ctl.setFld_power (c : Ctl) (o : Nat) (f : FieldPos) (x : Nat) : (c.setFld o f x).power = c.power := rfl
@[simp] theorem Ctl.setFld_faults (c : Ctl) (o : Nat) (f : FieldPos) (x : Nat) : (c.setFld o f x).faults = c.faults := rfl
@[simp] theorem Ctl.setFld_time (c : Ctl) (o : Nat) (f : FieldPos) (x : Nat) : (c.setFld o f x).time = c.time := rfl
@[simp] theorem Ctl.setFld_audit (c : Ctl) (o : Nat) (f : FieldPos) (x : Nat) : (c.setFld o f x).audit = c.audit := rfl
@[simp] theorem Ctl.setFld_door (c : Ctl) (o : Nat) (f : FieldPos) (x : Nat) : (c.setFld o f x).door = c.door := rfl
@[simp] theorem Ctl.setFld_cRsp (c : Ctl) (o : Nat) (f : FieldPos) (x : Nat) : (c.setFld o f x).cRsp = c.cRsp := rfl
@[simp] theorem Ctl.setFld_cReqs (c : Ctl) (o : Nat) (f : FieldPos) (x : Nat) : (c.setFld o f x).cReqs = c.cReqs := rfl
@[simp] theorem Ctl.setFld_cTurn (c : Ctl) (o : Nat) (f : FieldPos) (x : Nat) : (c.setFld o f x).cTurn = c.cTurn := rfl
@[simp] theorem Ctl.setFld_cReady (c : Ctl) (o : Nat) (f : FieldPos) (x : Nat) : (c.setFld o f x).cReady = c.cReady := rfl
@[simp] theorem Ctl.setFld_free (c : Ctl) (o : Nat) (f : FieldPos) (x : Nat) : (c.setFld o f x).free = c.free := rfl

/-! ### satAdd -/

@[simp] theorem Ctl.satAdd_sysReady (c : Ctl) (o : Nat) (f : FieldPos) (x : Nat) : (c.satAdd o f x).sysReady = c.sysReady := rfl
@[simp] theorem Ctl.satAdd_everReady (c : Ctl) (o : Nat) (f : FieldPos) (x : Nat) : (c.satAdd o f x).everReady = c.everReady := rfl
@[simp] theorem Ctl.satAdd_clk (c : Ctl) (o : Nat) (f : FieldPos) (x : Nat) : (c.satAdd o f x).clk = c.clk := rfl
@[simp] theorem Ctl.satAdd_boot (c : Ctl) (o : Nat) (f : FieldPos) (x : Nat) : (c.satAdd o f x).boot = c.boot := rfl
@[simp] theorem Ctl.satAdd_store (c : Ctl) (o : Nat) (f : FieldPos) (x : Nat) : (c.satAdd o f x).store = c.store := rfl
@[simp] theorem Ctl.satAdd_storeSeen (c : Ctl) (o : Nat) (f : FieldPos) (x : Nat) : (c.satAdd o f x).storeSeen = c.storeSeen := rfl
@[simp] theorem Ctl.satAdd_storeFix (c : Ctl) (o : Nat) (f : FieldPos) (x : Nat) : (c.satAdd o f x).storeFix = c.storeFix := rfl
@[simp] theorem Ctl.satAdd_seqs (c : Ctl) (o : Nat) (f : FieldPos) (x : Nat) : (c.satAdd o f x).seqs = c.seqs := rfl
@[simp] theorem Ctl.satAdd_groups (c : Ctl) (o : Nat) (f : FieldPos) (x : Nat) : (c.satAdd o f x).groups = c.groups := rfl
@[simp] theorem Ctl.satAdd_rdOut (c : Ctl) (o : Nat) (f : FieldPos) (x : Nat) : (c.satAdd o f x).rdOut = c.rdOut := rfl
@[simp] theorem Ctl.satAdd_stOut (c : Ctl) (o : Nat) (f : FieldPos) (x : Nat) : (c.satAdd o f x).stOut = c.stOut := rfl
@[simp] theorem Ctl.satAdd_sOut (c : Ctl) (o : Nat) (f : FieldPos) (x : Nat) : (c.satAdd o f x).sOut = c.sOut := rfl
@[simp] theorem Ctl.satAdd_cntHist (c : Ctl) (o : Nat) (f : FieldPos) (x : Nat) : (c.satAdd o f x).cntHist = c.cntHist := rfl
@[simp] theorem Ctl.satAdd_curtains (c : Ctl) (o : Nat) (f : FieldPos) (x : Nat) : (c.satAdd o f x).curtains = c.curtains := rfl
@[simp] theorem Ctl.satAdd_ctxs (c : Ctl) (o : Nat) (f : FieldPos) (x : Nat) : (c.satAdd o f x).ctxs = c.ctxs := rfl
@[simp] theorem Ctl.satAdd_osets (c : Ctl) (o : Nat) (f : FieldPos) (x : Nat) : (c.satAdd o f x).osets = c.osets := rfl
@[simp] theorem Ctl.satAdd_dlTold (c : Ctl) (o : Nat) (f : FieldPos) (x : Nat) : (c.satAdd o f x).dlTold = c.dlTold := rfl
@[simp] theorem Ctl.satAdd_sports (c : Ctl) (o : Nat) (f : FieldPos) (x : Nat) : (c.satAdd o f x).sports = c.sports := rfl
@[simp] theorem Ctl.satAdd_landed (c : Ctl) (o : Nat) (f : FieldPos) (x : Nat) : (c.satAdd o f x).landed = c.landed := rfl
@[simp] theorem Ctl.satAdd_later (c : Ctl) (o : Nat) (f : FieldPos) (x : Nat) : (c.satAdd o f x).later = c.later := rfl
@[simp] theorem Ctl.satAdd_areqs (c : Ctl) (o : Nat) (f : FieldPos) (x : Nat) : (c.satAdd o f x).areqs = c.areqs := rfl
@[simp] theorem Ctl.satAdd_nextReq (c : Ctl) (o : Nat) (f : FieldPos) (x : Nat) : (c.satAdd o f x).nextReq = c.nextReq := rfl
@[simp] theorem Ctl.satAdd_arbs (c : Ctl) (o : Nat) (f : FieldPos) (x : Nat) : (c.satAdd o f x).arbs = c.arbs := rfl
@[simp] theorem Ctl.satAdd_busy (c : Ctl) (o : Nat) (f : FieldPos) (x : Nat) : (c.satAdd o f x).busy = c.busy := rfl
@[simp] theorem Ctl.satAdd_links (c : Ctl) (o : Nat) (f : FieldPos) (x : Nat) : (c.satAdd o f x).links = c.links := rfl
@[simp] theorem Ctl.satAdd_wins (c : Ctl) (o : Nat) (f : FieldPos) (x : Nat) : (c.satAdd o f x).wins = c.wins := rfl
@[simp] theorem Ctl.satAdd_packets (c : Ctl) (o : Nat) (f : FieldPos) (x : Nat) : (c.satAdd o f x).packets = c.packets := rfl
@[simp] theorem Ctl.satAdd_nextPkt (c : Ctl) (o : Nat) (f : FieldPos) (x : Nat) : (c.satAdd o f x).nextPkt = c.nextPkt := rfl
@[simp] theorem Ctl.satAdd_sends (c : Ctl) (o : Nat) (f : FieldPos) (x : Nat) : (c.satAdd o f x).sends = c.sends := rfl
@[simp] theorem Ctl.satAdd_twin (c : Ctl) (o : Nat) (f : FieldPos) (x : Nat) : (c.satAdd o f x).twin = c.twin := rfl
@[simp] theorem Ctl.satAdd_reh (c : Ctl) (o : Nat) (f : FieldPos) (x : Nat) : (c.satAdd o f x).reh = c.reh := rfl
@[simp] theorem Ctl.satAdd_fillPend (c : Ctl) (o : Nat) (f : FieldPos) (x : Nat) : (c.satAdd o f x).fillPend = c.fillPend := rfl
@[simp] theorem Ctl.satAdd_refills (c : Ctl) (o : Nat) (f : FieldPos) (x : Nat) : (c.satAdd o f x).refills = c.refills := rfl
@[simp] theorem Ctl.satAdd_handing (c : Ctl) (o : Nat) (f : FieldPos) (x : Nat) : (c.satAdd o f x).handing = c.handing := rfl
@[simp] theorem Ctl.satAdd_handCc (c : Ctl) (o : Nat) (f : FieldPos) (x : Nat) : (c.satAdd o f x).handCc = c.handCc := rfl
@[simp] theorem Ctl.satAdd_killCc (c : Ctl) (o : Nat) (f : FieldPos) (x : Nat) : (c.satAdd o f x).killCc = c.killCc := rfl
@[simp] theorem Ctl.satAdd_swap (c : Ctl) (o : Nat) (f : FieldPos) (x : Nat) : (c.satAdd o f x).swap = c.swap := rfl
@[simp] theorem Ctl.satAdd_swapCc (c : Ctl) (o : Nat) (f : FieldPos) (x : Nat) : (c.satAdd o f x).swapCc = c.swapCc := rfl
@[simp] theorem Ctl.satAdd_wbq (c : Ctl) (o : Nat) (f : FieldPos) (x : Nat) : (c.satAdd o f x).wbq = c.wbq := rfl
@[simp] theorem Ctl.satAdd_wbNew (c : Ctl) (o : Nat) (f : FieldPos) (x : Nat) : (c.satAdd o f x).wbNew = c.wbNew := rfl
@[simp] theorem Ctl.satAdd_logq (c : Ctl) (o : Nat) (f : FieldPos) (x : Nat) : (c.satAdd o f x).logq = c.logq := rfl
@[simp] theorem Ctl.satAdd_fills (c : Ctl) (o : Nat) (f : FieldPos) (x : Nat) : (c.satAdd o f x).fills = c.fills := rfl
@[simp] theorem Ctl.satAdd_scrubs (c : Ctl) (o : Nat) (f : FieldPos) (x : Nat) : (c.satAdd o f x).scrubs = c.scrubs := rfl
@[simp] theorem Ctl.satAdd_lapCorr (c : Ctl) (o : Nat) (f : FieldPos) (x : Nat) : (c.satAdd o f x).lapCorr = c.lapCorr := rfl
@[simp] theorem Ctl.satAdd_lapTold (c : Ctl) (o : Nat) (f : FieldPos) (x : Nat) : (c.satAdd o f x).lapTold = c.lapTold := rfl
@[simp] theorem Ctl.satAdd_marches (c : Ctl) (o : Nat) (f : FieldPos) (x : Nat) : (c.satAdd o f x).marches = c.marches := rfl
@[simp] theorem Ctl.satAdd_unders (c : Ctl) (o : Nat) (f : FieldPos) (x : Nat) : (c.satAdd o f x).unders = c.unders := rfl
@[simp] theorem Ctl.satAdd_fenced (c : Ctl) (o : Nat) (f : FieldPos) (x : Nat) : (c.satAdd o f x).fenced = c.fenced := rfl
@[simp] theorem Ctl.satAdd_strikes (c : Ctl) (o : Nat) (f : FieldPos) (x : Nat) : (c.satAdd o f x).strikes = c.strikes := rfl
@[simp] theorem Ctl.satAdd_power (c : Ctl) (o : Nat) (f : FieldPos) (x : Nat) : (c.satAdd o f x).power = c.power := rfl
@[simp] theorem Ctl.satAdd_faults (c : Ctl) (o : Nat) (f : FieldPos) (x : Nat) : (c.satAdd o f x).faults = c.faults := rfl
@[simp] theorem Ctl.satAdd_time (c : Ctl) (o : Nat) (f : FieldPos) (x : Nat) : (c.satAdd o f x).time = c.time := rfl
@[simp] theorem Ctl.satAdd_audit (c : Ctl) (o : Nat) (f : FieldPos) (x : Nat) : (c.satAdd o f x).audit = c.audit := rfl
@[simp] theorem Ctl.satAdd_door (c : Ctl) (o : Nat) (f : FieldPos) (x : Nat) : (c.satAdd o f x).door = c.door := rfl
@[simp] theorem Ctl.satAdd_cRsp (c : Ctl) (o : Nat) (f : FieldPos) (x : Nat) : (c.satAdd o f x).cRsp = c.cRsp := rfl
@[simp] theorem Ctl.satAdd_cReqs (c : Ctl) (o : Nat) (f : FieldPos) (x : Nat) : (c.satAdd o f x).cReqs = c.cReqs := rfl
@[simp] theorem Ctl.satAdd_cTurn (c : Ctl) (o : Nat) (f : FieldPos) (x : Nat) : (c.satAdd o f x).cTurn = c.cTurn := rfl
@[simp] theorem Ctl.satAdd_cReady (c : Ctl) (o : Nat) (f : FieldPos) (x : Nat) : (c.satAdd o f x).cReady = c.cReady := rfl
@[simp] theorem Ctl.satAdd_free (c : Ctl) (o : Nat) (f : FieldPos) (x : Nat) : (c.satAdd o f x).free = c.free := rfl

/-! ### flag -/

@[simp] theorem Ctl.flag_sysReady (c : Ctl) (o : Nat) (f : FieldPos) : (c.flag o f).sysReady = c.sysReady := rfl
@[simp] theorem Ctl.flag_everReady (c : Ctl) (o : Nat) (f : FieldPos) : (c.flag o f).everReady = c.everReady := rfl
@[simp] theorem Ctl.flag_clk (c : Ctl) (o : Nat) (f : FieldPos) : (c.flag o f).clk = c.clk := rfl
@[simp] theorem Ctl.flag_boot (c : Ctl) (o : Nat) (f : FieldPos) : (c.flag o f).boot = c.boot := rfl
@[simp] theorem Ctl.flag_store (c : Ctl) (o : Nat) (f : FieldPos) : (c.flag o f).store = c.store := rfl
@[simp] theorem Ctl.flag_storeSeen (c : Ctl) (o : Nat) (f : FieldPos) : (c.flag o f).storeSeen = c.storeSeen := rfl
@[simp] theorem Ctl.flag_storeFix (c : Ctl) (o : Nat) (f : FieldPos) : (c.flag o f).storeFix = c.storeFix := rfl
@[simp] theorem Ctl.flag_seqs (c : Ctl) (o : Nat) (f : FieldPos) : (c.flag o f).seqs = c.seqs := rfl
@[simp] theorem Ctl.flag_groups (c : Ctl) (o : Nat) (f : FieldPos) : (c.flag o f).groups = c.groups := rfl
@[simp] theorem Ctl.flag_rdOut (c : Ctl) (o : Nat) (f : FieldPos) : (c.flag o f).rdOut = c.rdOut := rfl
@[simp] theorem Ctl.flag_stOut (c : Ctl) (o : Nat) (f : FieldPos) : (c.flag o f).stOut = c.stOut := rfl
@[simp] theorem Ctl.flag_sOut (c : Ctl) (o : Nat) (f : FieldPos) : (c.flag o f).sOut = c.sOut := rfl
@[simp] theorem Ctl.flag_cntHist (c : Ctl) (o : Nat) (f : FieldPos) : (c.flag o f).cntHist = c.cntHist := rfl
@[simp] theorem Ctl.flag_curtains (c : Ctl) (o : Nat) (f : FieldPos) : (c.flag o f).curtains = c.curtains := rfl
@[simp] theorem Ctl.flag_ctxs (c : Ctl) (o : Nat) (f : FieldPos) : (c.flag o f).ctxs = c.ctxs := rfl
@[simp] theorem Ctl.flag_osets (c : Ctl) (o : Nat) (f : FieldPos) : (c.flag o f).osets = c.osets := rfl
@[simp] theorem Ctl.flag_dlTold (c : Ctl) (o : Nat) (f : FieldPos) : (c.flag o f).dlTold = c.dlTold := rfl
@[simp] theorem Ctl.flag_sports (c : Ctl) (o : Nat) (f : FieldPos) : (c.flag o f).sports = c.sports := rfl
@[simp] theorem Ctl.flag_landed (c : Ctl) (o : Nat) (f : FieldPos) : (c.flag o f).landed = c.landed := rfl
@[simp] theorem Ctl.flag_later (c : Ctl) (o : Nat) (f : FieldPos) : (c.flag o f).later = c.later := rfl
@[simp] theorem Ctl.flag_areqs (c : Ctl) (o : Nat) (f : FieldPos) : (c.flag o f).areqs = c.areqs := rfl
@[simp] theorem Ctl.flag_nextReq (c : Ctl) (o : Nat) (f : FieldPos) : (c.flag o f).nextReq = c.nextReq := rfl
@[simp] theorem Ctl.flag_arbs (c : Ctl) (o : Nat) (f : FieldPos) : (c.flag o f).arbs = c.arbs := rfl
@[simp] theorem Ctl.flag_busy (c : Ctl) (o : Nat) (f : FieldPos) : (c.flag o f).busy = c.busy := rfl
@[simp] theorem Ctl.flag_links (c : Ctl) (o : Nat) (f : FieldPos) : (c.flag o f).links = c.links := rfl
@[simp] theorem Ctl.flag_wins (c : Ctl) (o : Nat) (f : FieldPos) : (c.flag o f).wins = c.wins := rfl
@[simp] theorem Ctl.flag_packets (c : Ctl) (o : Nat) (f : FieldPos) : (c.flag o f).packets = c.packets := rfl
@[simp] theorem Ctl.flag_nextPkt (c : Ctl) (o : Nat) (f : FieldPos) : (c.flag o f).nextPkt = c.nextPkt := rfl
@[simp] theorem Ctl.flag_sends (c : Ctl) (o : Nat) (f : FieldPos) : (c.flag o f).sends = c.sends := rfl
@[simp] theorem Ctl.flag_twin (c : Ctl) (o : Nat) (f : FieldPos) : (c.flag o f).twin = c.twin := rfl
@[simp] theorem Ctl.flag_reh (c : Ctl) (o : Nat) (f : FieldPos) : (c.flag o f).reh = c.reh := rfl
@[simp] theorem Ctl.flag_fillPend (c : Ctl) (o : Nat) (f : FieldPos) : (c.flag o f).fillPend = c.fillPend := rfl
@[simp] theorem Ctl.flag_refills (c : Ctl) (o : Nat) (f : FieldPos) : (c.flag o f).refills = c.refills := rfl
@[simp] theorem Ctl.flag_handing (c : Ctl) (o : Nat) (f : FieldPos) : (c.flag o f).handing = c.handing := rfl
@[simp] theorem Ctl.flag_handCc (c : Ctl) (o : Nat) (f : FieldPos) : (c.flag o f).handCc = c.handCc := rfl
@[simp] theorem Ctl.flag_killCc (c : Ctl) (o : Nat) (f : FieldPos) : (c.flag o f).killCc = c.killCc := rfl
@[simp] theorem Ctl.flag_swap (c : Ctl) (o : Nat) (f : FieldPos) : (c.flag o f).swap = c.swap := rfl
@[simp] theorem Ctl.flag_swapCc (c : Ctl) (o : Nat) (f : FieldPos) : (c.flag o f).swapCc = c.swapCc := rfl
@[simp] theorem Ctl.flag_wbq (c : Ctl) (o : Nat) (f : FieldPos) : (c.flag o f).wbq = c.wbq := rfl
@[simp] theorem Ctl.flag_wbNew (c : Ctl) (o : Nat) (f : FieldPos) : (c.flag o f).wbNew = c.wbNew := rfl
@[simp] theorem Ctl.flag_logq (c : Ctl) (o : Nat) (f : FieldPos) : (c.flag o f).logq = c.logq := rfl
@[simp] theorem Ctl.flag_fills (c : Ctl) (o : Nat) (f : FieldPos) : (c.flag o f).fills = c.fills := rfl
@[simp] theorem Ctl.flag_scrubs (c : Ctl) (o : Nat) (f : FieldPos) : (c.flag o f).scrubs = c.scrubs := rfl
@[simp] theorem Ctl.flag_lapCorr (c : Ctl) (o : Nat) (f : FieldPos) : (c.flag o f).lapCorr = c.lapCorr := rfl
@[simp] theorem Ctl.flag_lapTold (c : Ctl) (o : Nat) (f : FieldPos) : (c.flag o f).lapTold = c.lapTold := rfl
@[simp] theorem Ctl.flag_marches (c : Ctl) (o : Nat) (f : FieldPos) : (c.flag o f).marches = c.marches := rfl
@[simp] theorem Ctl.flag_unders (c : Ctl) (o : Nat) (f : FieldPos) : (c.flag o f).unders = c.unders := rfl
@[simp] theorem Ctl.flag_fenced (c : Ctl) (o : Nat) (f : FieldPos) : (c.flag o f).fenced = c.fenced := rfl
@[simp] theorem Ctl.flag_strikes (c : Ctl) (o : Nat) (f : FieldPos) : (c.flag o f).strikes = c.strikes := rfl
@[simp] theorem Ctl.flag_power (c : Ctl) (o : Nat) (f : FieldPos) : (c.flag o f).power = c.power := rfl
@[simp] theorem Ctl.flag_faults (c : Ctl) (o : Nat) (f : FieldPos) : (c.flag o f).faults = c.faults := rfl
@[simp] theorem Ctl.flag_time (c : Ctl) (o : Nat) (f : FieldPos) : (c.flag o f).time = c.time := rfl
@[simp] theorem Ctl.flag_audit (c : Ctl) (o : Nat) (f : FieldPos) : (c.flag o f).audit = c.audit := rfl
@[simp] theorem Ctl.flag_door (c : Ctl) (o : Nat) (f : FieldPos) : (c.flag o f).door = c.door := rfl
@[simp] theorem Ctl.flag_cRsp (c : Ctl) (o : Nat) (f : FieldPos) : (c.flag o f).cRsp = c.cRsp := rfl
@[simp] theorem Ctl.flag_cReqs (c : Ctl) (o : Nat) (f : FieldPos) : (c.flag o f).cReqs = c.cReqs := rfl
@[simp] theorem Ctl.flag_cTurn (c : Ctl) (o : Nat) (f : FieldPos) : (c.flag o f).cTurn = c.cTurn := rfl
@[simp] theorem Ctl.flag_cReady (c : Ctl) (o : Nat) (f : FieldPos) : (c.flag o f).cReady = c.cReady := rfl
@[simp] theorem Ctl.flag_free (c : Ctl) (o : Nat) (f : FieldPos) : (c.flag o f).free = c.free := rfl

@[simp] theorem Ctl.flag_reg (c : Ctl) (o : Nat) (f : FieldPos) (o' : Nat) : (c.flag o f).reg o' = (c.setFld o f 1).reg o' := rfl
@[simp] theorem Ctl.flag_fld (c : Ctl) (o : Nat) (f : FieldPos) (o' : Nat) (f' : FieldPos) : (c.flag o f).fld o' f' = (c.setFld o f 1).fld o' f' := rfl
@[simp] theorem Ctl.satAdd_reg (c : Ctl) (o : Nat) (f : FieldPos) (x o' : Nat) :
    (c.satAdd o f x).reg o' = (c.setFld o f (min (c.fld o f + x) (2 ^ f.width - 1))).reg o' := rfl
@[simp] theorem Ctl.satAdd_fld (c : Ctl) (o : Nat) (f : FieldPos) (x o' : Nat) (f' : FieldPos) :
    (c.satAdd o f x).fld o' f' = (c.setFld o f (min (c.fld o f + x) (2 ^ f.width - 1))).fld o' f' := rfl
@[simp] theorem Ctl.noteOnes_reg (c : Ctl) (o : Nat) (m : Word) (o' : Nat) : (c.noteOnes o m).reg o' = c.reg o' := rfl
@[simp] theorem Ctl.noteWrote_reg (c : Ctl) (o : Nat) (m : Word) (o' : Nat) : (c.noteWrote o m).reg o' = c.reg o' := rfl

/-! ### setSeq -/

@[simp] theorem Ctl.setSeq_regs (c : Ctl) (n : Nat) (x : Seq) : (c.setSeq n x).regs = c.regs := rfl
@[simp] theorem Ctl.setSeq_notes (c : Ctl) (n : Nat) (x : Seq) : (c.setSeq n x).notes = c.notes := rfl
@[simp] theorem Ctl.setSeq_sysReady (c : Ctl) (n : Nat) (x : Seq) : (c.setSeq n x).sysReady = c.sysReady := rfl
@[simp] theorem Ctl.setSeq_everReady (c : Ctl) (n : Nat) (x : Seq) : (c.setSeq n x).everReady = c.everReady := rfl
@[simp] theorem Ctl.setSeq_clk (c : Ctl) (n : Nat) (x : Seq) : (c.setSeq n x).clk = c.clk := rfl
@[simp] theorem Ctl.setSeq_boot (c : Ctl) (n : Nat) (x : Seq) : (c.setSeq n x).boot = c.boot := rfl
@[simp] theorem Ctl.setSeq_store (c : Ctl) (n : Nat) (x : Seq) : (c.setSeq n x).store = c.store := rfl
@[simp] theorem Ctl.setSeq_storeSeen (c : Ctl) (n : Nat) (x : Seq) : (c.setSeq n x).storeSeen = c.storeSeen := rfl
@[simp] theorem Ctl.setSeq_storeFix (c : Ctl) (n : Nat) (x : Seq) : (c.setSeq n x).storeFix = c.storeFix := rfl
@[simp] theorem Ctl.setSeq_groups (c : Ctl) (n : Nat) (x : Seq) : (c.setSeq n x).groups = c.groups := rfl
@[simp] theorem Ctl.setSeq_rdOut (c : Ctl) (n : Nat) (x : Seq) : (c.setSeq n x).rdOut = c.rdOut := rfl
@[simp] theorem Ctl.setSeq_stOut (c : Ctl) (n : Nat) (x : Seq) : (c.setSeq n x).stOut = c.stOut := rfl
@[simp] theorem Ctl.setSeq_sOut (c : Ctl) (n : Nat) (x : Seq) : (c.setSeq n x).sOut = c.sOut := rfl
@[simp] theorem Ctl.setSeq_cntHist (c : Ctl) (n : Nat) (x : Seq) : (c.setSeq n x).cntHist = c.cntHist := rfl
@[simp] theorem Ctl.setSeq_curtains (c : Ctl) (n : Nat) (x : Seq) : (c.setSeq n x).curtains = c.curtains := rfl
@[simp] theorem Ctl.setSeq_ctxs (c : Ctl) (n : Nat) (x : Seq) : (c.setSeq n x).ctxs = c.ctxs := rfl
@[simp] theorem Ctl.setSeq_osets (c : Ctl) (n : Nat) (x : Seq) : (c.setSeq n x).osets = c.osets := rfl
@[simp] theorem Ctl.setSeq_dlTold (c : Ctl) (n : Nat) (x : Seq) : (c.setSeq n x).dlTold = c.dlTold := rfl
@[simp] theorem Ctl.setSeq_sports (c : Ctl) (n : Nat) (x : Seq) : (c.setSeq n x).sports = c.sports := rfl
@[simp] theorem Ctl.setSeq_landed (c : Ctl) (n : Nat) (x : Seq) : (c.setSeq n x).landed = c.landed := rfl
@[simp] theorem Ctl.setSeq_later (c : Ctl) (n : Nat) (x : Seq) : (c.setSeq n x).later = c.later := rfl
@[simp] theorem Ctl.setSeq_areqs (c : Ctl) (n : Nat) (x : Seq) : (c.setSeq n x).areqs = c.areqs := rfl
@[simp] theorem Ctl.setSeq_nextReq (c : Ctl) (n : Nat) (x : Seq) : (c.setSeq n x).nextReq = c.nextReq := rfl
@[simp] theorem Ctl.setSeq_arbs (c : Ctl) (n : Nat) (x : Seq) : (c.setSeq n x).arbs = c.arbs := rfl
@[simp] theorem Ctl.setSeq_busy (c : Ctl) (n : Nat) (x : Seq) : (c.setSeq n x).busy = c.busy := rfl
@[simp] theorem Ctl.setSeq_links (c : Ctl) (n : Nat) (x : Seq) : (c.setSeq n x).links = c.links := rfl
@[simp] theorem Ctl.setSeq_wins (c : Ctl) (n : Nat) (x : Seq) : (c.setSeq n x).wins = c.wins := rfl
@[simp] theorem Ctl.setSeq_packets (c : Ctl) (n : Nat) (x : Seq) : (c.setSeq n x).packets = c.packets := rfl
@[simp] theorem Ctl.setSeq_nextPkt (c : Ctl) (n : Nat) (x : Seq) : (c.setSeq n x).nextPkt = c.nextPkt := rfl
@[simp] theorem Ctl.setSeq_sends (c : Ctl) (n : Nat) (x : Seq) : (c.setSeq n x).sends = c.sends := rfl
@[simp] theorem Ctl.setSeq_twin (c : Ctl) (n : Nat) (x : Seq) : (c.setSeq n x).twin = c.twin := rfl
@[simp] theorem Ctl.setSeq_reh (c : Ctl) (n : Nat) (x : Seq) : (c.setSeq n x).reh = c.reh := rfl
@[simp] theorem Ctl.setSeq_fillPend (c : Ctl) (n : Nat) (x : Seq) : (c.setSeq n x).fillPend = c.fillPend := rfl
@[simp] theorem Ctl.setSeq_refills (c : Ctl) (n : Nat) (x : Seq) : (c.setSeq n x).refills = c.refills := rfl
@[simp] theorem Ctl.setSeq_handing (c : Ctl) (n : Nat) (x : Seq) : (c.setSeq n x).handing = c.handing := rfl
@[simp] theorem Ctl.setSeq_handCc (c : Ctl) (n : Nat) (x : Seq) : (c.setSeq n x).handCc = c.handCc := rfl
@[simp] theorem Ctl.setSeq_killCc (c : Ctl) (n : Nat) (x : Seq) : (c.setSeq n x).killCc = c.killCc := rfl
@[simp] theorem Ctl.setSeq_swap (c : Ctl) (n : Nat) (x : Seq) : (c.setSeq n x).swap = c.swap := rfl
@[simp] theorem Ctl.setSeq_swapCc (c : Ctl) (n : Nat) (x : Seq) : (c.setSeq n x).swapCc = c.swapCc := rfl
@[simp] theorem Ctl.setSeq_wbq (c : Ctl) (n : Nat) (x : Seq) : (c.setSeq n x).wbq = c.wbq := rfl
@[simp] theorem Ctl.setSeq_wbNew (c : Ctl) (n : Nat) (x : Seq) : (c.setSeq n x).wbNew = c.wbNew := rfl
@[simp] theorem Ctl.setSeq_logq (c : Ctl) (n : Nat) (x : Seq) : (c.setSeq n x).logq = c.logq := rfl
@[simp] theorem Ctl.setSeq_fills (c : Ctl) (n : Nat) (x : Seq) : (c.setSeq n x).fills = c.fills := rfl
@[simp] theorem Ctl.setSeq_scrubs (c : Ctl) (n : Nat) (x : Seq) : (c.setSeq n x).scrubs = c.scrubs := rfl
@[simp] theorem Ctl.setSeq_lapCorr (c : Ctl) (n : Nat) (x : Seq) : (c.setSeq n x).lapCorr = c.lapCorr := rfl
@[simp] theorem Ctl.setSeq_lapTold (c : Ctl) (n : Nat) (x : Seq) : (c.setSeq n x).lapTold = c.lapTold := rfl
@[simp] theorem Ctl.setSeq_marches (c : Ctl) (n : Nat) (x : Seq) : (c.setSeq n x).marches = c.marches := rfl
@[simp] theorem Ctl.setSeq_unders (c : Ctl) (n : Nat) (x : Seq) : (c.setSeq n x).unders = c.unders := rfl
@[simp] theorem Ctl.setSeq_fenced (c : Ctl) (n : Nat) (x : Seq) : (c.setSeq n x).fenced = c.fenced := rfl
@[simp] theorem Ctl.setSeq_strikes (c : Ctl) (n : Nat) (x : Seq) : (c.setSeq n x).strikes = c.strikes := rfl
@[simp] theorem Ctl.setSeq_power (c : Ctl) (n : Nat) (x : Seq) : (c.setSeq n x).power = c.power := rfl
@[simp] theorem Ctl.setSeq_faults (c : Ctl) (n : Nat) (x : Seq) : (c.setSeq n x).faults = c.faults := rfl
@[simp] theorem Ctl.setSeq_time (c : Ctl) (n : Nat) (x : Seq) : (c.setSeq n x).time = c.time := rfl
@[simp] theorem Ctl.setSeq_audit (c : Ctl) (n : Nat) (x : Seq) : (c.setSeq n x).audit = c.audit := rfl
@[simp] theorem Ctl.setSeq_door (c : Ctl) (n : Nat) (x : Seq) : (c.setSeq n x).door = c.door := rfl
@[simp] theorem Ctl.setSeq_cRsp (c : Ctl) (n : Nat) (x : Seq) : (c.setSeq n x).cRsp = c.cRsp := rfl
@[simp] theorem Ctl.setSeq_cReqs (c : Ctl) (n : Nat) (x : Seq) : (c.setSeq n x).cReqs = c.cReqs := rfl
@[simp] theorem Ctl.setSeq_cTurn (c : Ctl) (n : Nat) (x : Seq) : (c.setSeq n x).cTurn = c.cTurn := rfl
@[simp] theorem Ctl.setSeq_cReady (c : Ctl) (n : Nat) (x : Seq) : (c.setSeq n x).cReady = c.cReady := rfl
@[simp] theorem Ctl.setSeq_free (c : Ctl) (n : Nat) (x : Seq) : (c.setSeq n x).free = c.free := rfl
@[simp] theorem Ctl.seq_setSeq_same (c : Ctl) (n : Nat) (x : Seq) : (c.setSeq n x).seq n = x := Tab.get_set_same _ _ _ _
theorem Ctl.seq_setSeq_ne (c : Ctl) {n m : Nat} (h : m ≠ n) (x : Seq) : (c.setSeq n x).seq m = c.seq m := Tab.get_set_ne _ _ _ h _
@[simp] theorem Ctl.setSeq_reg (c : Ctl) (n : Nat) (x : Seq) (o : Nat) : (c.setSeq n x).reg o = c.reg o := rfl
@[simp] theorem Ctl.setSeq_fld (c : Ctl) (n : Nat) (x : Seq) (o : Nat) (f : FieldPos) : (c.setSeq n x).fld o f = c.fld o f := rfl

/-! ### setGroup -/

@[simp] theorem Ctl.setGroup_regs (c : Ctl) (n : Nat) (x : Group) : (c.setGroup n x).regs = c.regs := rfl
@[simp] theorem Ctl.setGroup_notes (c : Ctl) (n : Nat) (x : Group) : (c.setGroup n x).notes = c.notes := rfl
@[simp] theorem Ctl.setGroup_sysReady (c : Ctl) (n : Nat) (x : Group) : (c.setGroup n x).sysReady = c.sysReady := rfl
@[simp] theorem Ctl.setGroup_everReady (c : Ctl) (n : Nat) (x : Group) : (c.setGroup n x).everReady = c.everReady := rfl
@[simp] theorem Ctl.setGroup_clk (c : Ctl) (n : Nat) (x : Group) : (c.setGroup n x).clk = c.clk := rfl
@[simp] theorem Ctl.setGroup_boot (c : Ctl) (n : Nat) (x : Group) : (c.setGroup n x).boot = c.boot := rfl
@[simp] theorem Ctl.setGroup_store (c : Ctl) (n : Nat) (x : Group) : (c.setGroup n x).store = c.store := rfl
@[simp] theorem Ctl.setGroup_storeSeen (c : Ctl) (n : Nat) (x : Group) : (c.setGroup n x).storeSeen = c.storeSeen := rfl
@[simp] theorem Ctl.setGroup_storeFix (c : Ctl) (n : Nat) (x : Group) : (c.setGroup n x).storeFix = c.storeFix := rfl
@[simp] theorem Ctl.setGroup_seqs (c : Ctl) (n : Nat) (x : Group) : (c.setGroup n x).seqs = c.seqs := rfl
@[simp] theorem Ctl.setGroup_rdOut (c : Ctl) (n : Nat) (x : Group) : (c.setGroup n x).rdOut = c.rdOut := rfl
@[simp] theorem Ctl.setGroup_stOut (c : Ctl) (n : Nat) (x : Group) : (c.setGroup n x).stOut = c.stOut := rfl
@[simp] theorem Ctl.setGroup_sOut (c : Ctl) (n : Nat) (x : Group) : (c.setGroup n x).sOut = c.sOut := rfl
@[simp] theorem Ctl.setGroup_cntHist (c : Ctl) (n : Nat) (x : Group) : (c.setGroup n x).cntHist = c.cntHist := rfl
@[simp] theorem Ctl.setGroup_curtains (c : Ctl) (n : Nat) (x : Group) : (c.setGroup n x).curtains = c.curtains := rfl
@[simp] theorem Ctl.setGroup_ctxs (c : Ctl) (n : Nat) (x : Group) : (c.setGroup n x).ctxs = c.ctxs := rfl
@[simp] theorem Ctl.setGroup_osets (c : Ctl) (n : Nat) (x : Group) : (c.setGroup n x).osets = c.osets := rfl
@[simp] theorem Ctl.setGroup_dlTold (c : Ctl) (n : Nat) (x : Group) : (c.setGroup n x).dlTold = c.dlTold := rfl
@[simp] theorem Ctl.setGroup_sports (c : Ctl) (n : Nat) (x : Group) : (c.setGroup n x).sports = c.sports := rfl
@[simp] theorem Ctl.setGroup_landed (c : Ctl) (n : Nat) (x : Group) : (c.setGroup n x).landed = c.landed := rfl
@[simp] theorem Ctl.setGroup_later (c : Ctl) (n : Nat) (x : Group) : (c.setGroup n x).later = c.later := rfl
@[simp] theorem Ctl.setGroup_areqs (c : Ctl) (n : Nat) (x : Group) : (c.setGroup n x).areqs = c.areqs := rfl
@[simp] theorem Ctl.setGroup_nextReq (c : Ctl) (n : Nat) (x : Group) : (c.setGroup n x).nextReq = c.nextReq := rfl
@[simp] theorem Ctl.setGroup_arbs (c : Ctl) (n : Nat) (x : Group) : (c.setGroup n x).arbs = c.arbs := rfl
@[simp] theorem Ctl.setGroup_busy (c : Ctl) (n : Nat) (x : Group) : (c.setGroup n x).busy = c.busy := rfl
@[simp] theorem Ctl.setGroup_links (c : Ctl) (n : Nat) (x : Group) : (c.setGroup n x).links = c.links := rfl
@[simp] theorem Ctl.setGroup_wins (c : Ctl) (n : Nat) (x : Group) : (c.setGroup n x).wins = c.wins := rfl
@[simp] theorem Ctl.setGroup_packets (c : Ctl) (n : Nat) (x : Group) : (c.setGroup n x).packets = c.packets := rfl
@[simp] theorem Ctl.setGroup_nextPkt (c : Ctl) (n : Nat) (x : Group) : (c.setGroup n x).nextPkt = c.nextPkt := rfl
@[simp] theorem Ctl.setGroup_sends (c : Ctl) (n : Nat) (x : Group) : (c.setGroup n x).sends = c.sends := rfl
@[simp] theorem Ctl.setGroup_twin (c : Ctl) (n : Nat) (x : Group) : (c.setGroup n x).twin = c.twin := rfl
@[simp] theorem Ctl.setGroup_reh (c : Ctl) (n : Nat) (x : Group) : (c.setGroup n x).reh = c.reh := rfl
@[simp] theorem Ctl.setGroup_fillPend (c : Ctl) (n : Nat) (x : Group) : (c.setGroup n x).fillPend = c.fillPend := rfl
@[simp] theorem Ctl.setGroup_refills (c : Ctl) (n : Nat) (x : Group) : (c.setGroup n x).refills = c.refills := rfl
@[simp] theorem Ctl.setGroup_handing (c : Ctl) (n : Nat) (x : Group) : (c.setGroup n x).handing = c.handing := rfl
@[simp] theorem Ctl.setGroup_handCc (c : Ctl) (n : Nat) (x : Group) : (c.setGroup n x).handCc = c.handCc := rfl
@[simp] theorem Ctl.setGroup_killCc (c : Ctl) (n : Nat) (x : Group) : (c.setGroup n x).killCc = c.killCc := rfl
@[simp] theorem Ctl.setGroup_swap (c : Ctl) (n : Nat) (x : Group) : (c.setGroup n x).swap = c.swap := rfl
@[simp] theorem Ctl.setGroup_swapCc (c : Ctl) (n : Nat) (x : Group) : (c.setGroup n x).swapCc = c.swapCc := rfl
@[simp] theorem Ctl.setGroup_wbq (c : Ctl) (n : Nat) (x : Group) : (c.setGroup n x).wbq = c.wbq := rfl
@[simp] theorem Ctl.setGroup_wbNew (c : Ctl) (n : Nat) (x : Group) : (c.setGroup n x).wbNew = c.wbNew := rfl
@[simp] theorem Ctl.setGroup_logq (c : Ctl) (n : Nat) (x : Group) : (c.setGroup n x).logq = c.logq := rfl
@[simp] theorem Ctl.setGroup_fills (c : Ctl) (n : Nat) (x : Group) : (c.setGroup n x).fills = c.fills := rfl
@[simp] theorem Ctl.setGroup_scrubs (c : Ctl) (n : Nat) (x : Group) : (c.setGroup n x).scrubs = c.scrubs := rfl
@[simp] theorem Ctl.setGroup_lapCorr (c : Ctl) (n : Nat) (x : Group) : (c.setGroup n x).lapCorr = c.lapCorr := rfl
@[simp] theorem Ctl.setGroup_lapTold (c : Ctl) (n : Nat) (x : Group) : (c.setGroup n x).lapTold = c.lapTold := rfl
@[simp] theorem Ctl.setGroup_marches (c : Ctl) (n : Nat) (x : Group) : (c.setGroup n x).marches = c.marches := rfl
@[simp] theorem Ctl.setGroup_unders (c : Ctl) (n : Nat) (x : Group) : (c.setGroup n x).unders = c.unders := rfl
@[simp] theorem Ctl.setGroup_fenced (c : Ctl) (n : Nat) (x : Group) : (c.setGroup n x).fenced = c.fenced := rfl
@[simp] theorem Ctl.setGroup_strikes (c : Ctl) (n : Nat) (x : Group) : (c.setGroup n x).strikes = c.strikes := rfl
@[simp] theorem Ctl.setGroup_power (c : Ctl) (n : Nat) (x : Group) : (c.setGroup n x).power = c.power := rfl
@[simp] theorem Ctl.setGroup_faults (c : Ctl) (n : Nat) (x : Group) : (c.setGroup n x).faults = c.faults := rfl
@[simp] theorem Ctl.setGroup_time (c : Ctl) (n : Nat) (x : Group) : (c.setGroup n x).time = c.time := rfl
@[simp] theorem Ctl.setGroup_audit (c : Ctl) (n : Nat) (x : Group) : (c.setGroup n x).audit = c.audit := rfl
@[simp] theorem Ctl.setGroup_door (c : Ctl) (n : Nat) (x : Group) : (c.setGroup n x).door = c.door := rfl
@[simp] theorem Ctl.setGroup_cRsp (c : Ctl) (n : Nat) (x : Group) : (c.setGroup n x).cRsp = c.cRsp := rfl
@[simp] theorem Ctl.setGroup_cReqs (c : Ctl) (n : Nat) (x : Group) : (c.setGroup n x).cReqs = c.cReqs := rfl
@[simp] theorem Ctl.setGroup_cTurn (c : Ctl) (n : Nat) (x : Group) : (c.setGroup n x).cTurn = c.cTurn := rfl
@[simp] theorem Ctl.setGroup_cReady (c : Ctl) (n : Nat) (x : Group) : (c.setGroup n x).cReady = c.cReady := rfl
@[simp] theorem Ctl.setGroup_free (c : Ctl) (n : Nat) (x : Group) : (c.setGroup n x).free = c.free := rfl
@[simp] theorem Ctl.group_setGroup_same (c : Ctl) (n : Nat) (x : Group) : (c.setGroup n x).group n = x := Tab.get_set_same _ _ _ _
theorem Ctl.group_setGroup_ne (c : Ctl) {n m : Nat} (h : m ≠ n) (x : Group) : (c.setGroup n x).group m = c.group m := Tab.get_set_ne _ _ _ h _
@[simp] theorem Ctl.setGroup_reg (c : Ctl) (n : Nat) (x : Group) (o : Nat) : (c.setGroup n x).reg o = c.reg o := rfl
@[simp] theorem Ctl.setGroup_fld (c : Ctl) (n : Nat) (x : Group) (o : Nat) (f : FieldPos) : (c.setGroup n x).fld o f = c.fld o f := rfl

/-! ### setCtx -/

@[simp] theorem Ctl.setCtx_regs (c : Ctl) (n : Nat) (x : CtxRun) : (c.setCtx n x).regs = c.regs := rfl
@[simp] theorem Ctl.setCtx_notes (c : Ctl) (n : Nat) (x : CtxRun) : (c.setCtx n x).notes = c.notes := rfl
@[simp] theorem Ctl.setCtx_sysReady (c : Ctl) (n : Nat) (x : CtxRun) : (c.setCtx n x).sysReady = c.sysReady := rfl
@[simp] theorem Ctl.setCtx_everReady (c : Ctl) (n : Nat) (x : CtxRun) : (c.setCtx n x).everReady = c.everReady := rfl
@[simp] theorem Ctl.setCtx_clk (c : Ctl) (n : Nat) (x : CtxRun) : (c.setCtx n x).clk = c.clk := rfl
@[simp] theorem Ctl.setCtx_boot (c : Ctl) (n : Nat) (x : CtxRun) : (c.setCtx n x).boot = c.boot := rfl
@[simp] theorem Ctl.setCtx_store (c : Ctl) (n : Nat) (x : CtxRun) : (c.setCtx n x).store = c.store := rfl
@[simp] theorem Ctl.setCtx_storeSeen (c : Ctl) (n : Nat) (x : CtxRun) : (c.setCtx n x).storeSeen = c.storeSeen := rfl
@[simp] theorem Ctl.setCtx_storeFix (c : Ctl) (n : Nat) (x : CtxRun) : (c.setCtx n x).storeFix = c.storeFix := rfl
@[simp] theorem Ctl.setCtx_seqs (c : Ctl) (n : Nat) (x : CtxRun) : (c.setCtx n x).seqs = c.seqs := rfl
@[simp] theorem Ctl.setCtx_groups (c : Ctl) (n : Nat) (x : CtxRun) : (c.setCtx n x).groups = c.groups := rfl
@[simp] theorem Ctl.setCtx_rdOut (c : Ctl) (n : Nat) (x : CtxRun) : (c.setCtx n x).rdOut = c.rdOut := rfl
@[simp] theorem Ctl.setCtx_stOut (c : Ctl) (n : Nat) (x : CtxRun) : (c.setCtx n x).stOut = c.stOut := rfl
@[simp] theorem Ctl.setCtx_sOut (c : Ctl) (n : Nat) (x : CtxRun) : (c.setCtx n x).sOut = c.sOut := rfl
@[simp] theorem Ctl.setCtx_cntHist (c : Ctl) (n : Nat) (x : CtxRun) : (c.setCtx n x).cntHist = c.cntHist := rfl
@[simp] theorem Ctl.setCtx_curtains (c : Ctl) (n : Nat) (x : CtxRun) : (c.setCtx n x).curtains = c.curtains := rfl
@[simp] theorem Ctl.setCtx_osets (c : Ctl) (n : Nat) (x : CtxRun) : (c.setCtx n x).osets = c.osets := rfl
@[simp] theorem Ctl.setCtx_dlTold (c : Ctl) (n : Nat) (x : CtxRun) : (c.setCtx n x).dlTold = c.dlTold := rfl
@[simp] theorem Ctl.setCtx_sports (c : Ctl) (n : Nat) (x : CtxRun) : (c.setCtx n x).sports = c.sports := rfl
@[simp] theorem Ctl.setCtx_landed (c : Ctl) (n : Nat) (x : CtxRun) : (c.setCtx n x).landed = c.landed := rfl
@[simp] theorem Ctl.setCtx_later (c : Ctl) (n : Nat) (x : CtxRun) : (c.setCtx n x).later = c.later := rfl
@[simp] theorem Ctl.setCtx_areqs (c : Ctl) (n : Nat) (x : CtxRun) : (c.setCtx n x).areqs = c.areqs := rfl
@[simp] theorem Ctl.setCtx_nextReq (c : Ctl) (n : Nat) (x : CtxRun) : (c.setCtx n x).nextReq = c.nextReq := rfl
@[simp] theorem Ctl.setCtx_arbs (c : Ctl) (n : Nat) (x : CtxRun) : (c.setCtx n x).arbs = c.arbs := rfl
@[simp] theorem Ctl.setCtx_busy (c : Ctl) (n : Nat) (x : CtxRun) : (c.setCtx n x).busy = c.busy := rfl
@[simp] theorem Ctl.setCtx_links (c : Ctl) (n : Nat) (x : CtxRun) : (c.setCtx n x).links = c.links := rfl
@[simp] theorem Ctl.setCtx_wins (c : Ctl) (n : Nat) (x : CtxRun) : (c.setCtx n x).wins = c.wins := rfl
@[simp] theorem Ctl.setCtx_packets (c : Ctl) (n : Nat) (x : CtxRun) : (c.setCtx n x).packets = c.packets := rfl
@[simp] theorem Ctl.setCtx_nextPkt (c : Ctl) (n : Nat) (x : CtxRun) : (c.setCtx n x).nextPkt = c.nextPkt := rfl
@[simp] theorem Ctl.setCtx_sends (c : Ctl) (n : Nat) (x : CtxRun) : (c.setCtx n x).sends = c.sends := rfl
@[simp] theorem Ctl.setCtx_twin (c : Ctl) (n : Nat) (x : CtxRun) : (c.setCtx n x).twin = c.twin := rfl
@[simp] theorem Ctl.setCtx_reh (c : Ctl) (n : Nat) (x : CtxRun) : (c.setCtx n x).reh = c.reh := rfl
@[simp] theorem Ctl.setCtx_fillPend (c : Ctl) (n : Nat) (x : CtxRun) : (c.setCtx n x).fillPend = c.fillPend := rfl
@[simp] theorem Ctl.setCtx_refills (c : Ctl) (n : Nat) (x : CtxRun) : (c.setCtx n x).refills = c.refills := rfl
@[simp] theorem Ctl.setCtx_handing (c : Ctl) (n : Nat) (x : CtxRun) : (c.setCtx n x).handing = c.handing := rfl
@[simp] theorem Ctl.setCtx_handCc (c : Ctl) (n : Nat) (x : CtxRun) : (c.setCtx n x).handCc = c.handCc := rfl
@[simp] theorem Ctl.setCtx_killCc (c : Ctl) (n : Nat) (x : CtxRun) : (c.setCtx n x).killCc = c.killCc := rfl
@[simp] theorem Ctl.setCtx_swap (c : Ctl) (n : Nat) (x : CtxRun) : (c.setCtx n x).swap = c.swap := rfl
@[simp] theorem Ctl.setCtx_swapCc (c : Ctl) (n : Nat) (x : CtxRun) : (c.setCtx n x).swapCc = c.swapCc := rfl
@[simp] theorem Ctl.setCtx_wbq (c : Ctl) (n : Nat) (x : CtxRun) : (c.setCtx n x).wbq = c.wbq := rfl
@[simp] theorem Ctl.setCtx_wbNew (c : Ctl) (n : Nat) (x : CtxRun) : (c.setCtx n x).wbNew = c.wbNew := rfl
@[simp] theorem Ctl.setCtx_logq (c : Ctl) (n : Nat) (x : CtxRun) : (c.setCtx n x).logq = c.logq := rfl
@[simp] theorem Ctl.setCtx_fills (c : Ctl) (n : Nat) (x : CtxRun) : (c.setCtx n x).fills = c.fills := rfl
@[simp] theorem Ctl.setCtx_scrubs (c : Ctl) (n : Nat) (x : CtxRun) : (c.setCtx n x).scrubs = c.scrubs := rfl
@[simp] theorem Ctl.setCtx_lapCorr (c : Ctl) (n : Nat) (x : CtxRun) : (c.setCtx n x).lapCorr = c.lapCorr := rfl
@[simp] theorem Ctl.setCtx_lapTold (c : Ctl) (n : Nat) (x : CtxRun) : (c.setCtx n x).lapTold = c.lapTold := rfl
@[simp] theorem Ctl.setCtx_marches (c : Ctl) (n : Nat) (x : CtxRun) : (c.setCtx n x).marches = c.marches := rfl
@[simp] theorem Ctl.setCtx_unders (c : Ctl) (n : Nat) (x : CtxRun) : (c.setCtx n x).unders = c.unders := rfl
@[simp] theorem Ctl.setCtx_fenced (c : Ctl) (n : Nat) (x : CtxRun) : (c.setCtx n x).fenced = c.fenced := rfl
@[simp] theorem Ctl.setCtx_strikes (c : Ctl) (n : Nat) (x : CtxRun) : (c.setCtx n x).strikes = c.strikes := rfl
@[simp] theorem Ctl.setCtx_power (c : Ctl) (n : Nat) (x : CtxRun) : (c.setCtx n x).power = c.power := rfl
@[simp] theorem Ctl.setCtx_faults (c : Ctl) (n : Nat) (x : CtxRun) : (c.setCtx n x).faults = c.faults := rfl
@[simp] theorem Ctl.setCtx_time (c : Ctl) (n : Nat) (x : CtxRun) : (c.setCtx n x).time = c.time := rfl
@[simp] theorem Ctl.setCtx_audit (c : Ctl) (n : Nat) (x : CtxRun) : (c.setCtx n x).audit = c.audit := rfl
@[simp] theorem Ctl.setCtx_door (c : Ctl) (n : Nat) (x : CtxRun) : (c.setCtx n x).door = c.door := rfl
@[simp] theorem Ctl.setCtx_cRsp (c : Ctl) (n : Nat) (x : CtxRun) : (c.setCtx n x).cRsp = c.cRsp := rfl
@[simp] theorem Ctl.setCtx_cReqs (c : Ctl) (n : Nat) (x : CtxRun) : (c.setCtx n x).cReqs = c.cReqs := rfl
@[simp] theorem Ctl.setCtx_cTurn (c : Ctl) (n : Nat) (x : CtxRun) : (c.setCtx n x).cTurn = c.cTurn := rfl
@[simp] theorem Ctl.setCtx_cReady (c : Ctl) (n : Nat) (x : CtxRun) : (c.setCtx n x).cReady = c.cReady := rfl
@[simp] theorem Ctl.setCtx_free (c : Ctl) (n : Nat) (x : CtxRun) : (c.setCtx n x).free = c.free := rfl
@[simp] theorem Ctl.ctx_setCtx_same (c : Ctl) (n : Nat) (x : CtxRun) : (c.setCtx n x).ctx n = x := Tab.get_set_same _ _ _ _
theorem Ctl.ctx_setCtx_ne (c : Ctl) {n m : Nat} (h : m ≠ n) (x : CtxRun) : (c.setCtx n x).ctx m = c.ctx m := Tab.get_set_ne _ _ _ h _
@[simp] theorem Ctl.setCtx_reg (c : Ctl) (n : Nat) (x : CtxRun) (o : Nat) : (c.setCtx n x).reg o = c.reg o := rfl
@[simp] theorem Ctl.setCtx_fld (c : Ctl) (n : Nat) (x : CtxRun) (o : Nat) (f : FieldPos) : (c.setCtx n x).fld o f = c.fld o f := rfl

/-! ### setSport -/

@[simp] theorem Ctl.setSport_regs (c : Ctl) (n : Nat) (x : StackPort) : (c.setSport n x).regs = c.regs := rfl
@[simp] theorem Ctl.setSport_notes (c : Ctl) (n : Nat) (x : StackPort) : (c.setSport n x).notes = c.notes := rfl
@[simp] theorem Ctl.setSport_sysReady (c : Ctl) (n : Nat) (x : StackPort) : (c.setSport n x).sysReady = c.sysReady := rfl
@[simp] theorem Ctl.setSport_everReady (c : Ctl) (n : Nat) (x : StackPort) : (c.setSport n x).everReady = c.everReady := rfl
@[simp] theorem Ctl.setSport_clk (c : Ctl) (n : Nat) (x : StackPort) : (c.setSport n x).clk = c.clk := rfl
@[simp] theorem Ctl.setSport_boot (c : Ctl) (n : Nat) (x : StackPort) : (c.setSport n x).boot = c.boot := rfl
@[simp] theorem Ctl.setSport_store (c : Ctl) (n : Nat) (x : StackPort) : (c.setSport n x).store = c.store := rfl
@[simp] theorem Ctl.setSport_storeSeen (c : Ctl) (n : Nat) (x : StackPort) : (c.setSport n x).storeSeen = c.storeSeen := rfl
@[simp] theorem Ctl.setSport_storeFix (c : Ctl) (n : Nat) (x : StackPort) : (c.setSport n x).storeFix = c.storeFix := rfl
@[simp] theorem Ctl.setSport_seqs (c : Ctl) (n : Nat) (x : StackPort) : (c.setSport n x).seqs = c.seqs := rfl
@[simp] theorem Ctl.setSport_groups (c : Ctl) (n : Nat) (x : StackPort) : (c.setSport n x).groups = c.groups := rfl
@[simp] theorem Ctl.setSport_rdOut (c : Ctl) (n : Nat) (x : StackPort) : (c.setSport n x).rdOut = c.rdOut := rfl
@[simp] theorem Ctl.setSport_stOut (c : Ctl) (n : Nat) (x : StackPort) : (c.setSport n x).stOut = c.stOut := rfl
@[simp] theorem Ctl.setSport_sOut (c : Ctl) (n : Nat) (x : StackPort) : (c.setSport n x).sOut = c.sOut := rfl
@[simp] theorem Ctl.setSport_cntHist (c : Ctl) (n : Nat) (x : StackPort) : (c.setSport n x).cntHist = c.cntHist := rfl
@[simp] theorem Ctl.setSport_curtains (c : Ctl) (n : Nat) (x : StackPort) : (c.setSport n x).curtains = c.curtains := rfl
@[simp] theorem Ctl.setSport_ctxs (c : Ctl) (n : Nat) (x : StackPort) : (c.setSport n x).ctxs = c.ctxs := rfl
@[simp] theorem Ctl.setSport_osets (c : Ctl) (n : Nat) (x : StackPort) : (c.setSport n x).osets = c.osets := rfl
@[simp] theorem Ctl.setSport_dlTold (c : Ctl) (n : Nat) (x : StackPort) : (c.setSport n x).dlTold = c.dlTold := rfl
@[simp] theorem Ctl.setSport_landed (c : Ctl) (n : Nat) (x : StackPort) : (c.setSport n x).landed = c.landed := rfl
@[simp] theorem Ctl.setSport_later (c : Ctl) (n : Nat) (x : StackPort) : (c.setSport n x).later = c.later := rfl
@[simp] theorem Ctl.setSport_areqs (c : Ctl) (n : Nat) (x : StackPort) : (c.setSport n x).areqs = c.areqs := rfl
@[simp] theorem Ctl.setSport_nextReq (c : Ctl) (n : Nat) (x : StackPort) : (c.setSport n x).nextReq = c.nextReq := rfl
@[simp] theorem Ctl.setSport_arbs (c : Ctl) (n : Nat) (x : StackPort) : (c.setSport n x).arbs = c.arbs := rfl
@[simp] theorem Ctl.setSport_busy (c : Ctl) (n : Nat) (x : StackPort) : (c.setSport n x).busy = c.busy := rfl
@[simp] theorem Ctl.setSport_links (c : Ctl) (n : Nat) (x : StackPort) : (c.setSport n x).links = c.links := rfl
@[simp] theorem Ctl.setSport_wins (c : Ctl) (n : Nat) (x : StackPort) : (c.setSport n x).wins = c.wins := rfl
@[simp] theorem Ctl.setSport_packets (c : Ctl) (n : Nat) (x : StackPort) : (c.setSport n x).packets = c.packets := rfl
@[simp] theorem Ctl.setSport_nextPkt (c : Ctl) (n : Nat) (x : StackPort) : (c.setSport n x).nextPkt = c.nextPkt := rfl
@[simp] theorem Ctl.setSport_sends (c : Ctl) (n : Nat) (x : StackPort) : (c.setSport n x).sends = c.sends := rfl
@[simp] theorem Ctl.setSport_twin (c : Ctl) (n : Nat) (x : StackPort) : (c.setSport n x).twin = c.twin := rfl
@[simp] theorem Ctl.setSport_reh (c : Ctl) (n : Nat) (x : StackPort) : (c.setSport n x).reh = c.reh := rfl
@[simp] theorem Ctl.setSport_fillPend (c : Ctl) (n : Nat) (x : StackPort) : (c.setSport n x).fillPend = c.fillPend := rfl
@[simp] theorem Ctl.setSport_refills (c : Ctl) (n : Nat) (x : StackPort) : (c.setSport n x).refills = c.refills := rfl
@[simp] theorem Ctl.setSport_handing (c : Ctl) (n : Nat) (x : StackPort) : (c.setSport n x).handing = c.handing := rfl
@[simp] theorem Ctl.setSport_handCc (c : Ctl) (n : Nat) (x : StackPort) : (c.setSport n x).handCc = c.handCc := rfl
@[simp] theorem Ctl.setSport_killCc (c : Ctl) (n : Nat) (x : StackPort) : (c.setSport n x).killCc = c.killCc := rfl
@[simp] theorem Ctl.setSport_swap (c : Ctl) (n : Nat) (x : StackPort) : (c.setSport n x).swap = c.swap := rfl
@[simp] theorem Ctl.setSport_swapCc (c : Ctl) (n : Nat) (x : StackPort) : (c.setSport n x).swapCc = c.swapCc := rfl
@[simp] theorem Ctl.setSport_wbq (c : Ctl) (n : Nat) (x : StackPort) : (c.setSport n x).wbq = c.wbq := rfl
@[simp] theorem Ctl.setSport_wbNew (c : Ctl) (n : Nat) (x : StackPort) : (c.setSport n x).wbNew = c.wbNew := rfl
@[simp] theorem Ctl.setSport_logq (c : Ctl) (n : Nat) (x : StackPort) : (c.setSport n x).logq = c.logq := rfl
@[simp] theorem Ctl.setSport_fills (c : Ctl) (n : Nat) (x : StackPort) : (c.setSport n x).fills = c.fills := rfl
@[simp] theorem Ctl.setSport_scrubs (c : Ctl) (n : Nat) (x : StackPort) : (c.setSport n x).scrubs = c.scrubs := rfl
@[simp] theorem Ctl.setSport_lapCorr (c : Ctl) (n : Nat) (x : StackPort) : (c.setSport n x).lapCorr = c.lapCorr := rfl
@[simp] theorem Ctl.setSport_lapTold (c : Ctl) (n : Nat) (x : StackPort) : (c.setSport n x).lapTold = c.lapTold := rfl
@[simp] theorem Ctl.setSport_marches (c : Ctl) (n : Nat) (x : StackPort) : (c.setSport n x).marches = c.marches := rfl
@[simp] theorem Ctl.setSport_unders (c : Ctl) (n : Nat) (x : StackPort) : (c.setSport n x).unders = c.unders := rfl
@[simp] theorem Ctl.setSport_fenced (c : Ctl) (n : Nat) (x : StackPort) : (c.setSport n x).fenced = c.fenced := rfl
@[simp] theorem Ctl.setSport_strikes (c : Ctl) (n : Nat) (x : StackPort) : (c.setSport n x).strikes = c.strikes := rfl
@[simp] theorem Ctl.setSport_power (c : Ctl) (n : Nat) (x : StackPort) : (c.setSport n x).power = c.power := rfl
@[simp] theorem Ctl.setSport_faults (c : Ctl) (n : Nat) (x : StackPort) : (c.setSport n x).faults = c.faults := rfl
@[simp] theorem Ctl.setSport_time (c : Ctl) (n : Nat) (x : StackPort) : (c.setSport n x).time = c.time := rfl
@[simp] theorem Ctl.setSport_audit (c : Ctl) (n : Nat) (x : StackPort) : (c.setSport n x).audit = c.audit := rfl
@[simp] theorem Ctl.setSport_door (c : Ctl) (n : Nat) (x : StackPort) : (c.setSport n x).door = c.door := rfl
@[simp] theorem Ctl.setSport_cRsp (c : Ctl) (n : Nat) (x : StackPort) : (c.setSport n x).cRsp = c.cRsp := rfl
@[simp] theorem Ctl.setSport_cReqs (c : Ctl) (n : Nat) (x : StackPort) : (c.setSport n x).cReqs = c.cReqs := rfl
@[simp] theorem Ctl.setSport_cTurn (c : Ctl) (n : Nat) (x : StackPort) : (c.setSport n x).cTurn = c.cTurn := rfl
@[simp] theorem Ctl.setSport_cReady (c : Ctl) (n : Nat) (x : StackPort) : (c.setSport n x).cReady = c.cReady := rfl
@[simp] theorem Ctl.setSport_free (c : Ctl) (n : Nat) (x : StackPort) : (c.setSport n x).free = c.free := rfl
@[simp] theorem Ctl.sport_setSport_same (c : Ctl) (n : Nat) (x : StackPort) : (c.setSport n x).sport n = x := Tab.get_set_same _ _ _ _
theorem Ctl.sport_setSport_ne (c : Ctl) {n m : Nat} (h : m ≠ n) (x : StackPort) : (c.setSport n x).sport m = c.sport m := Tab.get_set_ne _ _ _ h _
@[simp] theorem Ctl.setSport_reg (c : Ctl) (n : Nat) (x : StackPort) (o : Nat) : (c.setSport n x).reg o = c.reg o := rfl
@[simp] theorem Ctl.setSport_fld (c : Ctl) (n : Nat) (x : StackPort) (o : Nat) (f : FieldPos) : (c.setSport n x).fld o f = c.fld o f := rfl

/-! ### setSout -/

@[simp] theorem Ctl.setSout_regs (c : Ctl) (n : Nat) (x : StackOut) : (c.setSout n x).regs = c.regs := rfl
@[simp] theorem Ctl.setSout_notes (c : Ctl) (n : Nat) (x : StackOut) : (c.setSout n x).notes = c.notes := rfl
@[simp] theorem Ctl.setSout_sysReady (c : Ctl) (n : Nat) (x : StackOut) : (c.setSout n x).sysReady = c.sysReady := rfl
@[simp] theorem Ctl.setSout_everReady (c : Ctl) (n : Nat) (x : StackOut) : (c.setSout n x).everReady = c.everReady := rfl
@[simp] theorem Ctl.setSout_clk (c : Ctl) (n : Nat) (x : StackOut) : (c.setSout n x).clk = c.clk := rfl
@[simp] theorem Ctl.setSout_boot (c : Ctl) (n : Nat) (x : StackOut) : (c.setSout n x).boot = c.boot := rfl
@[simp] theorem Ctl.setSout_store (c : Ctl) (n : Nat) (x : StackOut) : (c.setSout n x).store = c.store := rfl
@[simp] theorem Ctl.setSout_storeSeen (c : Ctl) (n : Nat) (x : StackOut) : (c.setSout n x).storeSeen = c.storeSeen := rfl
@[simp] theorem Ctl.setSout_storeFix (c : Ctl) (n : Nat) (x : StackOut) : (c.setSout n x).storeFix = c.storeFix := rfl
@[simp] theorem Ctl.setSout_seqs (c : Ctl) (n : Nat) (x : StackOut) : (c.setSout n x).seqs = c.seqs := rfl
@[simp] theorem Ctl.setSout_groups (c : Ctl) (n : Nat) (x : StackOut) : (c.setSout n x).groups = c.groups := rfl
@[simp] theorem Ctl.setSout_rdOut (c : Ctl) (n : Nat) (x : StackOut) : (c.setSout n x).rdOut = c.rdOut := rfl
@[simp] theorem Ctl.setSout_stOut (c : Ctl) (n : Nat) (x : StackOut) : (c.setSout n x).stOut = c.stOut := rfl
@[simp] theorem Ctl.setSout_cntHist (c : Ctl) (n : Nat) (x : StackOut) : (c.setSout n x).cntHist = c.cntHist := rfl
@[simp] theorem Ctl.setSout_curtains (c : Ctl) (n : Nat) (x : StackOut) : (c.setSout n x).curtains = c.curtains := rfl
@[simp] theorem Ctl.setSout_ctxs (c : Ctl) (n : Nat) (x : StackOut) : (c.setSout n x).ctxs = c.ctxs := rfl
@[simp] theorem Ctl.setSout_osets (c : Ctl) (n : Nat) (x : StackOut) : (c.setSout n x).osets = c.osets := rfl
@[simp] theorem Ctl.setSout_dlTold (c : Ctl) (n : Nat) (x : StackOut) : (c.setSout n x).dlTold = c.dlTold := rfl
@[simp] theorem Ctl.setSout_sports (c : Ctl) (n : Nat) (x : StackOut) : (c.setSout n x).sports = c.sports := rfl
@[simp] theorem Ctl.setSout_landed (c : Ctl) (n : Nat) (x : StackOut) : (c.setSout n x).landed = c.landed := rfl
@[simp] theorem Ctl.setSout_later (c : Ctl) (n : Nat) (x : StackOut) : (c.setSout n x).later = c.later := rfl
@[simp] theorem Ctl.setSout_areqs (c : Ctl) (n : Nat) (x : StackOut) : (c.setSout n x).areqs = c.areqs := rfl
@[simp] theorem Ctl.setSout_nextReq (c : Ctl) (n : Nat) (x : StackOut) : (c.setSout n x).nextReq = c.nextReq := rfl
@[simp] theorem Ctl.setSout_arbs (c : Ctl) (n : Nat) (x : StackOut) : (c.setSout n x).arbs = c.arbs := rfl
@[simp] theorem Ctl.setSout_busy (c : Ctl) (n : Nat) (x : StackOut) : (c.setSout n x).busy = c.busy := rfl
@[simp] theorem Ctl.setSout_links (c : Ctl) (n : Nat) (x : StackOut) : (c.setSout n x).links = c.links := rfl
@[simp] theorem Ctl.setSout_wins (c : Ctl) (n : Nat) (x : StackOut) : (c.setSout n x).wins = c.wins := rfl
@[simp] theorem Ctl.setSout_packets (c : Ctl) (n : Nat) (x : StackOut) : (c.setSout n x).packets = c.packets := rfl
@[simp] theorem Ctl.setSout_nextPkt (c : Ctl) (n : Nat) (x : StackOut) : (c.setSout n x).nextPkt = c.nextPkt := rfl
@[simp] theorem Ctl.setSout_sends (c : Ctl) (n : Nat) (x : StackOut) : (c.setSout n x).sends = c.sends := rfl
@[simp] theorem Ctl.setSout_twin (c : Ctl) (n : Nat) (x : StackOut) : (c.setSout n x).twin = c.twin := rfl
@[simp] theorem Ctl.setSout_reh (c : Ctl) (n : Nat) (x : StackOut) : (c.setSout n x).reh = c.reh := rfl
@[simp] theorem Ctl.setSout_fillPend (c : Ctl) (n : Nat) (x : StackOut) : (c.setSout n x).fillPend = c.fillPend := rfl
@[simp] theorem Ctl.setSout_refills (c : Ctl) (n : Nat) (x : StackOut) : (c.setSout n x).refills = c.refills := rfl
@[simp] theorem Ctl.setSout_handing (c : Ctl) (n : Nat) (x : StackOut) : (c.setSout n x).handing = c.handing := rfl
@[simp] theorem Ctl.setSout_handCc (c : Ctl) (n : Nat) (x : StackOut) : (c.setSout n x).handCc = c.handCc := rfl
@[simp] theorem Ctl.setSout_killCc (c : Ctl) (n : Nat) (x : StackOut) : (c.setSout n x).killCc = c.killCc := rfl
@[simp] theorem Ctl.setSout_swap (c : Ctl) (n : Nat) (x : StackOut) : (c.setSout n x).swap = c.swap := rfl
@[simp] theorem Ctl.setSout_swapCc (c : Ctl) (n : Nat) (x : StackOut) : (c.setSout n x).swapCc = c.swapCc := rfl
@[simp] theorem Ctl.setSout_wbq (c : Ctl) (n : Nat) (x : StackOut) : (c.setSout n x).wbq = c.wbq := rfl
@[simp] theorem Ctl.setSout_wbNew (c : Ctl) (n : Nat) (x : StackOut) : (c.setSout n x).wbNew = c.wbNew := rfl
@[simp] theorem Ctl.setSout_logq (c : Ctl) (n : Nat) (x : StackOut) : (c.setSout n x).logq = c.logq := rfl
@[simp] theorem Ctl.setSout_fills (c : Ctl) (n : Nat) (x : StackOut) : (c.setSout n x).fills = c.fills := rfl
@[simp] theorem Ctl.setSout_scrubs (c : Ctl) (n : Nat) (x : StackOut) : (c.setSout n x).scrubs = c.scrubs := rfl
@[simp] theorem Ctl.setSout_lapCorr (c : Ctl) (n : Nat) (x : StackOut) : (c.setSout n x).lapCorr = c.lapCorr := rfl
@[simp] theorem Ctl.setSout_lapTold (c : Ctl) (n : Nat) (x : StackOut) : (c.setSout n x).lapTold = c.lapTold := rfl
@[simp] theorem Ctl.setSout_marches (c : Ctl) (n : Nat) (x : StackOut) : (c.setSout n x).marches = c.marches := rfl
@[simp] theorem Ctl.setSout_unders (c : Ctl) (n : Nat) (x : StackOut) : (c.setSout n x).unders = c.unders := rfl
@[simp] theorem Ctl.setSout_fenced (c : Ctl) (n : Nat) (x : StackOut) : (c.setSout n x).fenced = c.fenced := rfl
@[simp] theorem Ctl.setSout_strikes (c : Ctl) (n : Nat) (x : StackOut) : (c.setSout n x).strikes = c.strikes := rfl
@[simp] theorem Ctl.setSout_power (c : Ctl) (n : Nat) (x : StackOut) : (c.setSout n x).power = c.power := rfl
@[simp] theorem Ctl.setSout_faults (c : Ctl) (n : Nat) (x : StackOut) : (c.setSout n x).faults = c.faults := rfl
@[simp] theorem Ctl.setSout_time (c : Ctl) (n : Nat) (x : StackOut) : (c.setSout n x).time = c.time := rfl
@[simp] theorem Ctl.setSout_audit (c : Ctl) (n : Nat) (x : StackOut) : (c.setSout n x).audit = c.audit := rfl
@[simp] theorem Ctl.setSout_door (c : Ctl) (n : Nat) (x : StackOut) : (c.setSout n x).door = c.door := rfl
@[simp] theorem Ctl.setSout_cRsp (c : Ctl) (n : Nat) (x : StackOut) : (c.setSout n x).cRsp = c.cRsp := rfl
@[simp] theorem Ctl.setSout_cReqs (c : Ctl) (n : Nat) (x : StackOut) : (c.setSout n x).cReqs = c.cReqs := rfl
@[simp] theorem Ctl.setSout_cTurn (c : Ctl) (n : Nat) (x : StackOut) : (c.setSout n x).cTurn = c.cTurn := rfl
@[simp] theorem Ctl.setSout_cReady (c : Ctl) (n : Nat) (x : StackOut) : (c.setSout n x).cReady = c.cReady := rfl
@[simp] theorem Ctl.setSout_free (c : Ctl) (n : Nat) (x : StackOut) : (c.setSout n x).free = c.free := rfl
@[simp] theorem Ctl.sout_setSout_same (c : Ctl) (n : Nat) (x : StackOut) : (c.setSout n x).sout n = x := Tab.get_set_same _ _ _ _
theorem Ctl.sout_setSout_ne (c : Ctl) {n m : Nat} (h : m ≠ n) (x : StackOut) : (c.setSout n x).sout m = c.sout m := Tab.get_set_ne _ _ _ h _
@[simp] theorem Ctl.setSout_reg (c : Ctl) (n : Nat) (x : StackOut) (o : Nat) : (c.setSout n x).reg o = c.reg o := rfl
@[simp] theorem Ctl.setSout_fld (c : Ctl) (n : Nat) (x : StackOut) (o : Nat) (f : FieldPos) : (c.setSout n x).fld o f = c.fld o f := rfl

/-! ### setLink -/

@[simp] theorem Ctl.setLink_regs (c : Ctl) (n : Nat) (x : LinkPort) : (c.setLink n x).regs = c.regs := rfl
@[simp] theorem Ctl.setLink_notes (c : Ctl) (n : Nat) (x : LinkPort) : (c.setLink n x).notes = c.notes := rfl
@[simp] theorem Ctl.setLink_sysReady (c : Ctl) (n : Nat) (x : LinkPort) : (c.setLink n x).sysReady = c.sysReady := rfl
@[simp] theorem Ctl.setLink_everReady (c : Ctl) (n : Nat) (x : LinkPort) : (c.setLink n x).everReady = c.everReady := rfl
@[simp] theorem Ctl.setLink_clk (c : Ctl) (n : Nat) (x : LinkPort) : (c.setLink n x).clk = c.clk := rfl
@[simp] theorem Ctl.setLink_boot (c : Ctl) (n : Nat) (x : LinkPort) : (c.setLink n x).boot = c.boot := rfl
@[simp] theorem Ctl.setLink_store (c : Ctl) (n : Nat) (x : LinkPort) : (c.setLink n x).store = c.store := rfl
@[simp] theorem Ctl.setLink_storeSeen (c : Ctl) (n : Nat) (x : LinkPort) : (c.setLink n x).storeSeen = c.storeSeen := rfl
@[simp] theorem Ctl.setLink_storeFix (c : Ctl) (n : Nat) (x : LinkPort) : (c.setLink n x).storeFix = c.storeFix := rfl
@[simp] theorem Ctl.setLink_seqs (c : Ctl) (n : Nat) (x : LinkPort) : (c.setLink n x).seqs = c.seqs := rfl
@[simp] theorem Ctl.setLink_groups (c : Ctl) (n : Nat) (x : LinkPort) : (c.setLink n x).groups = c.groups := rfl
@[simp] theorem Ctl.setLink_rdOut (c : Ctl) (n : Nat) (x : LinkPort) : (c.setLink n x).rdOut = c.rdOut := rfl
@[simp] theorem Ctl.setLink_stOut (c : Ctl) (n : Nat) (x : LinkPort) : (c.setLink n x).stOut = c.stOut := rfl
@[simp] theorem Ctl.setLink_sOut (c : Ctl) (n : Nat) (x : LinkPort) : (c.setLink n x).sOut = c.sOut := rfl
@[simp] theorem Ctl.setLink_cntHist (c : Ctl) (n : Nat) (x : LinkPort) : (c.setLink n x).cntHist = c.cntHist := rfl
@[simp] theorem Ctl.setLink_curtains (c : Ctl) (n : Nat) (x : LinkPort) : (c.setLink n x).curtains = c.curtains := rfl
@[simp] theorem Ctl.setLink_ctxs (c : Ctl) (n : Nat) (x : LinkPort) : (c.setLink n x).ctxs = c.ctxs := rfl
@[simp] theorem Ctl.setLink_osets (c : Ctl) (n : Nat) (x : LinkPort) : (c.setLink n x).osets = c.osets := rfl
@[simp] theorem Ctl.setLink_dlTold (c : Ctl) (n : Nat) (x : LinkPort) : (c.setLink n x).dlTold = c.dlTold := rfl
@[simp] theorem Ctl.setLink_sports (c : Ctl) (n : Nat) (x : LinkPort) : (c.setLink n x).sports = c.sports := rfl
@[simp] theorem Ctl.setLink_landed (c : Ctl) (n : Nat) (x : LinkPort) : (c.setLink n x).landed = c.landed := rfl
@[simp] theorem Ctl.setLink_later (c : Ctl) (n : Nat) (x : LinkPort) : (c.setLink n x).later = c.later := rfl
@[simp] theorem Ctl.setLink_areqs (c : Ctl) (n : Nat) (x : LinkPort) : (c.setLink n x).areqs = c.areqs := rfl
@[simp] theorem Ctl.setLink_nextReq (c : Ctl) (n : Nat) (x : LinkPort) : (c.setLink n x).nextReq = c.nextReq := rfl
@[simp] theorem Ctl.setLink_arbs (c : Ctl) (n : Nat) (x : LinkPort) : (c.setLink n x).arbs = c.arbs := rfl
@[simp] theorem Ctl.setLink_busy (c : Ctl) (n : Nat) (x : LinkPort) : (c.setLink n x).busy = c.busy := rfl
@[simp] theorem Ctl.setLink_wins (c : Ctl) (n : Nat) (x : LinkPort) : (c.setLink n x).wins = c.wins := rfl
@[simp] theorem Ctl.setLink_packets (c : Ctl) (n : Nat) (x : LinkPort) : (c.setLink n x).packets = c.packets := rfl
@[simp] theorem Ctl.setLink_nextPkt (c : Ctl) (n : Nat) (x : LinkPort) : (c.setLink n x).nextPkt = c.nextPkt := rfl
@[simp] theorem Ctl.setLink_sends (c : Ctl) (n : Nat) (x : LinkPort) : (c.setLink n x).sends = c.sends := rfl
@[simp] theorem Ctl.setLink_twin (c : Ctl) (n : Nat) (x : LinkPort) : (c.setLink n x).twin = c.twin := rfl
@[simp] theorem Ctl.setLink_reh (c : Ctl) (n : Nat) (x : LinkPort) : (c.setLink n x).reh = c.reh := rfl
@[simp] theorem Ctl.setLink_fillPend (c : Ctl) (n : Nat) (x : LinkPort) : (c.setLink n x).fillPend = c.fillPend := rfl
@[simp] theorem Ctl.setLink_refills (c : Ctl) (n : Nat) (x : LinkPort) : (c.setLink n x).refills = c.refills := rfl
@[simp] theorem Ctl.setLink_handing (c : Ctl) (n : Nat) (x : LinkPort) : (c.setLink n x).handing = c.handing := rfl
@[simp] theorem Ctl.setLink_handCc (c : Ctl) (n : Nat) (x : LinkPort) : (c.setLink n x).handCc = c.handCc := rfl
@[simp] theorem Ctl.setLink_killCc (c : Ctl) (n : Nat) (x : LinkPort) : (c.setLink n x).killCc = c.killCc := rfl
@[simp] theorem Ctl.setLink_swap (c : Ctl) (n : Nat) (x : LinkPort) : (c.setLink n x).swap = c.swap := rfl
@[simp] theorem Ctl.setLink_swapCc (c : Ctl) (n : Nat) (x : LinkPort) : (c.setLink n x).swapCc = c.swapCc := rfl
@[simp] theorem Ctl.setLink_wbq (c : Ctl) (n : Nat) (x : LinkPort) : (c.setLink n x).wbq = c.wbq := rfl
@[simp] theorem Ctl.setLink_wbNew (c : Ctl) (n : Nat) (x : LinkPort) : (c.setLink n x).wbNew = c.wbNew := rfl
@[simp] theorem Ctl.setLink_logq (c : Ctl) (n : Nat) (x : LinkPort) : (c.setLink n x).logq = c.logq := rfl
@[simp] theorem Ctl.setLink_fills (c : Ctl) (n : Nat) (x : LinkPort) : (c.setLink n x).fills = c.fills := rfl
@[simp] theorem Ctl.setLink_scrubs (c : Ctl) (n : Nat) (x : LinkPort) : (c.setLink n x).scrubs = c.scrubs := rfl
@[simp] theorem Ctl.setLink_lapCorr (c : Ctl) (n : Nat) (x : LinkPort) : (c.setLink n x).lapCorr = c.lapCorr := rfl
@[simp] theorem Ctl.setLink_lapTold (c : Ctl) (n : Nat) (x : LinkPort) : (c.setLink n x).lapTold = c.lapTold := rfl
@[simp] theorem Ctl.setLink_marches (c : Ctl) (n : Nat) (x : LinkPort) : (c.setLink n x).marches = c.marches := rfl
@[simp] theorem Ctl.setLink_unders (c : Ctl) (n : Nat) (x : LinkPort) : (c.setLink n x).unders = c.unders := rfl
@[simp] theorem Ctl.setLink_fenced (c : Ctl) (n : Nat) (x : LinkPort) : (c.setLink n x).fenced = c.fenced := rfl
@[simp] theorem Ctl.setLink_strikes (c : Ctl) (n : Nat) (x : LinkPort) : (c.setLink n x).strikes = c.strikes := rfl
@[simp] theorem Ctl.setLink_power (c : Ctl) (n : Nat) (x : LinkPort) : (c.setLink n x).power = c.power := rfl
@[simp] theorem Ctl.setLink_faults (c : Ctl) (n : Nat) (x : LinkPort) : (c.setLink n x).faults = c.faults := rfl
@[simp] theorem Ctl.setLink_time (c : Ctl) (n : Nat) (x : LinkPort) : (c.setLink n x).time = c.time := rfl
@[simp] theorem Ctl.setLink_audit (c : Ctl) (n : Nat) (x : LinkPort) : (c.setLink n x).audit = c.audit := rfl
@[simp] theorem Ctl.setLink_door (c : Ctl) (n : Nat) (x : LinkPort) : (c.setLink n x).door = c.door := rfl
@[simp] theorem Ctl.setLink_cRsp (c : Ctl) (n : Nat) (x : LinkPort) : (c.setLink n x).cRsp = c.cRsp := rfl
@[simp] theorem Ctl.setLink_cReqs (c : Ctl) (n : Nat) (x : LinkPort) : (c.setLink n x).cReqs = c.cReqs := rfl
@[simp] theorem Ctl.setLink_cTurn (c : Ctl) (n : Nat) (x : LinkPort) : (c.setLink n x).cTurn = c.cTurn := rfl
@[simp] theorem Ctl.setLink_cReady (c : Ctl) (n : Nat) (x : LinkPort) : (c.setLink n x).cReady = c.cReady := rfl
@[simp] theorem Ctl.setLink_free (c : Ctl) (n : Nat) (x : LinkPort) : (c.setLink n x).free = c.free := rfl
@[simp] theorem Ctl.link_setLink_same (c : Ctl) (n : Nat) (x : LinkPort) : (c.setLink n x).link n = x := Tab.get_set_same _ _ _ _
theorem Ctl.link_setLink_ne (c : Ctl) {n m : Nat} (h : m ≠ n) (x : LinkPort) : (c.setLink n x).link m = c.link m := Tab.get_set_ne _ _ _ h _
@[simp] theorem Ctl.setLink_reg (c : Ctl) (n : Nat) (x : LinkPort) (o : Nat) : (c.setLink n x).reg o = c.reg o := rfl
@[simp] theorem Ctl.setLink_fld (c : Ctl) (n : Nat) (x : LinkPort) (o : Nat) (f : FieldPos) : (c.setLink n x).fld o f = c.fld o f := rfl

/-! ### setWin -/

@[simp] theorem Ctl.setWin_regs (c : Ctl) (n : Nat) (x : WinRun) : (c.setWin n x).regs = c.regs := rfl
@[simp] theorem Ctl.setWin_notes (c : Ctl) (n : Nat) (x : WinRun) : (c.setWin n x).notes = c.notes := rfl
@[simp] theorem Ctl.setWin_sysReady (c : Ctl) (n : Nat) (x : WinRun) : (c.setWin n x).sysReady = c.sysReady := rfl
@[simp] theorem Ctl.setWin_everReady (c : Ctl) (n : Nat) (x : WinRun) : (c.setWin n x).everReady = c.everReady := rfl
@[simp] theorem Ctl.setWin_clk (c : Ctl) (n : Nat) (x : WinRun) : (c.setWin n x).clk = c.clk := rfl
@[simp] theorem Ctl.setWin_boot (c : Ctl) (n : Nat) (x : WinRun) : (c.setWin n x).boot = c.boot := rfl
@[simp] theorem Ctl.setWin_store (c : Ctl) (n : Nat) (x : WinRun) : (c.setWin n x).store = c.store := rfl
@[simp] theorem Ctl.setWin_storeSeen (c : Ctl) (n : Nat) (x : WinRun) : (c.setWin n x).storeSeen = c.storeSeen := rfl
@[simp] theorem Ctl.setWin_storeFix (c : Ctl) (n : Nat) (x : WinRun) : (c.setWin n x).storeFix = c.storeFix := rfl
@[simp] theorem Ctl.setWin_seqs (c : Ctl) (n : Nat) (x : WinRun) : (c.setWin n x).seqs = c.seqs := rfl
@[simp] theorem Ctl.setWin_groups (c : Ctl) (n : Nat) (x : WinRun) : (c.setWin n x).groups = c.groups := rfl
@[simp] theorem Ctl.setWin_rdOut (c : Ctl) (n : Nat) (x : WinRun) : (c.setWin n x).rdOut = c.rdOut := rfl
@[simp] theorem Ctl.setWin_stOut (c : Ctl) (n : Nat) (x : WinRun) : (c.setWin n x).stOut = c.stOut := rfl
@[simp] theorem Ctl.setWin_sOut (c : Ctl) (n : Nat) (x : WinRun) : (c.setWin n x).sOut = c.sOut := rfl
@[simp] theorem Ctl.setWin_cntHist (c : Ctl) (n : Nat) (x : WinRun) : (c.setWin n x).cntHist = c.cntHist := rfl
@[simp] theorem Ctl.setWin_curtains (c : Ctl) (n : Nat) (x : WinRun) : (c.setWin n x).curtains = c.curtains := rfl
@[simp] theorem Ctl.setWin_ctxs (c : Ctl) (n : Nat) (x : WinRun) : (c.setWin n x).ctxs = c.ctxs := rfl
@[simp] theorem Ctl.setWin_osets (c : Ctl) (n : Nat) (x : WinRun) : (c.setWin n x).osets = c.osets := rfl
@[simp] theorem Ctl.setWin_dlTold (c : Ctl) (n : Nat) (x : WinRun) : (c.setWin n x).dlTold = c.dlTold := rfl
@[simp] theorem Ctl.setWin_sports (c : Ctl) (n : Nat) (x : WinRun) : (c.setWin n x).sports = c.sports := rfl
@[simp] theorem Ctl.setWin_landed (c : Ctl) (n : Nat) (x : WinRun) : (c.setWin n x).landed = c.landed := rfl
@[simp] theorem Ctl.setWin_later (c : Ctl) (n : Nat) (x : WinRun) : (c.setWin n x).later = c.later := rfl
@[simp] theorem Ctl.setWin_areqs (c : Ctl) (n : Nat) (x : WinRun) : (c.setWin n x).areqs = c.areqs := rfl
@[simp] theorem Ctl.setWin_nextReq (c : Ctl) (n : Nat) (x : WinRun) : (c.setWin n x).nextReq = c.nextReq := rfl
@[simp] theorem Ctl.setWin_arbs (c : Ctl) (n : Nat) (x : WinRun) : (c.setWin n x).arbs = c.arbs := rfl
@[simp] theorem Ctl.setWin_busy (c : Ctl) (n : Nat) (x : WinRun) : (c.setWin n x).busy = c.busy := rfl
@[simp] theorem Ctl.setWin_links (c : Ctl) (n : Nat) (x : WinRun) : (c.setWin n x).links = c.links := rfl
@[simp] theorem Ctl.setWin_packets (c : Ctl) (n : Nat) (x : WinRun) : (c.setWin n x).packets = c.packets := rfl
@[simp] theorem Ctl.setWin_nextPkt (c : Ctl) (n : Nat) (x : WinRun) : (c.setWin n x).nextPkt = c.nextPkt := rfl
@[simp] theorem Ctl.setWin_sends (c : Ctl) (n : Nat) (x : WinRun) : (c.setWin n x).sends = c.sends := rfl
@[simp] theorem Ctl.setWin_twin (c : Ctl) (n : Nat) (x : WinRun) : (c.setWin n x).twin = c.twin := rfl
@[simp] theorem Ctl.setWin_reh (c : Ctl) (n : Nat) (x : WinRun) : (c.setWin n x).reh = c.reh := rfl
@[simp] theorem Ctl.setWin_fillPend (c : Ctl) (n : Nat) (x : WinRun) : (c.setWin n x).fillPend = c.fillPend := rfl
@[simp] theorem Ctl.setWin_refills (c : Ctl) (n : Nat) (x : WinRun) : (c.setWin n x).refills = c.refills := rfl
@[simp] theorem Ctl.setWin_handing (c : Ctl) (n : Nat) (x : WinRun) : (c.setWin n x).handing = c.handing := rfl
@[simp] theorem Ctl.setWin_handCc (c : Ctl) (n : Nat) (x : WinRun) : (c.setWin n x).handCc = c.handCc := rfl
@[simp] theorem Ctl.setWin_killCc (c : Ctl) (n : Nat) (x : WinRun) : (c.setWin n x).killCc = c.killCc := rfl
@[simp] theorem Ctl.setWin_swap (c : Ctl) (n : Nat) (x : WinRun) : (c.setWin n x).swap = c.swap := rfl
@[simp] theorem Ctl.setWin_swapCc (c : Ctl) (n : Nat) (x : WinRun) : (c.setWin n x).swapCc = c.swapCc := rfl
@[simp] theorem Ctl.setWin_wbq (c : Ctl) (n : Nat) (x : WinRun) : (c.setWin n x).wbq = c.wbq := rfl
@[simp] theorem Ctl.setWin_wbNew (c : Ctl) (n : Nat) (x : WinRun) : (c.setWin n x).wbNew = c.wbNew := rfl
@[simp] theorem Ctl.setWin_logq (c : Ctl) (n : Nat) (x : WinRun) : (c.setWin n x).logq = c.logq := rfl
@[simp] theorem Ctl.setWin_fills (c : Ctl) (n : Nat) (x : WinRun) : (c.setWin n x).fills = c.fills := rfl
@[simp] theorem Ctl.setWin_scrubs (c : Ctl) (n : Nat) (x : WinRun) : (c.setWin n x).scrubs = c.scrubs := rfl
@[simp] theorem Ctl.setWin_lapCorr (c : Ctl) (n : Nat) (x : WinRun) : (c.setWin n x).lapCorr = c.lapCorr := rfl
@[simp] theorem Ctl.setWin_lapTold (c : Ctl) (n : Nat) (x : WinRun) : (c.setWin n x).lapTold = c.lapTold := rfl
@[simp] theorem Ctl.setWin_marches (c : Ctl) (n : Nat) (x : WinRun) : (c.setWin n x).marches = c.marches := rfl
@[simp] theorem Ctl.setWin_unders (c : Ctl) (n : Nat) (x : WinRun) : (c.setWin n x).unders = c.unders := rfl
@[simp] theorem Ctl.setWin_fenced (c : Ctl) (n : Nat) (x : WinRun) : (c.setWin n x).fenced = c.fenced := rfl
@[simp] theorem Ctl.setWin_strikes (c : Ctl) (n : Nat) (x : WinRun) : (c.setWin n x).strikes = c.strikes := rfl
@[simp] theorem Ctl.setWin_power (c : Ctl) (n : Nat) (x : WinRun) : (c.setWin n x).power = c.power := rfl
@[simp] theorem Ctl.setWin_faults (c : Ctl) (n : Nat) (x : WinRun) : (c.setWin n x).faults = c.faults := rfl
@[simp] theorem Ctl.setWin_time (c : Ctl) (n : Nat) (x : WinRun) : (c.setWin n x).time = c.time := rfl
@[simp] theorem Ctl.setWin_audit (c : Ctl) (n : Nat) (x : WinRun) : (c.setWin n x).audit = c.audit := rfl
@[simp] theorem Ctl.setWin_door (c : Ctl) (n : Nat) (x : WinRun) : (c.setWin n x).door = c.door := rfl
@[simp] theorem Ctl.setWin_cRsp (c : Ctl) (n : Nat) (x : WinRun) : (c.setWin n x).cRsp = c.cRsp := rfl
@[simp] theorem Ctl.setWin_cReqs (c : Ctl) (n : Nat) (x : WinRun) : (c.setWin n x).cReqs = c.cReqs := rfl
@[simp] theorem Ctl.setWin_cTurn (c : Ctl) (n : Nat) (x : WinRun) : (c.setWin n x).cTurn = c.cTurn := rfl
@[simp] theorem Ctl.setWin_cReady (c : Ctl) (n : Nat) (x : WinRun) : (c.setWin n x).cReady = c.cReady := rfl
@[simp] theorem Ctl.setWin_free (c : Ctl) (n : Nat) (x : WinRun) : (c.setWin n x).free = c.free := rfl
@[simp] theorem Ctl.win_setWin_same (c : Ctl) (n : Nat) (x : WinRun) : (c.setWin n x).win n = x := Tab.get_set_same _ _ _ _
theorem Ctl.win_setWin_ne (c : Ctl) {n m : Nat} (h : m ≠ n) (x : WinRun) : (c.setWin n x).win m = c.win m := Tab.get_set_ne _ _ _ h _
@[simp] theorem Ctl.setWin_reg (c : Ctl) (n : Nat) (x : WinRun) (o : Nat) : (c.setWin n x).reg o = c.reg o := rfl
@[simp] theorem Ctl.setWin_fld (c : Ctl) (n : Nat) (x : WinRun) (o : Nat) (f : FieldPos) : (c.setWin n x).fld o f = c.fld o f := rfl

/-! ### setSend -/

@[simp] theorem Ctl.setSend_regs (c : Ctl) (n : Nat) (x : SendRun) : (c.setSend n x).regs = c.regs := rfl
@[simp] theorem Ctl.setSend_notes (c : Ctl) (n : Nat) (x : SendRun) : (c.setSend n x).notes = c.notes := rfl
@[simp] theorem Ctl.setSend_sysReady (c : Ctl) (n : Nat) (x : SendRun) : (c.setSend n x).sysReady = c.sysReady := rfl
@[simp] theorem Ctl.setSend_everReady (c : Ctl) (n : Nat) (x : SendRun) : (c.setSend n x).everReady = c.everReady := rfl
@[simp] theorem Ctl.setSend_clk (c : Ctl) (n : Nat) (x : SendRun) : (c.setSend n x).clk = c.clk := rfl
@[simp] theorem Ctl.setSend_boot (c : Ctl) (n : Nat) (x : SendRun) : (c.setSend n x).boot = c.boot := rfl
@[simp] theorem Ctl.setSend_store (c : Ctl) (n : Nat) (x : SendRun) : (c.setSend n x).store = c.store := rfl
@[simp] theorem Ctl.setSend_storeSeen (c : Ctl) (n : Nat) (x : SendRun) : (c.setSend n x).storeSeen = c.storeSeen := rfl
@[simp] theorem Ctl.setSend_storeFix (c : Ctl) (n : Nat) (x : SendRun) : (c.setSend n x).storeFix = c.storeFix := rfl
@[simp] theorem Ctl.setSend_seqs (c : Ctl) (n : Nat) (x : SendRun) : (c.setSend n x).seqs = c.seqs := rfl
@[simp] theorem Ctl.setSend_groups (c : Ctl) (n : Nat) (x : SendRun) : (c.setSend n x).groups = c.groups := rfl
@[simp] theorem Ctl.setSend_rdOut (c : Ctl) (n : Nat) (x : SendRun) : (c.setSend n x).rdOut = c.rdOut := rfl
@[simp] theorem Ctl.setSend_stOut (c : Ctl) (n : Nat) (x : SendRun) : (c.setSend n x).stOut = c.stOut := rfl
@[simp] theorem Ctl.setSend_sOut (c : Ctl) (n : Nat) (x : SendRun) : (c.setSend n x).sOut = c.sOut := rfl
@[simp] theorem Ctl.setSend_cntHist (c : Ctl) (n : Nat) (x : SendRun) : (c.setSend n x).cntHist = c.cntHist := rfl
@[simp] theorem Ctl.setSend_curtains (c : Ctl) (n : Nat) (x : SendRun) : (c.setSend n x).curtains = c.curtains := rfl
@[simp] theorem Ctl.setSend_ctxs (c : Ctl) (n : Nat) (x : SendRun) : (c.setSend n x).ctxs = c.ctxs := rfl
@[simp] theorem Ctl.setSend_osets (c : Ctl) (n : Nat) (x : SendRun) : (c.setSend n x).osets = c.osets := rfl
@[simp] theorem Ctl.setSend_dlTold (c : Ctl) (n : Nat) (x : SendRun) : (c.setSend n x).dlTold = c.dlTold := rfl
@[simp] theorem Ctl.setSend_sports (c : Ctl) (n : Nat) (x : SendRun) : (c.setSend n x).sports = c.sports := rfl
@[simp] theorem Ctl.setSend_landed (c : Ctl) (n : Nat) (x : SendRun) : (c.setSend n x).landed = c.landed := rfl
@[simp] theorem Ctl.setSend_later (c : Ctl) (n : Nat) (x : SendRun) : (c.setSend n x).later = c.later := rfl
@[simp] theorem Ctl.setSend_areqs (c : Ctl) (n : Nat) (x : SendRun) : (c.setSend n x).areqs = c.areqs := rfl
@[simp] theorem Ctl.setSend_nextReq (c : Ctl) (n : Nat) (x : SendRun) : (c.setSend n x).nextReq = c.nextReq := rfl
@[simp] theorem Ctl.setSend_arbs (c : Ctl) (n : Nat) (x : SendRun) : (c.setSend n x).arbs = c.arbs := rfl
@[simp] theorem Ctl.setSend_busy (c : Ctl) (n : Nat) (x : SendRun) : (c.setSend n x).busy = c.busy := rfl
@[simp] theorem Ctl.setSend_links (c : Ctl) (n : Nat) (x : SendRun) : (c.setSend n x).links = c.links := rfl
@[simp] theorem Ctl.setSend_wins (c : Ctl) (n : Nat) (x : SendRun) : (c.setSend n x).wins = c.wins := rfl
@[simp] theorem Ctl.setSend_packets (c : Ctl) (n : Nat) (x : SendRun) : (c.setSend n x).packets = c.packets := rfl
@[simp] theorem Ctl.setSend_nextPkt (c : Ctl) (n : Nat) (x : SendRun) : (c.setSend n x).nextPkt = c.nextPkt := rfl
@[simp] theorem Ctl.setSend_twin (c : Ctl) (n : Nat) (x : SendRun) : (c.setSend n x).twin = c.twin := rfl
@[simp] theorem Ctl.setSend_reh (c : Ctl) (n : Nat) (x : SendRun) : (c.setSend n x).reh = c.reh := rfl
@[simp] theorem Ctl.setSend_fillPend (c : Ctl) (n : Nat) (x : SendRun) : (c.setSend n x).fillPend = c.fillPend := rfl
@[simp] theorem Ctl.setSend_refills (c : Ctl) (n : Nat) (x : SendRun) : (c.setSend n x).refills = c.refills := rfl
@[simp] theorem Ctl.setSend_handing (c : Ctl) (n : Nat) (x : SendRun) : (c.setSend n x).handing = c.handing := rfl
@[simp] theorem Ctl.setSend_handCc (c : Ctl) (n : Nat) (x : SendRun) : (c.setSend n x).handCc = c.handCc := rfl
@[simp] theorem Ctl.setSend_killCc (c : Ctl) (n : Nat) (x : SendRun) : (c.setSend n x).killCc = c.killCc := rfl
@[simp] theorem Ctl.setSend_swap (c : Ctl) (n : Nat) (x : SendRun) : (c.setSend n x).swap = c.swap := rfl
@[simp] theorem Ctl.setSend_swapCc (c : Ctl) (n : Nat) (x : SendRun) : (c.setSend n x).swapCc = c.swapCc := rfl
@[simp] theorem Ctl.setSend_wbq (c : Ctl) (n : Nat) (x : SendRun) : (c.setSend n x).wbq = c.wbq := rfl
@[simp] theorem Ctl.setSend_wbNew (c : Ctl) (n : Nat) (x : SendRun) : (c.setSend n x).wbNew = c.wbNew := rfl
@[simp] theorem Ctl.setSend_logq (c : Ctl) (n : Nat) (x : SendRun) : (c.setSend n x).logq = c.logq := rfl
@[simp] theorem Ctl.setSend_fills (c : Ctl) (n : Nat) (x : SendRun) : (c.setSend n x).fills = c.fills := rfl
@[simp] theorem Ctl.setSend_scrubs (c : Ctl) (n : Nat) (x : SendRun) : (c.setSend n x).scrubs = c.scrubs := rfl
@[simp] theorem Ctl.setSend_lapCorr (c : Ctl) (n : Nat) (x : SendRun) : (c.setSend n x).lapCorr = c.lapCorr := rfl
@[simp] theorem Ctl.setSend_lapTold (c : Ctl) (n : Nat) (x : SendRun) : (c.setSend n x).lapTold = c.lapTold := rfl
@[simp] theorem Ctl.setSend_marches (c : Ctl) (n : Nat) (x : SendRun) : (c.setSend n x).marches = c.marches := rfl
@[simp] theorem Ctl.setSend_unders (c : Ctl) (n : Nat) (x : SendRun) : (c.setSend n x).unders = c.unders := rfl
@[simp] theorem Ctl.setSend_fenced (c : Ctl) (n : Nat) (x : SendRun) : (c.setSend n x).fenced = c.fenced := rfl
@[simp] theorem Ctl.setSend_strikes (c : Ctl) (n : Nat) (x : SendRun) : (c.setSend n x).strikes = c.strikes := rfl
@[simp] theorem Ctl.setSend_power (c : Ctl) (n : Nat) (x : SendRun) : (c.setSend n x).power = c.power := rfl
@[simp] theorem Ctl.setSend_faults (c : Ctl) (n : Nat) (x : SendRun) : (c.setSend n x).faults = c.faults := rfl
@[simp] theorem Ctl.setSend_time (c : Ctl) (n : Nat) (x : SendRun) : (c.setSend n x).time = c.time := rfl
@[simp] theorem Ctl.setSend_audit (c : Ctl) (n : Nat) (x : SendRun) : (c.setSend n x).audit = c.audit := rfl
@[simp] theorem Ctl.setSend_door (c : Ctl) (n : Nat) (x : SendRun) : (c.setSend n x).door = c.door := rfl
@[simp] theorem Ctl.setSend_cRsp (c : Ctl) (n : Nat) (x : SendRun) : (c.setSend n x).cRsp = c.cRsp := rfl
@[simp] theorem Ctl.setSend_cReqs (c : Ctl) (n : Nat) (x : SendRun) : (c.setSend n x).cReqs = c.cReqs := rfl
@[simp] theorem Ctl.setSend_cTurn (c : Ctl) (n : Nat) (x : SendRun) : (c.setSend n x).cTurn = c.cTurn := rfl
@[simp] theorem Ctl.setSend_cReady (c : Ctl) (n : Nat) (x : SendRun) : (c.setSend n x).cReady = c.cReady := rfl
@[simp] theorem Ctl.setSend_free (c : Ctl) (n : Nat) (x : SendRun) : (c.setSend n x).free = c.free := rfl
@[simp] theorem Ctl.send_setSend_same (c : Ctl) (n : Nat) (x : SendRun) : (c.setSend n x).send n = x := Tab.get_set_same _ _ _ _
theorem Ctl.send_setSend_ne (c : Ctl) {n m : Nat} (h : m ≠ n) (x : SendRun) : (c.setSend n x).send m = c.send m := Tab.get_set_ne _ _ _ h _
@[simp] theorem Ctl.setSend_reg (c : Ctl) (n : Nat) (x : SendRun) (o : Nat) : (c.setSend n x).reg o = c.reg o := rfl
@[simp] theorem Ctl.setSend_fld (c : Ctl) (n : Nat) (x : SendRun) (o : Nat) (f : FieldPos) : (c.setSend n x).fld o f = c.fld o f := rfl

/-! ### setCurtain -/

@[simp] theorem Ctl.setCurtain_regs (c : Ctl) (n : Nat) (x : Curtain) : (c.setCurtain n x).regs = c.regs := rfl
@[simp] theorem Ctl.setCurtain_notes (c : Ctl) (n : Nat) (x : Curtain) : (c.setCurtain n x).notes = c.notes := rfl
@[simp] theorem Ctl.setCurtain_sysReady (c : Ctl) (n : Nat) (x : Curtain) : (c.setCurtain n x).sysReady = c.sysReady := rfl
@[simp] theorem Ctl.setCurtain_everReady (c : Ctl) (n : Nat) (x : Curtain) : (c.setCurtain n x).everReady = c.everReady := rfl
@[simp] theorem Ctl.setCurtain_clk (c : Ctl) (n : Nat) (x : Curtain) : (c.setCurtain n x).clk = c.clk := rfl
@[simp] theorem Ctl.setCurtain_boot (c : Ctl) (n : Nat) (x : Curtain) : (c.setCurtain n x).boot = c.boot := rfl
@[simp] theorem Ctl.setCurtain_store (c : Ctl) (n : Nat) (x : Curtain) : (c.setCurtain n x).store = c.store := rfl
@[simp] theorem Ctl.setCurtain_storeSeen (c : Ctl) (n : Nat) (x : Curtain) : (c.setCurtain n x).storeSeen = c.storeSeen := rfl
@[simp] theorem Ctl.setCurtain_storeFix (c : Ctl) (n : Nat) (x : Curtain) : (c.setCurtain n x).storeFix = c.storeFix := rfl
@[simp] theorem Ctl.setCurtain_seqs (c : Ctl) (n : Nat) (x : Curtain) : (c.setCurtain n x).seqs = c.seqs := rfl
@[simp] theorem Ctl.setCurtain_groups (c : Ctl) (n : Nat) (x : Curtain) : (c.setCurtain n x).groups = c.groups := rfl
@[simp] theorem Ctl.setCurtain_rdOut (c : Ctl) (n : Nat) (x : Curtain) : (c.setCurtain n x).rdOut = c.rdOut := rfl
@[simp] theorem Ctl.setCurtain_stOut (c : Ctl) (n : Nat) (x : Curtain) : (c.setCurtain n x).stOut = c.stOut := rfl
@[simp] theorem Ctl.setCurtain_sOut (c : Ctl) (n : Nat) (x : Curtain) : (c.setCurtain n x).sOut = c.sOut := rfl
@[simp] theorem Ctl.setCurtain_cntHist (c : Ctl) (n : Nat) (x : Curtain) : (c.setCurtain n x).cntHist = c.cntHist := rfl
@[simp] theorem Ctl.setCurtain_ctxs (c : Ctl) (n : Nat) (x : Curtain) : (c.setCurtain n x).ctxs = c.ctxs := rfl
@[simp] theorem Ctl.setCurtain_osets (c : Ctl) (n : Nat) (x : Curtain) : (c.setCurtain n x).osets = c.osets := rfl
@[simp] theorem Ctl.setCurtain_dlTold (c : Ctl) (n : Nat) (x : Curtain) : (c.setCurtain n x).dlTold = c.dlTold := rfl
@[simp] theorem Ctl.setCurtain_sports (c : Ctl) (n : Nat) (x : Curtain) : (c.setCurtain n x).sports = c.sports := rfl
@[simp] theorem Ctl.setCurtain_landed (c : Ctl) (n : Nat) (x : Curtain) : (c.setCurtain n x).landed = c.landed := rfl
@[simp] theorem Ctl.setCurtain_later (c : Ctl) (n : Nat) (x : Curtain) : (c.setCurtain n x).later = c.later := rfl
@[simp] theorem Ctl.setCurtain_areqs (c : Ctl) (n : Nat) (x : Curtain) : (c.setCurtain n x).areqs = c.areqs := rfl
@[simp] theorem Ctl.setCurtain_nextReq (c : Ctl) (n : Nat) (x : Curtain) : (c.setCurtain n x).nextReq = c.nextReq := rfl
@[simp] theorem Ctl.setCurtain_arbs (c : Ctl) (n : Nat) (x : Curtain) : (c.setCurtain n x).arbs = c.arbs := rfl
@[simp] theorem Ctl.setCurtain_busy (c : Ctl) (n : Nat) (x : Curtain) : (c.setCurtain n x).busy = c.busy := rfl
@[simp] theorem Ctl.setCurtain_links (c : Ctl) (n : Nat) (x : Curtain) : (c.setCurtain n x).links = c.links := rfl
@[simp] theorem Ctl.setCurtain_wins (c : Ctl) (n : Nat) (x : Curtain) : (c.setCurtain n x).wins = c.wins := rfl
@[simp] theorem Ctl.setCurtain_packets (c : Ctl) (n : Nat) (x : Curtain) : (c.setCurtain n x).packets = c.packets := rfl
@[simp] theorem Ctl.setCurtain_nextPkt (c : Ctl) (n : Nat) (x : Curtain) : (c.setCurtain n x).nextPkt = c.nextPkt := rfl
@[simp] theorem Ctl.setCurtain_sends (c : Ctl) (n : Nat) (x : Curtain) : (c.setCurtain n x).sends = c.sends := rfl
@[simp] theorem Ctl.setCurtain_twin (c : Ctl) (n : Nat) (x : Curtain) : (c.setCurtain n x).twin = c.twin := rfl
@[simp] theorem Ctl.setCurtain_reh (c : Ctl) (n : Nat) (x : Curtain) : (c.setCurtain n x).reh = c.reh := rfl
@[simp] theorem Ctl.setCurtain_fillPend (c : Ctl) (n : Nat) (x : Curtain) : (c.setCurtain n x).fillPend = c.fillPend := rfl
@[simp] theorem Ctl.setCurtain_refills (c : Ctl) (n : Nat) (x : Curtain) : (c.setCurtain n x).refills = c.refills := rfl
@[simp] theorem Ctl.setCurtain_handing (c : Ctl) (n : Nat) (x : Curtain) : (c.setCurtain n x).handing = c.handing := rfl
@[simp] theorem Ctl.setCurtain_handCc (c : Ctl) (n : Nat) (x : Curtain) : (c.setCurtain n x).handCc = c.handCc := rfl
@[simp] theorem Ctl.setCurtain_killCc (c : Ctl) (n : Nat) (x : Curtain) : (c.setCurtain n x).killCc = c.killCc := rfl
@[simp] theorem Ctl.setCurtain_swap (c : Ctl) (n : Nat) (x : Curtain) : (c.setCurtain n x).swap = c.swap := rfl
@[simp] theorem Ctl.setCurtain_swapCc (c : Ctl) (n : Nat) (x : Curtain) : (c.setCurtain n x).swapCc = c.swapCc := rfl
@[simp] theorem Ctl.setCurtain_wbq (c : Ctl) (n : Nat) (x : Curtain) : (c.setCurtain n x).wbq = c.wbq := rfl
@[simp] theorem Ctl.setCurtain_wbNew (c : Ctl) (n : Nat) (x : Curtain) : (c.setCurtain n x).wbNew = c.wbNew := rfl
@[simp] theorem Ctl.setCurtain_logq (c : Ctl) (n : Nat) (x : Curtain) : (c.setCurtain n x).logq = c.logq := rfl
@[simp] theorem Ctl.setCurtain_fills (c : Ctl) (n : Nat) (x : Curtain) : (c.setCurtain n x).fills = c.fills := rfl
@[simp] theorem Ctl.setCurtain_scrubs (c : Ctl) (n : Nat) (x : Curtain) : (c.setCurtain n x).scrubs = c.scrubs := rfl
@[simp] theorem Ctl.setCurtain_lapCorr (c : Ctl) (n : Nat) (x : Curtain) : (c.setCurtain n x).lapCorr = c.lapCorr := rfl
@[simp] theorem Ctl.setCurtain_lapTold (c : Ctl) (n : Nat) (x : Curtain) : (c.setCurtain n x).lapTold = c.lapTold := rfl
@[simp] theorem Ctl.setCurtain_marches (c : Ctl) (n : Nat) (x : Curtain) : (c.setCurtain n x).marches = c.marches := rfl
@[simp] theorem Ctl.setCurtain_unders (c : Ctl) (n : Nat) (x : Curtain) : (c.setCurtain n x).unders = c.unders := rfl
@[simp] theorem Ctl.setCurtain_fenced (c : Ctl) (n : Nat) (x : Curtain) : (c.setCurtain n x).fenced = c.fenced := rfl
@[simp] theorem Ctl.setCurtain_strikes (c : Ctl) (n : Nat) (x : Curtain) : (c.setCurtain n x).strikes = c.strikes := rfl
@[simp] theorem Ctl.setCurtain_power (c : Ctl) (n : Nat) (x : Curtain) : (c.setCurtain n x).power = c.power := rfl
@[simp] theorem Ctl.setCurtain_faults (c : Ctl) (n : Nat) (x : Curtain) : (c.setCurtain n x).faults = c.faults := rfl
@[simp] theorem Ctl.setCurtain_time (c : Ctl) (n : Nat) (x : Curtain) : (c.setCurtain n x).time = c.time := rfl
@[simp] theorem Ctl.setCurtain_audit (c : Ctl) (n : Nat) (x : Curtain) : (c.setCurtain n x).audit = c.audit := rfl
@[simp] theorem Ctl.setCurtain_door (c : Ctl) (n : Nat) (x : Curtain) : (c.setCurtain n x).door = c.door := rfl
@[simp] theorem Ctl.setCurtain_cRsp (c : Ctl) (n : Nat) (x : Curtain) : (c.setCurtain n x).cRsp = c.cRsp := rfl
@[simp] theorem Ctl.setCurtain_cReqs (c : Ctl) (n : Nat) (x : Curtain) : (c.setCurtain n x).cReqs = c.cReqs := rfl
@[simp] theorem Ctl.setCurtain_cTurn (c : Ctl) (n : Nat) (x : Curtain) : (c.setCurtain n x).cTurn = c.cTurn := rfl
@[simp] theorem Ctl.setCurtain_cReady (c : Ctl) (n : Nat) (x : Curtain) : (c.setCurtain n x).cReady = c.cReady := rfl
@[simp] theorem Ctl.setCurtain_free (c : Ctl) (n : Nat) (x : Curtain) : (c.setCurtain n x).free = c.free := rfl
@[simp] theorem Ctl.curtain_setCurtain_same (c : Ctl) (n : Nat) (x : Curtain) : (c.setCurtain n x).curtain n = x := Tab.get_set_same _ _ _ _
theorem Ctl.curtain_setCurtain_ne (c : Ctl) {n m : Nat} (h : m ≠ n) (x : Curtain) : (c.setCurtain n x).curtain m = c.curtain m := Tab.get_set_ne _ _ _ h _
@[simp] theorem Ctl.setCurtain_reg (c : Ctl) (n : Nat) (x : Curtain) (o : Nat) : (c.setCurtain n x).reg o = c.reg o := rfl
@[simp] theorem Ctl.setCurtain_fld (c : Ctl) (n : Nat) (x : Curtain) (o : Nat) (f : FieldPos) : (c.setCurtain n x).fld o f = c.fld o f := rfl

/-! ### setArb -/

@[simp] theorem Ctl.setArb_regs (c : Ctl) (n : Nat) (x : Arbiter) : (c.setArb n x).regs = c.regs := rfl
@[simp] theorem Ctl.setArb_notes (c : Ctl) (n : Nat) (x : Arbiter) : (c.setArb n x).notes = c.notes := rfl
@[simp] theorem Ctl.setArb_sysReady (c : Ctl) (n : Nat) (x : Arbiter) : (c.setArb n x).sysReady = c.sysReady := rfl
@[simp] theorem Ctl.setArb_everReady (c : Ctl) (n : Nat) (x : Arbiter) : (c.setArb n x).everReady = c.everReady := rfl
@[simp] theorem Ctl.setArb_clk (c : Ctl) (n : Nat) (x : Arbiter) : (c.setArb n x).clk = c.clk := rfl
@[simp] theorem Ctl.setArb_boot (c : Ctl) (n : Nat) (x : Arbiter) : (c.setArb n x).boot = c.boot := rfl
@[simp] theorem Ctl.setArb_store (c : Ctl) (n : Nat) (x : Arbiter) : (c.setArb n x).store = c.store := rfl
@[simp] theorem Ctl.setArb_storeSeen (c : Ctl) (n : Nat) (x : Arbiter) : (c.setArb n x).storeSeen = c.storeSeen := rfl
@[simp] theorem Ctl.setArb_storeFix (c : Ctl) (n : Nat) (x : Arbiter) : (c.setArb n x).storeFix = c.storeFix := rfl
@[simp] theorem Ctl.setArb_seqs (c : Ctl) (n : Nat) (x : Arbiter) : (c.setArb n x).seqs = c.seqs := rfl
@[simp] theorem Ctl.setArb_groups (c : Ctl) (n : Nat) (x : Arbiter) : (c.setArb n x).groups = c.groups := rfl
@[simp] theorem Ctl.setArb_rdOut (c : Ctl) (n : Nat) (x : Arbiter) : (c.setArb n x).rdOut = c.rdOut := rfl
@[simp] theorem Ctl.setArb_stOut (c : Ctl) (n : Nat) (x : Arbiter) : (c.setArb n x).stOut = c.stOut := rfl
@[simp] theorem Ctl.setArb_sOut (c : Ctl) (n : Nat) (x : Arbiter) : (c.setArb n x).sOut = c.sOut := rfl
@[simp] theorem Ctl.setArb_cntHist (c : Ctl) (n : Nat) (x : Arbiter) : (c.setArb n x).cntHist = c.cntHist := rfl
@[simp] theorem Ctl.setArb_curtains (c : Ctl) (n : Nat) (x : Arbiter) : (c.setArb n x).curtains = c.curtains := rfl
@[simp] theorem Ctl.setArb_ctxs (c : Ctl) (n : Nat) (x : Arbiter) : (c.setArb n x).ctxs = c.ctxs := rfl
@[simp] theorem Ctl.setArb_osets (c : Ctl) (n : Nat) (x : Arbiter) : (c.setArb n x).osets = c.osets := rfl
@[simp] theorem Ctl.setArb_dlTold (c : Ctl) (n : Nat) (x : Arbiter) : (c.setArb n x).dlTold = c.dlTold := rfl
@[simp] theorem Ctl.setArb_sports (c : Ctl) (n : Nat) (x : Arbiter) : (c.setArb n x).sports = c.sports := rfl
@[simp] theorem Ctl.setArb_landed (c : Ctl) (n : Nat) (x : Arbiter) : (c.setArb n x).landed = c.landed := rfl
@[simp] theorem Ctl.setArb_later (c : Ctl) (n : Nat) (x : Arbiter) : (c.setArb n x).later = c.later := rfl
@[simp] theorem Ctl.setArb_areqs (c : Ctl) (n : Nat) (x : Arbiter) : (c.setArb n x).areqs = c.areqs := rfl
@[simp] theorem Ctl.setArb_nextReq (c : Ctl) (n : Nat) (x : Arbiter) : (c.setArb n x).nextReq = c.nextReq := rfl
@[simp] theorem Ctl.setArb_busy (c : Ctl) (n : Nat) (x : Arbiter) : (c.setArb n x).busy = c.busy := rfl
@[simp] theorem Ctl.setArb_links (c : Ctl) (n : Nat) (x : Arbiter) : (c.setArb n x).links = c.links := rfl
@[simp] theorem Ctl.setArb_wins (c : Ctl) (n : Nat) (x : Arbiter) : (c.setArb n x).wins = c.wins := rfl
@[simp] theorem Ctl.setArb_packets (c : Ctl) (n : Nat) (x : Arbiter) : (c.setArb n x).packets = c.packets := rfl
@[simp] theorem Ctl.setArb_nextPkt (c : Ctl) (n : Nat) (x : Arbiter) : (c.setArb n x).nextPkt = c.nextPkt := rfl
@[simp] theorem Ctl.setArb_sends (c : Ctl) (n : Nat) (x : Arbiter) : (c.setArb n x).sends = c.sends := rfl
@[simp] theorem Ctl.setArb_twin (c : Ctl) (n : Nat) (x : Arbiter) : (c.setArb n x).twin = c.twin := rfl
@[simp] theorem Ctl.setArb_reh (c : Ctl) (n : Nat) (x : Arbiter) : (c.setArb n x).reh = c.reh := rfl
@[simp] theorem Ctl.setArb_fillPend (c : Ctl) (n : Nat) (x : Arbiter) : (c.setArb n x).fillPend = c.fillPend := rfl
@[simp] theorem Ctl.setArb_refills (c : Ctl) (n : Nat) (x : Arbiter) : (c.setArb n x).refills = c.refills := rfl
@[simp] theorem Ctl.setArb_handing (c : Ctl) (n : Nat) (x : Arbiter) : (c.setArb n x).handing = c.handing := rfl
@[simp] theorem Ctl.setArb_handCc (c : Ctl) (n : Nat) (x : Arbiter) : (c.setArb n x).handCc = c.handCc := rfl
@[simp] theorem Ctl.setArb_killCc (c : Ctl) (n : Nat) (x : Arbiter) : (c.setArb n x).killCc = c.killCc := rfl
@[simp] theorem Ctl.setArb_swap (c : Ctl) (n : Nat) (x : Arbiter) : (c.setArb n x).swap = c.swap := rfl
@[simp] theorem Ctl.setArb_swapCc (c : Ctl) (n : Nat) (x : Arbiter) : (c.setArb n x).swapCc = c.swapCc := rfl
@[simp] theorem Ctl.setArb_wbq (c : Ctl) (n : Nat) (x : Arbiter) : (c.setArb n x).wbq = c.wbq := rfl
@[simp] theorem Ctl.setArb_wbNew (c : Ctl) (n : Nat) (x : Arbiter) : (c.setArb n x).wbNew = c.wbNew := rfl
@[simp] theorem Ctl.setArb_logq (c : Ctl) (n : Nat) (x : Arbiter) : (c.setArb n x).logq = c.logq := rfl
@[simp] theorem Ctl.setArb_fills (c : Ctl) (n : Nat) (x : Arbiter) : (c.setArb n x).fills = c.fills := rfl
@[simp] theorem Ctl.setArb_scrubs (c : Ctl) (n : Nat) (x : Arbiter) : (c.setArb n x).scrubs = c.scrubs := rfl
@[simp] theorem Ctl.setArb_lapCorr (c : Ctl) (n : Nat) (x : Arbiter) : (c.setArb n x).lapCorr = c.lapCorr := rfl
@[simp] theorem Ctl.setArb_lapTold (c : Ctl) (n : Nat) (x : Arbiter) : (c.setArb n x).lapTold = c.lapTold := rfl
@[simp] theorem Ctl.setArb_marches (c : Ctl) (n : Nat) (x : Arbiter) : (c.setArb n x).marches = c.marches := rfl
@[simp] theorem Ctl.setArb_unders (c : Ctl) (n : Nat) (x : Arbiter) : (c.setArb n x).unders = c.unders := rfl
@[simp] theorem Ctl.setArb_fenced (c : Ctl) (n : Nat) (x : Arbiter) : (c.setArb n x).fenced = c.fenced := rfl
@[simp] theorem Ctl.setArb_strikes (c : Ctl) (n : Nat) (x : Arbiter) : (c.setArb n x).strikes = c.strikes := rfl
@[simp] theorem Ctl.setArb_power (c : Ctl) (n : Nat) (x : Arbiter) : (c.setArb n x).power = c.power := rfl
@[simp] theorem Ctl.setArb_faults (c : Ctl) (n : Nat) (x : Arbiter) : (c.setArb n x).faults = c.faults := rfl
@[simp] theorem Ctl.setArb_time (c : Ctl) (n : Nat) (x : Arbiter) : (c.setArb n x).time = c.time := rfl
@[simp] theorem Ctl.setArb_audit (c : Ctl) (n : Nat) (x : Arbiter) : (c.setArb n x).audit = c.audit := rfl
@[simp] theorem Ctl.setArb_door (c : Ctl) (n : Nat) (x : Arbiter) : (c.setArb n x).door = c.door := rfl
@[simp] theorem Ctl.setArb_cRsp (c : Ctl) (n : Nat) (x : Arbiter) : (c.setArb n x).cRsp = c.cRsp := rfl
@[simp] theorem Ctl.setArb_cReqs (c : Ctl) (n : Nat) (x : Arbiter) : (c.setArb n x).cReqs = c.cReqs := rfl
@[simp] theorem Ctl.setArb_cTurn (c : Ctl) (n : Nat) (x : Arbiter) : (c.setArb n x).cTurn = c.cTurn := rfl
@[simp] theorem Ctl.setArb_cReady (c : Ctl) (n : Nat) (x : Arbiter) : (c.setArb n x).cReady = c.cReady := rfl
@[simp] theorem Ctl.setArb_free (c : Ctl) (n : Nat) (x : Arbiter) : (c.setArb n x).free = c.free := rfl
@[simp] theorem Ctl.arb_setArb_same (c : Ctl) (n : Nat) (x : Arbiter) : (c.setArb n x).arb n = x := Tab.get_set_same _ _ _ _
theorem Ctl.arb_setArb_ne (c : Ctl) {n m : Nat} (h : m ≠ n) (x : Arbiter) : (c.setArb n x).arb m = c.arb m := Tab.get_set_ne _ _ _ h _
@[simp] theorem Ctl.setArb_reg (c : Ctl) (n : Nat) (x : Arbiter) (o : Nat) : (c.setArb n x).reg o = c.reg o := rfl
@[simp] theorem Ctl.setArb_fld (c : Ctl) (n : Nat) (x : Arbiter) (o : Nat) (f : FieldPos) : (c.setArb n x).fld o f = c.fld o f := rfl

/-! ### setOset -/

@[simp] theorem Ctl.setOset_regs (c : Ctl) (n : Nat) (x : OSet) : (c.setOset n x).regs = c.regs := rfl
@[simp] theorem Ctl.setOset_notes (c : Ctl) (n : Nat) (x : OSet) : (c.setOset n x).notes = c.notes := rfl
@[simp] theorem Ctl.setOset_sysReady (c : Ctl) (n : Nat) (x : OSet) : (c.setOset n x).sysReady = c.sysReady := rfl
@[simp] theorem Ctl.setOset_everReady (c : Ctl) (n : Nat) (x : OSet) : (c.setOset n x).everReady = c.everReady := rfl
@[simp] theorem Ctl.setOset_clk (c : Ctl) (n : Nat) (x : OSet) : (c.setOset n x).clk = c.clk := rfl
@[simp] theorem Ctl.setOset_boot (c : Ctl) (n : Nat) (x : OSet) : (c.setOset n x).boot = c.boot := rfl
@[simp] theorem Ctl.setOset_store (c : Ctl) (n : Nat) (x : OSet) : (c.setOset n x).store = c.store := rfl
@[simp] theorem Ctl.setOset_storeSeen (c : Ctl) (n : Nat) (x : OSet) : (c.setOset n x).storeSeen = c.storeSeen := rfl
@[simp] theorem Ctl.setOset_storeFix (c : Ctl) (n : Nat) (x : OSet) : (c.setOset n x).storeFix = c.storeFix := rfl
@[simp] theorem Ctl.setOset_seqs (c : Ctl) (n : Nat) (x : OSet) : (c.setOset n x).seqs = c.seqs := rfl
@[simp] theorem Ctl.setOset_groups (c : Ctl) (n : Nat) (x : OSet) : (c.setOset n x).groups = c.groups := rfl
@[simp] theorem Ctl.setOset_rdOut (c : Ctl) (n : Nat) (x : OSet) : (c.setOset n x).rdOut = c.rdOut := rfl
@[simp] theorem Ctl.setOset_stOut (c : Ctl) (n : Nat) (x : OSet) : (c.setOset n x).stOut = c.stOut := rfl
@[simp] theorem Ctl.setOset_sOut (c : Ctl) (n : Nat) (x : OSet) : (c.setOset n x).sOut = c.sOut := rfl
@[simp] theorem Ctl.setOset_cntHist (c : Ctl) (n : Nat) (x : OSet) : (c.setOset n x).cntHist = c.cntHist := rfl
@[simp] theorem Ctl.setOset_curtains (c : Ctl) (n : Nat) (x : OSet) : (c.setOset n x).curtains = c.curtains := rfl
@[simp] theorem Ctl.setOset_ctxs (c : Ctl) (n : Nat) (x : OSet) : (c.setOset n x).ctxs = c.ctxs := rfl
@[simp] theorem Ctl.setOset_dlTold (c : Ctl) (n : Nat) (x : OSet) : (c.setOset n x).dlTold = c.dlTold := rfl
@[simp] theorem Ctl.setOset_sports (c : Ctl) (n : Nat) (x : OSet) : (c.setOset n x).sports = c.sports := rfl
@[simp] theorem Ctl.setOset_landed (c : Ctl) (n : Nat) (x : OSet) : (c.setOset n x).landed = c.landed := rfl
@[simp] theorem Ctl.setOset_later (c : Ctl) (n : Nat) (x : OSet) : (c.setOset n x).later = c.later := rfl
@[simp] theorem Ctl.setOset_areqs (c : Ctl) (n : Nat) (x : OSet) : (c.setOset n x).areqs = c.areqs := rfl
@[simp] theorem Ctl.setOset_nextReq (c : Ctl) (n : Nat) (x : OSet) : (c.setOset n x).nextReq = c.nextReq := rfl
@[simp] theorem Ctl.setOset_arbs (c : Ctl) (n : Nat) (x : OSet) : (c.setOset n x).arbs = c.arbs := rfl
@[simp] theorem Ctl.setOset_busy (c : Ctl) (n : Nat) (x : OSet) : (c.setOset n x).busy = c.busy := rfl
@[simp] theorem Ctl.setOset_links (c : Ctl) (n : Nat) (x : OSet) : (c.setOset n x).links = c.links := rfl
@[simp] theorem Ctl.setOset_wins (c : Ctl) (n : Nat) (x : OSet) : (c.setOset n x).wins = c.wins := rfl
@[simp] theorem Ctl.setOset_packets (c : Ctl) (n : Nat) (x : OSet) : (c.setOset n x).packets = c.packets := rfl
@[simp] theorem Ctl.setOset_nextPkt (c : Ctl) (n : Nat) (x : OSet) : (c.setOset n x).nextPkt = c.nextPkt := rfl
@[simp] theorem Ctl.setOset_sends (c : Ctl) (n : Nat) (x : OSet) : (c.setOset n x).sends = c.sends := rfl
@[simp] theorem Ctl.setOset_twin (c : Ctl) (n : Nat) (x : OSet) : (c.setOset n x).twin = c.twin := rfl
@[simp] theorem Ctl.setOset_reh (c : Ctl) (n : Nat) (x : OSet) : (c.setOset n x).reh = c.reh := rfl
@[simp] theorem Ctl.setOset_fillPend (c : Ctl) (n : Nat) (x : OSet) : (c.setOset n x).fillPend = c.fillPend := rfl
@[simp] theorem Ctl.setOset_refills (c : Ctl) (n : Nat) (x : OSet) : (c.setOset n x).refills = c.refills := rfl
@[simp] theorem Ctl.setOset_handing (c : Ctl) (n : Nat) (x : OSet) : (c.setOset n x).handing = c.handing := rfl
@[simp] theorem Ctl.setOset_handCc (c : Ctl) (n : Nat) (x : OSet) : (c.setOset n x).handCc = c.handCc := rfl
@[simp] theorem Ctl.setOset_killCc (c : Ctl) (n : Nat) (x : OSet) : (c.setOset n x).killCc = c.killCc := rfl
@[simp] theorem Ctl.setOset_swap (c : Ctl) (n : Nat) (x : OSet) : (c.setOset n x).swap = c.swap := rfl
@[simp] theorem Ctl.setOset_swapCc (c : Ctl) (n : Nat) (x : OSet) : (c.setOset n x).swapCc = c.swapCc := rfl
@[simp] theorem Ctl.setOset_wbq (c : Ctl) (n : Nat) (x : OSet) : (c.setOset n x).wbq = c.wbq := rfl
@[simp] theorem Ctl.setOset_wbNew (c : Ctl) (n : Nat) (x : OSet) : (c.setOset n x).wbNew = c.wbNew := rfl
@[simp] theorem Ctl.setOset_logq (c : Ctl) (n : Nat) (x : OSet) : (c.setOset n x).logq = c.logq := rfl
@[simp] theorem Ctl.setOset_fills (c : Ctl) (n : Nat) (x : OSet) : (c.setOset n x).fills = c.fills := rfl
@[simp] theorem Ctl.setOset_scrubs (c : Ctl) (n : Nat) (x : OSet) : (c.setOset n x).scrubs = c.scrubs := rfl
@[simp] theorem Ctl.setOset_lapCorr (c : Ctl) (n : Nat) (x : OSet) : (c.setOset n x).lapCorr = c.lapCorr := rfl
@[simp] theorem Ctl.setOset_lapTold (c : Ctl) (n : Nat) (x : OSet) : (c.setOset n x).lapTold = c.lapTold := rfl
@[simp] theorem Ctl.setOset_marches (c : Ctl) (n : Nat) (x : OSet) : (c.setOset n x).marches = c.marches := rfl
@[simp] theorem Ctl.setOset_unders (c : Ctl) (n : Nat) (x : OSet) : (c.setOset n x).unders = c.unders := rfl
@[simp] theorem Ctl.setOset_fenced (c : Ctl) (n : Nat) (x : OSet) : (c.setOset n x).fenced = c.fenced := rfl
@[simp] theorem Ctl.setOset_strikes (c : Ctl) (n : Nat) (x : OSet) : (c.setOset n x).strikes = c.strikes := rfl
@[simp] theorem Ctl.setOset_power (c : Ctl) (n : Nat) (x : OSet) : (c.setOset n x).power = c.power := rfl
@[simp] theorem Ctl.setOset_faults (c : Ctl) (n : Nat) (x : OSet) : (c.setOset n x).faults = c.faults := rfl
@[simp] theorem Ctl.setOset_time (c : Ctl) (n : Nat) (x : OSet) : (c.setOset n x).time = c.time := rfl
@[simp] theorem Ctl.setOset_audit (c : Ctl) (n : Nat) (x : OSet) : (c.setOset n x).audit = c.audit := rfl
@[simp] theorem Ctl.setOset_door (c : Ctl) (n : Nat) (x : OSet) : (c.setOset n x).door = c.door := rfl
@[simp] theorem Ctl.setOset_cRsp (c : Ctl) (n : Nat) (x : OSet) : (c.setOset n x).cRsp = c.cRsp := rfl
@[simp] theorem Ctl.setOset_cReqs (c : Ctl) (n : Nat) (x : OSet) : (c.setOset n x).cReqs = c.cReqs := rfl
@[simp] theorem Ctl.setOset_cTurn (c : Ctl) (n : Nat) (x : OSet) : (c.setOset n x).cTurn = c.cTurn := rfl
@[simp] theorem Ctl.setOset_cReady (c : Ctl) (n : Nat) (x : OSet) : (c.setOset n x).cReady = c.cReady := rfl
@[simp] theorem Ctl.setOset_free (c : Ctl) (n : Nat) (x : OSet) : (c.setOset n x).free = c.free := rfl
@[simp] theorem Ctl.oset_setOset_same (c : Ctl) (n : Nat) (x : OSet) : (c.setOset n x).oset n = x := Tab.get_set_same _ _ _ _
theorem Ctl.oset_setOset_ne (c : Ctl) {n m : Nat} (h : m ≠ n) (x : OSet) : (c.setOset n x).oset m = c.oset m := Tab.get_set_ne _ _ _ h _
@[simp] theorem Ctl.setOset_reg (c : Ctl) (n : Nat) (x : OSet) (o : Nat) : (c.setOset n x).reg o = c.reg o := rfl
@[simp] theorem Ctl.setOset_fld (c : Ctl) (n : Nat) (x : OSet) (o : Nat) (f : FieldPos) : (c.setOset n x).fld o f = c.fld o f := rfl

/-! ### setUnder -/

@[simp] theorem Ctl.setUnder_regs (c : Ctl) (n : Nat) (x : Understudy) : (c.setUnder n x).regs = c.regs := rfl
@[simp] theorem Ctl.setUnder_notes (c : Ctl) (n : Nat) (x : Understudy) : (c.setUnder n x).notes = c.notes := rfl
@[simp] theorem Ctl.setUnder_sysReady (c : Ctl) (n : Nat) (x : Understudy) : (c.setUnder n x).sysReady = c.sysReady := rfl
@[simp] theorem Ctl.setUnder_everReady (c : Ctl) (n : Nat) (x : Understudy) : (c.setUnder n x).everReady = c.everReady := rfl
@[simp] theorem Ctl.setUnder_clk (c : Ctl) (n : Nat) (x : Understudy) : (c.setUnder n x).clk = c.clk := rfl
@[simp] theorem Ctl.setUnder_boot (c : Ctl) (n : Nat) (x : Understudy) : (c.setUnder n x).boot = c.boot := rfl
@[simp] theorem Ctl.setUnder_store (c : Ctl) (n : Nat) (x : Understudy) : (c.setUnder n x).store = c.store := rfl
@[simp] theorem Ctl.setUnder_storeSeen (c : Ctl) (n : Nat) (x : Understudy) : (c.setUnder n x).storeSeen = c.storeSeen := rfl
@[simp] theorem Ctl.setUnder_storeFix (c : Ctl) (n : Nat) (x : Understudy) : (c.setUnder n x).storeFix = c.storeFix := rfl
@[simp] theorem Ctl.setUnder_seqs (c : Ctl) (n : Nat) (x : Understudy) : (c.setUnder n x).seqs = c.seqs := rfl
@[simp] theorem Ctl.setUnder_groups (c : Ctl) (n : Nat) (x : Understudy) : (c.setUnder n x).groups = c.groups := rfl
@[simp] theorem Ctl.setUnder_rdOut (c : Ctl) (n : Nat) (x : Understudy) : (c.setUnder n x).rdOut = c.rdOut := rfl
@[simp] theorem Ctl.setUnder_stOut (c : Ctl) (n : Nat) (x : Understudy) : (c.setUnder n x).stOut = c.stOut := rfl
@[simp] theorem Ctl.setUnder_sOut (c : Ctl) (n : Nat) (x : Understudy) : (c.setUnder n x).sOut = c.sOut := rfl
@[simp] theorem Ctl.setUnder_cntHist (c : Ctl) (n : Nat) (x : Understudy) : (c.setUnder n x).cntHist = c.cntHist := rfl
@[simp] theorem Ctl.setUnder_curtains (c : Ctl) (n : Nat) (x : Understudy) : (c.setUnder n x).curtains = c.curtains := rfl
@[simp] theorem Ctl.setUnder_ctxs (c : Ctl) (n : Nat) (x : Understudy) : (c.setUnder n x).ctxs = c.ctxs := rfl
@[simp] theorem Ctl.setUnder_osets (c : Ctl) (n : Nat) (x : Understudy) : (c.setUnder n x).osets = c.osets := rfl
@[simp] theorem Ctl.setUnder_dlTold (c : Ctl) (n : Nat) (x : Understudy) : (c.setUnder n x).dlTold = c.dlTold := rfl
@[simp] theorem Ctl.setUnder_sports (c : Ctl) (n : Nat) (x : Understudy) : (c.setUnder n x).sports = c.sports := rfl
@[simp] theorem Ctl.setUnder_landed (c : Ctl) (n : Nat) (x : Understudy) : (c.setUnder n x).landed = c.landed := rfl
@[simp] theorem Ctl.setUnder_later (c : Ctl) (n : Nat) (x : Understudy) : (c.setUnder n x).later = c.later := rfl
@[simp] theorem Ctl.setUnder_areqs (c : Ctl) (n : Nat) (x : Understudy) : (c.setUnder n x).areqs = c.areqs := rfl
@[simp] theorem Ctl.setUnder_nextReq (c : Ctl) (n : Nat) (x : Understudy) : (c.setUnder n x).nextReq = c.nextReq := rfl
@[simp] theorem Ctl.setUnder_arbs (c : Ctl) (n : Nat) (x : Understudy) : (c.setUnder n x).arbs = c.arbs := rfl
@[simp] theorem Ctl.setUnder_busy (c : Ctl) (n : Nat) (x : Understudy) : (c.setUnder n x).busy = c.busy := rfl
@[simp] theorem Ctl.setUnder_links (c : Ctl) (n : Nat) (x : Understudy) : (c.setUnder n x).links = c.links := rfl
@[simp] theorem Ctl.setUnder_wins (c : Ctl) (n : Nat) (x : Understudy) : (c.setUnder n x).wins = c.wins := rfl
@[simp] theorem Ctl.setUnder_packets (c : Ctl) (n : Nat) (x : Understudy) : (c.setUnder n x).packets = c.packets := rfl
@[simp] theorem Ctl.setUnder_nextPkt (c : Ctl) (n : Nat) (x : Understudy) : (c.setUnder n x).nextPkt = c.nextPkt := rfl
@[simp] theorem Ctl.setUnder_sends (c : Ctl) (n : Nat) (x : Understudy) : (c.setUnder n x).sends = c.sends := rfl
@[simp] theorem Ctl.setUnder_twin (c : Ctl) (n : Nat) (x : Understudy) : (c.setUnder n x).twin = c.twin := rfl
@[simp] theorem Ctl.setUnder_reh (c : Ctl) (n : Nat) (x : Understudy) : (c.setUnder n x).reh = c.reh := rfl
@[simp] theorem Ctl.setUnder_fillPend (c : Ctl) (n : Nat) (x : Understudy) : (c.setUnder n x).fillPend = c.fillPend := rfl
@[simp] theorem Ctl.setUnder_refills (c : Ctl) (n : Nat) (x : Understudy) : (c.setUnder n x).refills = c.refills := rfl
@[simp] theorem Ctl.setUnder_handing (c : Ctl) (n : Nat) (x : Understudy) : (c.setUnder n x).handing = c.handing := rfl
@[simp] theorem Ctl.setUnder_handCc (c : Ctl) (n : Nat) (x : Understudy) : (c.setUnder n x).handCc = c.handCc := rfl
@[simp] theorem Ctl.setUnder_killCc (c : Ctl) (n : Nat) (x : Understudy) : (c.setUnder n x).killCc = c.killCc := rfl
@[simp] theorem Ctl.setUnder_swap (c : Ctl) (n : Nat) (x : Understudy) : (c.setUnder n x).swap = c.swap := rfl
@[simp] theorem Ctl.setUnder_swapCc (c : Ctl) (n : Nat) (x : Understudy) : (c.setUnder n x).swapCc = c.swapCc := rfl
@[simp] theorem Ctl.setUnder_wbq (c : Ctl) (n : Nat) (x : Understudy) : (c.setUnder n x).wbq = c.wbq := rfl
@[simp] theorem Ctl.setUnder_wbNew (c : Ctl) (n : Nat) (x : Understudy) : (c.setUnder n x).wbNew = c.wbNew := rfl
@[simp] theorem Ctl.setUnder_logq (c : Ctl) (n : Nat) (x : Understudy) : (c.setUnder n x).logq = c.logq := rfl
@[simp] theorem Ctl.setUnder_fills (c : Ctl) (n : Nat) (x : Understudy) : (c.setUnder n x).fills = c.fills := rfl
@[simp] theorem Ctl.setUnder_scrubs (c : Ctl) (n : Nat) (x : Understudy) : (c.setUnder n x).scrubs = c.scrubs := rfl
@[simp] theorem Ctl.setUnder_lapCorr (c : Ctl) (n : Nat) (x : Understudy) : (c.setUnder n x).lapCorr = c.lapCorr := rfl
@[simp] theorem Ctl.setUnder_lapTold (c : Ctl) (n : Nat) (x : Understudy) : (c.setUnder n x).lapTold = c.lapTold := rfl
@[simp] theorem Ctl.setUnder_marches (c : Ctl) (n : Nat) (x : Understudy) : (c.setUnder n x).marches = c.marches := rfl
@[simp] theorem Ctl.setUnder_fenced (c : Ctl) (n : Nat) (x : Understudy) : (c.setUnder n x).fenced = c.fenced := rfl
@[simp] theorem Ctl.setUnder_strikes (c : Ctl) (n : Nat) (x : Understudy) : (c.setUnder n x).strikes = c.strikes := rfl
@[simp] theorem Ctl.setUnder_power (c : Ctl) (n : Nat) (x : Understudy) : (c.setUnder n x).power = c.power := rfl
@[simp] theorem Ctl.setUnder_faults (c : Ctl) (n : Nat) (x : Understudy) : (c.setUnder n x).faults = c.faults := rfl
@[simp] theorem Ctl.setUnder_time (c : Ctl) (n : Nat) (x : Understudy) : (c.setUnder n x).time = c.time := rfl
@[simp] theorem Ctl.setUnder_audit (c : Ctl) (n : Nat) (x : Understudy) : (c.setUnder n x).audit = c.audit := rfl
@[simp] theorem Ctl.setUnder_door (c : Ctl) (n : Nat) (x : Understudy) : (c.setUnder n x).door = c.door := rfl
@[simp] theorem Ctl.setUnder_cRsp (c : Ctl) (n : Nat) (x : Understudy) : (c.setUnder n x).cRsp = c.cRsp := rfl
@[simp] theorem Ctl.setUnder_cReqs (c : Ctl) (n : Nat) (x : Understudy) : (c.setUnder n x).cReqs = c.cReqs := rfl
@[simp] theorem Ctl.setUnder_cTurn (c : Ctl) (n : Nat) (x : Understudy) : (c.setUnder n x).cTurn = c.cTurn := rfl
@[simp] theorem Ctl.setUnder_cReady (c : Ctl) (n : Nat) (x : Understudy) : (c.setUnder n x).cReady = c.cReady := rfl
@[simp] theorem Ctl.setUnder_free (c : Ctl) (n : Nat) (x : Understudy) : (c.setUnder n x).free = c.free := rfl
@[simp] theorem Ctl.under_setUnder_same (c : Ctl) (n : Nat) (x : Understudy) : (c.setUnder n x).under n = x := Tab.get_set_same _ _ _ _
theorem Ctl.under_setUnder_ne (c : Ctl) {n m : Nat} (h : m ≠ n) (x : Understudy) : (c.setUnder n x).under m = c.under m := Tab.get_set_ne _ _ _ h _
@[simp] theorem Ctl.setUnder_reg (c : Ctl) (n : Nat) (x : Understudy) (o : Nat) : (c.setUnder n x).reg o = c.reg o := rfl
@[simp] theorem Ctl.setUnder_fld (c : Ctl) (n : Nat) (x : Understudy) (o : Nat) (f : FieldPos) : (c.setUnder n x).fld o f = c.fld o f := rfl

/-! ### setBoot -/

@[simp] theorem Ctl.setBoot_regs (c : Ctl) (g : Boot → Boot) : (c.setBoot g).regs = c.regs := rfl
@[simp] theorem Ctl.setBoot_notes (c : Ctl) (g : Boot → Boot) : (c.setBoot g).notes = c.notes := rfl
@[simp] theorem Ctl.setBoot_sysReady (c : Ctl) (g : Boot → Boot) : (c.setBoot g).sysReady = c.sysReady := rfl
@[simp] theorem Ctl.setBoot_everReady (c : Ctl) (g : Boot → Boot) : (c.setBoot g).everReady = c.everReady := rfl
@[simp] theorem Ctl.setBoot_clk (c : Ctl) (g : Boot → Boot) : (c.setBoot g).clk = c.clk := rfl
@[simp] theorem Ctl.setBoot_store (c : Ctl) (g : Boot → Boot) : (c.setBoot g).store = c.store := rfl
@[simp] theorem Ctl.setBoot_storeSeen (c : Ctl) (g : Boot → Boot) : (c.setBoot g).storeSeen = c.storeSeen := rfl
@[simp] theorem Ctl.setBoot_storeFix (c : Ctl) (g : Boot → Boot) : (c.setBoot g).storeFix = c.storeFix := rfl
@[simp] theorem Ctl.setBoot_seqs (c : Ctl) (g : Boot → Boot) : (c.setBoot g).seqs = c.seqs := rfl
@[simp] theorem Ctl.setBoot_groups (c : Ctl) (g : Boot → Boot) : (c.setBoot g).groups = c.groups := rfl
@[simp] theorem Ctl.setBoot_rdOut (c : Ctl) (g : Boot → Boot) : (c.setBoot g).rdOut = c.rdOut := rfl
@[simp] theorem Ctl.setBoot_stOut (c : Ctl) (g : Boot → Boot) : (c.setBoot g).stOut = c.stOut := rfl
@[simp] theorem Ctl.setBoot_sOut (c : Ctl) (g : Boot → Boot) : (c.setBoot g).sOut = c.sOut := rfl
@[simp] theorem Ctl.setBoot_cntHist (c : Ctl) (g : Boot → Boot) : (c.setBoot g).cntHist = c.cntHist := rfl
@[simp] theorem Ctl.setBoot_curtains (c : Ctl) (g : Boot → Boot) : (c.setBoot g).curtains = c.curtains := rfl
@[simp] theorem Ctl.setBoot_ctxs (c : Ctl) (g : Boot → Boot) : (c.setBoot g).ctxs = c.ctxs := rfl
@[simp] theorem Ctl.setBoot_osets (c : Ctl) (g : Boot → Boot) : (c.setBoot g).osets = c.osets := rfl
@[simp] theorem Ctl.setBoot_dlTold (c : Ctl) (g : Boot → Boot) : (c.setBoot g).dlTold = c.dlTold := rfl
@[simp] theorem Ctl.setBoot_sports (c : Ctl) (g : Boot → Boot) : (c.setBoot g).sports = c.sports := rfl
@[simp] theorem Ctl.setBoot_landed (c : Ctl) (g : Boot → Boot) : (c.setBoot g).landed = c.landed := rfl
@[simp] theorem Ctl.setBoot_later (c : Ctl) (g : Boot → Boot) : (c.setBoot g).later = c.later := rfl
@[simp] theorem Ctl.setBoot_areqs (c : Ctl) (g : Boot → Boot) : (c.setBoot g).areqs = c.areqs := rfl
@[simp] theorem Ctl.setBoot_nextReq (c : Ctl) (g : Boot → Boot) : (c.setBoot g).nextReq = c.nextReq := rfl
@[simp] theorem Ctl.setBoot_arbs (c : Ctl) (g : Boot → Boot) : (c.setBoot g).arbs = c.arbs := rfl
@[simp] theorem Ctl.setBoot_busy (c : Ctl) (g : Boot → Boot) : (c.setBoot g).busy = c.busy := rfl
@[simp] theorem Ctl.setBoot_links (c : Ctl) (g : Boot → Boot) : (c.setBoot g).links = c.links := rfl
@[simp] theorem Ctl.setBoot_wins (c : Ctl) (g : Boot → Boot) : (c.setBoot g).wins = c.wins := rfl
@[simp] theorem Ctl.setBoot_packets (c : Ctl) (g : Boot → Boot) : (c.setBoot g).packets = c.packets := rfl
@[simp] theorem Ctl.setBoot_nextPkt (c : Ctl) (g : Boot → Boot) : (c.setBoot g).nextPkt = c.nextPkt := rfl
@[simp] theorem Ctl.setBoot_sends (c : Ctl) (g : Boot → Boot) : (c.setBoot g).sends = c.sends := rfl
@[simp] theorem Ctl.setBoot_twin (c : Ctl) (g : Boot → Boot) : (c.setBoot g).twin = c.twin := rfl
@[simp] theorem Ctl.setBoot_reh (c : Ctl) (g : Boot → Boot) : (c.setBoot g).reh = c.reh := rfl
@[simp] theorem Ctl.setBoot_fillPend (c : Ctl) (g : Boot → Boot) : (c.setBoot g).fillPend = c.fillPend := rfl
@[simp] theorem Ctl.setBoot_refills (c : Ctl) (g : Boot → Boot) : (c.setBoot g).refills = c.refills := rfl
@[simp] theorem Ctl.setBoot_handing (c : Ctl) (g : Boot → Boot) : (c.setBoot g).handing = c.handing := rfl
@[simp] theorem Ctl.setBoot_handCc (c : Ctl) (g : Boot → Boot) : (c.setBoot g).handCc = c.handCc := rfl
@[simp] theorem Ctl.setBoot_killCc (c : Ctl) (g : Boot → Boot) : (c.setBoot g).killCc = c.killCc := rfl
@[simp] theorem Ctl.setBoot_swap (c : Ctl) (g : Boot → Boot) : (c.setBoot g).swap = c.swap := rfl
@[simp] theorem Ctl.setBoot_swapCc (c : Ctl) (g : Boot → Boot) : (c.setBoot g).swapCc = c.swapCc := rfl
@[simp] theorem Ctl.setBoot_wbq (c : Ctl) (g : Boot → Boot) : (c.setBoot g).wbq = c.wbq := rfl
@[simp] theorem Ctl.setBoot_wbNew (c : Ctl) (g : Boot → Boot) : (c.setBoot g).wbNew = c.wbNew := rfl
@[simp] theorem Ctl.setBoot_logq (c : Ctl) (g : Boot → Boot) : (c.setBoot g).logq = c.logq := rfl
@[simp] theorem Ctl.setBoot_fills (c : Ctl) (g : Boot → Boot) : (c.setBoot g).fills = c.fills := rfl
@[simp] theorem Ctl.setBoot_scrubs (c : Ctl) (g : Boot → Boot) : (c.setBoot g).scrubs = c.scrubs := rfl
@[simp] theorem Ctl.setBoot_lapCorr (c : Ctl) (g : Boot → Boot) : (c.setBoot g).lapCorr = c.lapCorr := rfl
@[simp] theorem Ctl.setBoot_lapTold (c : Ctl) (g : Boot → Boot) : (c.setBoot g).lapTold = c.lapTold := rfl
@[simp] theorem Ctl.setBoot_marches (c : Ctl) (g : Boot → Boot) : (c.setBoot g).marches = c.marches := rfl
@[simp] theorem Ctl.setBoot_unders (c : Ctl) (g : Boot → Boot) : (c.setBoot g).unders = c.unders := rfl
@[simp] theorem Ctl.setBoot_fenced (c : Ctl) (g : Boot → Boot) : (c.setBoot g).fenced = c.fenced := rfl
@[simp] theorem Ctl.setBoot_strikes (c : Ctl) (g : Boot → Boot) : (c.setBoot g).strikes = c.strikes := rfl
@[simp] theorem Ctl.setBoot_power (c : Ctl) (g : Boot → Boot) : (c.setBoot g).power = c.power := rfl
@[simp] theorem Ctl.setBoot_faults (c : Ctl) (g : Boot → Boot) : (c.setBoot g).faults = c.faults := rfl
@[simp] theorem Ctl.setBoot_time (c : Ctl) (g : Boot → Boot) : (c.setBoot g).time = c.time := rfl
@[simp] theorem Ctl.setBoot_audit (c : Ctl) (g : Boot → Boot) : (c.setBoot g).audit = c.audit := rfl
@[simp] theorem Ctl.setBoot_door (c : Ctl) (g : Boot → Boot) : (c.setBoot g).door = c.door := rfl
@[simp] theorem Ctl.setBoot_cRsp (c : Ctl) (g : Boot → Boot) : (c.setBoot g).cRsp = c.cRsp := rfl
@[simp] theorem Ctl.setBoot_cReqs (c : Ctl) (g : Boot → Boot) : (c.setBoot g).cReqs = c.cReqs := rfl
@[simp] theorem Ctl.setBoot_cTurn (c : Ctl) (g : Boot → Boot) : (c.setBoot g).cTurn = c.cTurn := rfl
@[simp] theorem Ctl.setBoot_cReady (c : Ctl) (g : Boot → Boot) : (c.setBoot g).cReady = c.cReady := rfl
@[simp] theorem Ctl.setBoot_free (c : Ctl) (g : Boot → Boot) : (c.setBoot g).free = c.free := rfl
@[simp] theorem Ctl.setBoot_boot (c : Ctl) (g : Boot → Boot) : (c.setBoot g).boot = g c.boot := rfl
@[simp] theorem Ctl.setBoot_reg (c : Ctl) (g : Boot → Boot) (o : Nat) : (c.setBoot g).reg o = c.reg o := rfl
@[simp] theorem Ctl.setBoot_fld (c : Ctl) (g : Boot → Boot) (o : Nat) (f : FieldPos) : (c.setBoot g).fld o f = c.fld o f := rfl

/-! ### setPower -/

@[simp] theorem Ctl.setPower_regs (c : Ctl) (g : Power → Power) : (c.setPower g).regs = c.regs := rfl
@[simp] theorem Ctl.setPower_notes (c : Ctl) (g : Power → Power) : (c.setPower g).notes = c.notes := rfl
@[simp] theorem Ctl.setPower_sysReady (c : Ctl) (g : Power → Power) : (c.setPower g).sysReady = c.sysReady := rfl
@[simp] theorem Ctl.setPower_everReady (c : Ctl) (g : Power → Power) : (c.setPower g).everReady = c.everReady := rfl
@[simp] theorem Ctl.setPower_clk (c : Ctl) (g : Power → Power) : (c.setPower g).clk = c.clk := rfl
@[simp] theorem Ctl.setPower_boot (c : Ctl) (g : Power → Power) : (c.setPower g).boot = c.boot := rfl
@[simp] theorem Ctl.setPower_store (c : Ctl) (g : Power → Power) : (c.setPower g).store = c.store := rfl
@[simp] theorem Ctl.setPower_storeSeen (c : Ctl) (g : Power → Power) : (c.setPower g).storeSeen = c.storeSeen := rfl
@[simp] theorem Ctl.setPower_storeFix (c : Ctl) (g : Power → Power) : (c.setPower g).storeFix = c.storeFix := rfl
@[simp] theorem Ctl.setPower_seqs (c : Ctl) (g : Power → Power) : (c.setPower g).seqs = c.seqs := rfl
@[simp] theorem Ctl.setPower_groups (c : Ctl) (g : Power → Power) : (c.setPower g).groups = c.groups := rfl
@[simp] theorem Ctl.setPower_rdOut (c : Ctl) (g : Power → Power) : (c.setPower g).rdOut = c.rdOut := rfl
@[simp] theorem Ctl.setPower_stOut (c : Ctl) (g : Power → Power) : (c.setPower g).stOut = c.stOut := rfl
@[simp] theorem Ctl.setPower_sOut (c : Ctl) (g : Power → Power) : (c.setPower g).sOut = c.sOut := rfl
@[simp] theorem Ctl.setPower_cntHist (c : Ctl) (g : Power → Power) : (c.setPower g).cntHist = c.cntHist := rfl
@[simp] theorem Ctl.setPower_curtains (c : Ctl) (g : Power → Power) : (c.setPower g).curtains = c.curtains := rfl
@[simp] theorem Ctl.setPower_ctxs (c : Ctl) (g : Power → Power) : (c.setPower g).ctxs = c.ctxs := rfl
@[simp] theorem Ctl.setPower_osets (c : Ctl) (g : Power → Power) : (c.setPower g).osets = c.osets := rfl
@[simp] theorem Ctl.setPower_dlTold (c : Ctl) (g : Power → Power) : (c.setPower g).dlTold = c.dlTold := rfl
@[simp] theorem Ctl.setPower_sports (c : Ctl) (g : Power → Power) : (c.setPower g).sports = c.sports := rfl
@[simp] theorem Ctl.setPower_landed (c : Ctl) (g : Power → Power) : (c.setPower g).landed = c.landed := rfl
@[simp] theorem Ctl.setPower_later (c : Ctl) (g : Power → Power) : (c.setPower g).later = c.later := rfl
@[simp] theorem Ctl.setPower_areqs (c : Ctl) (g : Power → Power) : (c.setPower g).areqs = c.areqs := rfl
@[simp] theorem Ctl.setPower_nextReq (c : Ctl) (g : Power → Power) : (c.setPower g).nextReq = c.nextReq := rfl
@[simp] theorem Ctl.setPower_arbs (c : Ctl) (g : Power → Power) : (c.setPower g).arbs = c.arbs := rfl
@[simp] theorem Ctl.setPower_busy (c : Ctl) (g : Power → Power) : (c.setPower g).busy = c.busy := rfl
@[simp] theorem Ctl.setPower_links (c : Ctl) (g : Power → Power) : (c.setPower g).links = c.links := rfl
@[simp] theorem Ctl.setPower_wins (c : Ctl) (g : Power → Power) : (c.setPower g).wins = c.wins := rfl
@[simp] theorem Ctl.setPower_packets (c : Ctl) (g : Power → Power) : (c.setPower g).packets = c.packets := rfl
@[simp] theorem Ctl.setPower_nextPkt (c : Ctl) (g : Power → Power) : (c.setPower g).nextPkt = c.nextPkt := rfl
@[simp] theorem Ctl.setPower_sends (c : Ctl) (g : Power → Power) : (c.setPower g).sends = c.sends := rfl
@[simp] theorem Ctl.setPower_twin (c : Ctl) (g : Power → Power) : (c.setPower g).twin = c.twin := rfl
@[simp] theorem Ctl.setPower_reh (c : Ctl) (g : Power → Power) : (c.setPower g).reh = c.reh := rfl
@[simp] theorem Ctl.setPower_fillPend (c : Ctl) (g : Power → Power) : (c.setPower g).fillPend = c.fillPend := rfl
@[simp] theorem Ctl.setPower_refills (c : Ctl) (g : Power → Power) : (c.setPower g).refills = c.refills := rfl
@[simp] theorem Ctl.setPower_handing (c : Ctl) (g : Power → Power) : (c.setPower g).handing = c.handing := rfl
@[simp] theorem Ctl.setPower_handCc (c : Ctl) (g : Power → Power) : (c.setPower g).handCc = c.handCc := rfl
@[simp] theorem Ctl.setPower_killCc (c : Ctl) (g : Power → Power) : (c.setPower g).killCc = c.killCc := rfl
@[simp] theorem Ctl.setPower_swap (c : Ctl) (g : Power → Power) : (c.setPower g).swap = c.swap := rfl
@[simp] theorem Ctl.setPower_swapCc (c : Ctl) (g : Power → Power) : (c.setPower g).swapCc = c.swapCc := rfl
@[simp] theorem Ctl.setPower_wbq (c : Ctl) (g : Power → Power) : (c.setPower g).wbq = c.wbq := rfl
@[simp] theorem Ctl.setPower_wbNew (c : Ctl) (g : Power → Power) : (c.setPower g).wbNew = c.wbNew := rfl
@[simp] theorem Ctl.setPower_logq (c : Ctl) (g : Power → Power) : (c.setPower g).logq = c.logq := rfl
@[simp] theorem Ctl.setPower_fills (c : Ctl) (g : Power → Power) : (c.setPower g).fills = c.fills := rfl
@[simp] theorem Ctl.setPower_scrubs (c : Ctl) (g : Power → Power) : (c.setPower g).scrubs = c.scrubs := rfl
@[simp] theorem Ctl.setPower_lapCorr (c : Ctl) (g : Power → Power) : (c.setPower g).lapCorr = c.lapCorr := rfl
@[simp] theorem Ctl.setPower_lapTold (c : Ctl) (g : Power → Power) : (c.setPower g).lapTold = c.lapTold := rfl
@[simp] theorem Ctl.setPower_marches (c : Ctl) (g : Power → Power) : (c.setPower g).marches = c.marches := rfl
@[simp] theorem Ctl.setPower_unders (c : Ctl) (g : Power → Power) : (c.setPower g).unders = c.unders := rfl
@[simp] theorem Ctl.setPower_fenced (c : Ctl) (g : Power → Power) : (c.setPower g).fenced = c.fenced := rfl
@[simp] theorem Ctl.setPower_strikes (c : Ctl) (g : Power → Power) : (c.setPower g).strikes = c.strikes := rfl
@[simp] theorem Ctl.setPower_faults (c : Ctl) (g : Power → Power) : (c.setPower g).faults = c.faults := rfl
@[simp] theorem Ctl.setPower_time (c : Ctl) (g : Power → Power) : (c.setPower g).time = c.time := rfl
@[simp] theorem Ctl.setPower_audit (c : Ctl) (g : Power → Power) : (c.setPower g).audit = c.audit := rfl
@[simp] theorem Ctl.setPower_door (c : Ctl) (g : Power → Power) : (c.setPower g).door = c.door := rfl
@[simp] theorem Ctl.setPower_cRsp (c : Ctl) (g : Power → Power) : (c.setPower g).cRsp = c.cRsp := rfl
@[simp] theorem Ctl.setPower_cReqs (c : Ctl) (g : Power → Power) : (c.setPower g).cReqs = c.cReqs := rfl
@[simp] theorem Ctl.setPower_cTurn (c : Ctl) (g : Power → Power) : (c.setPower g).cTurn = c.cTurn := rfl
@[simp] theorem Ctl.setPower_cReady (c : Ctl) (g : Power → Power) : (c.setPower g).cReady = c.cReady := rfl
@[simp] theorem Ctl.setPower_free (c : Ctl) (g : Power → Power) : (c.setPower g).free = c.free := rfl
@[simp] theorem Ctl.setPower_power (c : Ctl) (g : Power → Power) : (c.setPower g).power = g c.power := rfl
@[simp] theorem Ctl.setPower_reg (c : Ctl) (g : Power → Power) (o : Nat) : (c.setPower g).reg o = c.reg o := rfl
@[simp] theorem Ctl.setPower_fld (c : Ctl) (g : Power → Power) (o : Nat) (f : FieldPos) : (c.setPower g).fld o f = c.fld o f := rfl

/-! ### setFill -/

@[simp] theorem Ctl.setFill_regs (c : Ctl) (pb : Nat) (x : Option BankFill) : (c.setFill pb x).regs = c.regs := rfl
@[simp] theorem Ctl.setFill_notes (c : Ctl) (pb : Nat) (x : Option BankFill) : (c.setFill pb x).notes = c.notes := rfl
@[simp] theorem Ctl.setFill_sysReady (c : Ctl) (pb : Nat) (x : Option BankFill) : (c.setFill pb x).sysReady = c.sysReady := rfl
@[simp] theorem Ctl.setFill_everReady (c : Ctl) (pb : Nat) (x : Option BankFill) : (c.setFill pb x).everReady = c.everReady := rfl
@[simp] theorem Ctl.setFill_clk (c : Ctl) (pb : Nat) (x : Option BankFill) : (c.setFill pb x).clk = c.clk := rfl
@[simp] theorem Ctl.setFill_boot (c : Ctl) (pb : Nat) (x : Option BankFill) : (c.setFill pb x).boot = c.boot := rfl
@[simp] theorem Ctl.setFill_store (c : Ctl) (pb : Nat) (x : Option BankFill) : (c.setFill pb x).store = c.store := rfl
@[simp] theorem Ctl.setFill_storeSeen (c : Ctl) (pb : Nat) (x : Option BankFill) : (c.setFill pb x).storeSeen = c.storeSeen := rfl
@[simp] theorem Ctl.setFill_storeFix (c : Ctl) (pb : Nat) (x : Option BankFill) : (c.setFill pb x).storeFix = c.storeFix := rfl
@[simp] theorem Ctl.setFill_seqs (c : Ctl) (pb : Nat) (x : Option BankFill) : (c.setFill pb x).seqs = c.seqs := rfl
@[simp] theorem Ctl.setFill_groups (c : Ctl) (pb : Nat) (x : Option BankFill) : (c.setFill pb x).groups = c.groups := rfl
@[simp] theorem Ctl.setFill_rdOut (c : Ctl) (pb : Nat) (x : Option BankFill) : (c.setFill pb x).rdOut = c.rdOut := rfl
@[simp] theorem Ctl.setFill_stOut (c : Ctl) (pb : Nat) (x : Option BankFill) : (c.setFill pb x).stOut = c.stOut := rfl
@[simp] theorem Ctl.setFill_sOut (c : Ctl) (pb : Nat) (x : Option BankFill) : (c.setFill pb x).sOut = c.sOut := rfl
@[simp] theorem Ctl.setFill_cntHist (c : Ctl) (pb : Nat) (x : Option BankFill) : (c.setFill pb x).cntHist = c.cntHist := rfl
@[simp] theorem Ctl.setFill_curtains (c : Ctl) (pb : Nat) (x : Option BankFill) : (c.setFill pb x).curtains = c.curtains := rfl
@[simp] theorem Ctl.setFill_ctxs (c : Ctl) (pb : Nat) (x : Option BankFill) : (c.setFill pb x).ctxs = c.ctxs := rfl
@[simp] theorem Ctl.setFill_osets (c : Ctl) (pb : Nat) (x : Option BankFill) : (c.setFill pb x).osets = c.osets := rfl
@[simp] theorem Ctl.setFill_dlTold (c : Ctl) (pb : Nat) (x : Option BankFill) : (c.setFill pb x).dlTold = c.dlTold := rfl
@[simp] theorem Ctl.setFill_sports (c : Ctl) (pb : Nat) (x : Option BankFill) : (c.setFill pb x).sports = c.sports := rfl
@[simp] theorem Ctl.setFill_landed (c : Ctl) (pb : Nat) (x : Option BankFill) : (c.setFill pb x).landed = c.landed := rfl
@[simp] theorem Ctl.setFill_later (c : Ctl) (pb : Nat) (x : Option BankFill) : (c.setFill pb x).later = c.later := rfl
@[simp] theorem Ctl.setFill_areqs (c : Ctl) (pb : Nat) (x : Option BankFill) : (c.setFill pb x).areqs = c.areqs := rfl
@[simp] theorem Ctl.setFill_nextReq (c : Ctl) (pb : Nat) (x : Option BankFill) : (c.setFill pb x).nextReq = c.nextReq := rfl
@[simp] theorem Ctl.setFill_arbs (c : Ctl) (pb : Nat) (x : Option BankFill) : (c.setFill pb x).arbs = c.arbs := rfl
@[simp] theorem Ctl.setFill_busy (c : Ctl) (pb : Nat) (x : Option BankFill) : (c.setFill pb x).busy = c.busy := rfl
@[simp] theorem Ctl.setFill_links (c : Ctl) (pb : Nat) (x : Option BankFill) : (c.setFill pb x).links = c.links := rfl
@[simp] theorem Ctl.setFill_wins (c : Ctl) (pb : Nat) (x : Option BankFill) : (c.setFill pb x).wins = c.wins := rfl
@[simp] theorem Ctl.setFill_packets (c : Ctl) (pb : Nat) (x : Option BankFill) : (c.setFill pb x).packets = c.packets := rfl
@[simp] theorem Ctl.setFill_nextPkt (c : Ctl) (pb : Nat) (x : Option BankFill) : (c.setFill pb x).nextPkt = c.nextPkt := rfl
@[simp] theorem Ctl.setFill_sends (c : Ctl) (pb : Nat) (x : Option BankFill) : (c.setFill pb x).sends = c.sends := rfl
@[simp] theorem Ctl.setFill_twin (c : Ctl) (pb : Nat) (x : Option BankFill) : (c.setFill pb x).twin = c.twin := rfl
@[simp] theorem Ctl.setFill_reh (c : Ctl) (pb : Nat) (x : Option BankFill) : (c.setFill pb x).reh = c.reh := rfl
@[simp] theorem Ctl.setFill_fillPend (c : Ctl) (pb : Nat) (x : Option BankFill) : (c.setFill pb x).fillPend = c.fillPend := rfl
@[simp] theorem Ctl.setFill_refills (c : Ctl) (pb : Nat) (x : Option BankFill) : (c.setFill pb x).refills = c.refills := rfl
@[simp] theorem Ctl.setFill_handing (c : Ctl) (pb : Nat) (x : Option BankFill) : (c.setFill pb x).handing = c.handing := rfl
@[simp] theorem Ctl.setFill_handCc (c : Ctl) (pb : Nat) (x : Option BankFill) : (c.setFill pb x).handCc = c.handCc := rfl
@[simp] theorem Ctl.setFill_killCc (c : Ctl) (pb : Nat) (x : Option BankFill) : (c.setFill pb x).killCc = c.killCc := rfl
@[simp] theorem Ctl.setFill_swap (c : Ctl) (pb : Nat) (x : Option BankFill) : (c.setFill pb x).swap = c.swap := rfl
@[simp] theorem Ctl.setFill_swapCc (c : Ctl) (pb : Nat) (x : Option BankFill) : (c.setFill pb x).swapCc = c.swapCc := rfl
@[simp] theorem Ctl.setFill_wbq (c : Ctl) (pb : Nat) (x : Option BankFill) : (c.setFill pb x).wbq = c.wbq := rfl
@[simp] theorem Ctl.setFill_wbNew (c : Ctl) (pb : Nat) (x : Option BankFill) : (c.setFill pb x).wbNew = c.wbNew := rfl
@[simp] theorem Ctl.setFill_logq (c : Ctl) (pb : Nat) (x : Option BankFill) : (c.setFill pb x).logq = c.logq := rfl
@[simp] theorem Ctl.setFill_scrubs (c : Ctl) (pb : Nat) (x : Option BankFill) : (c.setFill pb x).scrubs = c.scrubs := rfl
@[simp] theorem Ctl.setFill_lapCorr (c : Ctl) (pb : Nat) (x : Option BankFill) : (c.setFill pb x).lapCorr = c.lapCorr := rfl
@[simp] theorem Ctl.setFill_lapTold (c : Ctl) (pb : Nat) (x : Option BankFill) : (c.setFill pb x).lapTold = c.lapTold := rfl
@[simp] theorem Ctl.setFill_marches (c : Ctl) (pb : Nat) (x : Option BankFill) : (c.setFill pb x).marches = c.marches := rfl
@[simp] theorem Ctl.setFill_unders (c : Ctl) (pb : Nat) (x : Option BankFill) : (c.setFill pb x).unders = c.unders := rfl
@[simp] theorem Ctl.setFill_fenced (c : Ctl) (pb : Nat) (x : Option BankFill) : (c.setFill pb x).fenced = c.fenced := rfl
@[simp] theorem Ctl.setFill_strikes (c : Ctl) (pb : Nat) (x : Option BankFill) : (c.setFill pb x).strikes = c.strikes := rfl
@[simp] theorem Ctl.setFill_power (c : Ctl) (pb : Nat) (x : Option BankFill) : (c.setFill pb x).power = c.power := rfl
@[simp] theorem Ctl.setFill_faults (c : Ctl) (pb : Nat) (x : Option BankFill) : (c.setFill pb x).faults = c.faults := rfl
@[simp] theorem Ctl.setFill_time (c : Ctl) (pb : Nat) (x : Option BankFill) : (c.setFill pb x).time = c.time := rfl
@[simp] theorem Ctl.setFill_audit (c : Ctl) (pb : Nat) (x : Option BankFill) : (c.setFill pb x).audit = c.audit := rfl
@[simp] theorem Ctl.setFill_door (c : Ctl) (pb : Nat) (x : Option BankFill) : (c.setFill pb x).door = c.door := rfl
@[simp] theorem Ctl.setFill_cRsp (c : Ctl) (pb : Nat) (x : Option BankFill) : (c.setFill pb x).cRsp = c.cRsp := rfl
@[simp] theorem Ctl.setFill_cReqs (c : Ctl) (pb : Nat) (x : Option BankFill) : (c.setFill pb x).cReqs = c.cReqs := rfl
@[simp] theorem Ctl.setFill_cTurn (c : Ctl) (pb : Nat) (x : Option BankFill) : (c.setFill pb x).cTurn = c.cTurn := rfl
@[simp] theorem Ctl.setFill_cReady (c : Ctl) (pb : Nat) (x : Option BankFill) : (c.setFill pb x).cReady = c.cReady := rfl
@[simp] theorem Ctl.setFill_free (c : Ctl) (pb : Nat) (x : Option BankFill) : (c.setFill pb x).free = c.free := rfl
@[simp] theorem Ctl.fillOf_setFill_same (c : Ctl) (pb : Nat) (x : Option BankFill) : (c.setFill pb x).fillOf pb = x := Tab.get_set_same _ _ _ _

/-! ### The units' tables through register writes -/

@[simp] theorem Ctl.seq_setReg (c : Ctl) (o : Nat) (v : Word) (n : Nat) : (c.setReg o v).seq n = c.seq n := rfl
@[simp] theorem Ctl.seq_setFld (c : Ctl) (o : Nat) (f : FieldPos) (x : Nat) (n : Nat) : (c.setFld o f x).seq n = c.seq n := rfl
@[simp] theorem Ctl.seq_satAdd (c : Ctl) (o : Nat) (f : FieldPos) (x : Nat) (n : Nat) : (c.satAdd o f x).seq n = c.seq n := rfl
@[simp] theorem Ctl.seq_flag (c : Ctl) (o : Nat) (f : FieldPos) (n : Nat) : (c.flag o f).seq n = c.seq n := rfl
@[simp] theorem Ctl.group_setReg (c : Ctl) (o : Nat) (v : Word) (n : Nat) : (c.setReg o v).group n = c.group n := rfl
@[simp] theorem Ctl.group_setFld (c : Ctl) (o : Nat) (f : FieldPos) (x : Nat) (n : Nat) : (c.setFld o f x).group n = c.group n := rfl
@[simp] theorem Ctl.group_satAdd (c : Ctl) (o : Nat) (f : FieldPos) (x : Nat) (n : Nat) : (c.satAdd o f x).group n = c.group n := rfl
@[simp] theorem Ctl.group_flag (c : Ctl) (o : Nat) (f : FieldPos) (n : Nat) : (c.flag o f).group n = c.group n := rfl
@[simp] theorem Ctl.ctx_setReg (c : Ctl) (o : Nat) (v : Word) (n : Nat) : (c.setReg o v).ctx n = c.ctx n := rfl
@[simp] theorem Ctl.ctx_setFld (c : Ctl) (o : Nat) (f : FieldPos) (x : Nat) (n : Nat) : (c.setFld o f x).ctx n = c.ctx n := rfl
@[simp] theorem Ctl.ctx_satAdd (c : Ctl) (o : Nat) (f : FieldPos) (x : Nat) (n : Nat) : (c.satAdd o f x).ctx n = c.ctx n := rfl
@[simp] theorem Ctl.ctx_flag (c : Ctl) (o : Nat) (f : FieldPos) (n : Nat) : (c.flag o f).ctx n = c.ctx n := rfl
@[simp] theorem Ctl.sport_setReg (c : Ctl) (o : Nat) (v : Word) (n : Nat) : (c.setReg o v).sport n = c.sport n := rfl
@[simp] theorem Ctl.sport_setFld (c : Ctl) (o : Nat) (f : FieldPos) (x : Nat) (n : Nat) : (c.setFld o f x).sport n = c.sport n := rfl
@[simp] theorem Ctl.sport_satAdd (c : Ctl) (o : Nat) (f : FieldPos) (x : Nat) (n : Nat) : (c.satAdd o f x).sport n = c.sport n := rfl
@[simp] theorem Ctl.sport_flag (c : Ctl) (o : Nat) (f : FieldPos) (n : Nat) : (c.flag o f).sport n = c.sport n := rfl
@[simp] theorem Ctl.sout_setReg (c : Ctl) (o : Nat) (v : Word) (n : Nat) : (c.setReg o v).sout n = c.sout n := rfl
@[simp] theorem Ctl.sout_setFld (c : Ctl) (o : Nat) (f : FieldPos) (x : Nat) (n : Nat) : (c.setFld o f x).sout n = c.sout n := rfl
@[simp] theorem Ctl.sout_satAdd (c : Ctl) (o : Nat) (f : FieldPos) (x : Nat) (n : Nat) : (c.satAdd o f x).sout n = c.sout n := rfl
@[simp] theorem Ctl.sout_flag (c : Ctl) (o : Nat) (f : FieldPos) (n : Nat) : (c.flag o f).sout n = c.sout n := rfl
@[simp] theorem Ctl.link_setReg (c : Ctl) (o : Nat) (v : Word) (n : Nat) : (c.setReg o v).link n = c.link n := rfl
@[simp] theorem Ctl.link_setFld (c : Ctl) (o : Nat) (f : FieldPos) (x : Nat) (n : Nat) : (c.setFld o f x).link n = c.link n := rfl
@[simp] theorem Ctl.link_satAdd (c : Ctl) (o : Nat) (f : FieldPos) (x : Nat) (n : Nat) : (c.satAdd o f x).link n = c.link n := rfl
@[simp] theorem Ctl.link_flag (c : Ctl) (o : Nat) (f : FieldPos) (n : Nat) : (c.flag o f).link n = c.link n := rfl
@[simp] theorem Ctl.win_setReg (c : Ctl) (o : Nat) (v : Word) (n : Nat) : (c.setReg o v).win n = c.win n := rfl
@[simp] theorem Ctl.win_setFld (c : Ctl) (o : Nat) (f : FieldPos) (x : Nat) (n : Nat) : (c.setFld o f x).win n = c.win n := rfl
@[simp] theorem Ctl.win_satAdd (c : Ctl) (o : Nat) (f : FieldPos) (x : Nat) (n : Nat) : (c.satAdd o f x).win n = c.win n := rfl
@[simp] theorem Ctl.win_flag (c : Ctl) (o : Nat) (f : FieldPos) (n : Nat) : (c.flag o f).win n = c.win n := rfl
@[simp] theorem Ctl.send_setReg (c : Ctl) (o : Nat) (v : Word) (n : Nat) : (c.setReg o v).send n = c.send n := rfl
@[simp] theorem Ctl.send_setFld (c : Ctl) (o : Nat) (f : FieldPos) (x : Nat) (n : Nat) : (c.setFld o f x).send n = c.send n := rfl
@[simp] theorem Ctl.send_satAdd (c : Ctl) (o : Nat) (f : FieldPos) (x : Nat) (n : Nat) : (c.satAdd o f x).send n = c.send n := rfl
@[simp] theorem Ctl.send_flag (c : Ctl) (o : Nat) (f : FieldPos) (n : Nat) : (c.flag o f).send n = c.send n := rfl
@[simp] theorem Ctl.curtain_setReg (c : Ctl) (o : Nat) (v : Word) (n : Nat) : (c.setReg o v).curtain n = c.curtain n := rfl
@[simp] theorem Ctl.curtain_setFld (c : Ctl) (o : Nat) (f : FieldPos) (x : Nat) (n : Nat) : (c.setFld o f x).curtain n = c.curtain n := rfl
@[simp] theorem Ctl.curtain_satAdd (c : Ctl) (o : Nat) (f : FieldPos) (x : Nat) (n : Nat) : (c.satAdd o f x).curtain n = c.curtain n := rfl
@[simp] theorem Ctl.curtain_flag (c : Ctl) (o : Nat) (f : FieldPos) (n : Nat) : (c.flag o f).curtain n = c.curtain n := rfl
@[simp] theorem Ctl.arb_setReg (c : Ctl) (o : Nat) (v : Word) (n : Nat) : (c.setReg o v).arb n = c.arb n := rfl
@[simp] theorem Ctl.arb_setFld (c : Ctl) (o : Nat) (f : FieldPos) (x : Nat) (n : Nat) : (c.setFld o f x).arb n = c.arb n := rfl
@[simp] theorem Ctl.arb_satAdd (c : Ctl) (o : Nat) (f : FieldPos) (x : Nat) (n : Nat) : (c.satAdd o f x).arb n = c.arb n := rfl
@[simp] theorem Ctl.arb_flag (c : Ctl) (o : Nat) (f : FieldPos) (n : Nat) : (c.flag o f).arb n = c.arb n := rfl
@[simp] theorem Ctl.oset_setReg (c : Ctl) (o : Nat) (v : Word) (n : Nat) : (c.setReg o v).oset n = c.oset n := rfl
@[simp] theorem Ctl.oset_setFld (c : Ctl) (o : Nat) (f : FieldPos) (x : Nat) (n : Nat) : (c.setFld o f x).oset n = c.oset n := rfl
@[simp] theorem Ctl.oset_satAdd (c : Ctl) (o : Nat) (f : FieldPos) (x : Nat) (n : Nat) : (c.satAdd o f x).oset n = c.oset n := rfl
@[simp] theorem Ctl.oset_flag (c : Ctl) (o : Nat) (f : FieldPos) (n : Nat) : (c.flag o f).oset n = c.oset n := rfl
@[simp] theorem Ctl.under_setReg (c : Ctl) (o : Nat) (v : Word) (n : Nat) : (c.setReg o v).under n = c.under n := rfl
@[simp] theorem Ctl.under_setFld (c : Ctl) (o : Nat) (f : FieldPos) (x : Nat) (n : Nat) : (c.setFld o f x).under n = c.under n := rfl
@[simp] theorem Ctl.under_satAdd (c : Ctl) (o : Nat) (f : FieldPos) (x : Nat) (n : Nat) : (c.satAdd o f x).under n = c.under n := rfl
@[simp] theorem Ctl.under_flag (c : Ctl) (o : Nat) (f : FieldPos) (n : Nat) : (c.flag o f).under n = c.under n := rfl
@[simp] theorem Ctl.bc_setReg (c : Ctl) (o : Nat) (v : Word) : (c.setReg o v).bc = c.bc := rfl
@[simp] theorem Ctl.bc_setFld (c : Ctl) (o : Nat) (f : FieldPos) (x : Nat) : (c.setFld o f x).bc = c.bc := rfl
@[simp] theorem Ctl.bc_satAdd (c : Ctl) (o : Nat) (f : FieldPos) (x : Nat) : (c.satAdd o f x).bc = c.bc := rfl
@[simp] theorem Ctl.bc_flag (c : Ctl) (o : Nat) (f : FieldPos) : (c.flag o f).bc = c.bc := rfl
@[simp] theorem Ctl.bc_setSeq (c : Ctl) (n : Nat) (x : Seq) : (c.setSeq n x).bc = c.bc := rfl
@[simp] theorem Ctl.bc_setGroup (c : Ctl) (n : Nat) (x : Group) : (c.setGroup n x).bc = c.bc := rfl
@[simp] theorem Ctl.bc_setCtx (c : Ctl) (n : Nat) (x : CtxRun) : (c.setCtx n x).bc = c.bc := rfl
@[simp] theorem Ctl.bc_setSport (c : Ctl) (n : Nat) (x : StackPort) : (c.setSport n x).bc = c.bc := rfl
@[simp] theorem Ctl.bc_setSout (c : Ctl) (n : Nat) (x : StackOut) : (c.setSout n x).bc = c.bc := rfl
@[simp] theorem Ctl.bc_setLink (c : Ctl) (n : Nat) (x : LinkPort) : (c.setLink n x).bc = c.bc := rfl
@[simp] theorem Ctl.bc_setWin (c : Ctl) (n : Nat) (x : WinRun) : (c.setWin n x).bc = c.bc := rfl
@[simp] theorem Ctl.bc_setSend (c : Ctl) (n : Nat) (x : SendRun) : (c.setSend n x).bc = c.bc := rfl
@[simp] theorem Ctl.bc_setCurtain (c : Ctl) (n : Nat) (x : Curtain) : (c.setCurtain n x).bc = c.bc := rfl
@[simp] theorem Ctl.bc_setArb (c : Ctl) (n : Nat) (x : Arbiter) : (c.setArb n x).bc = c.bc := rfl
@[simp] theorem Ctl.bc_setOset (c : Ctl) (n : Nat) (x : OSet) : (c.setOset n x).bc = c.bc := rfl
@[simp] theorem Ctl.bc_setUnder (c : Ctl) (n : Nat) (x : Understudy) : (c.setUnder n x).bc = c.bc := rfl
@[simp] theorem Ctl.ec_setReg (c : Ctl) (o : Nat) (v : Word) : (c.setReg o v).ec = c.ec := rfl
@[simp] theorem Ctl.ec_setFld (c : Ctl) (o : Nat) (f : FieldPos) (x : Nat) : (c.setFld o f x).ec = c.ec := rfl
@[simp] theorem Ctl.ec_satAdd (c : Ctl) (o : Nat) (f : FieldPos) (x : Nat) : (c.satAdd o f x).ec = c.ec := rfl
@[simp] theorem Ctl.ec_flag (c : Ctl) (o : Nat) (f : FieldPos) : (c.flag o f).ec = c.ec := rfl
@[simp] theorem Ctl.ec_setSeq (c : Ctl) (n : Nat) (x : Seq) : (c.setSeq n x).ec = c.ec := rfl
@[simp] theorem Ctl.ec_setGroup (c : Ctl) (n : Nat) (x : Group) : (c.setGroup n x).ec = c.ec := rfl
@[simp] theorem Ctl.ec_setCtx (c : Ctl) (n : Nat) (x : CtxRun) : (c.setCtx n x).ec = c.ec := rfl
@[simp] theorem Ctl.ec_setSport (c : Ctl) (n : Nat) (x : StackPort) : (c.setSport n x).ec = c.ec := rfl
@[simp] theorem Ctl.ec_setSout (c : Ctl) (n : Nat) (x : StackOut) : (c.setSout n x).ec = c.ec := rfl
@[simp] theorem Ctl.ec_setLink (c : Ctl) (n : Nat) (x : LinkPort) : (c.setLink n x).ec = c.ec := rfl
@[simp] theorem Ctl.ec_setWin (c : Ctl) (n : Nat) (x : WinRun) : (c.setWin n x).ec = c.ec := rfl
@[simp] theorem Ctl.ec_setSend (c : Ctl) (n : Nat) (x : SendRun) : (c.setSend n x).ec = c.ec := rfl
@[simp] theorem Ctl.ec_setCurtain (c : Ctl) (n : Nat) (x : Curtain) : (c.setCurtain n x).ec = c.ec := rfl
@[simp] theorem Ctl.ec_setArb (c : Ctl) (n : Nat) (x : Arbiter) : (c.setArb n x).ec = c.ec := rfl
@[simp] theorem Ctl.ec_setOset (c : Ctl) (n : Nat) (x : OSet) : (c.setOset n x).ec = c.ec := rfl
@[simp] theorem Ctl.ec_setUnder (c : Ctl) (n : Nat) (x : Understudy) : (c.setUnder n x).ec = c.ec := rfl
@[simp] theorem Ctl.cc_setReg (c : Ctl) (o : Nat) (v : Word) : (c.setReg o v).cc = c.cc := rfl
@[simp] theorem Ctl.cc_setFld (c : Ctl) (o : Nat) (f : FieldPos) (x : Nat) : (c.setFld o f x).cc = c.cc := rfl
@[simp] theorem Ctl.cc_satAdd (c : Ctl) (o : Nat) (f : FieldPos) (x : Nat) : (c.satAdd o f x).cc = c.cc := rfl
@[simp] theorem Ctl.cc_flag (c : Ctl) (o : Nat) (f : FieldPos) : (c.flag o f).cc = c.cc := rfl
@[simp] theorem Ctl.cc_setSeq (c : Ctl) (n : Nat) (x : Seq) : (c.setSeq n x).cc = c.cc := rfl
@[simp] theorem Ctl.cc_setGroup (c : Ctl) (n : Nat) (x : Group) : (c.setGroup n x).cc = c.cc := rfl
@[simp] theorem Ctl.cc_setCtx (c : Ctl) (n : Nat) (x : CtxRun) : (c.setCtx n x).cc = c.cc := rfl
@[simp] theorem Ctl.cc_setSport (c : Ctl) (n : Nat) (x : StackPort) : (c.setSport n x).cc = c.cc := rfl
@[simp] theorem Ctl.cc_setSout (c : Ctl) (n : Nat) (x : StackOut) : (c.setSout n x).cc = c.cc := rfl
@[simp] theorem Ctl.cc_setLink (c : Ctl) (n : Nat) (x : LinkPort) : (c.setLink n x).cc = c.cc := rfl
@[simp] theorem Ctl.cc_setWin (c : Ctl) (n : Nat) (x : WinRun) : (c.setWin n x).cc = c.cc := rfl
@[simp] theorem Ctl.cc_setSend (c : Ctl) (n : Nat) (x : SendRun) : (c.setSend n x).cc = c.cc := rfl
@[simp] theorem Ctl.cc_setCurtain (c : Ctl) (n : Nat) (x : Curtain) : (c.setCurtain n x).cc = c.cc := rfl
@[simp] theorem Ctl.cc_setArb (c : Ctl) (n : Nat) (x : Arbiter) : (c.setArb n x).cc = c.cc := rfl
@[simp] theorem Ctl.cc_setOset (c : Ctl) (n : Nat) (x : OSet) : (c.setOset n x).cc = c.cc := rfl
@[simp] theorem Ctl.cc_setUnder (c : Ctl) (n : Nat) (x : Understudy) : (c.setUnder n x).cc = c.cc := rfl
@[simp] theorem Ctl.blackout_setReg (c : Ctl) (o : Nat) (v : Word) : (c.setReg o v).blackout = c.blackout := rfl
@[simp] theorem Ctl.blackout_setFld (c : Ctl) (o : Nat) (f : FieldPos) (x : Nat) : (c.setFld o f x).blackout = c.blackout := rfl
@[simp] theorem Ctl.blackout_satAdd (c : Ctl) (o : Nat) (f : FieldPos) (x : Nat) : (c.satAdd o f x).blackout = c.blackout := rfl
@[simp] theorem Ctl.blackout_flag (c : Ctl) (o : Nat) (f : FieldPos) : (c.flag o f).blackout = c.blackout := rfl
@[simp] theorem Ctl.blackout_setSeq (c : Ctl) (n : Nat) (x : Seq) : (c.setSeq n x).blackout = c.blackout := rfl
@[simp] theorem Ctl.blackout_setGroup (c : Ctl) (n : Nat) (x : Group) : (c.setGroup n x).blackout = c.blackout := rfl
@[simp] theorem Ctl.blackout_setCtx (c : Ctl) (n : Nat) (x : CtxRun) : (c.setCtx n x).blackout = c.blackout := rfl
@[simp] theorem Ctl.blackout_setSport (c : Ctl) (n : Nat) (x : StackPort) : (c.setSport n x).blackout = c.blackout := rfl
@[simp] theorem Ctl.blackout_setSout (c : Ctl) (n : Nat) (x : StackOut) : (c.setSout n x).blackout = c.blackout := rfl
@[simp] theorem Ctl.blackout_setLink (c : Ctl) (n : Nat) (x : LinkPort) : (c.setLink n x).blackout = c.blackout := rfl
@[simp] theorem Ctl.blackout_setWin (c : Ctl) (n : Nat) (x : WinRun) : (c.setWin n x).blackout = c.blackout := rfl
@[simp] theorem Ctl.blackout_setSend (c : Ctl) (n : Nat) (x : SendRun) : (c.setSend n x).blackout = c.blackout := rfl
@[simp] theorem Ctl.blackout_setCurtain (c : Ctl) (n : Nat) (x : Curtain) : (c.setCurtain n x).blackout = c.blackout := rfl
@[simp] theorem Ctl.blackout_setArb (c : Ctl) (n : Nat) (x : Arbiter) : (c.setArb n x).blackout = c.blackout := rfl
@[simp] theorem Ctl.blackout_setOset (c : Ctl) (n : Nat) (x : OSet) : (c.setOset n x).blackout = c.blackout := rfl
@[simp] theorem Ctl.blackout_setUnder (c : Ctl) (n : Nat) (x : Understudy) : (c.setUnder n x).blackout = c.blackout := rfl

end Sys2Proof.Machine
end

