-- ==== Sys2Proof/Tests/Slice0.lean ====
section
/-! SUPPORT. The model's own tests: ill-formed commands, what reset leaves, and for the statements that have hypotheses states that meet
them, with what the command does there. Expected values are worked out from the rules cited. -/

namespace Sys2Proof.Tests

open Sys2Proof Sys2Proof.Machine

set_option Elab.async false

/-! ### Helpers -/

/-- Units after start-up: bc 8,000, so ec 4,000, cc 1,000, frame 31, slot 64. -/
def u0 : Ctl := { sysReady := true, everReady := true, boot := { phase := .ready }, clk := { bc := 8000, run := true } }

/-- A state with given units, no row listed and an empty queue. -/
def st (c : Ctl) : State := { pending := [], banks := [], c := c }

/-- The block after start-up. -/
def up : State := st u0

/-- The command completes, and its next state satisfies `p`. -/
def gives (i : Instr) (s : State) (p : State → Bool) : Bool :=
  match exec i s with
  | .next t => p t
  | _ => false

/-- The command completes and changes nothing. -/
def same (i : Instr) (s : State) : Bool := gives i s fun t => decide (t = s)

/-- The command completes with the units `c`. -/
def goes (i : Instr) (s : State) (c : Ctl) : Bool := gives i s fun t => decide (t = s.units c)

/-- A write completes with the units `c` and OK answered. -/
def wrote (i : Instr) (s : State) (c : Ctl) : Bool := gives i s fun t => decide (t = s.wrote i c)

/-- Sequencer 90, a vector port, comes to execute word `w` at word 16 of half 0. -/
def at90 (w : Nat) : State :=
  st { u0 with store := Tab.put (mkWorking w false false 0) 8 [],
               seqs := [(90, { state := .running, pc := 16, lastPc := 15, wordEc := 3990, inScene := true, ec0 := 3900 })] }

/-- The units after the fetch of that word. -/
def fetched (w : Nat) : Ctl := ((at90 w).c.fetch false 16).1

/-- Several fields set. -/
def flds (c : Ctl) (l : List (Nat × FieldPos × Nat)) : Ctl := l.foldl (fun (d : Ctl) x => d.setFld x.1 x.2.1 x.2.2) c

/-- The block in safe state. -/
def dark : Ctl := { u0 with faults := { black := true } }

theorem live_of {s : State} (h : (s.c.sysReady && !s.c.clk.frozen) = true) : s.live := by
  simp only [Bool.and_eq_true, Bool.not_eq_true'] at h
  exact h

theorem working_of {s : State} (h : (s.c.sysReady && !s.c.clk.frozen && !s.c.blackout) = true) : s.working := by
  simp only [Bool.and_eq_true, Bool.not_eq_true'] at h
  exact h

theorem accepting_of {s : State} (h : (s.c.sysReady && !s.c.clk.frozen && s.c.portOpen && !s.c.blackout) = true) : s.accepting := by
  simp only [Bool.and_eq_true, Bool.not_eq_true'] at h
  exact ⟨⟨⟨h.1.1.1, h.1.1.2⟩, h.1.2⟩, h.2⟩

/-! ### Ill-formed commands are refused, one for each check -/

/-- A beat that carries nothing. -/
def noBeat : LinkBeat := { data := [], lanes := 0, sop := false, eop := false }

theorem test_wf_numbers : [Instr.registerWrite .control 0x400000 3 0, .registerWrite .control 4 3 0, .set 104, .startDecision 32, .cntAdd 4096 3 0,
    .curArrive 16 noBeat, .curtainReset 64, .ctxWrite 16384 0 3 0, .ctxWrite 0 8 3 0, .streamRequestIssue 24 0 true, .streamRequestIssue 0 2048 false,
    .osetRoundApply 0, .osetRoundApply 16, .deadlockDetect 64, .linkUp 17, .roundApply 1024, .windowWrite 1024 0 3 0, .windowWrite 0 4 3 0,
    .sendArm 256, .badCmd 1024 false 0, .regionWrite 64 3 0, .bankOwnWrite 512 3 0, .csShadowWrite 4 0 0 3 0, .csShadowWrite 0 256 0 3 0,
    .csActiveWrite 0 0 2 3 0, .quadrantHeld 4, .groupSwapGo 32 true, .programDigestDone 2, .correctionWriteback 0 512, .ssCorrectionRewrite 0 32768,
    .scrubRead 4 0 0, .scrubRead 0 32 0, .scrubWriteback 0 0 16, .marchCmd 0 64 false false false, .usFillDone 4, .wimgOpen 8,
    .faultRaise 23 0 2 0, .kill 32, .strikeBegin 0 32, .strikeDone 2048, .wakeEvent 5, .readReg (.frame .spi) (2 ^ 32) 3, .readReg .control 4 3, .writeReg .spi (2 ^ 32) 0,
    .readRow .spi ⟨0, 64, false, 0, 0⟩, .readRow .tap ⟨0, 0, false, 16, 0⟩, .readStore .spi 256 0, .scanN 15, .fwData .spi (2 ^ 32) []].all (fun i => !i.wf) = true := by
  decide +kernel

theorem test_ill_formed_faults : (match exec (.kill 32) up with | .fault .noSuchUnit => true | _ => false) = true := by decide +kernel

theorem test_decode_gives_none : decodeTableWord 8 0 = none ∧ State.withFetchWord up 8 0 = up := ⟨rfl, rfl⟩

/-! ### The machine as a whole -/

theorem test_step_runs_front : (match step { up with pending := [.kick, .lock] } with
    | .next t => t.c.faults.kick && decide (t.pending = [.lock]) | _ => false) = true := by decide +kernel

theorem test_idle_step : up.pending = [] ∧ (match step up with | .next t => decide (t.c.clk.bc = 8001) && decide (t.banks = []) | _ => false) = true :=
  ⟨rfl, by decide +kernel⟩

/-- With the bank clock stopped a step is a ref_clk edge alone; in tableau nothing passes. -/
theorem test_idle_stopped : (match step (st { boot := { phase := .waitPll } }) with | .next t => decide (t.c.clk = { ref := 1 }) | _ => false) = true ∧
    (match step (st { u0 with clk := { u0.clk with frozen := true } }) with | .next t => decide (t = st { u0 with clk := { u0.clk with frozen := true } }) | _ => false) = true ∧
    (match step (st { boot := { phase := .waitKey }, clk := { run := true, vco := 100 } }) with | .next t => decide (t.c.clk.pre = 1 ∧ t.c.clk.ref = 1 ∧ t.c.clk.bc = 0) | _ => false) = true := by
  decide +kernel

/-- A write that waits at the control port comes to its turn at the start of a cc. -/
def waitsTurn : Ctl := { u0 with clk := { u0.clk with bc := 8007 }, cReqs := [.write .lock] }

theorem test_turn : (match step (st waitsTurn) with | .next t => decide (t.pending = [.lock] ∧ t.c.cReqs = []) && t.c.cTurn | _ => false) = true ∧
    u0.portOpen = true ∧ waitsTurn.portOpen = false ∧ gives .lock (st waitsTurn) (fun t => decide (t.c.cReqs = [.write .lock, .write .lock])) = true ∧
    same .lock (st { u0 with cReqs := List.replicate 4 (.write .lock) }) = true ∧
    gives .lock (st { waitsTurn with cReqs := [], cTurn := true }) (fun t => t.c.locked && !t.c.cTurn) = true := by decide +kernel

/-- The units after start-up meet the invariant of the tables. -/
theorem u0_inv : u0.inv := by
  refine ⟨⟨⟨List.Pairwise.nil, fun e h => absurd h (List.not_mem_nil)⟩, ?_⟩, fun n => ⟨Nat.zero_le _, fun _ h => absurd h (List.not_mem_nil), ?_, ?_, fun _ h => absurd h (List.not_mem_nil)⟩⟩
  · refine ⟨rfl, rfl, rfl, rfl, rfl, rfl, rfl, rfl, rfl, rfl, rfl, rfl, rfl, rfl, rfl, rfl, rfl, rfl, rfl, ?_, ?_, ?_, ?_⟩ <;> exact List.Pairwise.nil
  · exact Nat.le_of_ble_eq_true rfl
  · exact Nat.le_of_ble_eq_true rfl

theorem test_inv_step : (match step { up with pending := [.lock] } with | .next t => decide (t.c.regs.length = 2) | _ => false) = true := by decide +kernel

/-- In safe state, with a sequencer HALTED and a command of the control port at the front. -/
def darkLock : State := { st dark with pending := [.lock] }

theorem test_safe_state_holds : dark.blackout = true ∧ (dark.seq 90).state = .halted ∧ regFind oPwrRet ≠ none ∧
    ((regFind oPwrRet).map fun a => a.safeWritable oPwrRet) = some false ∧
    (match step darkLock with | .next t => t.c.blackout && decide ((t.c.seq 90).state = .halted ∧ t.c.reg oCtrl = dark.reg oCtrl) | _ => false) = true ∧
    (match step { darkLock with pending := [.registerWrite .control oPwrRet 3 5] } with | .next t => decide (t.c.reg oPwrRet = 0) | _ => false) = true := by decide +kernel

theorem test_wf_witness : (Instr.kick).wf = true ∧ (Instr.kill 32).wf = false ∧ (Instr.kick).writesBanks = false := by decide

theorem test_reset_canonical : State.reset.wf ∧ (match step { State.reset with pending := [.startUp false] } with | .next _ => true | _ => false) = true :=
  ⟨rfl, by decide +kernel⟩

theorem test_tableau_witness : same (.kill 0) (st { u0 with clk := { bc := 8000, run := true, frozen := true } }) = true := by decide +kernel

theorem test_port_gates :
    (Instr.lock).portWrite = some 3 ∧ (Instr.cntAdd 0 0 0).portWrite = some 0 ∧
    same .lock (st { u0 with sysReady := false }) = true ∧
    goes .lock (st dark) { dark with cRsp := { valid := true, rdata := 0, status := 3 } } = true ∧
    goes (.cntAdd 0 0 5) up { u0 with cRsp := { valid := true, rdata := 0, status := 2 } } = true := by decide +kernel

theorem test_reset_values : State.reset.c.reg oFltCfg = 0x1400 ∧ State.reset.c.sysReady = false ∧ State.reset.c.fltErr = (true, false) := by
  decide +kernel

theorem test_rst_keeps_factory : gives .rstNAssert (st { u0 with boot := { phase := .ready, factory := true } })
    (fun t => t.c.boot.factory && !t.c.sysReady && decide (t.c.fld oFltStat fltStat_FACTORY = 1)) = true ∧
    goes .rstNAssert up {} = true ∧ gives .supplyRestore { up with banks := [(3, 1)] } (fun t => decide (t.banks = [])) = true := by decide +kernel

theorem test_start_up_release : goes (.startUp true) State.reset { boot := { phase := .waitPll, tst := true } } = true := by decide +kernel

/-- A device whose slot 0 holds nothing. -/
def blank : NvmDevice := { readable := true, sfdp := true, quad := true, four := true, bytes := [] }
def good : StartChecks := { selfTest := [], march := [], microcode := 0 }
def atPll : State := st { boot := { phase := .waitPll }, clk := { ref := 40 } }
/-- The same in step 1. -/
def early : State := st { boot := { phase := .waitPll }, clk := { ref := 7 } }
def atKey : State := st { boot := { phase := .waitKey, pll := some (blank, good), dev := blank }, clk := { run := true, pre := 8 * 2 ^ 28 } }

theorem test_pll_lock : gives (.pllLock blank good) atPll (fun t => t.c.clk.run && decide (t.c.boot.phase = .waitKey) &&
    decide (t.c.fld oSmBoot smBoot_STEP = 4) && t.c.keyReady) = true ∧
    same (.pllLock blank good) early = true ∧ early.c.keyReady = false ∧ same (.keyDelivery 7 9) early = true := by decide +kernel

theorem test_key_and_timeout : goes (.keyDelivery 7 9) atPll { boot := { phase := .waitPll, key := some (7, 9) }, clk := { ref := 40 } } = true ∧
    same (.keyDelivery 7 9) (st { boot := { phase := .ready, key := some (1, 1) } }) = true ∧
    gives .keyTimeout atKey (fun t => decide (t.c.boot.phase = .recovery ∧ t.c.fld oFwStat fwStat_RESULT = 6)) = true ∧
    same .keyTimeout (st { boot := { phase := .waitKey }, clk := { run := true, pre := 8 * 2 ^ 28 - 1 } }) = true := by decide +kernel

/-- A firmware image of 16 bytes under key 7 with identifier 9, version 7: header, tag, body. -/
def image : List Byte :=
  leBytes 4 0x4D465749 ++ leBytes 2 1 ++ leBytes 2 128 ++ leBytes 4 0x201 ++ leBytes 4 7 ++ leBytes 4 16 ++ leBytes 2 9 ++ leBytes 2 2 ++ leBytes 12 99
    ++ leBytes 76 0 ++ leBytes 16 111104740126803230545096994068242406905 ++ leBytes 16 0x0F0E0D0C0B0A09080706050403020100

/-- A device that holds that image in slot 0. -/
def loaded : NvmDevice := { blank with bytes := nvmWrite [] 0x20000 (image ++ leBytes 4 265308720) }

/-- Step 4 with that device, waiting for the key. -/
def boots : State := st { boot := { phase := .waitKey, pll := some (loaded, good), dev := loaded }, clk := { run := true } }

theorem test_boot_witness : (boots.c.setBoot fun b => { b with key := some (7, 9) }).slotCode 0 = 0 ∧ boots.c.cfgCheck = false ∧
    boots.c.repairChoice = none := by decide +kernel

theorem test_register_halves : gives (.registerWrite .control oPwrRet 1 (-1)) up (fun t => decide (t.c.reg oPwrRet = 0xFFFFFFFF ∧ t.c.cRsp = okRsp)) = true ∧
    gives (.registerWrite .control oProvSeq 2 (-1)) up (fun t => decide (t.c.reg oProvSeq = 0xFFFFFFFF00000000 ∧ t.c.cRsp = okRsp)) = true := by decide +kernel

theorem test_register_refusals :
    gives (.registerWrite .control 0x3FFFF8 3 1) up (fun t => decide (t.c.cRsp.status = 1 ∧ t.c.fld oStatus status_LAST_DECERR = 0x3FFFF8)) = true ∧
    regFind 0x3FFFF8 = none ∧
    gives (.registerWrite .control oPwrRet 3 1) (st dark) (fun t => decide (t.c.cRsp.status = 3)) = true ∧
    gives (.registerWrite .control 0x3FFFF8 0 1) up (fun t => decide (t.c.cRsp.status = 2)) = true := by decide +kernel

/-! ### Cue words -/

/-- Words of R66: opcode in bits [3:0]. SET of the base part of AG1: granule 0x123, 8 lanes; RUN of both channels, 4 accesses, gap 1;
SIG counter add of 5 to counter 7 at scope 2; FLUSH and ACQUIRE of granules 16 to 31; LOOP of 2 words, 3 trips; JUMP to 40;
DELAY of 9; HALT; SCENE number 6. -/
def wSet : Nat := 1 + (1 <<< 4) + (0x123 <<< 8) + (7 <<< 35)
def wRun : Nat := 2 + (3 <<< 4) + (3 <<< 8) + (1 <<< 32)
def wSig (k : Nat) : Nat := 3 + (k <<< 4) + ((if k = 2 then 0 else 2) <<< 6) + (7 <<< 8) + ((if k = 0 then 5 else 0) <<< 24)
def wRange (op : Nat) : Nat := op + (16 <<< 8) + (15 <<< 35)
def wLoop : Nat := 8 + (1 <<< 8) + (2 <<< 16)
def wScene : Nat := 5 + (6 <<< 8)

/-- The hypotheses of AtWord for sequencer 90 at word `w`. -/
def ready90 (w : Nat) : Bool :=
  let f := (at90 w).c.fetch false 16
  (at90 w).c.sysReady && !(at90 w).c.clk.frozen && decide (((at90 w).c.seq 90).state = .running) && decide (((at90 w).c.seq 90).wordEc ≤ (at90 w).c.ec)
    && decide (f.2 = (w, false)) && decide (((at90 w).c.seq 90).trapCause 90 16 w false false = 0)

theorem test_words_ready : [wSet, wRun, wSig 0, wSig 1, wSig 2, wRange 6, wRange 7, wLoop, 9 + (40 <<< 8), 0xA + (8 <<< 8), 0xB, wScene].all ready90 = true := by
  decide +kernel

theorem test_at_word : AtWord (at90 wSet) 90 wSet (fetched wSet) := by
  refine ⟨⟨rfl, rfl⟩, by decide, by decide +kernel, by decide +kernel, by decide +kernel, ?_, by decide +kernel⟩
  have h : ((at90 wSet).c.fetch false 16).2 = (wSet, false) := by decide +kernel
  have e1 : ((at90 wSet).c.seq 90).half = false := by decide +kernel
  have e2 : ((at90 wSet).c.seq 90).pc = 16 := by decide +kernel
  rw [e1, e2]
  generalize hx : (at90 wSet).c.fetch false 16 = x at h
  have hf : fetched wSet = x.1 := by rw [fetched, hx]
  rw [hf, ← h]

theorem test_set : gives (.set 90) (at90 wSet) (fun t => let q := t.c.seq 90
    decide (q.ag1.base = 0x123 ∧ q.ag1.lanes = 8 ∧ q.ag0 = {} ∧ q.pc = 17 ∧ q.wordEc = 3991)) = true := by decide +kernel

theorem test_run : gives (.run 90 []) (at90 wRun) (fun t => let q := t.c.seq 90
    decide (q.readCount = 4 ∧ q.writeCount = 4 ∧ q.pc = 17 ∧ q.wordEc = 3990 + 4 + 3)) = true := by decide +kernel

theorem test_sigs : gives (.sigCounterAdd 90) (at90 (wSig 0)) (fun t => decide ((t.c.seq 90).releases = [⟨.counterAdd, 7, 5, 2, 3991⟩])) = true ∧
    gives (.sigCurtainEntry 90) (at90 (wSig 1)) (fun t => decide ((t.c.seq 90).releases = [⟨.curtainEntry, 7, 0, 2, 3991⟩])) = true ∧
    gives (.sigStreamStart 90) (at90 (wSig 2)) (fun t => decide ((t.c.seq 90).releases = [⟨.streamStart, 7, 0, 0, 3991⟩])) = true := by decide +kernel

theorem test_flush_acquire : gives (.flush 90) (at90 (wRange 6)) (fun t => let q := t.c.seq 90
      decide (q.flushed 0 0 = 3991 ∧ q.flushed 0 1 = 3991 ∧ q.flushed 0 2 = 3991 ∧ q.wordEc = 3991)) = true ∧
    gives (.acquire 90) (at90 (wRange 7)) (fun t => decide ((t.c.seq 90).acquires = [(3990, 16, 31)] ∧ (t.c.seq 90).wordEc = 3991)) = true := by decide +kernel

/-- A held group of the write wing of sequencer 90 in the range of a FLUSH, due in ec 3,995, after a word of ec 3,990. -/
def flushes : State := st { (at90 (wRange 6)).c with seqs := [(90, { (at90 (wRange 6)).c.seq 90 with
  writes := [{ id := 0, seqNo := 5, w := 3980, due := 3995, profile := 0, t := 3995, acc := none, mask := 1, lanes := [{ lane := 0, gi := 20, granule := 0, fault := false }] }] })] }

theorem test_flush_moves : ((flushes.c.seq 90).writes.filter (heldInRange 3990 (wRange 6))).length = 1 ∧ (flushes.c.seq 90).wordEc = 3990 ∧
    gives (.flush 90) flushes (fun t => let q := t.c.seq 90
      decide (q.writes.map (fun a => a.due) = [3991] ∧ q.flushes.length = 1 ∧ q.flushed 0 0 = 3991 ∧ 3991 < q.flushed 0 2)) = true := by decide +kernel

/-- Read-ahead entries of granules 20 and 40, with an ACQUIRE of granules 16 to 31. -/
def acquires : State := st { (at90 (wRange 7)).c with seqs := [(90, { (at90 (wRange 7)).c.seq 90 with
  ra := [{ gi := 20, granule := 1, rep := false, since := 3980 }, { gi := 40, granule := 1, rep := false, since := 3980 }] })] }

theorem test_acquire_leaves : gives (.acquire 90) acquires (fun t => decide ((t.c.seq 90).ra.map (fun e => (e.gi, e.gone)) = [(20, some 3990), (40, none)])) = true := by
  decide +kernel

theorem test_control_words : gives (.loop 90) (at90 wLoop) (fun t => decide ((t.c.seq 90).loops = [⟨17, 18, 2⟩] ∧ (t.c.seq 90).wordEc = 3991)) = true ∧
    gives (.jump 90) (at90 (9 + (40 <<< 8))) (fun t => decide ((t.c.seq 90).pc = 40 ∧ (t.c.seq 90).wordEc = 4002)) = true ∧
    gives (.delay 90) (at90 (0xA + (8 <<< 8))) (fun t => decide ((t.c.seq 90).pc = 17 ∧ (t.c.seq 90).wordEc = 3999)) = true ∧
    gives (.halt 90) (at90 0xB) (fun t => decide ((t.c.seq 90).state = .halted ∧ (t.c.seq 90).offset = 90)) = true := by decide +kernel

theorem test_loop_returns : nextPc 18 [⟨17, 18, 2⟩] = (17, [⟨17, 18, 1⟩]) ∧ nextPc 18 [⟨17, 18, 0⟩] = (19, []) := by decide +kernel

/-- Sequencer 90 with a field of its own. -/
def seq90 (q : Seq) : State := st { u0 with seqs := [(90, q)] }

theorem test_scene : gives (.scene 90) (at90 wScene) (fun t => let q := t.c.seq 90
      decide (q.state = .waiting ∧ q.evaluated = true ∧ q.evalEc = 3990 ∧ q.nextNo = 6 ∧ q.inScene = false)) = true ∧
    gives (.scene 90) (st { (at90 wScene).c with seqs := [(90, { (at90 wScene).c.seq 90 with parkPend := true })] })
      (fun t => decide ((t.c.seq 90).state = .halted)) = true ∧
    gives (.wait 90) (seq90 { state := .waiting, evaluated := true, evalEc := 3999, head := [{ curtain := false, target := 7, scope := 0, met := true }] })
      (fun t => decide ((t.c.seq 90).head.map (fun h => h.met) = [true])) = true := by decide +kernel

/-- A WAIT on counter 7 for value 3, absolute or relative to WT0, at scope 1, after the SCENE word. -/
def wWait (rel : Nat) : Nat := 4 + (1 <<< 6) + (7 <<< 8) + (3 <<< 24) + (rel <<< 56)
def waitsNext (rel : Nat) : State := st (((at90 (wScene + (wWait rel <<< 128))).c).setFld (oSeqWt 90) (wtPos 0) 0xFFFFFFFF)

theorem test_scene_head : (waitsNext 0).c.fetch false 17 = ((waitsNext 0).c, wWait 0, false) ∧ wMode (wWait 0) = 0 ∧ wMode (wWait 1) = 1 ∧
    ((waitsNext 0).c.seq 90).trapCause 90 17 (wWait 0) false true = 0 ∧ (waitsNext 0).c.fetch false 18 = ((waitsNext 0).c, 0, false) ∧
    [0, 1].map (fun r => match exec (.scene 90) (waitsNext r) with
      | .next t => ((t.c.seq 90).head.map (fun h => (h.target, h.scope, h.met)), (t.c.seq 90).bodyPc, t.c.wt 90 0) | _ => ([], 0, 0)) =
      [([(7, 1, false)], 18, 3), ([(7, 1, false)], 18, 2)] := by decide +kernel

/-- A load into half 0 is under way. -/
def loadsHalf : Ctl := flds u0 [(oSsStat, ssStat_LOAD_A, 1)]

theorem test_scene_under_load : loadsHalf.loading false = true ∧ gives (.scene 90) (st { (at90 wScene).c with regs := loadsHalf.regs })
    (fun t => decide ((t.c.seq 90).state = .waiting) && (t.c.seq 90).loadHold && !(t.c.seq 90).evaluated) = true := by decide +kernel

theorem test_bad_words : ((at90 0).c.fetch false 16).2 = (0, false) ∧ ((at90 0xC).c.fetch false 16).2 = (0xC, false) ∧
    ((st { (at90 0).c with store := [(8, mkWorking 0xB true false 0)] }).c.fetch false 16).2 = (0xB, true) ∧
    ((at90 0).c.seq 90).trapCause 90 16 0 false false = 1 := by decide +kernel

theorem test_sequencer_commands : gives (.start 90) up (fun t => decide ((t.c.seq 90).state = .waiting ∧ (t.c.seq 90).waitSince = 4000)) = true ∧
    wrote (.start 90) (seq90 { state := .running }) ((seq90 { state := .running }).c.flag (oSeqStat 90) seqStat_CMD_REFUSED) = true ∧
    gives (.park 90) (seq90 { state := .running }) (fun t => (t.c.seq 90).parkPend) = true ∧
    gives (.park 90) (seq90 { state := .waiting }) (fun t => decide ((t.c.seq 90).parkAt = some 4004 ∧ ((t.c.parksSettle 4004).seq 90).state = .halted)) = true ∧
    gives (.park 90) (st { (seq90 { state := .waiting }).c with groups := [(0, { decided := some 4096, who := [90] })] }) (fun t => (t.c.seq 90).parkPend) = true ∧
    gives (.reset 90) (seq90 { state := .trapped, pc := 5, loops := [⟨1, 2, 3⟩] }) (fun t => decide ((t.c.seq 90).state = .halted ∧ (t.c.seq 90).loops = [])) = true ∧
    gives (.start 90) (seq90 { ra := [{ gi := 20, granule := 1, rep := false, since := 3980 }] }) (fun t => decide ((t.c.seq 90).ra.map (fun e => e.gone) = [some 4000])) = true ∧
    gives (.reset 90) (seq90 { state := .running }) (fun t => decide ((t.c.seq 90).state = .running)) = true := by decide +kernel

/-- Sequencer 90 waits with its head evaluated; group 0 holds all sequencers. -/
def waits : State := seq90 { state := .waiting, evaluated := true, evalEc := 3990, nextNo := 6, bodyPc := 17, lend := true }

theorem test_start_decision : ((waits.c.groupSample 0 4000).group 0).ready = some 4000 ∧ (waits.c.groupSample 0 4000).intmStops 0 = false ∧
    gives (.startDecision 0) waits (fun t => decide ((t.c.group 0).decided = some 4096 ∧ (t.c.group 0).who = [90] ∧ (t.c.seq 90).lendOff = some 4001)) = true := by
  decide +kernel

theorem test_scene_start : gives (.sceneStart 0) (st { waits.c with groups := [(0, { decided := some 4000, who := [90] })] })
    (fun t => let q := t.c.seq 90; decide (q.state = .running ∧ q.ec0 = 4000 ∧ q.wordEc = 4000 ∧ q.sceneNo = 6 ∧ q.pc = 17)) = true := by decide +kernel

/-! ### Scheduled accesses -/

/-- Granule 1 full of ones in its data, working code. -/
def ones : Granule := mkWorking (2 ^ 256 - 1) false true 0

/-- A write access of sequencer 90 to one granule, first slot in bc 8,000. -/
def wacc (gi : Nat) (acc : Option Nat) : WAccess :=
  { id := 0, seqNo := 5, w := 3990, due := 3991, profile := if acc.isSome then 3 else 0, t := 3999, issued := true, acc := acc,
     lanes := [{ lane := 0, gi := gi, granule := ones, fault := false, seen := ones }], mask := 1 }

/-- A lane of nothing. -/
def lane0 : WLane := { lane := 0, gi := 0, granule := 0, fault := false }

/-- Group 0 owns banks 0 to 7. -/
def owned (c : Ctl) : Ctl := c.setReg (oBankOwn 0) 0x2020202020202020

/-- Sequencer 90 with one write access, its group owning the bank or not. -/
def writes (own : Bool) (a : WAccess) : State :=
  let c : Ctl := { u0 with seqs := [(90, { writes := [a] })] }
  st (if own then owned c else c)

theorem test_scheduled_write_witness :
    (((writes true (wacc 0 none)).c.seq 90).dueWrite 8000).isSome = true ∧
    (writes true (wacc 0 none)).c.plainLane [] 90 (wacc 0 none) ((wacc 0 none).lanes.headD lane0) = 0 ∧
    (writes false (wacc 0 none)).c.plainLane [] 90 (wacc 0 none) ((wacc 0 none).lanes.headD lane0) = 1 := by
  decide +kernel

theorem test_scheduled_write : gives (.scheduledBankAccess 90 true) (writes true (wacc 0 none)) (fun t => decide (t.banks = [(0, ones)])) = true := by
  decide +kernel

theorem test_accumulate : gives (.scheduledBankAccess 90 true) (writes true (wacc 0 (some 0))) (fun t => decide (t.banks = []) &&
      decide ((t.c.seq 90).writes.map (fun a => (a.first, a.done)) = [(true, false)])) = true ∧
    (writes true (wacc 0 (some 0))).c.accLane [] 90 (wacc 0 (some 0)) ((wacc 0 (some 0)).lanes.headD lane0) = 0 ∧
    ((writes true (wacc 0 (some 0))).c.stepUses [] 0 8000).map (fun u => (u.port, u.id, u.lane)) = [(90, 0, 0)] := by decide +kernel

/-- The accumulation of `wacc` after its first slot, with a result to write. -/
def half : WAccess := { wacc 0 (some 0) with t := 3995, first := true, lanes := [{ lane := 0, gi := 0, granule := ones, fault := false, passed := true, prior := ones }] }

theorem test_acc_writeback : gives (.accWriteback 90) (writes true half) (fun t => decide (t.banks = [(0, ones)]) &&
    (t.c.seq 90).writes.all fun a => a.done) = true := by decide +kernel

/-- A read access of sequencer 90 of one granule, due in bc 8,000. -/
def racc (gi : Nat) : RAccess :=
  { id := 0, issue := 3990, deliver := 4000, bankBc := 8000, opmode := 0, oparg := 0, lanes := [{ gi := gi }] }

/-- Sequencer 90 with that read, its read-ahead wing off. -/
def reads (own : Bool) (r : RAccess) : State :=
  let c : Ctl := ({ u0 with seqs := [(90, { reads := [r] })] } : Ctl).setReg (oWing 90) 0
  { st (if own then owned c else c) with banks := [(0, ones)] }

theorem test_scheduled_read : ((reads true (racc 0)).c.seq 90).dueRead 8000 = some (racc 0) ∧ (reads true (racc 0)).c.tagChecked 0 = false ∧
    (reads true (racc 0)).c.fld (oWing 90) wingCfg_RA_EN = 0 ∧ (reads true (racc 0)).c.pathCause 0 0 8000 = 0 ∧ (reads false (racc 0)).c.pathCause 0 0 8000 = 1 ∧
    ((reads true (racc 0)).c.seq 90).raHit 0 3990 = none ∧ ((reads true (racc 0)).c.seq 90).sameEc 3990 0 = none ∧
    gives (.scheduledBankAccess 90 false) (reads true (racc 0)) (fun t =>
      decide ((t.c.seq 90).reads.map (fun r => (r.checked, r.lanes.map fun l => l.granule)) = [(true, [ones])])) = true := by decide +kernel

theorem test_wing_issue : gives (.wingGroupIssue 90) (writes true { wacc 0 none with issued := false }) (fun t =>
    (t.c.seq 90).writes.all fun a => a.issued) = true := by decide +kernel

theorem test_write_status : let a : WAccess := { wacc 0 none with t := 3980, first := true, done := true, lanes := [{ lane := 2, gi := 0, granule := ones, fault := false, code := 3 }], mask := 4 }
    (writes true a).c.statusEc a ≤ 4000 ∧
    gives (.writeStatus 90) (writes true a) (fun t => decide ((Tab.get {} t.c.stOut 90).code = 0x30 ∧ (Tab.get {} t.c.stOut 90).seqNo = 5)) = true := by decide +kernel

theorem test_read_delivery : let r : RAccess := { racc 0 with checked := true, lanes := [{ gi := 0, granule := ones }] }
    ((reads true r).c.seq 90).nextDelivery 4000 = some r ∧ (reads true r).c.delivers ((reads true r).c.seq 90) r = true ∧
    gives (.readDelivery 90) (reads true r) (fun t => decide ((Tab.get {} t.c.rdOut 90).data = [ones] ∧ (Tab.get {} t.c.rdOut 90).lanes = 1)) = true := by
  decide +kernel

/-- A gather of one row of one granule: index 2 in a table of granules from 0 on. -/
def gath (w : Nat) : Gather :=
  { s := 3900, nRow := 1, bag := 1, rowType := 0, base := 0, pitch := 1, rows := 10, words := [(w, false)], limit := 1, busyTo := 4100 }

theorem test_gather_witness : (gath 2).target 0 0 = some 2 ∧ gives (.gatherFetch 90) (seq90 { gather := some (gath 0xFFFFFFFF) })
      (fun t => decide (((t.c.seq 90).gather.map fun g => g.next) = some 1)) = true := by decide +kernel

theorem test_gather_output : gives (.gatherOutput 90) (seq90 { gather := some { gath 2 with next := 1, outs := [⟨4000, 3901, 2, ones, false⟩] } })
    (fun t => decide ((Tab.get {} t.c.rdOut 90).data = [ones]) && decide (((t.c.seq 90).gather.map fun g => g.outs) = some [])) = true := by decide +kernel

/-! ### Releases, counters, hangs -/

theorem test_release : gives (.releaseApply 90) (seq90 { releases := [⟨.counterAdd, 7, 5, 2, 4000⟩] }) (fun t =>
      decide ((t.c.seq 90).releases = [] ∧ t.c.fld (oCnt 7) cnt_VALUE = 5)) = true ∧
    same (.releaseApply 90) (seq90 { releases := [⟨.counterAdd, 7, 5, 2, 4001⟩] }) = true := by decide +kernel

/-- Sequencer 90 with a curtain entry to release in ec 4,000. -/
def entry90 : State := st ({ (seq90 { releases := [⟨.curtainEntry, 5, 0, 2, 4000⟩] }).c with curtains := [] }.setReg (oCurCfg 5) 10)

theorem test_release_kinds : entry90.c.fld (oCurCfg 5) curCfg_EXPECT = 10 ∧ (((entry90.c.curSettle 5 4000).curtain 5).part 90).state = .out ∧
    gives (.releaseApply 90) entry90 (fun t => decide ((t.c.curtain 5).round0.own = 1 ∧ (t.c.curtain 5).round0.scope = 2 ∧ ((t.c.curtain 5).part 90).state = .entered)) = true := by decide +kernel

theorem test_change_seen_later : let c := u0.cntChange 7 4000 4 5 2
    c.cntAt 7 4000 = 0 ∧ c.cntAt 7 4001 = 5 := by decide +kernel

theorem test_counter_add_wraps : gives (.cntAdd 7 3 2) (st (u0.setFld (oCnt 7) cnt_VALUE 0xFFFFFFFF)) (fun t => decide (t.c.fld (oCnt 7) cnt_VALUE = 1)) = true ∧
    gives (.cntLoad 7 1 9) up (fun t => decide (t.c.fld (oCnt 7) cnt_VALUE = 9)) = true ∧ u0.bound 7 = false := by decide +kernel

/-- Counter 7 is bound: window 0 is open and counts on it. -/
def bound7 : Ctl := (u0.setFld (oWin 0) win_STATE 1).setFld (oWin 0) win_ARR_CNT 7

theorem test_load_of_bound : bound7.bound 7 = true ∧ gives (.cntLoad 7 3 9) (st bound7) (fun t =>
    decide (t.c.fld oSyncStat syncStat_LOAD_REFUSED = 1 ∧ t.c.fld (oCnt 7) cnt_VALUE = 0)) = true := by decide +kernel

theorem test_watchdog_witness : let c := ({ u0 with seqs := [(90, { state := .waiting, waitSince := 100 })] } : Ctl).setReg (oWdog 0) 1000
    (c.groupSample 0 4000).overdue 0 = [90] ∧ (c.group 0).decided = none ∧ ((c.groupSample 0 4000).group 0).ready = none ∧ c.fld oHangHdr hangHdr_VALID = 0 := by decide +kernel

/-- A landing that has stalled on its tag since bc 0. -/
def stalled : Ctl := flds { u0 with areqs := [{ id := 0, req := 2, kind := .streamLand 3 0 0, gi := 9, group := 4, stall := some 0 }] } [(oSyncCfg, syncCfg_TAGSTALL_EXP, 10)]

theorem test_tag_stall : (stalled.reqOf 0).map (fun a => (a.stall, a.reported, a.group)) = some (some 0, false, 4) ∧ stalled.fld oSyncCfg syncCfg_TAGSTALL_EXP = 10 ∧
    stalled.fld oHangHdr hangHdr_VALID = 0 := by decide +kernel

theorem test_lend : let c := ({ u0 with seqs := [(90, { parkedSince := 100 })] } : Ctl).setFld oSyncCfg syncCfg_LEND_THRESH 16
    (c.seq 90).idle 4000 = true ∧ (c.group 0).decided = none ∧ gives (.lendAssert 90) (st c) (fun t => t.c.lendOut 90) = true := by decide +kernel

/-! ### Curtains -/

/-- Links 0 and 1 are up; curtain 5 expects 10 entries, its child is port 0, its parent port 1, its epoch 3. -/
def curt5 : Ctl := (({ u0 with links := [(0, { up := true }), (1, { up := true })] } : Ctl).setReg (oCurCfg 5)
  (BitVec.ofNat 64 (10 + (1 <<< 16) + (1 <<< 24) + (3 <<< 40)))).setCurtain 5 { parts := [(7, { state := .entered }), (0x4003, { state := .entered, parity := true })] }

/-- A curtain header: KIND, SCOPE 2, CURTAIN 5, EPOCH, COUNT. -/
def hdr5 (kind epoch count : Nat) : Nat := kind + (2 <<< 6) + (5 <<< 16) + (epoch <<< 24) + (count <<< 32)

theorem test_clean_arrive : CleanHeader (st curt5) 0 (mkHeader (hdr5 3 3 4)) (hdr5 3 3 4) :=
  ⟨working_of (by decide +kernel), by decide, by decide +kernel, by decide +kernel, by decide +kernel, by decide +kernel, by decide +kernel⟩

theorem test_clean_release : CleanHeader (st curt5) 1 (mkHeader (hdr5 4 3 0)) (hdr5 4 3 0) :=
  ⟨working_of (by decide +kernel), by decide, by decide +kernel, by decide +kernel, by decide +kernel, by decide +kernel, by decide +kernel⟩

theorem test_arrive : gives (.curArrive 0 (ctlBeat (mkHeader (hdr5 3 3 4)))) (st curt5) (fun t =>
    decide ((t.c.curtain 5).round0.child = 4 ∧ (t.c.curtain 5).round0.scope = 2 ∧ (t.c.link 0).owed = [4001])) = true := by decide +kernel

theorem test_arrive_stale : gives (.curArrive 0 (ctlBeat (mkHeader (hdr5 3 2 4)))) (st curt5) (fun t =>
    decide ((t.c.curtain 5).round0.child = 0 ∧ t.c.fld (oCurStat 5) curStat_STALE_CNT = 1)) = true := by decide +kernel

theorem test_release_packet : gives (.curRelease 1 (ctlBeat (mkHeader (hdr5 4 3 0)))) (st curt5) (fun t =>
    decide ((t.c.curtain 5).rel = [(false, 2, 4001)])) = true := by decide +kernel

/-- The same curtain with a release that applies in ec 4,000, and at the root with a count that has grown to EXPECT. -/
def rel5 : Ctl := curt5.setCurtain 5 { curt5.curtain 5 with rel := [(false, 2, 4000)] }
def root5 : Ctl := (curt5.setFld (oCurCfg 5) curCfg_PARENT 16).setCurtain 5 { curt5.curtain 5 with round0 := { own := 4, child := 6, scope := 1 } }

theorem test_rounds_release : let c := rel5.curEnd 5
    ((rel5.curtain 5).round0.grown, (rel5.curtain 5).round1.grown) = (none, none) ∧
    (c.curtain 5).parts.map (fun e => e.2.state) = [.latched, .entered] ∧ (c.curtain 5).rel = [] ∧ c.fld (oCurStat 5) curStat_REL_SCOPE = 2 ∧
    ((root5.curtain 5).round false).total = 10 ∧ root5.fld (oCurCfg 5) curCfg_EXPECT = 10 ∧ root5.fld (oCurCfg 5) curCfg_PARENT = 16 ∧
    ((root5.curGrown 5 false 4000).curtain 5).round false = {} := by decide +kernel

theorem test_curtain_config : (u0.curSettle 5 u0.ec).curIdle 5 = true ∧ (curt5.curSettle 5 curt5.ec).curIdle 5 = false ∧
    gives (.curtainCfgWrite 5 3 0x30000000010000A) up (fun t => decide (t.c.reg (oCurCfg 5) = 0x10000A)) = true ∧
    gives (.curtainCfgWrite 5 3 0x0000030001010A0A) up (fun t => decide (t.c.reg (oCurCfg 5) = 0x0000030001010A0A)) = true ∧
    gives (.curtainCfgWrite 5 3 0x0000030001110A0A) up (fun t => decide (t.c.fld (oCurStat 5) curStat_BUSY = 1)) = true ∧
    gives (.curtainReset 5) (st curt5) (fun t => decide (t.c.curtain 5 = {})) = true := by decide +kernel

/-! ### Stream contexts -/

/-- Group 0 owns banks 0 to 7 of the first cluster of each quadrant. -/
def owned4 (c : Ctl) : Ctl := (((owned c).setReg (oBankOwn 64) 0x2020202020202020).setReg (oBankOwn 128) 0x2020202020202020).setReg (oBankOwn 192) 0x2020202020202020

/-- Context 3 with fields, group 0 owning the banks. -/
def ctx3 (l : List (FieldPos × Nat)) : Ctl := flds (owned4 u0) (l.map fun x => (oStrCtx 3, x.1, x.2))

/-- A FILL of 40 granules from stack granule 0x1000 on port 2 into granules 0 to 39. -/
def fill40 (st : Nat) : List (FieldPos × Nat) :=
  [(strCtx_STATE, st), (strCtx_SPORT, 2), (strCtx_SADDR, 0x1000), (strCtx_REQ_LEN, 31), (strCtx_MAX_OUT, 3), (strCtx_LEN, 40), (strCtx_ARR_CNT, 9)]

theorem test_ctx_writes : (ctx3 (fill40 0)).ctxState 3 = 0 ∧ (ctx3 (fill40 2)).ctxState 3 = 2 ∧
    gives (.ctxWrite 3 1 3 0xABCD000000000077) (st (ctx3 (fill40 0))) (fun t => decide (t.c.reg (oStrCtx 3 + 8) = 0xABCD000000000077)) = true ∧
    gives (.ctxWrite 3 0 1 0xFFFFFFFF) (st (ctx3 (fill40 0))) (fun t => decide (t.c.ctxState 3 = 0 ∧ t.c.cx 3 strCtx_GROUP = 31 ∧ t.c.cx 3 strCtx_SPORT = 31)) = true ∧
    gives (.ctxWrite 3 1 3 1) (st (ctx3 (fill40 2))) (fun t => decide (t.c.fld oStrStat strStat_CFG_REFUSED = 1)) = true := by decide +kernel

theorem test_ctx_commands : gives (.arm 3) (st (ctx3 (fill40 0))) (fun t => decide (t.c.ctxState 3 = 1)) = true ∧
    gives (.disarm 3) (st (ctx3 (fill40 1))) (fun t => decide ((t.c.ctx 3).disarmAt = some 4004)) = true ∧
    gives (.cancel 3) (st (ctx3 (fill40 2))) (fun t => decide ((t.c.ctx 3).cancelAt = some 4004)) = true ∧
    gives (.clear 3) (st (ctx3 (fill40 4))) (fun t => decide (t.c.ctxState 3 = 0)) = true ∧
    gives (.clear 3) (st (ctx3 (fill40 2))) (fun t => decide (t.c.ctxState 3 = 2 ∧ t.c.fld oStrCmdStat strCmdStat_RESULT = 1)) = true := by decide +kernel

/-- Counter 0, the trigger of context 3 (which asks for 32 granules), stands at `v` with release scope 2. -/
def trig (v : Nat) (c : Ctl) : Ctl := flds c [(oCnt 0, cnt_VALUE, v), (oCnt 0, cnt_REL_SCOPE, 2), (oStrCtx 3, strCtx_TRIG_TARGET, 5), (oStrCtx 3, strCtx_LEN, 32)]

theorem test_trigger_witness : let c := trig 5 (ctx3 (fill40 1))
    c.ctxState 3 = 1 ∧ (c.ctx 3).disarmAt = none ∧ 2 ≤ c.cntScopeAt 0 4000 ∧ reached (c.cntAt 0 4000) (c.cx 3 strCtx_TRIG_TARGET) = true ∧
    c.startCode 3 false = 0 ∧ c.cx 3 strCtx_OSET = 0 ∧ c.cx 3 strCtx_DIR = 0 ∧
    reached ((trig 4 c).cntAt 0 4000) 5 = false ∧ (trig 5 (flds u0 ((fill40 1).map fun x => (oStrCtx 3, x.1, x.2)))).startCode 3 false = 4 := by decide +kernel

/-- Sequencer 90 with a stream start of context 3 to release in ec 4,000. -/
def starts90 : State := st { ctx3 (fill40 0 ++ [(strCtx_LEN, 32)]) with seqs := [(90, { releases := [⟨.streamStart, 3, 0, 0, 4000⟩] })] }

theorem test_release_stream : starts90.c.startCode 3 true = 0 ∧ starts90.c.cx 3 strCtx_OSET = 0 ∧ starts90.c.cx 3 strCtx_DIR = 0 ∧
    gives (.releaseApply 90) starts90 (fun t => decide (t.c.ctxState 3 = 2 ∧ (t.c.ctx 3).startBc = 8004)) = true := by decide +kernel

theorem test_late_commands : let c := (ctx3 (fill40 2)).setCtx 3 { trigCc := some 1000, doneCc := some 1000 }
    wrote (.disarm 3) (st c) (c.cmdShow 3 2 2) = true ∧ wrote (.cancel 3) (st c) (c.cmdShow 3 3 2) = true ∧
    ((c.setCtx 3 { cancelAt := some 4000 }).ctxSettle 3 4000).ctxState 3 = 3 := by decide +kernel

theorem test_trigger_start : gives (.triggerStart 3) (st (trig 5 (ctx3 (fill40 1)))) (fun t => decide (t.c.ctxState 3 = 2 ∧ t.c.cx 3 strCtx_EPOCH = 1 ∧
    (t.c.ctx 3).startBc = 8004)) = true := by decide +kernel

/-- Context 3 drains after a failure, a cancel or a kill, 7 of its 20 granules counted. -/
def drains (d : DrainTo) : Ctl := (ctx3 (fill40 3 ++ [(strCtx_ISSUED, 20), (strCtx_COUNTED, 7)])).setCtx 3 { drain := some d }

theorem test_drain : (drains .killed).ctxState 3 = 3 ∧ (drains .killed).ctxIdle 3 = true ∧ (flds (drains .killed) [(oStrCtx 3, strCtx_OUTST, 1)]).ctxIdle 3 = false ∧
    [DrainTo.killed, .cancelled, .halted 5].map (fun d => match exec (.drainComplete 3) (st (drains d)) with
      | .next t => (t.c.ctxState 3, t.c.cx 3 strCtx_STATUS, t.c.fld oStrCmdStat strCmdStat_DRAIN_CNT) | _ => (9, 9, 9)) = [(0, 8, 13), (0, 2, 13), (4, 5, 13)] := by
  decide +kernel

/-- Context 3 runs with its first request of 32 granules out under tag 17 since bc 100. -/
def tag17 : StackTag := { tag := 17, ctx := 3, from_ := 0, n := 32, total := 32, write := false, useBc := 100 }
def asks : Ctl := (ctx3 (fill40 2 ++ [(strCtx_ISSUED, 32), (strCtx_OUTST, 1)])).setSport 2 { tags := [tag17] }

theorem test_late : asks.oldestTag 3 = some tag17 ∧ gives (.contextLate 3) (st (flds asks [(oStrCfg, strCfg_LATE_EXP, 12)])) (fun t => (t.c.ctx 3).late) = true ∧
    same (.contextLate 3) (st (flds asks [(oStrCfg, strCfg_LATE_EXP, 13)])) = true := by decide +kernel

/-- Ordered set 1 has the one member context 3, which has staged its one contribution. -/
def set1 : Ctl := ({ flds (ctx3 [(strCtx_STATE, 2), (strCtx_OSET, 1), (strCtx_XOP, 2), (strCtx_LEN, 1), (strCtx_ISSUED, 1), (strCtx_REQ_LEN, 1)]) [(oStrOset 1, strOset_MEMBERS, 1)] with
  osets := [(1, { started := [3] })] } : Ctl).setCtx 3 { osetHeld := [(0, 0, 77)] }

theorem test_oset : set1.osetComplete 1 = true ∧ gives (.osetRoundApply 1) (st set1) (fun t =>
    decide (t.c.areqs.map (fun a => (a.kind, a.write)) = [(AKind.osetRead 3 0, false)]) && (t.c.oset 1).applying) = true := by decide +kernel

/-- Wait set 4: context 3 has stood without credit since cc 0. -/
def stuck4 : Ctl := flds (ctx3 (fill40 2)) [(oStrCtx 3, strCtx_WSET, 4), (oStrCtx 3, strCtx_CREDIT_EN, 1), (oStrCtx 3, strCtx_RING_SIZE, 0), (oStrCfg, strCfg_DL_EXP, 8)]

theorem test_deadlock_witness : stuck4.waitSet 4 = [3] ∧ stuck4.cx 3 strCtx_ISSUED < stuck4.cx 3 strCtx_LEN ∧ stuck4.creditOk 3 4000 = false ∧
    stuck4.stillSince 3 + 256 ≤ stuck4.cc ∧ Tab.get 0 stuck4.dlTold 4 = 0 ∧ stuck4.fld oDlHdr dlHdr_VALID = 0 := by decide +kernel

/-! ### Stack ports and landings -/

theorem test_request_witness : let c := ctx3 (fill40 2)
    c.portIssues 2 = true ∧ c.select 2 = some 3 ∧ c.osetOver 3 = false ∧ c.nextLen 3 = 32 ∧ c.cx 3 strCtx_SPORT = 2 ∧
    gives (.streamRequestIssue 2 17 true) (st c) (fun t => decide ((t.c.sout 2).gaddr = 0x1000 ∧ (t.c.sout 2).len = 31 ∧ t.c.cx 3 strCtx_ISSUED = 32 ∧
      t.c.cx 3 strCtx_OUTST = 1 ∧ (t.c.sport 2).tags.map (fun u => (u.tag, u.ctx, u.n)) = [(17, 3, 32)])) = true := by decide +kernel

/-- The same request, presented while the port is not ready. -/
def shown2 : Ctl := (ctx3 (fill40 2)).requestShow 2 ((ctx3 (fill40 2)).nextRequest 17 3)

theorem test_request_held : gives (.streamRequestIssue 2 17 false) (st (ctx3 (fill40 2))) (fun t => decide ((t.c.sport 2).shown.map (fun u => (u.tag, u.n)) = some (17, 32) ∧
      (t.c.sport 2).tags = [] ∧ t.c.cx 3 strCtx_OUTST = 1)) = true ∧
    same (.streamRequestIssue 2 17 false) (st shown2) = true ∧
    gives (.streamRequestIssue 2 9 true) (st (shown2.setSport 2 { shown2.sport 2 with issueBc := none })) (fun t => decide ((t.c.sport 2).shown = none ∧
      (t.c.sport 2).tags.map (fun u => u.tag) = [17] ∧ t.c.cx 3 strCtx_OUTST = 1)) = true := by decide +kernel

theorem test_request_withdrawn : let c := shown2.sportRemove 2
    (c.sport 2).shown = none ∧ c.ctxState 3 = 3 ∧ (c.ctx 3).fail = some 0 ∧ c.cx 3 strCtx_OUTST = 0 ∧ (c.sout 2).reqValid = true ∧ (c.sportsBc.sout 2).reqValid = false := by decide +kernel

/-- Weight image 5 of 40 granules on port 2 is being hashed since bc 0: its read-back of stack granules is due. -/
def hashes : Ctl := { flds u0 [(oWimg 5, wimg_STATE, 2), (oWimg 5, wimg_KIND, 1), (oWimg 5, wimg_PORTS, 4), (oWimg 5, wimg_LEN, 40)] with audit := { hashes := [(5, some { since := 0 })] } }

theorem test_hash_request : hashes.hashDue 2 = some { sys := .hash 5, first := 0, n := 40, gaddr := 0 } ∧ hashes.portReady 2 = true ∧
    gives (.streamRequestIssue 2 17 false) (st hashes) (fun t => decide ((t.c.sport 2).shown.map (fun u => (u.tag, u.sys, u.n)) = some (17, some (.hash 5), 40))) = true := by
  decide +kernel

/-- The same of a SPILL of 2 granules. -/
def spill2 (s : Nat) : Ctl := ctx3 [(strCtx_STATE, s), (strCtx_DIR, 1), (strCtx_SPORT, 2), (strCtx_SADDR, 0x1000), (strCtx_REQ_LEN, 1), (strCtx_LEN, 4), (strCtx_MAX_OUT, 3), (strCtx_ARR_CNT, 9)]

theorem test_spill_request : gives (.streamRequestIssue 2 17 true) (st (spill2 2)) (fun t => decide ((t.c.sout 2).write = true ∧
    t.c.areqs.map (fun a => (a.kind, a.gi)) = [(AKind.spillRead 3 0, 0), (AKind.spillRead 3 1, 1)])) = true := by decide +kernel

/-- A burst of 2 granules, both read. -/
def burst : Ctl := (spill2 2).setSport 2 { bursts := [{ tag := 17, n := 2, data := [(0, ones), (1, 1)] }] }

theorem test_write_beat : gives (.stackWriteBeat 2 true) (st burst) (fun t => decide ((t.c.sout 2).wdData = [ones, 1] ∧ (t.c.sout 2).wdLanes = 3 ∧
      (t.c.sout 2).wdLast = true ∧ (t.c.sport 2).bursts = [])) = true ∧
    gives (.stackWriteBeat 2 false) (st burst) (fun t => (t.c.sport 2).beat && (t.c.sout 2).wdValid && decide ((t.c.sport 2).bursts.length = 1)) = true ∧
    gives (.stackWriteBeat 2 true) (st (burst.setSport 2 { burst.sport 2 with beat := true })) (fun t => decide ((t.c.sport 2).bursts = [] ∧ (t.c.sport 2).beat = false)) = true ∧
    same (.stackWriteBeat 2 true) (st ((spill2 2).setSport 2 { bursts := [{ tag := 17, n := 2, data := [(0, ones)] }] })) = true := by decide +kernel

theorem test_beat_witness : asks.rspReady 2 = true ∧ (asks.sport 2).quar.contains 17 = false ∧
    ((asks.sport 2).tags.find? fun t => decide (t.tag = 17) && !t.write) = some tag17 ∧
    ((asks.sport 2).tags.find? fun t => decide (t.tag = 18) && !t.write) = none ∧ (asks.ctx 3).drain = none ∧ (asks.ctx 3).fail = none ∧
    beatKind tag17 (2 ^ 32 - 1) true = 0 ∧ beatKind tag17 (2 ^ 32 - 1) false = 3 ∧ beatKind tag17 1 true = 4 ∧ beatKind { tag17 with beats := 1 } 1 true = 2 ∧
    asks.cx 3 strCtx_DIR = 0 ∧ asks.cx 3 strCtx_XOP = 0 ∧ asks.cx 3 strCtx_OSET = 0 ∧ Nat.testBit (asks.fld oPertStream pertStream_PORTS) 2 = false := by
  decide +kernel

/-- Zero granules decode without an error in either code. -/
theorem test_beat_data : ∀ rep : Bool, (decodeG rep 0).bad = false ∧ (decodeG rep 0).pois = false := by decide +kernel

theorem test_quarantined_beat : gives (.stackRspBeat 2 17 1 true false []) (st (asks.setSport 2 { quar := [17] })) (fun t => decide ((t.c.sport 2).quar = [])) = true := by
  decide +kernel

theorem test_ack_witness : let g : StackTag := { tag17 with write := true, n := 2, total := 2 }
    let c := (flds (spill2 2) [(oStrCtx 3, strCtx_OUTST, 1), (oStrCtx 3, strCtx_ISSUED, 2)]).setSport 2 { tags := [g] }
    ((c.sport 2).tags.find? fun t => decide (t.tag = 17) && t.write) = some g ∧ c.ctxState 3 = 2 ∧ c.cx 3 strCtx_DIR = 1 ∧ (c.ctx 3).acked = [] ∧
    c.cx 3 strCtx_COUNTED = g.from_ ∧ g.from_ + g.n < c.cx 3 strCtx_LEN ∧
    gives (.stackWack 2 17 false) (st c) (fun t => decide (t.c.cx 3 strCtx_COUNTED = 2 ∧ t.c.fld (oCnt 9) cnt_VALUE = 2 ∧ (t.c.sport 2).tags = [])) = true := by
  decide +kernel

theorem test_timeout_witness : asks.fld (oSportCfg 2) sportCfg_TIMEOUT_EXP ≠ 0 ∧ (flds asks [(oSportCfg 2, sportCfg_TIMEOUT_EXP, 12)]).bc = 8000 ∧
    100 + 2 ^ 12 ≤ 8000 ∧ same (.tagTimeout 2 17) (st (flds asks [(oSportCfg 2, sportCfg_TIMEOUT_EXP, 13)])) = true := by decide +kernel

/-- Slot 64 of the first cluster is of class `k`, and `a` is the one request. -/
def asksBank (k : Nat) (a : AReq) (c : Ctl) : Ctl := { c.setReg (csOff 0 1 64 0) (BitVec.ofNat 64 k) with areqs := [a], nextReq := 1 }

/-- Granule 0 of context 3 lands. -/
def land0 : AReq := { id := 0, req := 2, kind := .streamLand 3 0 0, gi := 0, group := 0, granule := ones }
def lands : Ctl := asksBank 1 land0 (ctx3 (fill40 2))
def spills : Ctl := (asksBank 1 { id := 0, req := 2, kind := .spillRead 3 0, gi := 0, group := 0, order := 17 } (spill2 2)).setSport 2 { bursts := [{ tag := 17, n := 2 }] }

theorem test_landing_witness : lands.slotless land0 = false ∧ (lands.firstSlot land0).isSome = true ∧ lands.ownsAsync 0 0 true = true ∧
    lands.tagChecked 0 = false ∧ (asksBank 1 land0 u0).ownsAsync 0 0 true = false ∧ ((asksBank 1 land0 u0).firstSlot land0).isSome = true ∧
    (spills.areqs.map fun a => (spills.firstSlot a).isSome) = [true] ∧ (spills.dropReq 0).ownsAsync 0 0 false = true := by decide +kernel

theorem test_landing_commits : gives (.streamLanding 0) (st lands) (fun t => decide (t.banks = [(0, ones)])) = true := by decide +kernel

theorem test_spill_read : gives (.spillSourceRead 0) { st spills with banks := [(0, ones)] } (fun t => decide ((t.c.sport 2).bursts.map (fun u => u.data) = [[(0, ones)]])) = true := by
  decide +kernel

theorem test_script_landing : let c := asksBank 1 land0 (ctx3 [(strCtx_STATE, 2), (strCtx_DIR, 2), (strCtx_SPORT, 2), (strCtx_LEN, 40), (strCtx_REQ_LEN, 31)])
    c.cx 3 strCtx_DIR = 2 ∧ gives (.streamLanding 0) (st c) (fun t => decide (Tab.get fillGranule t.c.store 0 = ones)) = true := by decide +kernel

/-- The merge of granule 0 waits for its second slot. -/
def merge0 : AReq := { land0 with base := some 0, second := some (8000, ones), mask := 1 }

theorem test_merge : ((asksBank 1 merge0 (ctx3 (fill40 2))).secondSlot merge0).isSome = true ∧
    gives (.partialMerge 0) (st (asksBank 1 merge0 (ctx3 (fill40 2)))) (fun t => decide (t.banks = [(0, ones)])) = true := by decide +kernel

/-! ### Accesses of several lanes, forwarding, conversion -/

theorem rows_apart {c : Ctl} {lanes : List WLane} (h : ∀ q, (c.under q).copying = none)
    (k : ∀ l ∈ lanes, ∀ m ∈ lanes, c.keyOf (c.place l.gi) = c.keyOf (c.place m.gi) → l.gi = m.gi) : RowsApart c lanes := by
  intro l hl m hm x a b
  have e : ∀ y z, KeyWritten c y z → z = y := fun y z w => w.elim id fun w => absurd w.1 (by rw [h]; simp)
  exact k l hl m hm ((e _ _ a).symm.trans (e _ _ b))

/-- Lanes 0 and 2 of sequencer 90 write granule 0, lane 5 granule 4; or they accumulate into them. -/
def wide (acc : Option Nat) : WAccess := { wacc 0 acc with lanes := [{ lane := 0, gi := 0, granule := 1, fault := false }, { lane := 2, gi := 0, granule := ones, fault := false },
  { lane := 5, gi := 4, granule := ones, fault := true }], mask := 0x25 }

theorem key04 : (owned u0).keyOf ((owned u0).place 0) ≠ (owned u0).keyOf ((owned u0).place 4) := by decide +kernel

theorem wide_apart (a : WAccess) (h : a.lanes.map (fun l => l.gi) = [0, 0, 4]) : RowsApart (writes true a).c a.lanes := by
  refine rows_apart (fun _ => rfl) fun l hl m hm => ?_
  have f : ∀ l ∈ a.lanes, l.gi = 0 ∨ l.gi = 4 := fun l hl => by
    have := List.mem_map_of_mem (f := fun l : WLane => l.gi) hl
    rw [h] at this
    simp only [List.mem_cons, List.not_mem_nil, or_false] at this
    omega
  have k : (writes true a).c.keyOf ((writes true a).c.place 0) ≠ (writes true a).c.keyOf ((writes true a).c.place 4) := by
    exact key04
  rcases f l hl with a | a <;> rcases f m hm with b | b <;> rw [a, b] <;> intro e
  · rfl
  · exact absurd e k
  · exact absurd e.symm k
  · rfl

theorem test_wide_write : ((writes true (wide none)).c.seq 90).dueWrite 8000 = some (wide none) ∧
    (wide none).lanes.map ((writes true (wide none)).c.plainLane [] 90 (wide none)) = [0, 0, 0] ∧
    (writes false (wide none)).c.plainLane [] 90 (wide none) { lane := 5, gi := 4, granule := ones, fault := true } = 1 ∧
    gives (.scheduledBankAccess 90 true) (writes true (wide none)) (fun t => decide (t.banks = [(0, ones), (4096, ones)]) &&
      decide ((t.c.seq 90).writes.map (fun a => a.lanes.map fun l => (l.passed, l.code)) = [[(true, 0), (true, 0), (true, 3)]])) = true := by decide +kernel

theorem test_highest : Highest (wide none).lanes ((writes true (wide none)).c.plainLane [] 90 (wide none)) { lane := 2, gi := 0, granule := ones, fault := false } := by
  refine ⟨by decide +kernel, by decide +kernel, ?_⟩
  decide +kernel

/-- Sequencer 90 accumulates FP32: two lanes into granule 0, a bad one into granule 4. -/
theorem test_wide_accumulate : (wide (some 0)).lanes.map ((writes true (wide (some 0))).c.accLane [] 90 (wide (some 0))) = [0, 0, 0] ∧
    ((writes true (wide (some 0))).c.stepUses [] 0 8000).map (fun u => (u.lane, u.fault)) = [(0, false), (2, false)] ∧
    ((writes true (wide (some 0))).c.stepUses [] 4 8000).map (fun u => (u.lane, u.fault)) = [(5, true)] ∧ (writes true (wide (some 0))).c.chainResults 0 8000 = [] ∧
    gPoison (decodeG ((writes true (wide (some 0))).c.repOf 0) (rowAt [] 0)).word = false ∧
    gives (.scheduledBankAccess 90 true) (writes true (wide (some 0))) (fun t => decide (t.banks = [] ∧
      (t.c.seq 90).writes.map (fun a => (a.first, a.lanes.map fun l => (l.passed, l.code))) = [(true, [(true, 0), (true, 0), (true, 3)])])) = true := by decide +kernel

/-- The same after its first slot, with results to write. -/
def wideHalf : WAccess := { wide (some 0) with t := 3995, first := true, lanes := (wide (some 0)).lanes.map fun l => { l with passed := true, prior := ones } }

theorem test_wide_writeback : wideHalf.lastBc ≤ 8000 ∧ wideHalf.lanes.map ((writes true wideHalf).c.leadsStep 90 wideHalf) = [true, false, true] ∧
    RowsApart (writes true wideHalf).c wideHalf.lanes ∧
    gives (.accWriteback 90) (writes true wideHalf) (fun t => decide (t.banks = [(0, ones), (4096, ones)])) = true :=
  ⟨by decide +kernel, by decide +kernel, wide_apart _ rfl, by decide +kernel⟩

/-- A write of sequencer 90 to granule 8 that has left `ones` there, or (`done` false) is still to come, and the forward of its lane 0. -/
def wrote8 (done : Bool) (t : Nat) : WAccess := { wacc 8 none with id := 3, t := t, first := done, done := done, lanes := [{ lane := 0, gi := 8, granule := ones, fault := false, passed := done, after := ones }] }
def reads8 (w : WAccess) (r : RAccess) : State :=
  let c : Ctl := ({ u0 with seqs := [(90, { reads := [r], writes := [w] })] } : Ctl).setReg (oWing 90) 0
  { st (owned c) with banks := [(0, ones)] }

/-- A read of granules 0, 4 and 8, the last from the write, and of one of another group. -/
def rWide : RAccess := { racc 0 with deliver := 4010, lanes := [{ gi := 0 }, { gi := 4 }, { gi := 8, fwd := some (3, 0) }, { gi := 36 }] }

theorem test_wide_read : ((reads8 (wrote8 true 3980) rWide).c.seq 90).dueRead 8000 = some rWide ∧
    [0, 4, 8, 36].map (fun g => (reads8 (wrote8 true 3980) rWide).c.pathCause 0 g 8000) = [0, 0, 0, 1] ∧
    (((reads8 (wrote8 true 3980) rWide).c.seq 90).source (3, 0)).map (fun y => y.1.done) = some true ∧
    ((wrote8 true 3980).lateFor 4010, (wrote8 false 4006).staysLate 4010 4000, (wrote8 false 4001).lateFor 4010) = (false, false, false) ∧
    (wrote8 false 4008).staysLate 4010 4008 = true ∧ (wrote8 true 3980).lastBc < 8000 ∧
    gives (.scheduledBankAccess 90 false) (reads8 (wrote8 true 3980) rWide) (fun t => decide ((t.c.seq 90).reads.map (fun r => r.lanes.map fun l => (l.cause, l.granule)) =
      [[(0, ones), (0, fillGranule), (0, ones), (1, poisonGranule false)]])) = true ∧
    gives (.scheduledBankAccess 90 false) (reads8 (wrote8 false 4001) rWide) (fun t => decide ((t.c.seq 90).reads.map (fun r => r.lanes.map fun l => l.got) =
      [[false, false, false, true]] ∨ (t.c.seq 90).reads.any RAccess.waits = true)) = true := by decide +kernel

/-- The same read once its bank access is over, its forwarded value formed or not. -/
def rFwd : RAccess := { racc 8 with checked := true, lanes := [{ gi := 8, fwd := some (3, 0) }] }

theorem test_forwarded_delivery : gives (.readDelivery 90) (reads8 (wrote8 true 3980) rFwd) (fun t => decide ((Tab.get {} t.c.rdOut 90).data = [ones])) = true ∧
    (wrote8 false 3990).lateFor 4000 = false ∧ same (.readDelivery 90) (reads8 (wrote8 false 3990) rFwd) = true := by decide +kernel

/-- A read delivery of one access. -/
def delivers90 (rs : List RAccess) : State := st { u0 with seqs := [(90, { reads := rs })] }

/-- BF16 (SRC 1) to FP32 (DST 4): a granule of ones in its data (NaN), and element 0 of value 1.0. -/
def rConv : RAccess := { racc 0 with opmode := 1, oparg := 0x41, checked := true, lanes := [{ gi := 0, granule := mkWorking 0x3F80 false true 0 }] }

/-- MXFP8 E4M3 (SRC 7) to FP32: granule 33 with its scale granule 32, and one from the granule of the scales. -/
def rMx (gi : Nat) : RAccess := { rConv with oparg := 0x47, lanes := [{ gi := gi, granule := mkWorking 0x38 false true 0 }, { gi := 32, scale := true, granule := mkWorking 128 false true 0 }] }

theorem test_conversion : Delivers (delivers90 [rConv]) 90 rConv ∧ Delivers (delivers90 [rMx 33]) 90 (rMx 33) ∧ Delivers (delivers90 [rMx 32]) 90 (rMx 32) ∧
    convOk 1 4 1 = true ∧ convOk 7 4 1 = true ∧ dstOf (argDst 0x41) = some .fp32 ∧ mxLanesOk 7 [33] = true ∧ mxLanesOk 7 [32] = false ∧
    gives (.readDelivery 90) (delivers90 [rConv]) (fun t => decide ((Tab.get {} t.c.rdOut 90).data.map (fun g => bits (gData g) 0 32) = [0x3F800000, 0])) = true ∧
    gives (.readDelivery 90) (delivers90 [rMx 33]) (fun t => decide ((Tab.get {} t.c.rdOut 90).data.length = 4 ∧ ((Tab.get {} t.c.rdOut 90).data.map fun g => bits (gData g) 0 32).head? = some 0x40000000)) = true ∧
    gives (.readDelivery 90) (delivers90 [rMx 32]) (fun t => decide ((Tab.get {} t.c.rdOut 90).data = List.replicate 4 (poisonGranule false) ∧ t.c.fld (oMsoStat 0) msoStat_FORMAT = 4)) = true :=
  ⟨by unfold Delivers; decide +kernel, by unfold Delivers; decide +kernel, by unfold Delivers; decide +kernel, by decide +kernel⟩

/-- A complete tile of 32 rows of 32 elements of one byte: row r holds r + 1 in its column 0, and the k-th access is the one to be delivered. -/
def tileRow (r : Nat) : RLane := { gi := r, granule := mkWorking (r + 1) false true 0 }
def tile8 (mode : BitVec 4) (arg : BitVec 16) : List RAccess := (List.range 4).map fun k =>
  { id := k, issue := 3986 + k, deliver := 4000 + k, bankBc := 7992, opmode := mode, oparg := arg, tile := some (0, k), checked := true, lanes := (List.range 8).map fun j => tileRow (8 * k + j) }

theorem test_transposed : Delivers (delivers90 (tile8 2 0)) 90 ((tile8 2 0).headD rConv) ∧ ((tile8 2 0).headD rConv).tile = some (0, 0) ∧ argEsize 0 = 1 ∧
    Delivers (delivers90 (tile8 3 0x13)) 90 ((tile8 3 0x13).headD rConv) ∧ transConvOk 3 1 = false ∧ transConvOk 3 2 = true ∧
    (List.range 32).map tileRow = (tile8 2 0).flatMap (fun r => r.lanes) ∧ tileSource 1 0 5 = (5, 0) ∧ tileSource 1 1 37 = (5, 9) ∧
    gives (.readDelivery 90) (delivers90 (tile8 2 0)) (fun t => decide ((Tab.get {} t.c.rdOut 90).data.map gData = leNat ((List.range 32).map fun i => BitVec.ofNat 8 (i + 1)) :: List.replicate 7 0)) = true ∧
    gives (.readDelivery 90) (delivers90 (tile8 3 0x23)) (fun t => decide ((Tab.get {} t.c.rdOut 90).data.length = 8)) = true :=
  ⟨by unfold Delivers; decide +kernel, by decide +kernel, by decide, by unfold Delivers; decide +kernel, by decide +kernel⟩

/-- The gather of `gath` at a bank of its group, one fetch at a row that holds `ones`. -/
theorem test_gather_fetch : (let s : State := { st (owned { u0 with seqs := [(90, { gather := some (gath 0) })] }) with banks := [(0, ones)] }
    s.c.pathCause 0 0 (2 * 3901 + 8) = 0 ∧ s.c.tagChecked 0 = false ∧ (gath 0).target 0 0 = some 0 ∧ (gath 0).turned = [] ∧
    gives (.gatherFetch 90) s (fun t => decide (((t.c.seq 90).gather.map fun g => g.next) = some 1)) = true) := by decide +kernel

/-- A beat of the FILL that carries `ones` and then a poisoned granule, or comes with rsp_err. -/
def poisoned : Granule := poisonGranule false

theorem test_plain_fill : PlainFill asks 2 3 ∧ landsAs asks 3 0 false ones = (ones, false) ∧ (landsAs asks 3 0 true ones).2 = true ∧
    (landsAs asks 3 4 false poisoned).2 = true := by
  refine ⟨⟨by decide +kernel, by decide +kernel, by decide +kernel, by decide +kernel, by decide +kernel, by decide +kernel, by decide +kernel, by decide +kernel, by decide +kernel, ?_⟩, ?_⟩
  · exact fun b h => absurd h List.not_mem_nil
  · decide +kernel

/-- With POIS_PASS = 0 the context halts at the poisoned granule; with POIS_PASS = 1 it goes on. -/
theorem test_poisoned_beat :
    gives (.stackRspBeat 2 17 0xFFFFFFFF true false (0 :: poisoned :: List.replicate 30 0)) (st asks) (fun t => decide (t.c.ctxState 3 = 3 ∧ (t.c.ctx 3).drain = some (.halted 4) ∧
      (t.c.ctx 3).fail = some 1 ∧ t.c.areqs.length = 2)) = true ∧
    gives (.stackRspBeat 2 17 0xFFFFFFFF true false (0 :: poisoned :: List.replicate 30 0)) (st (flds asks [(oStrCtx 3, strCtx_POIS_PASS, 1)])) (fun t =>
      decide (t.c.ctxState 3 = 2 ∧ t.c.areqs.length = 32 ∧ (t.c.sport 2).tags = [])) = true ∧
    gives (.stackRspBeat 2 17 0xFFFFFFFF true true (List.replicate 32 0)) (st asks) (fun t => decide ((t.c.ctx 3).fail = some 0 ∧ t.c.areqs.length = 1)) = true := by decide +kernel

/-! ### Links, windows and packets -/

/-- Link 1 is up with 3 credits, and a packet of descriptor 4 is under way on it. -/
def link1 (d : List TxPkt) : Ctl := { u0 with links := [(1, { up := true, credits := 3, data := d })] }
def out1 : TxPkt := { pkt := { header := 0, payload := [1, 2] }, desc := some 4 }

theorem test_links : gives (.linkUp 1) up (fun t => decide ((t.c.link 1).up = true ∧ (t.c.link 1).credits = 64)) = true ∧
    gives (.creditReturn 1) (st (link1 [])) (fun t => decide ((t.c.link 1).credits = 4)) = true ∧ same (.creditReturn 1) up = true ∧
    gives (.linkDown 1) (st (link1 [out1])) (fun t => decide ((t.c.link 1).up = false ∧ (t.c.link 1).credits = 0 ∧ (t.c.link 1).data = [out1] ∧
      t.c.fld (oLinkStat 1) linkStat_DOWNS = 1)) = true ∧ u0.fld oPertLink pertLink_CAP = 0 := by decide +kernel

/-- A packet whole in the receive buffer of link 1, and one that has come in part. -/
def inbox2 : List RxPkt := [{ h := 0, payload := [5], came := 3900, whole := some 3900 }, { h := 0, payload := [], came := 3990, whole := none }]

theorem test_link_falls : let c := flds (link1 [{ out1 with sent := 1 }]) [(oLsend 4, lsend_STATE, 2)]
    c.sdState 4 = 2 ∧ c.sd 4 lsend_JOURNALED = 0 ∧ (c.link 1).data.map (fun d => (d.sent, d.desc)) = [(1, some 4)] ∧
    gives (.linkDown 1) (st ((link1 []).setLink 1 { up := true, inbox := inbox2, skip := .packet })) (fun t =>
      decide ((t.c.link 1).inbox.map (fun p => (p.payload, p.stale)) = [([5], true)] ∧ (t.c.link 1).skip = .nothing)) = true ∧
    gives (.linkUp 1) up (fun t => decide (t.c.power.rose = 2)) = true ∧
    gives (.linkDown 16) (st (u0.setLink 16 { up := true, credits := 3 })) (fun t => decide ((t.c.link 16).credits = 0)) = true ∧
    same (.linkUp 1) (st (link1 [])) = true ∧ same (.linkDown 1) up = true := by decide +kernel

/-- Window 6 of 32 granules from granule 0 on; links 0 and 1 are up. -/
def win6 (l : List (FieldPos × Nat)) : Ctl := flds ({ owned4 u0 with links := [(0, { up := true, credits := 8 }), (1, { up := true, credits := 8 })] } : Ctl)
  ([(win_SIZE, 32), (win_ARR_CNT, 9)] ++ l |>.map fun (x : FieldPos × Nat) => (oWin 6, x.1, x.2))

theorem test_window_commands : (win6 []).openCode 6 = 0 ∧ (win6 [(win_STATE, 1)]).openCode 6 = 1 ∧ (win6 [(win_SIZE, 0)]).openCode 6 = 2 ∧
    gives (.openWin 6) (st (win6 [])) (fun t => decide (t.c.wn 6 win_STATE = 1)) = true ∧
    gives (.closeWin 6) (st (win6 [(win_STATE, 1)])) (fun t => decide (t.c.wn 6 win_STATE = 2)) = true ∧
    gives (.windowClosed 6) (st (win6 [(win_STATE, 2)])) (fun t => decide (t.c.wn 6 win_STATE = 0)) = true ∧
    gives (.windowWrite 6 1 3 0xFFFFFF) (st (win6 [])) (fun t => decide (t.c.wn 6 win_SIZE = 0xFFFFFF)) = true ∧
    gives (.windowWrite 6 1 3 5) (st (win6 [(win_STATE, 1)])) (fun t => decide (t.c.wn 6 win_SIZE = 32 ∧ t.c.fld oWinCmd winCmd_RESULT = 1)) = true ∧
    gives (.badCmd 6 false 3) up (fun t => decide (t.c.fld oWinCmd winCmd_RESULT = 6)) = true := by decide +kernel

/-- A DATA header for window 6: OFFSET, granules. -/
def hData (off n : Nat) : Nat := 1 + (6 <<< 16) + (off <<< 32) + ((n - 1) <<< 64) + (7 <<< 96)

/-- A packet of two granules, and one of nine: two beats. -/
def two : Packet := { header := mkHeader (hData 3 2), payload := [ones, 0] }
def nine : Packet := { header := mkHeader (hData 3 9), payload := [1, 2, 3, 4, 5, 6, 7, 8, ones] }

/-- The units with packet `p` whole in the receive buffer of a port, its header come in ec `x`. -/
def holds (port x h : Nat) (p : List Granule) (c : Ctl) : Ctl := c.setLink port { c.link port with inbox := [{ h := h, payload := p, came := x, whole := some x }] }

theorem test_whole : AloneWhole (holds 0 3900 (hData 3 2) [ones, 0] (win6 [(win_STATE, 1)])) 0 { h := hData 3 2, payload := [ones, 0], came := 3900, whole := some 3900 } 3900 :=
  ⟨rfl, by decide +kernel, rfl, by decide +kernel, rfl⟩

theorem heard_of {s : State} {port h : Nat} {header : Granule}
    (e : (s.c.sysReady && !s.c.clk.frozen && !s.c.blackout && decide (port ≤ 16) && s.c.hears port && (port != 16 || s.c.twinMode != 0) &&
      (s.c.link port).inbox.isEmpty && decide ((decodeG false header).fixed = 0) && decide (hdrData port header = some h)) = true) : HeardHeader s port header h := by
  simp only [Bool.and_eq_true, Bool.or_eq_true, Bool.not_eq_true', decide_eq_true_eq, List.isEmpty_iff, bne_iff_ne] at e
  obtain ⟨⟨⟨⟨⟨⟨⟨⟨a, b⟩, c⟩, d⟩, f⟩, g⟩, i⟩, j⟩, k⟩ := e
  exact ⟨⟨⟨a, b⟩, c⟩, d, f, fun hp => g.resolve_left (fun n => n hp), i, j, k⟩

theorem test_heard_header : HeardHeader (st (win6 [(win_STATE, 1)])) 0 two.header (hData 3 2) ∧ HeardHeader (st (win6 [(win_STATE, 1)])) 0 nine.header (hData 3 9) :=
  ⟨heard_of (by decide +kernel), heard_of (by decide +kernel)⟩

theorem test_data_witness : (win6 [(win_STATE, 1)]).dataKind 0 (hData 3 2) = 0 ∧ hJournaled (hData 3 2) = false ∧ hOrdered (hData 3 2) = false ∧
    (win6 [(win_STATE, 1)]).dataKind 0 (hData 31 2) = 4 ∧ (win6 []).dataKind 0 (hData 3 2) = 3 ∧ (win6 [(win_STATE, 1)]).wn 6 win_ORDERED = 0 ∧
    ({ win6 [(win_STATE, 1)] with audit := { hold := 1 } } : Ctl).winHeld 6 = true ∧ packetBeats 9 = 2 ∧
    hOrdered (hData 3 2 + 128) = true ∧ (win6 [(win_STATE, 1), (win_ORDERED, 1), (win_ORD_RANKS, 1), (win_ORD_PER_RANK, 1), (win_ORD_RESERVE, 9)]).dataKind 0 (hData 3 2 + 128 - (7 <<< 96)) = 0 ∧
    hdrData 0 0 = none ∧ hdrAnswer 0 0 = none := by decide +kernel

theorem test_data_beats : gives (.dataPacket 0 (two.beat 0)) (st (win6 [(win_STATE, 1)])) (fun t =>
      decide ((t.c.link 0).inbox = [arrived two (hData 3 2) 0 4000 4000 false] ∧ t.c.areqs = [])) = true ∧
    gives (.dataPacket 0 (nine.beat 1)) (st ((win6 [(win_STATE, 1)]).setLink 0 { up := true, inbox := [arrived nine (hData 3 9) 0 3996 3996 false] })) (fun t =>
      decide ((t.c.link 0).inbox = [arrived nine (hData 3 9) 1 3996 4000 false] ∧ t.c.areqs = [])) = true ∧
    gives (.dataPacket 0 ({ two with header := 0 }.beat 0)) (st (win6 [(win_STATE, 1)])) (fun t =>
      decide ((t.c.link 0).inbox = [] ∧ t.c.fld (oLinkStat 0) linkStat_LAST_KIND = 1)) = true := by decide +kernel

/-- The same packet, which a control packet has interrupted after its refusal. -/
def skips (k : RxSkip) : Ctl := (win6 [(win_STATE, 1)]).setLink 0 { up := true, skip := k }

theorem test_control_in_between : gives (.ack 0 (ctlBeat (mkHeader (2 + (6 <<< 16))))) (st (skips .packet)) (fun t => decide ((t.c.link 0).skip = .packet)) = true ∧
    gives (.ack 0 (ctlBeat (mkHeader (2 + (6 <<< 16))))) (st (skips .toFirst)) (fun t => decide ((t.c.link 0).skip = .nothing)) = true := by decide +kernel

theorem test_data_packet : let c := (holds 0 3996 (hData 3 2) [ones, 0] (win6 [(win_STATE, 1)])).rxDrain 0
    c.wn 6 win_ACCEPTED = 1 ∧ c.areqs.map (fun a => (a.kind, a.gi, a.granule)) = [(AKind.linkLand 0 0, 3, ones), (AKind.linkLand 0 1, 4, 0)] ∧
    (c.packets.map fun p => (p.id, p.left)) = [(0, 2)] ∧ c.wn 6 win_ORDERED = 0 := by decide +kernel

/-- A packet that a hold has kept counts as come in the ec in which it leaves the buffer; one still held stays and is marked. -/
theorem test_held_packet : let p : RxPkt := { h := hData 3 1, payload := [ones], came := 3900, whole := some 3900, held := true }
    (((win6 [(win_STATE, 1)]).setInbox 0 [p]).rxDrain 0).areqs.map (fun a => a.order) = [4000] ∧
    ((({ win6 [(win_STATE, 1)] with audit := { hold := 1 } } : Ctl).setInbox 0 [{ p with held := false }]).rxDrain 0 |>.link 0).inbox = [p] := by decide +kernel

/-- Granule 0 of packet 0 lands from port 0. -/
def link0 : AReq := { id := 0, req := 24, kind := .linkLand 0 0, gi := 0, group := 0, granule := ones }
def linkLands : Ctl := { asksBank 2 link0 (win6 [(win_STATE, 1)]) with packets := [{ id := 0, port := 0, header := hData 0 1, window := 6, left := 1, phase := .landing }] }

theorem test_link_landing : (linkLands.firstSlot link0).isSome = true ∧ linkLands.ownsAsync 0 0 true = true ∧ linkLands.tagChecked 0 = false ∧
    gives (.linkLanding 0) (st linkLands) (fun t => decide (t.banks = [(0, ones)] ∧ t.c.packets = [] ∧ t.c.fld (oCnt 9) cnt_VALUE = 1)) = true := by decide +kernel

/-- Ordered window 6 of one rank and one packet a round holds that packet. -/
def round6 : Ctl := { win6 [(win_STATE, 1), (win_ORDERED, 1), (win_ORD_RANKS, 1), (win_ORD_PER_RANK, 1)] with
  packets := [{ id := 3, port := 0, header := hData 0 1 + 128 - (7 <<< 96), window := 6, left := 1, phase := .held, stage := [0] }] }

theorem test_round : (round6.roundHeld 6).length = 1 ∧ gives (.roundApply 6) (st round6) (fun t =>
    decide (t.c.areqs.map (fun a => a.kind) = [AKind.stageRead 3 0] ∧ t.c.packets.map (fun p => p.phase) = [.applying])) = true ∧
    same (.roundApply 6) (st (flds round6 [(oWin 6, win_ORD_RANKS, 2)])) = true := by decide +kernel

/-! ### Send descriptors -/

/-- Descriptor 4 sends 6 granules from granule 0 on in packets of 4 over port 0, or 1, to window 6. -/
def send4 (l : List (FieldPos × Nat)) : Ctl := flds (win6 [])
  ([(lsend_ALT_PORT, 1), (lsend_WINDOW, 6), (lsend_PKT_LEN, 3), (lsend_LEN, 6), (lsend_DONE_CNT, 9)] ++ l |>.map fun (x : FieldPos × Nat) => (oLsend 4, x.1, x.2))

theorem test_send_commands : gives (.sendArm 4) (st (send4 [])) (fun t => decide (t.c.sdState 4 = 1 ∧ (t.c.send 4).armedAt = 4004)) = true ∧
    gives (.sendArm 4) (st (send4 [(lsend_STATE, 1)])) (fun t => decide (t.c.fld oWinCmd winCmd_RESULT = 1)) = true ∧
    gives (.sendDisarm 4) (st (send4 [(lsend_STATE, 1)])) (fun t => decide ((t.c.send 4).disarmAt = some 4004)) = true ∧
    gives (.sendClear 4) (st (send4 [(lsend_STATE, 3)])) (fun t => decide (t.c.sdState 4 = 0)) = true ∧
    (send4 []).ownsExtent 0 0 6 true = true ∧ (send4 []).provOver 4 = false := by decide +kernel

/-- The trigger counter of descriptor 4 stands at 5, with release scope 2, and its target is `n`. -/
def armed4 (n : Nat) : Ctl := flds (send4 [(lsend_STATE, 1), (lsend_TRIG_TARGET, n)]) [(oCnt 0, cnt_VALUE, 5), (oCnt 0, cnt_REL_SCOPE, 2)]

theorem test_send_start : (armed4 5).sdState 4 = 1 ∧ ((armed4 5).send 4).disarmAt = none ∧ 2 ≤ (armed4 5).cntScopeAt 0 4000 ∧ (armed4 5).sd 4 lsend_LEN = 6 ∧
    gives (.sendStart 4) (st (armed4 5)) (fun t => decide (t.c.sdState 4 = 2 ∧ t.c.areqs.map (fun a => a.kind) = (List.range 4).map (fun i => AKind.sendRead 4 i))) = true ∧
    same (.sendStart 4) (st (armed4 6)) = true := by decide +kernel

/-- The 4 granules of the first packet are read. -/
def read4 (j : Nat) : Ctl := (send4 [(lsend_STATE, 2), (lsend_JOURNALED, j)]).setSend 4 { gathered := [(0, ones), (1, 1), (2, 2), (3, 3)] }

theorem test_send_witness : (read4 0).sdNext 4 = 4 ∧ (read4 0).linkLive 0 = true ∧ ((read4 0).link 0).data = [] ∧ (read4 0).areqs = [] ∧ (read4 0).sdReady 4 = true ∧
    (read4 0).sdTurn 0 = some 4 ∧ (read4 0).sdProv 4 = false := by decide +kernel

theorem test_send_packet : gives (.sendPacket 4) (st (read4 1)) (fun t => decide (t.c.sd 4 lsend_SENT = 4 ∧ t.c.sd 4 lsend_SEQ_NEXT = 1 ∧
    (t.c.link 0).data.map (fun d => (d.pkt.header, d.pkt.payload)) = [(mkHeader ((1 : Nat) + 64 + (6 <<< 16) + (3 <<< 64)), [ones, 1, 2, 3])] ∧
    (t.c.send 4).unacked.map (fun u => (u.seq, u.n)) = [(0, 4)])) = true := by decide +kernel

/-- Packet 7 of descriptor 4 awaits its acknowledgement. -/
def una (sent : Nat) : Unacked := { seq := 7, port := 0, sent := sent, n := 4, pkt := { header := 5, payload := [] } }
def awaits (sent : Nat) : Ctl := (send4 [(lsend_STATE, 2), (lsend_JOURNALED, 1), (lsend_SENT, 4)]).setSend 4 { unacked := [una sent] }

theorem test_ack_timeout : (awaits 0).fld (oLinkCfg 0) linkCfg_ACK_EXP = 0x10 ∧
    gives (.ackTimeout 4 7) (st (flds (awaits 0) [(oLinkCfg 0, linkCfg_ACK_EXP, 11)])) (fun t => decide ((t.c.link 1).data.map (fun d => d.pkt.header) = [5] ∧
      (t.c.send 4).unacked.map (fun u => (u.port, u.sent, u.again)) = [(1, 4000, true)] ∧ t.c.sd 4 lsend_RETX = 1)) = true ∧
    same (.ackTimeout 4 7) (st (awaits 0)) = true := by decide +kernel

/-- An ACK of packet 7 with a code. -/
def hAck (code seq : Nat) : Nat := 2 + (code <<< 4) + (6 <<< 16) + (seq <<< 96)

theorem test_ack : (awaits 0).ackOwner 0 (hAck 0 7) = some 4 ∧ (awaits 0).ackOwner 0 (hAck 0 8) = none ∧ (awaits 0).ackOwner 1 (hAck 0 7) = none ∧ hOpn (hAck 3 7) = 3 ∧
    (awaits 0).sd 4 lsend_DONE + 4 < (awaits 0).sd 4 lsend_LEN ∧ (una 0 |> (awaits 0).ackMine 4 0 (hAck 0 7)) = true ∧
    gives (.ack 0 (ctlBeat (mkHeader (hAck 0 7)))) (st (awaits 0)) (fun _ => true) = true ∧
    gives (.ack 0 (ctlBeat (mkHeader (hAck 3 7)))) (st (awaits 0)) (fun t => decide ((t.c.send 4).unacked = [una 0])) = true := by decide +kernel

theorem test_clean_ack : CleanHeader (st (awaits 0)) 0 (mkHeader (hAck 0 7)) (hAck 0 7) :=
  ⟨working_of (by decide +kernel), by decide, by decide +kernel, by decide +kernel, by decide +kernel, by decide +kernel, by decide +kernel⟩

/-! ### The twin -/

/-- The twin port is up; the twin unit in a mode and phase; region 1 is the journal. -/
def twinned (mode phase : Nat) (c : Ctl) : Ctl := flds (c.setLink 16 { up := true, credits := 8 })
  [(oTwinCfg, twinCfg_MODE, mode), (oTwinStat, twinStat_PHASE, phase), (oRegion 1, region_USE, 2)]

theorem test_mode_witness : let c := twinned 0 0 u0
    c.fld oTwinStat twinStat_T_FAILED = 0 ∧ c.journalOpen = false ∧ c.journalRegions = [1] ∧ c.twinMode = 0 ∧
    gives (.twinCfgWrite 3 0xC01) (st c) (fun t => decide (t.c.twinMode = 1 ∧ t.c.twinPhase = 1)) = true ∧
    gives (.twinCfgWrite 3 0xC05) (st c) (fun t => decide (t.c.twinPhase = 3)) = true ∧
    gives (.twinCfgWrite 3 0xC02) (st c) (fun t => decide (t.c.twinMode = 2 ∧ t.c.twinPhase = 0)) = true ∧
    gives (.twinCfgWrite 3 0xC03) (st c) (fun t => decide (t.c.twinMode = 0 ∧ t.c.fld oTwinStat twinStat_CFG_REFUSED = 1)) = true ∧
    u0.journalRegions = [] := by decide +kernel

/-- Journal entry 5, a packet of window 6 on its way. -/
def entry5 : JEntry := { id := 5, pos := 0, header := hData 3 1 + 64, payload := [ones], port := 0, left := 0 }
def journaled (phase : Nat) (j : JEntry) : Ctl :=
  let c := twinned 1 phase (win6 [(win_STATE, 1), (win_JOURNALED, 1), (win_ORD_RANKS, 1)])
  { c with twin := { c.twin with journal := [j], nextId := 6, head := 2 } }

theorem test_resync : (journaled 2 entry5).fld oTwinCfg twinCfg_RESYNC = 0 ∧ gives .resync (st (journaled 2 entry5)) (fun t =>
    decide (t.c.twinPhase = 2 ∧ (t.c.link 16).data.map (fun d => d.pkt.payload) = [[ones]])) = true ∧
    gives .resync (st (twinned 1 2 u0)) (fun t => decide (t.c.twinPhase = 1)) = true := by decide +kernel

theorem test_solo_witness : let c := journaled 1 { entry5 with confirm := some 0 }
    c.twinMode = 1 ∧ c.twinPhase = 1 ∧ 2 ^ (flds c [(oTwinCfg, twinCfg_CONF_EXP, 11)]).fld oTwinCfg twinCfg_CONF_EXP ≤ c.ec ∧
    same .soloEntry (st c) = true ∧ c.fld oTwinCfg twinCfg_CONF_EXP = 12 := by decide +kernel

theorem test_checkpoints : (twinned 1 1 u0).twinMode = 1 ∧ gives (.ckptIdWrite 3 9) (st (twinned 1 1 u0)) (fun t =>
      decide (t.c.twin.own.map (fun k => k.ckptId) = [9] ∧ (t.c.link 16).wait.length = 1 ∧ t.c.twin.both = none)) = true ∧
    gives (.ckptIdWrite 3 9) (st { twinned 1 1 u0 with twin := { theirs := [9] } }) (fun t => decide (t.c.twin.both = some { ckptId := 9, tracks := [], pos := 0 })) = true := by
  decide +kernel

/-- A header with KIND, for window 6, rank 0, a sequence number and OFFSET 3, of `n` granules. -/
def hTwin (kind seq n : Nat) : Nat := kind + (if kind = 5 ∨ kind = 9 then 64 + (3 <<< 32) + ((n - 1) <<< 64) else 0) + (6 <<< 16) + (seq <<< 96)
def hCkpt : Nat := 7 + (9 <<< 32)

theorem twin_header {s : State} {header : Granule} {h : Nat}
    (e : (s.c.sysReady && !s.c.clk.frozen && !s.c.blackout && s.c.hears 16 && (s.c.link 16).inbox.isEmpty && decide ((decodeG false header).fixed = 0)
      && decide (hdrData 16 header = some h)) = true) : TwinHeader s header h := by
  simp only [Bool.and_eq_true, Bool.not_eq_true', decide_eq_true_eq, List.isEmpty_iff] at e
  exact ⟨⟨⟨e.1.1.1.1.1.1, e.1.1.1.1.1.2⟩, e.1.1.1.1.2⟩, e.1.1.1.2, e.1.1.2, e.1.2, e.2⟩

theorem test_twin_headers : TwinHeader (st (twinned 1 1 u0)) (mkHeader hCkpt) hCkpt ∧ TwinHeader (st (journaled 1 entry5)) (mkHeader (hTwin 5 8 1)) (hTwin 5 8 1) ∧
    TwinHeader (st (journaled 1 entry5)) (mkHeader (hTwin 9 8 1)) (hTwin 9 8 1) ∧ TwinHeader (st (journaled 1 entry5)) (mkHeader (hTwin 6 7 1)) (hTwin 6 7 1) ∧
    TwinHeader (st (journaled 3 entry5)) (mkHeader (hTwin 10 8 1)) (hTwin 10 8 1) :=
  ⟨twin_header (by decide +kernel), twin_header (by decide +kernel), twin_header (by decide +kernel), twin_header (by decide +kernel), twin_header (by decide +kernel)⟩

theorem test_ckpt : gives (.ckpt (ctlBeat (mkHeader hCkpt))) (st (twinned 1 1 u0)) (fun t => decide (t.c.twin.theirs = [9])) = true ∧
    gives (.ckpt (ctlBeat (mkHeader hCkpt))) (st { twinned 1 1 u0 with twin := { own := [{ ckptId := 9, tracks := [], pos := 4 }] } }) (fun t =>
      decide (t.c.twin.both = some { ckptId := 9, tracks := [], pos := 4 })) = true := by decide +kernel

/-- The packet of a header of hTwin, with one granule, and with nine: two beats. -/
def twin1 (kind seq : Nat) : Packet := { header := mkHeader (hTwin kind seq 1), payload := [ones] }
def twin9 (kind : Nat) : Packet := { header := mkHeader (hTwin kind 8 9), payload := [1, 2, 3, 4, 5, 6, 7, 8, ones] }

theorem test_twin_heard : HeardHeader (st (journaled 1 entry5)) 16 (twin1 5 8).header (hTwin 5 8 1) ∧ HeardHeader (st (journaled 3 entry5)) 16 (twin1 9 8).header (hTwin 9 8 1) :=
  ⟨heard_of (by decide +kernel), heard_of (by decide +kernel)⟩

theorem test_twin_beats : gives (.jcopy ((twin1 5 8).beat 0)) (st (journaled 1 entry5)) (fun t => decide ((t.c.link 16).inbox = [arrived (twin1 5 8) (hTwin 5 8 1) 0 4000 4000 false])) = true ∧
    gives (.replay ((twin1 9 8).beat 0) true) (st (journaled 3 entry5)) (fun t => decide ((t.c.link 16).inbox = [arrived (twin1 9 8) (hTwin 9 8 1) 0 4000 4000 true])) = true ∧
    gives (.jcopy ((twin9 5).beat 1)) (st ((journaled 1 entry5).setLink 16 { up := true, inbox := [arrived (twin9 5) (hTwin 5 8 9) 0 3996 3996 false] })) (fun t =>
      decide ((t.c.link 16).inbox = [arrived (twin9 5) (hTwin 5 8 9) 1 3996 4000 false] ∧ t.c.areqs = [])) = true := by decide +kernel

theorem test_twin_whole : AloneWhole (holds 16 3900 (hTwin 5 8 1) [ones] (journaled 1 entry5)) 16 { h := hTwin 5 8 1, payload := [ones], came := 3900, whole := some 3900 } 3900 ∧
    AloneWhole (holds 0 3900 (hData 3 1 + 64) [ones] (journaled 1 entry5)) 0 { h := hData 3 1 + 64, payload := [ones], came := 3900, whole := some 3900 } 3900 :=
  ⟨⟨rfl, by decide +kernel, rfl, by decide +kernel, rfl⟩, ⟨rfl, by decide +kernel, rfl, by decide +kernel, rfl⟩⟩

theorem test_journal_witness : let c := journaled 1 entry5
    c.dataKind 16 (putBits (hTwin 5 8 1) 0 4 1) = 0 ∧ c.journalCode (putBits (hTwin 5 8 1) 0 4 1) = 0 ∧ c.dataKind 0 (hData 3 1 + 64) = 0 ∧
    (c.setTrack 6 0 { next := 9 }).journalCode (putBits (hTwin 5 8 1) 0 4 1) = 1 ∧ (c.setTrack 6 0 { next := 9 }).journalCode (hData 3 1 + 64) = 1 ∧
    (holds 0 3900 (hData 3 1 + 64) [ones] c).pktHeld { h := hData 3 1 + 64, payload := [ones], came := 3900, whole := some 3900 } = false := by decide +kernel

theorem test_journal_enters : let c := (holds 16 3900 (hTwin 5 8 1) [ones] (journaled 1 entry5)).rxDrain 16
    c.areqs.map (fun a => a.kind) = [AKind.journalWrite 6 0, AKind.journalWrite 6 1] ∧
    c.twin.journal.map (fun j => (j.id, j.pos)) = [(5, 0), (6, 2)] ∧ (c.track 6 0).held = [8] := by decide +kernel

theorem test_replay_enters : let c := (holds 16 3900 (hTwin 9 8 1) [ones] (journaled 3 entry5)).rxDrain 16
    c.twin.journal.map (fun j => (j.id, j.pos)) = [(5, 0), (6, 2)] := by decide +kernel

theorem test_journal_known : let c := (holds 16 3900 (hTwin 5 8 1) [ones] ((journaled 1 entry5).setTrack 6 0 { next := 9 })).rxDrain 16
    (c.link 16).wait.length = 1 ∧ c.areqs = [] ∧
    ((holds 0 3900 (hData 3 1 + 64) [ones] ((journaled 1 entry5).setTrack 6 0 { next := 9 })).rxDrain 0 |>.link 0).wait.length = 1 := by decide +kernel

theorem test_jconf : gives (.jconf (ctlBeat (mkHeader (hTwin 6 7 1)))) (st (journaled 1 { entry5 with confirm := some 3900 })) (fun t =>
      decide (t.c.twin.journal.map (fun j => j.accepted) = [true] ∧ t.c.wn 6 win_ACCEPTED = 1)) = true ∧
    gives (.rtab (ctlBeat (mkHeader (hTwin 10 8 1))) false) (st (journaled 3 entry5)) (fun t => decide ((t.c.track 6 0).next = 8 ∧ t.c.twinPhase = 3)) = true ∧
    gives (.rtab (ctlBeat (mkHeader (hTwin 10 8 1))) true) (st (journaled 3 entry5)) (fun t => decide ((t.c.track 6 0).next = 8 ∧ t.c.twinPhase = 1)) = true ∧
    gives (.rtab (ctlBeat (mkHeader (hTwin 10 8 1))) true) (st (journaled 1 entry5)) (fun t => decide ((t.c.track 6 0).next = 0)) = true := by decide +kernel

/-- The journal write of the header of entry 5 to granule 2^18, and its landing in granule 0. -/
def jWrite : AReq := { id := 0, req := 40, kind := .journalWrite 5 0, gi := 0x40000, group := 0, granule := ones }
def jLand : AReq := { id := 0, req := 40, kind := .linkLand 0 0, gi := 0, group := 0, granule := ones }
def jWrites : Ctl := asksBank 0xAAAA jWrite (journaled 1 { entry5 with left := 2 })
def jLands : Ctl := { asksBank 2 jLand (journaled 1 { entry5 with landing := true }) with
  packets := [{ id := 0, port := 0, header := hData 0 1 + 64, window := 6, left := 1, phase := .landing, journal := some 5 }] }

theorem test_journal_landing : (jWrites.firstSlot jWrite).isSome = true ∧ jWrites.ownsUnit 2 0x40000 = true ∧
    (jLands.firstSlot jLand).isSome = true ∧ jLands.ownsAsync 0 0 true = true ∧ jLands.tagChecked 0 = false ∧
    gives (.journalLanding 0) (st jWrites) (fun t => decide (t.banks.map (fun e => e.2) = [ones] ∧ t.c.twin.journal.map (fun j => j.left) = [1])) = true ∧
    gives (.journalLanding 0) (st jLands) (fun t => decide (t.banks = [(0, ones)])) = true := by decide +kernel

/-! ### Rehearsal -/

/-- Rehearsal, with signature 5 of scene 6 sent by quadrant 1. -/
def sig5 : RSig := { quad := 1, sceneNo := 6, offset := 0, sig := 5 }
def rehearses (r : Rehearsal) : Ctl := { twinned 2 0 u0 with reh := r }
def hSig (scene sig : Nat) : Nat := 8 + (1 <<< 4) + (scene <<< 32) + (sig <<< 64)

theorem test_rsig_headers : TwinHeader (st (rehearses { sent := [sig5] })) (mkHeader (hSig 6 5)) (hSig 6 5) ∧
    TwinHeader (st (rehearses { sent := [sig5] })) (mkHeader (hSig 6 4)) (hSig 6 4) ∧ TwinHeader (st (rehearses {})) (mkHeader (hSig 6 5)) (hSig 6 5) :=
  ⟨twin_header (by decide +kernel), twin_header (by decide +kernel), twin_header (by decide +kernel)⟩

theorem test_rsig : gives (.rsig (ctlBeat (mkHeader (hSig 6 5)))) (st (rehearses { sent := [sig5] })) (fun t => decide (t.c.reh.sent = [] ∧ t.c.reh.got = [])) = true ∧
    gives (.rsig (ctlBeat (mkHeader (hSig 6 5)))) (st (rehearses {})) (fun t => decide (t.c.reh.got = [sig5])) = true ∧
    (rehearses {}).fld oRehDiv1 rehDiv1_VALID = 0 := by decide +kernel

/-- Scene 6 of the rehearsed group, begun in ec 0; its first interval is over, or lies in the future. -/
def scene6 (e0 : Nat) : Ctl := rehearses { scenes := [{ sceneNo := 6, ec0 := e0 }] }
def r6 : RehScene := { sceneNo := 6, ec0 := 0 }

theorem test_more_intervals : MoreIntervals (scene6 0) r6 := .inl rfl

theorem test_rsig_send : (scene6 0).rehKnown 0 (scene6 0).rehStep = true ∧ 0 + (scene6 0).rehStep ≤ 4000 ∧ (rehearses {}).twinMode = 2 ∧
    gives .rsigSend (st (scene6 0)) (fun t => decide ((t.c.link 16).wait.length = 4 ∧ t.c.reh.sent.map (fun g => g.quad) = [0, 1, 2, 3])) = true := by decide +kernel

theorem test_rsig_waits : let c : Ctl := { scene6 0 with seqs := [(90, { writes := [{ wacc 0 none with w := 5 }] })] }
    c.rehKnown 0 c.rehStep = false ∧ same .rsigSend (st c) = true := by decide +kernel

/-- A scene of just one interval has no second one. -/
theorem test_rsig_done : gives .rsigSend (st (rehearses { scenes := [{ r6 with next := 1, len := some (scene6 0).rehStep }] })) (fun t =>
    decide (t.c.reh.scenes = [] ∧ (t.c.link 16).wait = [])) = true := by decide +kernel

/-! ### Regions and owners -/

/-- Region 1 with the replica code. -/
def replica1 (c : Ctl) : Word := c.reg (oRegion 1) ||| 0x200000000

theorem test_region_write : u0.regionCode 1 (replica1 u0 &&& mapMask).toNat = 0 ∧ mapValid (replica1 u0).toNat = true ∧ u0.powersUp (replica1 u0).toNat = false ∧
    u0.fillPend.getLsbD 1 = false ∧ gives (.regionWrite 1 3 (replica1 u0)) up (fun t => decide (t.c.fld (oRegion 1) region_BUSY = 1 ∧ t.c.refills = 2 ∧
      t.c.fld (oRegion 1) region_CODE = 1)) = true ∧
    gives (.regionWrite 1 3 (u0.reg (oRegion 1))) up (fun t => decide (t.c.refills = 0 ∧ t.c.fld (oRegion 1) region_BUSY = 0)) = true ∧
    u0.regionCode 1 0x1000100000001 = 4 ∧ gives (.regionWrite 1 3 0x1000100000001) up (fun t => decide (t.c.fld oRegionStat regionStat_STATUS = 4 ∧
      t.c.reg (oRegion 1) = u0.reg (oRegion 1))) = true ∧
    (u0.setFld oCtrl ctrl_LOCK 1).regionCode 1 0 = 5 := by decide +kernel

/-- Region 1 is refilled: bank 7 of quadrant 0 has come to a row, and every other bank has none left. -/
def refills1 (row : Nat) : Ctl := { u0 with refills := 2, fills := [(7, some { row := row, lastBc := 7990 })] }

theorem test_refill_witness : same (.refillDone 2) (st (refills1 4096)) = true ∧ (∀ pb ∈ (refills1 4096).regionBanks 1, (refills1 4096).fillLeft pb = false) := by
  decide +kernel

theorem test_refill_done : gives (.refillDone 1) (st (refills1 4096)) (fun t => decide (t.c.refills = 0)) = true ∧ (refills1 4096).fillBusy 1 = false ∧
    ({ refills1 5 with fills := [(16, some {})] } : Ctl).fillLeft 16 = true ∧ 16 ∈ (refills1 5).regionBanks 1 ∧ same (.refillDone 1) (st { refills1 5 with fills := [(16, some {})] }) = true := by
  decide +kernel

theorem test_owners : gives (.bankOwnWrite 3 1 0x2100003F2A) up (fun t => decide ((List.range 8).map (fun j => t.c.owner (24 + j)) = [0x2A, 0x3F, 0, 0, 0, 0, 0, 0])) = true ∧
    gives (.bankOwnWrite 3 3 0x21) (st (u0.setStriking 24 true)) (fun t => decide (t.c.owner 24 = 0 ∧ t.c.striking 24 = true)) = true ∧
    gives (.bankOwnWrite 3 3 1) up (fun t => decide (t.c.owner 24 = 0)) = true ∧ wrote (.bankOwnWrite 300 3 (-1)) up u0 = true := by decide +kernel

/-! ### Cue sheets and halves -/

/-- Cluster 0 of quadrant 0 loses its service slots in copy `a`, which are the last of every 16 at reset, all but the first `n` of them. -/
def unserved (a n : Nat) (c : Ctl) : Ctl :=
  ((List.range 16).drop n).foldl (fun (d : Ctl) i => d.setReg (csOff 0 a (16 * i + 15) 0) 0xFFFFFFFFFFFFFFFC) c

theorem test_sheet_writes : u0.swapPending 0 = false ∧ gives (.csShadowWrite 0 9 0 3 0x55) up (fun t => decide (t.c.reg (csOff 0 0 9 0) = 0x55)) = true ∧
    gives (.csShadowWrite 0 9 0 3 0x55) (st { u0 with swap := some (99, 1) }) (fun t => decide (t.c.reg (csOff 0 0 9 0) = 0 ∧ t.c.fld oCsStat csStat_STATUS = 2)) = true ∧
    gives (.csActiveWrite 0 9 0 3 0x55) up (fun t => decide (t.c.fld oCsStat csStat_STATUS = 4)) = true := by decide +kernel

theorem test_active_witness : let c := flds (unserved 1 1 u0) [(oCsStat, csStat_HELD, 1), (oCsCtrl, ⟨0, 0, 4⟩, 1)]
    c.csHeldNow 0 = true ∧ (c.setLater (csOff 0 1 9 0) (-1) 0x55).laterNow.noService 0 1 = false ∧
    (c.setLater (csOff 0 1 15 0) (-1) 0).laterNow.noService 0 1 = true := by decide +kernel

/-- Quadrant 0 is asked to be held. -/
def held0 : Ctl := flds u0 [(oCsCtrl, ⟨0, 0, 4⟩, 1)]

theorem test_held_witness : Nat.testBit (held0.fld oCsCtrl ⟨0, 0, 4⟩) 0 = true ∧ ∀ g, held0.groupBusy g = false :=
  ⟨by decide +kernel, fun g => by simp [Ctl.groupBusy, Ctl.group, Ctl.seq, held0, flds, u0, Ctl.setFld, Ctl.setReg, Tab.get]⟩

theorem test_swap : u0.noService 0 0 = false ∧ (unserved 0 0 u0).noService 0 0 = true ∧ frameOf u0.bc = 31 ∧
    gives (.csSwap 3 0x100000020) up (fun t => decide (t.c.swap = none ∧ t.c.fld oCsStat csStat_STATUS = 1)) = true ∧
    gives (.csSwap 3 0x100000021) (st (unserved 0 0 u0)) (fun t => decide (t.c.swap = none ∧ t.c.fld oCsStat csStat_STATUS = 3)) = true ∧
    gives (.csSwap 3 0x100000021) (st { u0 with swap := some (40, 1) }) (fun t => decide (t.c.fld oCsStat csStat_STATUS = 2)) = true ∧
    ahead (frameOf u0.bc) 31 = true ∧ ahead (frameOf u0.bc) 32 = false := by decide +kernel

/-- A half swap of group 0 to half 1 is pending. -/
def swaps0 (c : Ctl) : Ctl := flds c [(oGrpSwap 0, grpSwap_PENDING, 1), (oGrpSwap 0, grpSwap_PEND_HALF, 1)]

theorem test_half_swap_commands : gives (.groupSwapGo 0 true) (st (swaps0 u0)) (fun t => decide (t.c.fld (oGrpSwap 0) grpSwap_REFUSED = 1)) = true ∧
    gives (.groupSwapCancel 0) (st (swaps0 u0)) (fun t => decide ((t.c.group 0).swapCancel = some 4004)) = true ∧
    gives (.groupSwapCancel 0) (st { u0 with groups := [(0, { swapCc := some 1000 })] }) (fun t => decide (t.c.fld (oGrpSwap 0) grpSwap_REFUSED = 1)) = true ∧
    90 ∈ u0.members 0 ∧ gives (.groupSwapGo 0 true) (seq90 { state := .waiting }) (fun t => decide (t.c.fld (oGrpSwap 0) grpSwap_PENDING = 1 ∧
      t.c.fld (oGrpSwap 0) grpSwap_PEND_HALF = 1)) = true := by decide +kernel

theorem test_half_swap_witness : (swaps0 (seq90 { state := .waiting }).c).swapReady 0 = true ∧ (swaps0 (seq90 { state := .running }).c).swapReady 0 = false ∧
    gives (.groupSwapEffect 0) (st (swaps0 (seq90 { state := .waiting }).c)) (fun t => decide (t.c.fld (oGrpSwap 0) grpSwap_PENDING = 0)) = true := by decide +kernel

theorem test_swap_settles : let c := (swaps0 u0).setGroup 0 { swapCancel := some 4004 }
    (c.swapSettle 4004).fld (oGrpSwap 0) grpSwap_PENDING = 0 ∧ (c.swapSettle 4003).fld (oGrpSwap 0) grpSwap_PENDING = 1 := by decide +kernel

/-! ### Integrity and repair -/

/-- Slot 64 is a service slot of quadrant 0. -/
def served64 : Ctl := u0.setReg (csOff 0 1 64 0) 0xFFFFFFFFFFFFFFFF
def wb0 : WbEntry := { bank := 0, gi := 0, granule := ones, readBc := 10, queueBc := 20 }

theorem test_fill_steps : let c : Ctl := { served64 with fills := [(3, some { row := 9 })] }
    c.fillLeft 3 = true ∧ (c.serviceTry 0 0 3 46).2 = true ∧ (c.fillStep 3).1.fillOf 3 = some { row := 10, lastBc := 8000, since := 8001 } ∧
    (let d : Ctl := { (u0.setStriking 3 true) with fills := [(3, some { row := 9, strike := true })] }
     d.strikeTakes 0 0 = true ∧ (d.fillStep 3).1.fillOf 3 = some { row := 10, lastBc := 8000, strike := true, since := 8001 } ∧ (d.fillStep 3).2.length = 1) ∧
    (({ u0 with fills := [(3, some { row := 9 })] } : Ctl).fillStep 3).2.length = 0 := by decide +kernel

theorem test_writeback : let c : Ctl := { served64 with wbq := [(0, [wb0])] }
    c.wbOldest 0 0 0 = some wb0 ∧ c.serviceSlot 0 0 = true ∧ ({ u0 with wbq := [(0, [wb0])] } : Ctl).serviceSlot 0 0 = false ∧
    c.bankUsed 0 = false ∧ c.striking 0 = false ∧ c.mergeHolds 0 = false ∧
    gives (.correctionWriteback 0 0) (st c) (fun t => decide (t.banks = [(0, ones)] ∧ t.c.wbq = [])) = true := by decide +kernel

/-- Cluster 0 of quadrant 0: row 7 stands, with a write of bank 3 due. -/
def scrub7 : Ctl := served64.setScrub 0 0 { row := 7, read := 1, writes := [(3, (7, 7990, ones))] }

theorem test_scrub_write : (scrub7.scrub 0 0).writes.find? (fun w => decide (w.1 = 3)) = some (3, (7, 7990, ones)) ∧ (scrub7.serviceTry 0 0 3 45).2 = true ∧
    gives (.scrubWriteback 0 0 3) (st scrub7) (fun t => decide (t.banks = [(rowKey 0 0 3 7, ones)] ∧ (t.c.scrub 0 0).writes = [])) = true ∧
    same (.scrubWriteback 0 0 3) (st (served64.setScrub 0 0 { row := 7, read := 1, writes := [(3, (7, 8001, ones))] })) = true ∧
    gives (.scrubWriteback 0 0 3) (st { scrub7 with wbq := [(0, [{ wb0 with bank := rowKey 0 0 3 7 }])] }) (fun t => decide (t.banks = [] ∧ (t.c.scrub 0 0).writes = [])) = true := by decide +kernel

theorem test_store_rewrite : u0.loading false = false ∧ gives (.ssCorrectionRewrite 0 8) (st { u0 with store := [(8, ones)], storeFix := [8] }) (fun t =>
    decide (t.c.storeFix = [] ∧ t.c.store = [(8, ones)])) = true := by decide +kernel

theorem test_scrub_read : scrub7.isFenced 0 0 = false ∧ (scrub7.scrub 0 0).read.getLsbD 5 = false ∧ scrub7.fld oScrubCfg scrubCfg_EN = 1 ∧
    (scrub7.serviceTry 0 0 5 45).2 = true ∧ (decodeG (scrub7.clusterRep 0 0) fillGranule).fixed = 0 ∧ (decodeG (scrub7.clusterRep 0 0) fillGranule).bad = false ∧
    gives (.scrubRead 0 0 5) (st scrub7) (fun t => decide (t.banks = [] ∧ (t.c.scrub 0 0).read = 33)) = true := by decide +kernel

theorem test_copy_read : let s : State := { st (served64.setUnder 0 { copying := some 0, copyRow := 7 }) with banks := [(rowKey 0 0 5 7, ones)] }
    (s.c.serviceTry 0 0 5 45).2 = true ∧ (decodeG (s.c.clusterRep 0 0) ones).bad = false ∧ (decodeG (s.c.clusterRep 0 0) ones).fixed = 0 ∧ (decodeG (s.c.clusterRep 0 0) ones).pois = false ∧
    gives (.scrubRead 0 0 5) s (fun t => decide (rowAt t.banks (rowKey 0 64 5 7) = ones)) = true := by decide +kernel

theorem test_march : u0.marchCode 0 2 false false false = 0 ∧ u0.marchCode 0 40 false false false = 3 ∧
    gives (.marchCmd 0 2 false false false) up (fun t => t.c.marching 0 2 && decide (t.c.fld (oMarchStat 0) marchStat_STATE = 1)) = true ∧
    gives (.marchCmd 0 40 false false false) up (fun t => decide (t.c.fld (oMarchStat 0) marchStat_RESULT = 3)) = true ∧
    same (.marchDone 0 []) up = true := by decide +kernel

/-- A March C- of cluster 2 that began in bc 300,000, and a transparent test; the bc is 400,000. Bank 5 read 1 for the 0 of element 1. -/
def marches2 (transp : Bool) : March := { us := false, cluster := 2, alg := false, transp := transp, startBc := 300000 }
def marched (transp : Bool) : Ctl := { u0 with marches := [(0, marches2 transp)], clk := { bc := 400000, run := true } }
def read5 : MarchRead := { second := false, elem := 1, op := 0, bank := 5, row := 9, value := 1 }

theorem test_march_witness : (marches2 false).startBc + (marches2 false).time ≤ (marched false).bc ∧ (marches2 true).startBc + (marches2 true).time ≤ (marched true).bc ∧
    (marches2 false).wrong read5 = true ∧ (marches2 false).wrong { read5 with value := 0 } = false ∧ (marches2 false).earliest ([read5].filter (marches2 false).wrong) = some read5 ∧
    (marched false).bc < 390000 + (marches2 false).time ∧ same (.marchDone 0 []) (st { marched false with marches := [(0, { marches2 false with startBc := 390000 })] }) = true := by
  decide +kernel

theorem test_understudy : u0.usCode 0 2 = 0 ∧ u0.usCode 0 40 = 3 ∧ gives (.migrate 0 2) up (fun t => decide ((t.c.under 0).copying = some 2)) = true ∧
    gives (.replace 0 2) up (fun t => decide ((t.c.under 0).filling = true ∧ (t.c.under 0).switchAt = some 32)) = true ∧
    gives (.migrate 0 40) up (fun t => decide (t.c.fld (oUsStat 0) usStat_RESULT = 3)) = true ∧
    gives (.fence 0 2) up (fun t => t.c.isFenced 0 2) = true := by decide +kernel

theorem test_switch : let c := u0.setUnder 0 { copying := some 2, switchAt := some 31, how := 2 }
    u0.bc / 256 = 31 ∧ gives (.migrateSwitch 0) (st c) (fun t => decide (t.c.built 0 2 = 64 ∧ (t.c.under 0).copying = none)) = true ∧
    same (.migrateSwitch 0) (st (u0.setUnder 0 { copying := some 2, switchAt := some 32 })) = true := by decide +kernel

theorem test_fill_witness : let c := u0.setUnder 0 { map := some 2, filling := true, fillFrom := 3904 }
    (c.under 0).filling = true ∧ (c.under 0).fillFrom + 4096 ≤ c.bc ∧ same (.usFillDone 0) (st (u0.setUnder 0 { map := some 2, filling := true, fillFrom := 3905 })) = true := by
  decide +kernel

/-! ### Digests and weight images -/

theorem test_program_digest_witness : let c : Ctl := { u0 with audit := { hashing := 1 } }
    c.audit.hashing.getLsbD 0 = true ∧ c.loading false = false ∧ same (.programDigestDone 0) up = true ∧
    ∀ i, (decodeG false (Tab.get fillGranule c.store i)).bad = false := ⟨by decide, by decide +kernel, by decide +kernel, fun _ => by show (decodeG false fillGranule).bad = false; decide +kernel⟩

/-- Weight image 2: a bank image of 2 granules from granule 0 on. -/
def img2 (st : Nat) : Ctl := flds u0 [(oWimg 2, wimg_STATE, st), (oWimg 2, wimg_LEN, 2)]

theorem test_images : (img2 0).wimgCode 2 = 0 ∧ (img2 1).wimgCode 2 = 1 ∧ (flds (img2 0) [(oWimg 2, wimg_LEN, 0)]).wimgCode 2 = 2 ∧
    gives (.wimgOpen 2) (st (img2 0)) (fun t => decide (t.c.wi 2 wimg_STATE = 1)) = true ∧
    gives (.seal 2) (st (img2 1)) (fun t => decide (t.c.wi 2 wimg_STATE = 2)) = true ∧ gives (.seal 2) (st (img2 0)) (fun t => decide (t.c.fld oWimgCmd wimgCmd_RESULT = 1)) = true ∧
    gives (.release 2) (st (img2 3)) (fun t => decide (t.c.wi 2 wimg_STATE = 0)) = true ∧
    same (.wimgHashDone 2) (st (img2 1)) = true := by decide +kernel

/-- The hash of image 2 has read granules. -/
def hashes2 (got : Tab Granule) (failed : Bool) : Ctl := { img2 2 with audit := { hashes := [(2, some { got := got, failed := failed })] } }

theorem test_hash : same (.wimgHashDone 2) (st (hashes2 [(0, ones)] false)) = true ∧ (img2 2).wi 2 wimg_LEN = 2 ∧
    gives (.wimgHashDone 2) (st (hashes2 [(0, ones)] true)) (fun t => decide (t.c.wi 2 wimg_STATE = 5)) = true := by decide +kernel

theorem test_debug_path : let c : Ctl := { hashes2 [] false with regs := (served64.setFld (oWimg 2) wimg_LEN 2).regs }
    c.debugNext 0 = some (2, 0, 0) ∧ (c.serviceTry 0 0 0 48).2 = true ∧
    ((Ctl.debugStep [(0, ones)] 0 c).audit.hashes.map fun e => e.2.map fun h => (h.got, h.failed)) = [some ([(0, ones)], false)] := by decide +kernel


/-- A march of the understudy of quadrant 0 that began in bc 300,000. -/
def marchesUs : Ctl := { u0 with marches := [(0, { marches2 false with us := true })], clk := { bc := 400000, run := true } }

theorem test_us_march_witness : marchesUs.marches.find? (fun x => decide (x.1 = 0)) = some (0, { marches2 false with us := true }) ∧
    ({ marches2 false with us := true } : March).wrong read5 = true ∧ 300000 + ({ marches2 false with us := true } : March).time ≤ marchesUs.bc := by decide +kernel

/-- Region 1 changes hands to group 3: accepted in the cc before. -/
theorem test_handover_end : let c : Ctl := { u0 with handing := [(1, 0x23, 999)] }
    c.handoverEnd.handing = [] ∧ c.handoverEnd.owner 16 = 0x23 ∧ c.handoverEnd.owner 0 = 0 ∧ 16 ∈ c.regionBanks 1 ∧
    ({ u0 with handing := [(1, 0x23, 1000)] } : Ctl).handoverEnd.handing.length = 1 := by decide +kernel

theorem test_quad_fence : u0.quadFenced 0 = false ∧ (mapClusters (u0.reg (oRegion 40)).toNat).any (fun k => decide (k / 64 = 0)) = true := by decide +kernel

/-- A granule that decodes as uncorrectable, in the half whose digest is to be formed. -/
def spoiled : Granule := ones ^^^ 7

theorem test_bad_digest_witness : let c : Ctl := { u0 with audit := { hashing := 1 }, store := [(9, spoiled)] }
    c.loading false = false ∧ (decodeG false (Tab.get fillGranule c.store 9)).bad = true := by decide +kernel

theorem test_input_message : inputMessage 5 [setPoison false ones, ones] = leBytes 32 5 ++ List.replicate 32 0 ++ granuleBytes ones := by decide +kernel

/-! ### Intermissions -/

/-- Group 0 is to be saved to port 0; the intermission is in a phase. -/
def intm (phase : Nat) (c : Ctl) : Ctl := flds c [(oIntmCfg, intmCfg_GROUPS, 1), (oIntmCfg, intmCfg_PORTS, 1), (oIntmStat, intmStat_PHASE, phase)]

theorem test_save : gives (.save false 0) (st (intm 1 u0)) (fun t => decide (t.c.fld oIntmStat intmStat_RESULT = 1 ∧ t.c.intmPhase = 1)) = true ∧
    gives (.save false 0) up (fun t => decide (t.c.fld oIntmStat intmStat_RESULT = 2 ∧ t.c.intmPhase = 0)) = true ∧
    gives (.save true 9) (st (intm 0 (seq90 { state := .running }).c)) (fun t => decide (t.c.intmPhase = 1 ∧ t.c.audit.saveAt = some 9)) = true ∧
    gives (.save false 0) (st (intm 0 u0)) (fun t => decide (t.c.intmPhase = 2 ∧ t.c.audit.quiet = 1 ∧ (t.c.group 0).intmHeld = true)) = true := by decide +kernel

theorem test_can_save : cannotSave u0 ∧ ¬ cannotSave (intm 0 u0) ∧ (intm 0 u0).intmPhase = 0 := by
  refine ⟨.inl ?_, ?_, ?_⟩
  · decide +kernel
  · rintro (h | h | h) <;> revert h <;> decide +kernel
  · decide +kernel

/-- A SAVE's writing is on. -/
def saves (r : SaveRun) : Ctl := { intm 3 u0 with audit := { save := some r } }

theorem test_quiesce_witness : (intm 2 u0).intmTrapped = false ∧ (intm 2 u0).intmQuiet = true ∧
    (intm 2 (writes true (wacc 0 none)).c).intmQuiet = false ∧ same .intmQuiesced (st (intm 2 (writes true (wacc 0 none)).c)) = true ∧ same .intmQuiesced up = true ∧
    same .saveDone (st (intm 3 u0)) = true ∧ (saves { front := [ones] }).saveOver { front := [ones] } = false ∧ same .saveDone (st (saves { front := [ones] })) = true ∧
    gives .saveDone (st (saves { failed := true })) (fun t => decide (t.c.intmPhase = 4 ∧ t.c.fld oIntmStat intmStat_RESULT = 6)) = true ∧
    gives .resume (st (intm 4 { u0 with groups := [(0, { intmHeld := true })] })) (fun t => decide (t.c.intmPhase = 0 ∧ (t.c.group 0).intmHeld = false)) = true ∧
    gives .resume (st (intm 3 u0)) (fun t => decide (t.c.fld oIntmStat intmStat_RESULT = 1)) = true := by decide +kernel

theorem test_restore : gives (.restore false) (st (intm 1 u0)) (fun t => decide (t.c.fld oIntmStat intmStat_RESULT = 1)) = true ∧
    gives (.restore false) up (fun t => decide (t.c.intmPhase = 5 ∧ t.c.audit.rest = some {})) = true ∧ same .restoreDone up = true := by decide +kernel

/-- A RESTORE is on. -/
def rests (r : RestRun) : Ctl := { intm 5 u0 with audit := { rest := some r } }

/-- Eight granules that are no header. -/
def noHead : Tab (Granule × Bool) := (List.range 8).map fun i => (i, (0, false))

theorem test_restore_goes_on : ((rests { failed := true }).restoreOn.intmPhase, (rests { failed := true }).restoreOn.fld oIntmStat intmStat_RESULT) = (0, 6) ∧
    ({ got := [(0, (ones, false))] } : RestRun).front = none ∧ (rests { got := [(0, (ones, false))] }).restoreOn = rests { got := [(0, (ones, false))] } ∧
    ({ got := noHead } : RestRun).front = some 8 ∧ (rests { got := noHead }).restoreCode false (({ got := noHead } : RestRun).image 8) = 7 ∧
    (rests { got := noHead, wasHeld := true }).restoreOn.fld oIntmStat intmStat_RESULT = 7 := by decide +kernel

/-- Row 5 of bank number 323, which the image holds, is to be written: the bank section is on. -/
def landImg : AReq := { id := 0, req := 2, kind := .imgLand 9 323 5, gi := 0, group := 0, granule := ones }
def landsImg : Ctl := { rests { groups := some 1, banks := [323] } with areqs := [{ landImg with gi := (rests {}).giOf 0 20 3 5 }], nextReq := 1, regs := ((rests {}).setReg (csOff 0 1 64 0) 0x5555555555555555).regs }

theorem test_restore_bank_witness : (landsImg.areqs.map fun a => (landsImg.firstSlot a).map fun x => x.2) = [some true] ∧
    same .restoreDone (st landsImg) = true ∧ same .restoreDone (st (rests { groups := some 1, banks := [323] })) = true ∧
    gives .restoreDone (st (rests { groups := some 1, banks := [323], landed := 4096, pois := true })) (fun t => decide (t.c.intmPhase = 4 ∧ t.c.fld oIntmStat intmStat_RESULT = 5)) = true := by
  decide +kernel

/-! ### Time and tableau -/

/-- The time counter 2.5 s after an edge, in a time state. -/
def timed (st : Nat) : Ctl := { flds u0 [(oTimeCtl, timeCtl_STATE, st)] with time := { sec := 0x100000005, sub := 32 * 2 ^ 32, since := some (25 * 10 ^ 8 * 2 ^ 32), good := 3 } }

theorem test_time : gives (.timeSet 9 true) up (fun t => decide (t.c.time.pending = some 9)) = true ∧ gives (.timeSet 9 false) up (fun t => decide (t.c.time.sec = 9 ∧ t.c.timeState = 1)) = true ∧
    gives .timeSetCancel (st { u0 with time := { pending := some 9 } }) (fun t => decide (t.c.time.pending = none)) = true ∧
    gives .timeNowRead up (fun t => decide (t.c.cReqs = [.read oTimeNow 3])) = true ∧ same .timeNowRead (st { u0 with cReqs := List.replicate 4 (.read 0 3) }) = true ∧
    (let d := ({ timed 1 with cReqs := [.read oTimeNow 3] } : Ctl).readsNow
     d.cRsp.rdata = 0x500000020 ∧ d.fld oTimeCtl timeCtl_SEC_HI = 1) ∧
    gives .holdover (st (timed 2)) (fun t => decide (t.c.timeState = 3)) = true ∧ same .holdover (st (timed 1)) = true := by decide +kernel

theorem test_pps : gives .ppsEdge (st (timed 1)) (fun t => decide (t.c.fld oTimePps timePps_NS = 7 ∧ t.c.timeState = 2 ∧ t.c.time.since = some 0 ∧
      t.c.fld oTimeFref timeFref_FRAME = 31 ∧ t.c.fld oTimeFref timeFref_SLOT = 64)) = true ∧
    same .ppsEdge (st { u0 with time := { since := some 1 } }) = true ∧
    gives .ppsEdge (st { timed 1 with time := { (timed 1).time with pending := some 9, setCc := 999 } }) (fun t => decide (t.c.time.sec = 9 ∧ t.c.time.sub = 25 * 2 ^ 32 ∧ t.c.time.pending = none)) = true := by
  decide +kernel

theorem test_tableau : gives (.tableau .tapBit) up (fun t => decide (t.c.clk.tabReq = some 8000)) = true ∧
    gives (.tableau (.frame .spi)) up (fun t => decide (t.c.clk.tabReq = some 8000 ∧ t.c.door.lastOp = 0x31)) = true ∧
    gives (.tableau (.frame .spi)) (st { u0 with boot := { phase := .recovery } }) (fun t => decide (t.c.door.result = 2)) = true ∧
    gives .tableauStop (st { u0 with clk := { u0.clk with tabReq := some 7984 } }) (fun t => t.c.clk.frozen) = true ∧
    same .tableauStop (st { u0 with clk := { u0.clk with tabReq := some 7985 } }) = true ∧
    same .tableauStop (st { u0 with clk := { u0.clk with bc := 8001, tabReq := some 7984 } }) = true := by decide +kernel

/-! ### Faults, kills, strikes -/

/-- Pair 3 of source 16 has been bad `n` times, last in cc 999. -/
def bad16 (n : Nat) : Ctl := { u0 with faults := { bad := [(112, (n, 999))] } }

theorem test_raise_witness : u0.sev 17 = 1 ∧ u0.sev 16 = 2 ∧ u0.sev 0 = 3 ∧ u0.fld oFltCfg fltCfg_CAP_MODE = 0 ∧ u0.fld oFltCap fltCap_VALID = 0 ∧ u0.blackout = false ∧
    gives (.faultRaise 16 3 1 0) (st (bad16 2)) (fun t => decide (t.c.faults.bad = [])) = true ∧
    gives (.faultRaise 16 3 3 0) (st (bad16 1)) (fun t => decide (t.c.faults.bad = [(112, (2, 1000))])) = true ∧
    gives (.faultRaise 16 2 3 0) (st (bad16 1)) (fun t => decide (t.c.faults.bad = [(80, (1, 1000)), (112, (1, 999))])) = true := by decide +kernel

/-- An order of source 16 that is not FENCE. -/
def order16 : FaultOrder := { src := 16, unit := 2, cc := 996, fence := false, cap := true }

theorem test_reaction : same .faultReaction up = true ∧
    gives .faultReaction (st { u0 with faults := { black := true, orders := [order16] } }) (fun t => decide (t.c.faults.orders = [])) = true ∧
    gives .faultReaction (st { flds u0 [(oFltCap, fltCap_VALID, 1)] with faults := { orders := [order16] } }) (fun t =>
      t.c.blackout && decide (t.c.faults.orders = [] ∧ t.c.faults.stop = 2 ∧ t.c.fld oFltCap fltCap_REACTED = 1)) = true ∧
    same .faultReaction (st { u0 with faults := { orders := [{ order16 with cc := 1000 }] } }) = true ∧
    same .faultReaction (st { u0 with faults := { orders := [order16] }, clk := { u0.clk with bc := 8001 } }) = true := by decide +kernel

/-- A FENCE of source 9 for group 0. -/
theorem test_fence_reaction_witness : let o : FaultOrder := { order16 with src := 9, unit := 5, fence := true }
    o.unit.toNat / 256 % 32 = 0 ∧ o.cc < u0.cc ∧ u0.strikes = [] ∧ 90 ∈ u0.members 0 := by decide +kernel

theorem test_kill_witness : let c := owned { u0 with seqs := [(90, { state := .running, releases := [⟨.counterAdd, 7, 5, 2, 4001⟩] })] }
    c.owner 3 = 0x20 ∧ c.striking 3 = false ∧ c.inFencedQuad 3 = false ∧ c.repBank 3 = false ∧ c.owner 600 ≠ 0x20 ∧ 90 ∈ c.members 0 ∧ 90 ∉ c.members 1 := by decide +kernel

/-- A strike of bank 3, killed in cc `k`; the bank's fill is `f`. -/
def strikes (k : Nat) (f : Option BankFill) : Ctl :=
  { (owned u0).setStriking 3 true with strikes := [{ group := 0, cc := k, banks := [3], total := 1 }], fills := (f.map fun x => (3, some x)).toList }

/-- The fill of a struck bank that has come to a row, with its latest row in bc `b`. -/
def struck (row b : Nat) : Option BankFill := some { row := row, lastBc := b, strike := true }

theorem test_strike : (strikes 996 none).killOf 3 = some 996 ∧ (strikes 996 none).strikeDue 3 = true ∧ (strikes 997 none).strikeDue 3 = false ∧ (strikes 996 none).bookedIn 0 0 = false ∧
    gives (.strikeBegin 0 0) (st (strikes 996 none)) (fun t => decide (t.c.fillOf 3 = some { strike := true, since := 8000 } ∧ t.c.fillOf 4 = none)) = true ∧
    same (.strikeBegin 0 0) (st (strikes 997 none)) = true ∧ same (.strikeDone 3) (st (strikes 996 (struck 4095 7990))) = true ∧
    same (.strikeDone 3) (st (strikes 996 (struck 4096 8000))) = true ∧ (strikes 996 (struck 4096 7999)).quadFenced 0 = false := by decide +kernel

theorem test_strike_done : gives (.strikeDone 3) (st (strikes 996 (struck 4096 7999))) (fun t => decide (t.c.fillOf 3 = none ∧ t.c.strikes = [])) = true := by decide +kernel

theorem test_alive : gives .kick up (fun t => t.c.faults.kick) = true ∧ u0.aliveEdge = 0 ∧ same .aliveToggle up = true ∧
    (let c : Ctl := { flds u0 [(oFltCfg, fltCfg_ALIVE_EXP, 9)] with faults := { kick := true } }
     c.aliveEdge = 512 ∧ gives .aliveToggle (st c) (fun t => t.c.faults.alive && !t.c.faults.kick) = true) ∧
    (let c : Ctl := { flds u0 [(oFltCfg, fltCfg_ALIVE_EXP, 9)] with boot := { u0.boot with kicked := false, actCc := 900 } }
     gives .aliveToggle (st c) (fun t => decide (t.c.faults.lastToggle = 512 ∧ t.c.faults.stop = 0)) = true) := by decide +kernel

theorem test_injection : wrote (.injBank 5 6) up u0 = true ∧ wrote (.injLine 3 5) up u0 = true ∧
    gives (.injBank (-1) (-1)) (st { u0 with boot := { phase := .ready, factory := true } }) (fun t => decide (t.c.reg oInjBank = 0x1C7FFFFFF)) = true ∧
    gives (.injLine 3 0x100050110) (st { u0 with boot := { phase := .ready, factory := true } }) (fun t => decide (t.c.faults.inj = some (16, 1, 1001, 5))) = true ∧
    gives .lock up (fun t => t.c.locked) = true := by decide +kernel

/-! ### Power -/

/-- Brownout or a transition of the operating point is under way. -/
def powered (l : List (FieldPos × Nat)) (p : Power) : Ctl := { flds u0 (l.map fun (x : FieldPos × Nat) => (oPwrOp, x.1, x.2)) with power := p, clk := { u0.clk with ref := 5000 } }

theorem test_points : gives (.opTransition 2) (st (powered [(pwrOp_ACTIVE, 3)] {})) (fun t => decide (t.c.power.step = .raiseAck 2 ∧ t.c.vreq = 2 ∧ t.c.pw pwrOp_BUSY = 1)) = true ∧
    gives (.opTransition 2) (st (powered [] {})) (fun t => decide (t.c.power.step = .lowerD 2)) = true ∧
    gives (.opTransition 2) (st (powered [] { step := .raiseAck 1 })) (fun t => decide (t.c.power.queued = some 2)) = true ∧
    same .dChange (st (powered [] { step := .lowerD 2, stepCc := 999 })) = true ∧
    gives .dChange (st (powered [] { step := .lowerD 2, stepCc := 998 })) (fun t => decide (t.c.clk.div = 6 ∧ t.c.power.step = .lowerAck 2)) = true ∧
    gives .dChange (st (powered [] { step := .raiseD 1 998 })) (fun t => decide (t.c.clk.div = 4 ∧ t.c.power.step = .idle)) = true ∧
    same .vack (st (powered [] { step := .raiseAck 1, stepRef := 4969 })) = true ∧
    gives .vack (st (powered [] { step := .raiseAck 1, stepRef := 4968 })) (fun t => decide (t.c.power.step = .raiseD 1 1000)) = true ∧
    gives .vack (st (powered [(pwrOp_BUSY, 1)] { step := .lowerAck 1, stepRef := 4968 })) (fun t => decide (t.c.power.step = .idle ∧ t.c.pw pwrOp_BUSY = 0)) = true := by decide +kernel

theorem test_vack_timeout_witness : let c := powered [(pwrOp_VACK_EXP, 10)] { step := .raiseAck 1, stepRef := 3944 }
    c.power.stepRef + 32 + 2 ^ c.pw pwrOp_VACK_EXP = c.clk.ref ∧ c.brown = false ∧ same .vackTimeout (st (powered [(pwrOp_VACK_EXP, 10)] { step := .raiseAck 1, stepRef := 3945 })) = true := by
  decide +kernel

theorem test_d_change_waits : same .dChange (st { powered [] { step := .lowerD 2, stepCc := 990 } with clk := { u0.clk with bc := 8001 } }) = true ∧
    same .dChange (st (powered [] { step := .lowerD 2, stepCc := 990, slice := true })) = true := by decide +kernel

theorem test_vwarn : gives (.brownout false) up (fun t => !t.c.power.vwarn) = true ∧ u0.brown = false ∧
    (powered [] { vwarn := false }).vwarnSample.power = { vwarn := false, lows := 1, brownRef := 5000 } ∧
    (powered [] { vwarn := false, lows := 1 }).vwarnSample.power = { vwarn := false, lows := 2, brownRef := 5000, recog := some 8000 } ∧
    (powered [] { lows := 1 }).vwarnSample.power.lows = 0 ∧ (powered [] { recog := some 7985 }).brownNow = powered [] { recog := some 7985 } ∧
    (let d := (powered [] { recog := some 7984 }).brownNow
     d.brown = true ∧ d.pw pwrOp_ACTIVE = 2 ∧ d.clk.div = 6 ∧ d.power.recog = none) := by decide +kernel

/-- A brownout after which vwarn_n is 1 since the sample of ref_clk count `n`. -/
def browned (active vreq target n : Nat) : Ctl := powered [(pwrOp_BROWNOUT, 1), (pwrOp_TARGET, target), (pwrOp_ACTIVE, active), (pwrOp_VREQ, vreq)] { brownRef := n }

theorem test_brownout_witness : (browned 2 0 0 3000).brown = true ∧ 
    gives .brownoutRestore (st (browned 2 0 0 3000)) (fun t => decide (t.c.power.step = .restoreAck 0 ∧ t.c.vreq = 0)) = true ∧
    gives .brownoutRestore (st (browned 2 2 2 3000)) (fun t => !t.c.brown && decide (t.c.power.step = .idle)) = true ∧
    gives .brownoutRestore (st (browned 2 0 2 3000)) (fun t => !t.c.brown && decide (t.c.power.step = .lowerAck 2 ∧ t.c.vreq = 2)) = true ∧
    same .brownoutRestore (st (browned 2 0 0 3001)) = true := by decide +kernel

/-- Requests are paused and a power state is asked for. -/
def asksFor (m : Nat) : Ctl := { flds u0 [(oStrCfg, strCfg_ISSUE_PAUSE, 1)] with power := { req := m } }

theorem test_entry : gives (.pwrModeWrite 4) up (fun t => decide (t.c.power.req = 4)) = true ∧ (asksFor 4).wfiReady 4 = true ∧ u0.wfiReady 4 = false ∧
    (asksFor 3).wfiReady 3 = true ∧ (flds (asksFor 3) [(oPwrWake, pwrWake_EN_WATCH, 0)]).watchOk = false ∧ (asksFor 3).watchOk = true ∧ gives .wfi (st (asksFor 4)) (fun t => decide (t.c.pmState = 1)) = true ∧
    gives .wfi (st (flds (asksFor 3) [(oPwrWake, pwrWake_EN_WATCH, 0)])) (fun t => decide (t.c.pmState = 0 ∧ t.c.fld oPwrMode pwrMode_RESULT = 2)) = true ∧
    gives .wfi (st { u0 with power := { req := 2 } }) (fun t => decide (t.c.pmState = 0 ∧ t.c.fld oPwrMode pwrMode_RESULT = 1)) = true := by decide +kernel

theorem test_entry_cc : (flds (asksFor 4) [(oPwrMode, pwrMode_STATE, 1)]).prepared = true ∧
    gives .entryCc (st (flds (asksFor 4) [(oPwrMode, pwrMode_STATE, 1), (oPwrOp, pwrOp_ACTIVE, 3)])) (fun t => !t.c.sysReady && t.c.power.asleep && !t.c.clk.run && decide (t.c.pmState = 4 ∧ t.c.fld oPwrMode pwrMode_CLAMPED = 1 ∧ t.c.clk.bc = 8000)) = true ∧
    gives .entryCc (st (flds (asksFor 5) [(oPwrMode, pwrMode_STATE, 1), (oPwrOp, pwrOp_ACTIVE, 3)])) (fun t => decide (t.c.clk.bc = 0 ∧ t.c.rdOut = [])) = true ∧
    gives .entryCc (st (flds (asksFor 4) [(oPwrMode, pwrMode_STATE, 1)])) (fun t => decide (t.c.power.step = .lowerD 3)) = true ∧
    gives .entryCc (st (flds (asksFor 2) [(oPwrMode, pwrMode_STATE, 1)])) (fun t => !t.c.sysReady && t.c.clk.run && decide (t.c.pmState = 2)) = true ∧
    same .entryCc up = true := by decide +kernel

/-- Asleep in P2 or P3, with wake from the control port and the door enabled or not. -/
def asleep (m en : Nat) : Ctl := { flds u0 [(oPwrMode, pwrMode_STATE, m), (oPwrWake, pwrWake_EN_CPORT, en), (oPwrWake, pwrWake_EN_DOOR, en)] with
  sysReady := false, clk := { u0.clk with run := false, ref := 2 ^ 30 }, power := { req := m, mode := m, asleep := true } }

theorem test_exit : (asleep 2 1).wakeOn 0 = true ∧ (asleep 2 0).wakeOn 0 = false ∧
    gives (.wakeEvent 0) (st (asleep 2 1)) (fun t => t.c.clk.run && decide (t.c.pmState = 6 ∧ t.c.power.riseAt = some 1008)) = true ∧
    same (.wakeEvent 0) (st (asleep 2 0)) = true ∧ gives (.wake .spi) (st (asleep 2 1)) (fun t => t.c.clk.run && decide (t.c.door.lastOp = 0x30)) = true ∧
    gives .clampRel (st (flds u0 [(oPwrMode, pwrMode_STATE, 6), (oPwrMode, pwrMode_CLAMPED, 1)])) (fun t => decide (t.c.power.riseAt = some 1002 ∧ t.c.fld oPwrMode pwrMode_CLAMPED = 1)) = true ∧
    (let c : Ctl := { flds u0 [(oPwrMode, pwrMode_CLAMPED, 1)] with power := { riseAt := some 1001 } }
     c.clampsEnd.fld oPwrMode pwrMode_CLAMPED = 0 ∧ ({ c with power := { riseAt := some 1002 } } : Ctl).clampsEnd.fld oPwrMode pwrMode_CLAMPED = 1) ∧
    same .clampRel up = true ∧ gives .watchSlice (st (asleep 3 0)) (fun t => t.c.power.slice && t.c.clk.run && decide (t.c.clk.div = 12)) = true ∧
    same .watchSlice (st { asleep 3 0 with clk := { u0.clk with run := false, ref := 1 } }) = true := by decide +kernel

/-- P2 and P3 before entry is complete, and a watch slice that ends in ec `n`: counter 0 is compared with REF. -/
def entering : Ctl := { asleep 2 1 with clk := u0.clk, power := { req := 2, mode := 2 } }
def slicing (n ref : Nat) : Ctl := { flds (asleep 3 0) [(oPwrWatchv, pwrWatchv_VALUE, ref)] with clk := u0.clk, power := { req := 3, mode := 3, asleep := true, slice := true, sliceEnd := n } }

theorem test_wake_owed : gives (.wakeEvent 0) (st entering) (fun t => t.c.power.wakePend && decide (t.c.fld oPwrMode pwrMode_WAKE_SRC = 1)) = true ∧
    (let c : Ctl := { flds entering [(oPwrWake, pwrWake_LINK_MASK, 4)] with power := { req := 2, mode := 2, rose := 4 } }
     c.wakeOn 3 = true ∧ ({ c with power := { req := 2, mode := 2, rose := 3 } } : Ctl).wakeOn 3 = false) := by decide +kernel

theorem test_slice_ends : same .watchSlice (st (slicing 4001 5)) = true ∧ (slicing 4000 5).watchMatch 0 = false ∧ (slicing 4000 0).watchMatch 0 = true ∧
    (slicing 4000 5).fld oPwrWatch pwrWatch_KIND = 0 ∧
    gives .watchSlice (st (slicing 4000 5)) (fun t => !t.c.power.slice && !t.c.clk.run) = true := by decide +kernel

/-! ### The stage door, unlock, firmware, mailbox -/

theorem test_door_registers : u0.doorUp = true ∧ u0.doorReads oPwrRet = true ∧ u0.doorWrites oPwrRet = true ∧ regFind 0x3FFFF8 = none ∧
    (let c : Ctl := { u0 with sysReady := false }
     c.doorReads 0 = false ∧ c.doorWrites 0 = false ∧ gives (.writeReg .spi 0 5) (st c) (fun t => decide (t.c.door.result = 2)) = true) ∧
    gives (.readReg (.frame .spi) oFltCfg 3) up (fun t => decide (t.c.door.resp = leBytes 8 0x1400 ++ [0])) = true ∧
    gives (.readReg (.frame .tap) 0x3FFFF8 3) up (fun t => decide (t.c.door.resp = leBytes 8 0 ++ [1] ∧ t.c.fld oStatus status_LAST_DECERR = 0x3FFFF8)) = true ∧
    gives (.writeReg .tap oPwrRet 5) up (fun t => decide (t.c.reg oPwrRet = 5 ∧ t.c.door.result = 0)) = true := by decide +kernel

theorem test_control_reads : gives (.readReg .control oFltCfg 3) up (fun t => decide (t.c.cReqs = [.read oFltCfg 3])) = true ∧
    same (.readReg .control oFltCfg 3) (st { u0 with cReqs := List.replicate 4 (.read 0 3) }) = true ∧
    (({ u0 with cReqs := [.read oFltCfg 3] } : Ctl).readsNow.cRsp, ({ u0 with cReqs := [.read oFltCfg 3, .read 0 0] } : Ctl).readsNow.cReqs)
      = ({ valid := true, rdata := 0x1400, status := 0 }, [.read 0 0]) ∧
    ({ u0 with cReqs := [.read oFltCfg 0] } : Ctl).readsNow.cRsp.status = 2 ∧
    (let d := ({ u0 with cReqs := [.read 0x3FFFF8 3] } : Ctl).readsNow
     d.cRsp.status = 1 ∧ d.fld oStatus status_LAST_DECERR = 0x3FFFF8) := by decide +kernel

/-- In tableau. -/
def frozen : Ctl := { u0 with clk := { u0.clk with frozen := true } }

theorem test_door_reads : gives (.readReg (.frame .spi) oProvSeq 3) (st (frozen.setReg oProvSeq 5)) (fun t => decide (t.c.door.resp = leBytes 8 5 ++ [0])) = true ∧
    gives (.readRow .spi ⟨1, 2, false, 3, 4⟩) { st frozen with banks := [(rowKey 1 2 3 4, ones)] } (fun t => decide (t.c.door.resp = leBytes 36 (codeWord false ones))) = true ∧
    gives (.readRow .spi ⟨1, 2, false, 3, 4⟩) up (fun t => decide (t.c.door.result = 2)) = true ∧
    gives (.readStore .spi 0 8) (st { frozen with store := [(8, ones)] }) (fun t => decide (t.c.door.resp = leBytes 36 (codeWord false ones))) = true ∧
    gives (.readStore .spi 0 8) up (fun t => decide (t.c.door.result = 2)) = true ∧ (0x77 : Byte).toNat ∉ doorOpcodes ∧
    gives (.unknownOpcode .spi 0x77) up (fun t => decide (t.c.door.result = 4 ∧ t.c.door.lastOp = 0x77)) = true ∧
    gives (.getId .spi) up (fun t => decide (t.c.door.resp.length = 8)) = true ∧ gives (.getStatus .tap) up (fun t => decide (t.c.door.resp.getD 2 0 = 0x23)) = true := by decide +kernel

theorem test_tap : gives (.idcode true) up (fun t => decide (t.c.door.tapIr = 1 ∧ t.c.door.tap = .testLogicReset)) = true ∧
    gives (.idcode false) up (fun t => decide (t.c.door.tapIr = 1 ∧ t.c.door.tapOut.length = 32 ∧ t.c.door.tap = .runTestIdle)) = true ∧
    gives .bypass up (fun t => decide (t.c.door.tapOut = [false])) = true ∧ u0.door.tap = .testLogicReset ∧
    gives (.getId .tap) up (fun t => decide (t.c.door.tapIr = 0x40 ∧ t.c.door.tapOut.length = 64)) = true ∧
    gives (.scanN 3) up (fun t => decide (t.c.door.tapIr = 0x53 ∧ t.c.door.tapOut = List.replicate 32 false)) = true ∧ frozen.clk.frozen = true := by decide +kernel

/-- Factory test mode can be entered: tst_mode was 1, and key 7 is there. -/
def unlockable : Ctl := { boot := { phase := .waitKey, tst := true, key := some (7, 9) }, clk := { run := true } }
def goodUnlock : Nat := digestNat ([0x4D, 0x49, 0x4F, 0x55, 0x4E, 0x4C, 0x43, 0x4B] ++ leBytes 32 7)

theorem test_unlock_witness : unlockable.smRuns = true ∧ unlockable.everReady = false ∧ (BitVec.ofNat 256 goodUnlock).toNat = goodUnlock ∧
    gives (.unlock .spi (BitVec.ofNat 256 goodUnlock)) (st unlockable) (fun t => t.c.boot.factory) = true ∧
    gives (.unlock .spi (BitVec.ofNat 256 goodUnlock)) (st { unlockable with boot := { unlockable.boot with unlocks := 3 } }) (fun t => !t.c.boot.factory && decide (t.c.door.result = 2)) = true ∧
    gives (.unlock .spi 5) (st { unlockable with boot := { unlockable.boot with key := none } }) (fun t => decide (t.c.boot.unlocks = 1)) = true := by decide +kernel

/-- Firmware uploads with the image of the start-up test, whose header names version 7. -/
def fw (l : List (FieldPos × Nat)) (b : Boot) : Ctl := { flds u0 (l.map fun (x : FieldPos × Nat) => (oFwStat, x.1, x.2)) with boot := b }
def uploads (up : List Byte) (busy : Bool) : Ctl :=
  fw [(fwStat_UPLOADING, 1)] { phase := .ready, key := some (7, 9), uploadHdr := image.take 128, upload := up, nvmBusy := busy }

theorem test_begin : (fw [] { phase := .ready, key := some (7, 9) }).smRuns = true ∧ (fw [] { phase := .ready, key := some (7, 9) }).beginCode (image.take 128) = 0 ∧
    (fw [] { phase := .ready, key := some (7, 9) }).beginCode (List.replicate 128 0) = 2 ∧
    gives (.fwBegin .spi image) (st (fw [] { phase := .ready, key := some (7, 9) })) (fun t => t.c.boot.nvmBusy && decide (t.c.fld oFwStat fwStat_UPLOADING = 1)) = true ∧
    gives (.fwBegin .spi image) (st (uploads [] false)) (fun t => decide (t.c.fld oFwStat fwStat_RESULT = 1)) = true := by decide +kernel

theorem test_data_frames : (List.replicate 256 (5 : Byte)).length = 256 ∧ hdrLen (uploads [] false).boot.uploadHdr = 16 ∧
    gives (.fwData .spi 0 (List.replicate 256 5)) (st (uploads [] false)) (fun t => decide (t.c.boot.upload = List.replicate 16 5)) = true ∧
    gives (.fwData .spi 0 (List.replicate 256 5)) (st (uploads [] true)) (fun t => decide (t.c.door.result = 3 ∧ t.c.boot.upload = [])) = true ∧
    gives (.fwData .spi 256 (List.replicate 256 5)) (st (uploads [] false)) (fun t => decide (t.c.fld oFwStat fwStat_RESULT = 8 ∧ t.c.fld oFwStat fwStat_UPLOADING = 0)) = true ∧
    gives (.fwData .spi 0 (List.replicate 256 5)) up (fun t => decide (t.c.fld oFwStat fwStat_RESULT = 8)) = true := by decide +kernel

theorem test_upload_end : (uploads (image.drop 128) false).tagOk (image.take 128) (image.drop 128) = true ∧
    gives (.fwEnd .spi) (st (uploads [5] false)) (fun t => decide (t.c.fld oFwStat fwStat_RESULT = 8)) = true ∧ gives (.fwEnd .spi) up (fun t => decide (t.c.fld oFwStat fwStat_RESULT = 8)) = true ∧
    gives (.nvmProgramEraseDone true) (st (uploads [] true)) (fun t => !t.c.boot.nvmBusy) = true ∧
    gives (.nvmProgramEraseDone false) (st (uploads [] true)) (fun t => decide (t.c.fld oFwStat fwStat_RESULT = 10)) = true ∧
    same (.nvmProgramEraseDone true) up = true := by decide +kernel

/-- An image is staged. -/
def staged : Ctl := fw [(fwStat_STAGED, 1)] { phase := .ready, stagedHdr := image.take 128, iramIdle := [1, 2], iramRun := [3] }

theorem test_activate : staged.activateBusy = false ∧ staged.pmState = 0 ∧ { staged with refills := 1 : Ctl }.activateBusy = true ∧
    gives (.fwActivate .control) (st staged) (fun t => decide (t.c.boot.iramRun = [1, 2] ∧ t.c.boot.iramIdle = [3] ∧ t.c.fld oFwStat fwStat_RUN_VER = 7 ∧ t.c.boot.pause = some false)) = true ∧
    gives (.fwActivate .control) up (fun t => decide (t.c.fld oFwStat fwStat_RESULT = 11)) = true ∧
    gives (.fwActivate .control) (st { staged with refills := 1 }) (fun t => decide (t.c.fld oFwStat fwStat_RESULT = 1)) = true := by decide +kernel

theorem test_activate_resume : (fw [] { phase := .ready, pause := some true }).drained = true ∧
    gives (.activateResume 0) (st (fw [] { phase := .ready, pause := some true })) (fun t => decide (t.c.boot.copying = 4 ∧ t.c.fld oStrCfg strCfg_ISSUE_PAUSE = 1 ∧ t.c.boot.pause = none)) = true ∧
    same (.activateResume 0) (st (fw [] { phase := .ready, pause := some true, kicked := false })) = true ∧ same .slotCopy up = true := by decide +kernel

/-- A copy of slot 1 into slot 0 with `k` steps to go. -/
def copies (k : Nat) : Ctl := fw [(fwStat_COPY, 1)] { phase := .ready, copying := k, dev := { blank with bytes := [(0x10, 1), (0x20000, 2), (0x30000, 4), (0x50000, 3)] } }

theorem test_slot_copy : gives .slotCopy (st (copies 4)) (fun t => decide (t.c.boot.dev.bytes = [(0x10, 1), (0x30000, 4), (0x50000, 3)] ∧ t.c.boot.copying = 3)) = true ∧
    gives .slotCopy (st (copies 3)) (fun t => decide (t.c.boot.dev.bytes = [(0x10, 1), (0x50000, 3)] ∧ t.c.fld oFwStat fwStat_COPY = 2)) = true ∧
    gives .slotCopy (st (copies 2)) (fun t => decide (t.c.boot.dev.bytes.take 2 = [(0x10, 1), (0x20000, 3)] ∧ t.c.boot.copying = 1)) = true ∧
    gives .slotCopy (st (copies 1)) (fun t => decide (t.c.fld oFwStat fwStat_COPY = 0 ∧ t.c.boot.copying = 0)) = true := by decide +kernel

theorem test_upload_ends : (let c := (uploads (image.drop 128) false)
     gives (.fwEnd .spi) (st c) (fun t => t.c.boot.nvmBusy && decide (t.c.boot.ending = 1 ∧ t.c.fld oFwStat fwStat_RESULT = 1)) = true ∧
     gives (.fwEnd .spi) (st { c with boot := { c.boot with nvmBusy := true } }) (fun t => decide (t.c.boot.ending = 2)) = true ∧
     gives (.fwEnd .spi) (st { c with boot := { c.boot with ending := 1, nvmBusy := true } }) (fun t => decide (t.c.fld oFwStat fwStat_RESULT = 1)) = true ∧
     gives (.nvmProgramEraseDone true) (st { c with boot := { c.boot with ending := 2, nvmBusy := true } }) (fun t => decide (t.c.boot.ending = 1)) = true ∧
     gives (.nvmProgramEraseDone true) (st { c with boot := { c.boot with ending := 1, nvmBusy := true } }) (fun t =>
       decide (t.c.fld oFwStat fwStat_STAGED = 1 ∧ t.c.fld oFwStat fwStat_RESULT = 0 ∧ t.c.boot.stagedBody = image.drop 128)) = true) := by decide +kernel

/-- A frame of the SPI target was begun in this cc, or waits. -/
theorem test_two_frames : up.spiHolds .tap = false ∧ (st (u0.frameBegins .spi)).spiHolds .tap = true ∧ (st (u0.frameBegins .spi)).spiHolds .spi = false ∧
    ({ up with pending := [.getId .spi] } : State).spiHolds .tap = true ∧
    gives (.writeReg .tap oPwrRet 5) (st (u0.frameBegins .spi)) (fun t => decide (t.c.door.result = 3 ∧ t.c.reg oPwrRet = 0)) = true ∧
    gives (.readRow .spiCut ⟨1, 2, false, 3, 4⟩) up (fun t => decide (t.c.door.result = 1)) = true := by decide +kernel

theorem test_unlock_denied : gives (.unlock .spi 0) (st { unlockable with boot := { unlockable.boot with phase := .waitKey, key := none } }) (fun t => decide (t.c.boot.unlocks = 1)) = true ∧
    (let c : Ctl := { unlockable with boot := { unlockable.boot with phase := .stopped } }
     c.doorUp = true ∧ c.smRuns = true) ∧
    (let c : Ctl := { u0 with clk := { u0.clk with frozen := true } }
     c.doorUp = true ∧ c.smRuns = false ∧ gives (.unlock .spi 0) (st c) (fun t => decide (t.c.door.result = 2 ∧ t.c.boot.unlocks = 0)) = true) := by decide +kernel

theorem test_message_words : gives (.registerWrite .control (oMbH2s 2) 1 0x700000005) up (fun t => decide (t.c.reg (oMbH2s 2) = 5)) = true ∧
    gives (.registerWrite .control (oMbH2s 2) 3 7) (st (flds u0 [(oMbCtrl, mbCtrl_H2S_FULL, 1)])) (fun t =>
      decide (t.c.reg (oMbH2s 2) = 0 ∧ t.c.fld oMbCtrl mbCtrl_H2S_REFUSED = 1)) = true ∧
    wrote .h2sSend (st (flds u0 [(oMbCtrl, mbCtrl_H2S_FULL, 1)])) (flds u0 [(oMbCtrl, mbCtrl_H2S_FULL, 1)]) = true := by decide +kernel

theorem test_mailbox : gives .h2sSend up (fun t => decide (t.c.fld oMbCtrl mbCtrl_H2S_FULL = 1)) = true ∧
    gives .s2hAck (st (flds u0 [(oMbCtrl, mbCtrl_S2H_FULL, 1)])) (fun t => decide (t.c.fld oMbCtrl mbCtrl_S2H_FULL = 0)) = true ∧
    gives .h2sMessageTaken (st (flds u0 [(oMbCtrl, mbCtrl_H2S_FULL, 1)])) (fun t => decide (t.c.fld oMbCtrl mbCtrl_H2S_FULL = 0)) = true ∧
    gives (.s2hMessagePost [7, 8]) up (fun t => decide (t.c.fld oMbCtrl mbCtrl_S2H_FULL = 1 ∧ t.c.reg (oMbS2h 1) = 8)) = true := by decide +kernel

/-! ### An image that passes every check of RESTORE -/

/-- A block whose region map names nothing, with every quadrant held. -/
def empties : Ctl := (List.range 64).foldl (fun (c : Ctl) r => c.setReg (oRegion r) 0) (flds u0 [(oCsStat, csStat_HELD, 0xF), (oCsCtrl, ⟨0, 0, 4⟩, 0xF)])

/-- The header of its image of no group (R281); with this time the CRC of the bytes before the check word leaves a state of 0. -/
def head0 : Nat := leNat (leBytes 4 0x4D494E54 ++ leBytes 4 0x201 ++ leBytes 8 64694517792 ++ leBytes 8 234765571119385866 ++ leBytes 36 0
  ++ leBytes 4 1181 ++ leBytes 8 31 ++ leBytes 4 0 ++ leBytes 4 2419412977 ++ leBytes 172 0 ++ leBytes 4 0xFFFFFFFF)

def first8 : List Granule := imgGranules 8 head0
def image0 : List Granule := first8 ++ List.replicate 1173 0

theorem first8_read : leNat (dataBytes (first8.map fun g => (decodeG false g).word)) = head0 ∧ (first8.all fun g => !(decodeG false g).bad) = true ∧
    first8.length = 8 := by decide +kernel

theorem zero_read : (decodeG false 0).word = 0 ∧ (decodeG false 0).bad = false := by decide +kernel

theorem image0_head : imgNat image0 0 8 = head0 := by
  rw [imgNat, List.drop_zero, image0, List.take_append_of_le_length (Nat.le_of_eq first8_read.2.2.symm), List.take_of_length_le (Nat.le_of_eq first8_read.2.2)]
  exact first8_read.1

theorem zero_bytes (n : Nat) : dataBytes (List.replicate n 0) = List.replicate (32 * n) 0 := by
  have h : granuleBytes (0 : Granule) = List.replicate 32 0 := by decide +kernel
  induction n with
  | zero => rfl
  | succ n ih => rw [dataBytes] at *; rw [List.replicate_succ, List.flatMap_cons, ih, h, List.replicate_append_replicate]; congr 1; omega

theorem leNat_zeros (n : Nat) : leNat (List.replicate n 0) = 0 := by
  induction n with
  | zero => rfl
  | succ n ih => rw [List.replicate_succ, leNat, ih]; rfl

theorem image0_zero (i n : Nat) (h : 8 ≤ i) : imgNat image0 i n = 0 := by
  rw [imgNat, image0, List.drop_append, first8_read.2.2, List.drop_eq_nil_of_le (by rw [first8_read.2.2]; exact h), List.nil_append, List.drop_replicate,
    List.take_replicate, List.map_replicate, zero_read.1, zero_bytes, leNat_zeros]

theorem image0_plan : imgPlan head0 = { seqs := 1112, ctxs := 1112, wins := 1176, sends := 1180, cnts := 1181, curs := 1181, banks := 1181 } := by decide +kernel

theorem crc_zeros (n : Nat) : (List.replicate n (0 : Byte)).foldl (fun c b => crc32cBits 8 (c ^^^ b.toNat)) 0 = 0 := by
  induction n with
  | zero => rfl
  | succ n ih => rw [List.replicate_succ, List.foldl_cons]; exact ih

theorem image0_length : image0.length = 1181 := by rw [image0, List.length_append, first8_read.2.2, List.length_replicate]

theorem image0_crc : imgCrc image0 1181 = 0xFFFFFFFF := by
  have h : (leBytes 252 head0).foldl (fun c b => crc32cBits 8 (c ^^^ b.toNat)) 0xFFFFFFFF = 0 := by decide +kernel
  rw [imgCrc, image0_head, List.take_of_length_le (Nat.le_of_eq image0_length), image0,
    List.drop_append_of_le_length (Nat.le_of_eq first8_read.2.2.symm), List.drop_eq_nil_of_le (Nat.le_of_eq first8_read.2.2), List.nil_append, zero_bytes, crc32c,
    List.foldl_append, h, crc_zeros]
  rfl

/-- Granules as a RESTORE has received them, from place `i` on. -/
def received : Nat → List Granule → Tab (Granule × Bool)
  | _, [] => []
  | i, g :: t => (i, (g, false)) :: received (i + 1) t

theorem received_image (l : List Granule) (i b : Nat) : ((received i l).filter fun e => decide (e.1 < b)).map (fun e => e.2.1) = l.take (b - i) := by
  induction l generalizing i with
  | nil => simp [received]
  | cons g t ih =>
    by_cases h : i < b
    · rw [received, List.filter_cons_of_pos (by simpa using h), List.map_cons, ih, show b - i = b - (i + 1) + 1 by omega, List.take_succ_cons]
    · rw [received, List.filter_cons_of_neg (by simpa using h), ih, show b - (i + 1) = 0 by omega, show b - i = 0 by omega, List.take_zero, List.take_zero]

theorem received_good (l : List Granule) (i b : Nat) : ((received i l).any fun e => decide (e.1 < b) && e.2.2) = false := by
  induction l generalizing i with
  | nil => rfl
  | cons g t ih => rw [received, List.any_cons, ih]; simp

/-- A RESTORE that has read some of the image, and the block as it finds it. -/
def runOf (l : List Granule) : RestRun := { sheets := true, len := 1181, got := received 0 l }
def restores : Ctl := ({ empties with audit := { rest := some (runOf image0) } } : Ctl).setIntm intmStat_PHASE 5

theorem runOf_image (l : List Granule) (n : Nat) : (runOf l).image n = l.take n := received_image l 0 n
theorem runOf_erred (l : List Granule) (n : Nat) : (runOf l).erred n = false := received_good l 0 n

theorem runOf_front (l : List Granule) (h : l.take 8 = first8) : (runOf l).front = some 1181 := by
  have e : imgNat first8 0 8 = head0 := first8_read.1
  have m : headField head0 0 4 = 0x4D494E54 := by decide +kernel
  rw [RestRun.front, runOf_image, h, runOf_erred]
  simp [first8_read.2.2, e, m, image0_plan]

theorem image0_first : image0.take 8 = first8 := by
  rw [image0, List.take_append_of_le_length (Nat.le_of_eq first8_read.2.2.symm), List.take_of_length_le (Nat.le_of_eq first8_read.2.2)]

theorem image0_whole : (runOf image0).image 1181 = image0 := (runOf_image image0 1181).trans (List.take_of_length_le (Nat.le_of_eq image0_length))

theorem image0_broken : restores.imgBroken image0 (imgPlan head0) = false := by
  rw [image0_plan, Ctl.imgBroken, List.any_eq_false]
  intro i hi
  have hr : (decide (1112 ≤ i ∧ i < 1112 ∧ 16 ≤ (i - 1112) % 144)) = false := by simp only [decide_eq_false_iff_not]; omega
  simp only [Ctl.imgRep, hr, Bool.false_and]
  by_cases h : i < 8
  · rw [image0, List.getD_eq_getElem?_getD, List.getElem?_append_left (by rw [first8_read.2.2]; exact h), ← List.getD_eq_getElem?_getD]
    have a := List.all_eq_true.mp first8_read.2.1 (first8.getD i 0) (by
      rw [List.getD_eq_getElem?_getD, List.getElem?_eq_getElem (by rw [first8_read.2.2]; exact h)]; exact List.getElem_mem _)
    simpa using a
  · have z : (List.replicate 1173 (0 : Granule))[i - first8.length]?.getD 0 = 0 := by rw [List.getElem?_replicate]; split <;> rfl
    rw [image0, List.getD_eq_getElem?_getD, List.getElem?_append_right (by rw [first8_read.2.2]; omega), z, zero_read.2]
    decide

theorem image0_words (i k : Nat) (h : 8 ≤ i) : imgWord image0 i k = 0 := by rw [imgWord, image0_zero _ _ (by omega), Nat.zero_shiftRight]; rfl

theorem image0_bits (i n : Nat) (h : 8 ≤ i) : imgBits image0 i n = [] := by
  rw [imgBits, image0_zero _ _ h]; simp

theorem image0_banks (m : Nat) : imgBankList image0 m = [] := by
  rw [imgBankList, List.filter_eq_nil_iff]
  intro pb _
  rw [imgOwner, image0_words _ _ (by decide)]
  simp [bits, ownerIn]

theorem test_restore_code : restores.restoreCode true image0 = 0 := by
  have h1 : headField head0 0 4 = 0x4D494E54 ∧ headField head0 4 4 = 0x201 ∧ headField head0 0xFC 4 = 0xFFFFFFFF ∧ headField head0 8 8 = restores.geomWord ∧
      headField head0 0x10 8 = (restores.reg oLatMap).toNat ∧ headField head0 (0x80 + 32 * 0) 32 = 0 ∧ headField head0 (0x80 + 32 * 1) 32 = 0 ∧
      headField head0 0x28 4 = 0 ∧ headField head0 0x20 8 = 0 ∧ ((List.range 4).any fun q => !restores.csHeldNow q) = false := by decide +kernel
  have h2 : ((List.range 64).any fun r => (0 : Word) != restores.reg (oRegion r)) = false := by decide +kernel
  obtain ⟨a1, a2, a3, a4, a5, a6, a7, a8, a9, a10⟩ := h1
  rw [Ctl.restoreCode]
  simp only [image0_head, a1, a2, a3, a4, a5, a6, a7, a8, a9, a10, image0_broken]
  simp only [image0_plan, image0_crc, image0_words _ _ (by decide : 8 ≤ 8), h2, image0_banks, image0_bits _ _ (by decide : 8 ≤ 1112),
    image0_bits _ _ (by decide : 8 ≤ 1176), image0_bits _ _ (by decide : 8 ≤ 1180)]
  simp

theorem test_restore_witness : restores.sysReady = true ∧ restores.blackout = false ∧ (∀ n, (restores.link n).inbox = []) ∧ restores.intmPhase = 5 ∧
    restores.audit.rest = some (runOf image0) ∧ (runOf image0).groups = none ∧ (runOf image0).failed = false ∧ (runOf image0).front = some 1181 ∧
    1181 ≤ ((runOf image0).image 1181).length ∧ (runOf image0).erred 1181 = false ∧ restores.restoreCode (runOf image0).sheets ((runOf image0).image 1181) = 0 := by
  refine ⟨by decide +kernel, by decide +kernel, fun _ => rfl, by decide +kernel, rfl, rfl, rfl, runOf_front _ image0_first, ?_, runOf_erred _ _, ?_⟩
  · rw [image0_whole, image0_length]
  · rw [image0_whole]
    exact test_restore_code

/-- The header alone: the part before the banks is not whole. -/
theorem test_restore_incomplete : (runOf first8).front = some 1181 ∧ ((runOf first8).image 1181).length < 1181 :=
  ⟨runOf_front _ (List.take_of_length_le (Nat.le_of_eq first8_read.2.2)), by rw [runOf_image, List.length_take, first8_read.2.2]; decide⟩


/-! ### Layout and comparison -/

theorem test_layout : (granuleBytes (0x0403020100 : Granule)).take 5 = [0, 1, 2, 3, 4] ∧ leNat [1, 2, 3, 4] = 0x04030201 := by decide +kernel

theorem test_distance : (5 + 2 ^ 32 - 3 % 2 ^ 32) % 2 ^ 32 = 2 ∧ reached 4 5 = false ∧ reached 5 5 = true ∧ reached 3 (3 + 2 ^ 31) = false ∧
    reached 3 (4 + 2 ^ 31) = true ∧ (3 + 2 ^ 31 + 2 ^ 32 - 3 % 2 ^ 32) % 2 ^ 32 = 2 ^ 31 := by decide +kernel

/-! ### Changes of one cc (R371), frames that end early (R356), the record before sys_ready (R351) -/

/-- What the statements on register writes assume empty. -/
theorem test_no_notes : u0.notes = {} ∧ u0.smRuns = true ∧ u0.boot.phase ≠ .recovery ∧ (∀ o ∈ plainRegs, u0.doorWrites o = true) := by decide +kernel

theorem test_set_beats_clear : gives (.registerWrite .control oStatus 3 8) (st (u0.flag oStatus status_DECODE_ERR)) (fun t => decide (t.c.fld oStatus status_DECODE_ERR = 1)) = true ∧
    gives (.registerWrite .control oStatus 3 8) (st (u0.setFld oStatus status_DECODE_ERR 1)) (fun t => decide (t.c.fld oStatus status_DECODE_ERR = 0)) = true := by decide +kernel

theorem test_count_takes_events : gives (.registerWrite .control (oFltCnt 3) 3 0xFFFFFFFE) (st (u0.satAdd (oFltCnt 3) fltCnt_COUNT 1)) (fun t => decide (t.c.fld (oFltCnt 3) fltCnt_COUNT = 0xFFFFFFFF)) = true ∧
    gives (.registerWrite .control (oFltCnt 3) 3 0) (st (u0.satAdd (oFltCnt 3) fltCnt_COUNT 1)) (fun t => decide (t.c.fld (oFltCnt 3) fltCnt_COUNT = 1)) = true := by decide +kernel

theorem test_door_stands : gives (.registerWrite .control oPwrRet 3 6) (st { u0.setReg oPwrRet 5 with notes := { door := [(oPwrRet, BitVec.allOnes 64, 5)] } })
      (fun t => decide (t.c.reg oPwrRet = 5)) = true ∧
    gives (.writeReg .spi oPwrRet 5) up (fun t => decide (t.c.notes.door = [(oPwrRet, BitVec.allOnes 64, 5)])) = true ∧
    gives (.registerWrite .control oPwrRet 3 6) up (fun t => decide (t.c.notes.door = [] ∧ t.c.reg oPwrRet = 6)) = true := by decide +kernel

theorem test_cut_frames : gives (.writeReg .spiCut oPwrRet 5) up (fun t => decide (t.c.door.result = 1 ∧ t.c.door.lastOp = 2 ∧ t.c.reg oPwrRet = 0)) = true ∧
    gives (.readReg (.frame .tapCut) oPwrRet 3) up (fun t => decide (t.c.door.result = 1 ∧ t.c.door.resp = [] ∧ t.c.door.tapIr = 0x40)) = true ∧
    gives (.unlock .spiCut 0) up (fun t => decide (t.c.door.result = 1 ∧ t.c.boot.unlocks = 0)) = true := by decide +kernel

theorem test_record_sheet : (((State.reset.c.setFld oCsStat csStat_HELD 0xF).cfgApply { off := csOff 0 1 15 0, be := 3, value := 1 }).map fun c => c.reg (csOff 0 1 15 0)) = some 1 := by
  decide +kernel

/-! ### Kills of streams and of accesses in flight -/

theorem test_kill_streams : gives (.kill 0) (st (ctx3 (fill40 1))) (fun t => decide (t.c.ctxState 3 = 0 ∧ t.c.cx 3 strCtx_STATUS = 8)) = true ∧
    gives (.kill 0) (st (ctx3 (fill40 2))) (fun t => decide (t.c.ctxState 3 = 3 ∧ (t.c.ctx 3).drain = some .killed)) = true ∧
    (win6 [(win_STATE, 1)]).winOwner 6 = 0 ∧ gives (.kill 0) (st (win6 [(win_STATE, 1)])) (fun t => decide (t.c.wn 6 win_STATE = 2)) = true ∧
    gives (.kill 1) (st (win6 [(win_STATE, 1)])) (fun t => decide (t.c.wn 6 win_STATE = 1)) = true ∧
    gives (.kill 0) (st (send4 [(lsend_STATE, 2)])) (fun t => decide (t.c.sdState 4 = 3 ∧ t.c.sd 4 lsend_STATUS = 5)) = true := by decide +kernel

/-- A read and a write in flight that a kill has cut before their bank access. -/
theorem test_suppressed : let r : RAccess := { racc 0 with cut := some 7992 }
    let a : WAccess := { wacc 0 none with cut := some 7992 }
    ((reads true r).c.seq 90).dueRead 8000 = some r ∧ ((writes true a).c.seq 90).dueWrite 8000 = some a ∧ a.firstBc = 8000 ∧
    gives (.scheduledBankAccess 90 false) (reads true r) (fun t => decide ((t.c.seq 90).reads.map (fun x => x.lanes.map fun l => (l.cause, l.bad)) = [[(6, true)]] ∧
      t.c.fld oCvCount ⟨0, 0, 32⟩ = 0)) = true ∧
    gives (.scheduledBankAccess 90 true) (writes true a) (fun t => decide (t.banks = [] ∧ (t.c.seq 90).writes.map (fun x => x.lanes.map fun l => l.code) = [[2]])) = true := by
  decide +kernel

/-- A group that is quiet, one with a write in flight, and what the first saves. -/
theorem test_quiet : (intm 2 u0).intmQuiet = true ∧ (intm 2 u0).intmMask = 1 ∧ 90 ∈ u0.members 0 ∧
    (intm 2 (writes true (wacc 0 none)).c).intmQuiet = false ∧ (intm 2 u0).imgSeqs 1 = (List.range 104) := by decide +kernel

end Sys2Proof.Tests
end

section
/-! Which commands complete (R3, R4, log entry 87). -/

namespace Sys2Proof.Machine

/-- An outcome that `ok` alone decides: a next state if it holds, and else the fault for a unit that the block does not have. -/
def Gated (ok : Bool) (o : Out) : Prop := (ok = true → ∃ t, o = .next t) ∧ (ok = false → o = .fault .noSuchUnit)

/-! ### The shared operations are gated by their guard -/

theorem onUnit_gated (ok : Bool) (s : State) (f : Ctl → Ctl) : Gated ok (onUnit ok s f) := by
  cases ok <;> simp [Gated]

theorem onDoor_gated (ok : Bool) (s : State) (f : Ctl → Ctl) : Gated ok (onDoor ok s f) := by
  cases ok <;> simp [Gated]

theorem onBanks_gated (ok : Bool) (s : State) (f : Tab Granule → Ctl → Ctl × List BankOp) : Gated ok (onBanks ok s f) := by
  cases ok <;> simp [Gated, onBanks]

theorem onDoorBanks_gated (ok : Bool) (s : State) (f : Tab Granule → Ctl → Ctl × List BankOp) : Gated ok (onDoorBanks ok s f) := by
  cases ok <;> simp [Gated, onDoorBanks]

/-- The end of the supplies names no unit, and always completes. -/
theorem exec_supplyRestore_gated (s : State) : Gated (Instr.wf .supplyRestore) (exec .supplyRestore s) :=
  ⟨fun _ => ⟨_, rfl⟩, fun h => nomatch h⟩

/-! ### Every command is gated by its well-formedness -/

theorem exec_gated (i : Instr) (s : State) : Gated i.wf (exec i s) := by
  rcases exec_shape i s with ⟨f, e⟩ | ⟨f, e⟩ | ⟨f, e⟩ | ⟨f, e⟩ | rfl
  · exact e ▸ onUnit_gated i.wf s f
  · exact e ▸ onDoor_gated i.wf s f
  · exact e ▸ onBanks_gated i.wf s f
  · exact e ▸ onDoorBanks_gated i.wf s f
  · exact exec_supplyRestore_gated s

/-- Settles O3: well-formedness alone gates a command (`exec_gated`), and no next state has another queue (`exec_next`). -/
theorem wellFormedCommandsComplete : Obligations.WellFormedCommandsComplete := by
  intro i s
  obtain ⟨completes, faults⟩ := exec_gated i s
  refine ⟨fun hwf => ?_, faults⟩
  obtain ⟨t, ht⟩ := completes hwf
  exact ⟨t, ht, (exec_next ht).1⟩

end Sys2Proof.Machine

end

section
/-! The canonical form of the bank rows through every step (R17). -/

namespace Sys2Proof.Machine

/-- The turn of a write that waits at the control port moves the write alone. -/
@[simp] theorem portTurn_banks (s : State) : s.portTurn.banks = s.banks := by
  unfold State.portTurn
  split
  · split <;> rfl
  · rfl

/-- While time passes the banks change by writes of rows alone: the fills at the end of a bc, and what a wake-up owes. -/
theorem tick_banks (s : State) : ∃ l, (tick s).banks = applyOps s.banks l := by
  unfold tick
  split
  · exact ⟨[], rfl⟩
  · split
    · exact ⟨s.c.fillsStep.2, portTurn_banks _⟩
    · split
      · exact ⟨[], rfl⟩
      · exact ⟨s.c.refEdge.wakeOwed.2, rfl⟩

/-- Every step empties the banks, which the end of the supplies does, or changes them by writes of rows. -/
theorem step_banks {s t : State} (h : step s = .next t) : t.banks = [] ∨ ∃ l, t.banks = applyOps s.banks l := by
  unfold step at h
  split at h
  · cases h
    exact .inr (tick_banks s)
  · exact (exec_next h).2

/-- Settles O4: the empty list is canonical, and every write of rows keeps the canonical form (`applyOps_ok`). -/
theorem stepKeepsBanksCanonical : Obligations.StepKeepsBanksCanonical := by
  intro s t hs h
  obtain hempty | ⟨l, hl⟩ := step_banks h
  · simp [State.wf, Memory.wf, hempty]
  · rw [State.wf, Memory.wf, hl]
    exact applyOps_ok l hs

end Sys2Proof.Machine

end

section
/-! The bytes of a granule (R16). -/

namespace Sys2Proof.Machine

@[simp] theorem leBytes_length (n v : Nat) : (leBytes n v).length = n := by
  induction n generalizing v with
  | zero => rfl
  | succ n ih => simp [leBytes, ih]

/-- The bytes from place `k` on are those of the number without its `k` lowest ones. -/
theorem leBytes_drop (n v k : Nat) : (leBytes n v).drop k = leBytes (n - k) (v / 256 ^ k) := by
  induction k generalizing n v with
  | zero => simp
  | succ k ih =>
    cases n with
    | zero => simp [leBytes]
    | succ n => rw [leBytes, List.drop_succ_cons, ih, Nat.div_div_eq_div_mul, ← pow_succ', Nat.succ_sub_succ]

theorem leBytes_take {n m : Nat} (h : m ≤ n) (v : Nat) : (leBytes n v).take m = leBytes m v := by
  induction m generalizing n v with
  | zero => simp [leBytes]
  | succ m ih =>
    obtain ⟨n, rfl⟩ := Nat.exists_eq_add_of_le' h
    rw [← Nat.add_assoc, leBytes, leBytes, List.take_succ_cons, ih (by omega)]

theorem leBytes_getElem? {n k : Nat} (h : k < n) (v : Nat) : (leBytes n v)[k]? = some (BitVec.ofNat 8 (v / 256 ^ k)) := by
  obtain ⟨m, hm⟩ := Nat.exists_eq_add_of_lt h
  rw [← List.head?_drop, leBytes_drop, show n - k = m + 1 by omega]
  rfl

/-- Reading back `n` bytes of a number gives the number modulo 256 ^ n. -/
theorem leNat_leBytes (n v : Nat) : leNat (leBytes n v) = v % 256 ^ n := by
  induction n generalizing v with
  | zero => simp [leBytes, leNat, Nat.mod_one]
  | succ n ih =>
    rw [leBytes, leNat, ih, BitVec.toNat_ofNat, pow_succ' 256 n]
    exact Nat.mod_mul.symm

/-- A bit range below bit `m` does not depend on the bits from `m` on. -/
theorem bits_mod_two_pow (v : Nat) {lo w m : Nat} (h : lo + w ≤ m) : bits (v % 2 ^ m) lo w = bits v lo w := by
  apply Nat.eq_of_testBit_eq
  intro i
  rw [testBit_bits, testBit_bits, Nat.testBit_mod_two_pow]
  by_cases hi : i < w
  · simp [hi, show lo + i < m by omega]
  · simp [hi]

/-- `n` bytes of a number from byte `k` on are a bit range. -/
theorem div_mod_bytes (v k n : Nat) : v / 256 ^ k % 256 ^ n = bits v (8 * k) (8 * n) := by
  simp [bits, Nat.shiftRight_eq_div_pow, pow_mul]

/-- Settles O59: byte k of the 32 is the k-th of the number (`leBytes_getElem?`), and four of them read back as their bit range (`leNat_leBytes`). -/
theorem granuleBytesAreLittleEndian : Obligations.GranuleBytesAreLittleEndian := by
  intro g
  refine ⟨leBytes_length _ _, fun k hk => ?_, fun w hw => ?_⟩
  · rw [granuleBytes, leBytes_getElem? hk]
    congr 1
    apply BitVec.eq_of_toNat_eq
    rw [BitVec.toNat_ofNat, BitVec.extractLsb'_toNat]
    calc g.toNat % 2 ^ 256 / 256 ^ k % 2 ^ 8 = bits (g.toNat % 2 ^ 256) (8 * k) 8 := div_mod_bytes _ k 1
      _ = bits g.toNat (8 * k) 8 := bits_mod_two_pow _ (by omega)
  · rw [granuleBytes, leBytes_drop, leBytes_take (by omega), leNat_leBytes, div_mod_bytes, bits_mod_two_pow _ (by omega), ← Nat.mul_assoc]

end Sys2Proof.Machine

end

section
/-! What is read from the registers alone. -/

namespace Sys2Proof.Machine

theorem reg_of_regs {c d : Ctl} (h : d.regs = c.regs) (o : Nat) : d.reg o = c.reg o := by
  rw [Ctl.reg, h, Ctl.reg]

theorem fld_of_regs {c d : Ctl} (h : d.regs = c.regs) (o : Nat) (f : FieldPos) : d.fld o f = c.fld o f := by
  rw [Ctl.fld, reg_of_regs h, Ctl.fld]

/-- The banks of a region are those that the region map names. -/
theorem regionBanks_of_regs {c d : Ctl} (h : d.regs = c.regs) (r : Nat) : d.regionBanks r = c.regionBanks r := by
  simp only [Ctl.regionBanks, Ctl.slotCluster, fld_of_regs h]

end Sys2Proof.Machine

end

section
/-! Writes through the control port that are accepted and complete at once (R63, R64). -/

namespace Sys2Proof.Machine

/-- A write that the port accepts has the register's own effect, and OK is answered. -/
theorem ctlWrite_accepting {s : State} (h : s.accepting) {be : BitVec 2} (hbe : be ≠ 0) (i : Instr) (f : Ctl → Ctl) :
    s.c.ctlWrite i be f = { (f s.c).notePort i with cRsp := okRsp, cTurn := false } := by
  obtain ⟨⟨⟨hready, -⟩, hport⟩, hblack⟩ := h
  have haccepts : s.c.accepts be = true := by simpa [Ctl.accepts, hblack] using hbe
  have hrsp : s.c.writeRsp be = okRsp := by simp only [Ctl.writeRsp, if_neg hbe, hblack, okRsp]; rfl
  simp [Ctl.ctlWrite, Ctl.onPort, Ctl.portTakes, hready, hport, haccepts, hrsp]

/-- A command that is such a write completes with that effect. -/
theorem onUnit_ctlWrite {ok : Bool} (hok : ok = true) {s : State} (h : s.accepting) {be : BitVec 2} (hbe : be ≠ 0) (i : Instr) (f : Ctl → Ctl) :
    onUnit ok s (fun c => c.ctlWrite i be f) = .next (s.wrote i (f s.c)) := by
  rw [onUnit_next hok h.1.1.2, ctlWrite_accepting h hbe]
  rfl

theorem exec_regionWrite {s : State} (h : s.accepting) {n : Nat} (hn : n < 64) {be : BitVec 2} (hbe : be ≠ 0) (data : Word) :
    exec (.regionWrite n be data) s = .next (s.wrote (.regionWrite n be data) (s.c.regionWrite n be data)) :=
  onUnit_ctlWrite (decide_eq_true hn) h hbe _ _

theorem exec_bankOwnWrite {s : State} (h : s.accepting) {k : Nat} (hk : k < 512) {be : BitVec 2} (hbe : be ≠ 0) (data : Word) :
    exec (.bankOwnWrite k be data) s = .next (s.wrote (.bankOwnWrite k be data) (s.c.bankOwnWrite k be data)) :=
  onUnit_ctlWrite (decide_eq_true hk) h hbe _ _

theorem exec_handover {s : State} (h : s.accepting) {be : BitVec 2} (hbe : be ≠ 0) (data : Word) :
    exec (.handover be data) s = .next (s.wrote (.handover be data) (s.c.handoverWrite be data)) :=
  onUnit_ctlWrite rfl h hbe _ _

/-- A write changes no more than the notes where it follows one of the stage door (R371). -/
theorem notePort_eq (c : Ctl) (i : Instr) : ∃ nn, c.notePort i = { c with notes := nn } := by
  unfold Ctl.notePort
  split
  · exact ⟨c.notes, rfl⟩
  · exact ⟨_, rfl⟩

/-- Beside the units given, a completed write leaves notes and the response. -/
theorem wrote_eq (s : State) (i : Instr) (c : Ctl) : ∃ nn, s.wrote i c = { s with c := { c with notes := nn, cRsp := okRsp, cTurn := false } } := by
  obtain ⟨nn, h⟩ := notePort_eq c i
  exact ⟨nn, by rw [State.wrote, State.answered, h]⟩

@[simp] theorem wrote_regs (s : State) (i : Instr) (c : Ctl) : (s.wrote i c).c.regs = c.regs := by
  obtain ⟨nn, h⟩ := wrote_eq s i c
  rw [h]

@[simp] theorem wrote_refills (s : State) (i : Instr) (c : Ctl) : (s.wrote i c).c.refills = c.refills := by
  obtain ⟨nn, h⟩ := wrote_eq s i c
  rw [h]

@[simp] theorem wrote_fillPend (s : State) (i : Instr) (c : Ctl) : (s.wrote i c).c.fillPend = c.fillPend := by
  obtain ⟨nn, h⟩ := wrote_eq s i c
  rw [h]

@[simp] theorem wrote_fillOf (s : State) (i : Instr) (c : Ctl) (pb : Nat) : (s.wrote i c).c.fillOf pb = c.fillOf pb := by
  obtain ⟨nn, h⟩ := wrote_eq s i c
  rw [h, Ctl.fillOf, Ctl.fillOf]

@[simp] theorem wrote_reg (s : State) (i : Instr) (c : Ctl) (o : Nat) : (s.wrote i c).c.reg o = c.reg o := reg_of_regs (wrote_regs s i c) o
@[simp] theorem wrote_fld (s : State) (i : Instr) (c : Ctl) (o : Nat) (f : FieldPos) : (s.wrote i c).c.fld o f = c.fld o f :=
  fld_of_regs (wrote_regs s i c) o f
@[simp] theorem wrote_owner (s : State) (i : Instr) (c : Ctl) (pb : Nat) : (s.wrote i c).c.owner pb = c.owner pb := wrote_fld s i c _ _
@[simp] theorem wrote_striking (s : State) (i : Instr) (c : Ctl) (pb : Nat) : (s.wrote i c).c.striking pb = c.striking pb := by
  rw [Ctl.striking, wrote_fld, Ctl.striking]
@[simp] theorem wrote_regionBanks (s : State) (i : Instr) (c : Ctl) (r : Nat) : (s.wrote i c).c.regionBanks r = c.regionBanks r :=
  regionBanks_of_regs (wrote_regs s i c) r

end Sys2Proof.Machine

end

section
/-! Functions applied for every number of a list. -/

namespace Sys2Proof.Machine

@[simp] theorem forAll_nil (f : Nat → Ctl → Ctl) (c : Ctl) : forAll [] f c = c := rfl
@[simp] theorem forAll_cons (i : Nat) (l : List Nat) (f : Nat → Ctl → Ctl) (c : Ctl) : forAll (i :: l) f c = forAll l f (f i c) := rfl

/-- What every application keeps, the whole keeps. -/
theorem forAll_keeps {P : Ctl → Prop} {l : List Nat} {f : Nat → Ctl → Ctl} (hf : ∀ i ∈ l, ∀ d, P d → P (f i d)) {c : Ctl} (hc : P c) :
    P (forAll l f c) := by
  induction l generalizing c with
  | nil => exact hc
  | cons i l ih =>
    rw [forAll_cons]
    exact ih (fun j hj => hf j (List.mem_cons_of_mem i hj)) (hf i List.mem_cons_self c hc)

end Sys2Proof.Machine

end

section
/-! The outcome that MIO_REGION_STAT records (R22, R26, R27). -/

namespace Sys2Proof.Machine

/-- The units beside the registers and the notes of the present cc. -/
def Ctl.besideRegs (c : Ctl) : Ctl := { c with regs := [], notes := {} }

@[simp] theorem besideRegs_setReg (c : Ctl) (o : Nat) (v : Word) : (c.setReg o v).besideRegs = c.besideRegs := rfl
@[simp] theorem besideRegs_setFld (c : Ctl) (o : Nat) (f : FieldPos) (x : Nat) : (c.setFld o f x).besideRegs = c.besideRegs := rfl
@[simp] theorem besideRegs_flag (c : Ctl) (o : Nat) (f : FieldPos) : (c.flag o f).besideRegs = c.besideRegs := rfl

/-- Units that agree beside the registers and the notes differ in these alone. -/
theorem eq_of_besideRegs {c d : Ctl} (h : d.besideRegs = c.besideRegs) : d = { c with regs := d.regs, notes := d.notes } :=
  congrArg (fun e : Ctl => { e with regs := d.regs, notes := d.notes }) h

theorem sysReady_of_besideRegs {c d : Ctl} (h : d.besideRegs = c.besideRegs) : d.sysReady = c.sysReady := (congrArg Ctl.sysReady h :)
theorem clk_of_besideRegs {c d : Ctl} (h : d.besideRegs = c.besideRegs) : d.clk = c.clk := (congrArg Ctl.clk h :)
theorem handing_of_besideRegs {c d : Ctl} (h : d.besideRegs = c.besideRegs) : d.handing = c.handing := (congrArg Ctl.handing h :)
theorem fillPend_of_besideRegs {c d : Ctl} (h : d.besideRegs = c.besideRegs) : d.fillPend = c.fillPend := (congrArg Ctl.fillPend h :)
theorem refills_of_besideRegs {c d : Ctl} (h : d.besideRegs = c.besideRegs) : d.refills = c.refills := (congrArg Ctl.refills h :)

/-- The record is made in the registers, and noted for a write of the same cc. -/
@[simp] theorem besideRegs_regionResult (c : Ctl) (op r st : Nat) (nr : Bool) : (c.regionResult op r st nr).besideRegs = c.besideRegs := by
  unfold Ctl.regionResult
  split <;> simp

@[simp] theorem regionResult_clk (c : Ctl) (op r st : Nat) (nr : Bool) : (c.regionResult op r st nr).clk = c.clk :=
  clk_of_besideRegs (besideRegs_regionResult c op r st nr)
@[simp] theorem regionResult_handing (c : Ctl) (op r st : Nat) (nr : Bool) : (c.regionResult op r st nr).handing = c.handing :=
  handing_of_besideRegs (besideRegs_regionResult c op r st nr)
@[simp] theorem regionResult_fillPend (c : Ctl) (op r st : Nat) (nr : Bool) : (c.regionResult op r st nr).fillPend = c.fillPend :=
  fillPend_of_besideRegs (besideRegs_regionResult c op r st nr)

/-- No other register changes. -/
theorem reg_regionResult_ne (c : Ctl) (op r st : Nat) (nr : Bool) {o : Nat} (h : o ≠ oRegionStat) : (c.regionResult op r st nr).reg o = c.reg o := by
  unfold Ctl.regionResult
  split <;> simp [Ctl.reg_setFld, h]

theorem fld_regionResult_ne (c : Ctl) (op r st : Nat) (nr : Bool) {o : Nat} {f : FieldPos} (h : o + 8 * f.word ≠ oRegionStat) :
    (c.regionResult op r st nr).fld o f = c.fld o f := by
  rw [Ctl.fld, reg_regionResult_ne c op r st nr h, Ctl.fld]

/-- The four fields that every outcome loads. -/
def Ctl.resultFields (c : Ctl) (op r st : Nat) (nr : Bool) : Ctl :=
  (((c.setFld oRegionStat regionStat_REGION r).setFld oRegionStat regionStat_NOREG nr.toNat).setFld oRegionStat regionStat_OP op).setFld
    oRegionStat regionStat_STATUS st

/-- A refusal sets REFUSED beside them. -/
theorem regionResult_eq (c : Ctl) (op r st : Nat) (nr : Bool) : c.regionResult op r st nr =
    if st = 0 then c.resultFields op r st nr else (c.resultFields op r st nr).flag oRegionStat regionStat_REFUSED := by
  simp only [Ctl.regionResult, List.foldl_cons, List.foldl_nil, Ctl.resultFields]

theorem fld_regionResult_loaded (c : Ctl) (op r st : Nat) (nr : Bool) {f : FieldPos} (h : f.lo + f.width ≤ 16) :
    (c.regionResult op r st nr).fld oRegionStat f = (c.resultFields op r st nr).fld oRegionStat f := by
  rw [regionResult_eq]
  split
  · rfl
  · rw [Ctl.flag_fld]
    exact Ctl.fld_setFld_ne _ _ (by decide) (.inr (.inl h))

theorem fld_regionResult_status (c : Ctl) (op r st : Nat) (nr : Bool) : (c.regionResult op r st nr).fld oRegionStat regionStat_STATUS = st % 8 := by
  rw [fld_regionResult_loaded _ _ _ _ _ (by decide)]
  exact Ctl.fld_setFld_same _ _ regionStat_STATUS _ (by decide)

theorem fld_regionResult_op (c : Ctl) (op r st : Nat) (nr : Bool) : (c.regionResult op r st nr).fld oRegionStat regionStat_OP = op % 4 := by
  rw [fld_regionResult_loaded _ _ _ _ _ (by decide), Ctl.resultFields, Ctl.fld_setFld_ne _ _ (by decide) (by decide)]
  exact Ctl.fld_setFld_same _ _ regionStat_OP _ (by decide)

theorem fld_regionResult_region (c : Ctl) (op r st : Nat) (nr : Bool) : (c.regionResult op r st nr).fld oRegionStat regionStat_REGION = r % 64 := by
  rw [fld_regionResult_loaded _ _ _ _ _ (by decide), Ctl.resultFields, Ctl.fld_setFld_ne _ _ (by decide) (by decide),
    Ctl.fld_setFld_ne _ _ (by decide) (by decide), Ctl.fld_setFld_ne _ _ (by decide) (by decide)]
  exact Ctl.fld_setFld_same _ _ regionStat_REGION _ (by decide)

theorem fld_regionResult_refused (c : Ctl) (op r : Nat) {st : Nat} (nr : Bool) (h : st ≠ 0) :
    (c.regionResult op r st nr).fld oRegionStat regionStat_REFUSED = 1 := by
  rw [regionResult_eq, if_neg h, Ctl.flag_fld]
  exact Ctl.fld_setFld_same _ _ regionStat_REFUSED 1 (by decide)

end Sys2Proof.Machine

end

section
/-! Owner entries and hand-over (R26 to R28). -/

namespace Sys2Proof.Machine

/-! ### Owner entries -/

theorem reg_setOwner_ne (c : Ctl) (pb o : Nat) {o' : Nat} (h : o' ≠ oBankOwn (pb / 8)) : (c.setOwner pb o).reg o' = c.reg o' :=
  c.reg_setFld_ne o h

/-- A bank's entry that is written reads as written, every other as before. -/
theorem owner_setOwner (c : Ctl) (pb o pb' : Nat) : (c.setOwner pb o).owner pb' = if pb' = pb then o % 64 else c.owner pb' := by
  split
  · next h =>
    subst h
    exact c.fld_setFld_same _ _ o (show 8 * (pb' % 8) + 6 ≤ 64 by omega)
  · next h =>
    apply c.fld_setFld_ne o (show 8 * (pb % 8) + 6 ≤ 64 by omega)
    show oBankOwn (pb' / 8) + 8 * 0 ≠ oBankOwn (pb / 8) + 8 * 0 ∨ 8 * (pb' % 8) + 6 ≤ 8 * (pb % 8) ∨ 8 * (pb % 8) + 6 ≤ 8 * (pb' % 8)
    simp only [oBankOwn]
    omega

@[simp] theorem striking_setOwner (c : Ctl) (pb o pb' : Nat) : (c.setOwner pb o).striking pb' = c.striking pb' := by
  rw [Ctl.striking, Ctl.setOwner, c.fld_setFld_ne o (show 8 * (pb % 8) + 6 ≤ 64 by omega), Ctl.striking]
  show oBankOwn (pb' / 8) + 8 * 0 ≠ oBankOwn (pb / 8) + 8 * 0 ∨ 8 * (pb' % 8) + 6 + 1 ≤ 8 * (pb % 8) ∨ 8 * (pb % 8) + 6 ≤ 8 * (pb' % 8) + 6
  simp only [oBankOwn]
  omega

/-- Entries written for the numbers of a list: where every write of a bank writes one code, the bank has that code after them. -/
theorem owner_setOwners (bank code : Nat → Nat) (l : List Nat) (c : Ctl) (pb o : Nat) (h : ∀ j ∈ l, bank j = pb → code j % 64 = o) :
    (forAll l (fun j c => c.setOwner (bank j) (code j)) c).owner pb = if ∃ j ∈ l, bank j = pb then o else c.owner pb := by
  induction l generalizing c with
  | nil => simp
  | cons j l ih =>
    rw [forAll_cons, ih _ fun i hi => h i (List.mem_cons_of_mem j hi), owner_setOwner]
    by_cases hl : ∃ i ∈ l, bank i = pb
    · rw [if_pos hl, if_pos (by simpa using Or.inr hl)]
    · rw [if_neg hl]
      by_cases hj : bank j = pb
      · rw [if_pos hj.symm, h j List.mem_cons_self hj, if_pos ⟨j, List.mem_cons_self, hj⟩]
      · rw [if_neg (Ne.symm hj), if_neg (by simpa [hj] using hl)]

theorem handing_setOwners (bank code : Nat → Nat) (l : List Nat) (c : Ctl) :
    (forAll l (fun j c => c.setOwner (bank j) (code j)) c).handing = c.handing := by
  induction l generalizing c with
  | nil => rfl
  | cons j l ih => exact ih (c.setOwner (bank j) (code j))

/-! ### A write of MIO_BANK_OWN_k (R26) -/

theorem oBankOwn_ne_oRegionStat (k : Nat) : oBankOwn k ≠ oRegionStat := by
  simp only [oBankOwn, oRegionStat]
  omega

@[simp] theorem owner_regionResult (c : Ctl) (op r st : Nat) (nr : Bool) (pb : Nat) : (c.regionResult op r st nr).owner pb = c.owner pb :=
  fld_regionResult_ne c op r st nr (oBankOwn_ne_oRegionStat _)

@[simp] theorem striking_regionResult (c : Ctl) (op r st : Nat) (nr : Bool) (pb : Nat) : (c.regionResult op r st nr).striking pb = c.striking pb := by
  rw [Ctl.striking, fld_regionResult_ne c op r st nr (o := oBankOwn (pb / 8)) (oBankOwn_ne_oRegionStat _), Ctl.striking]

/-- The bytes of a write of owner entries that are taken. -/
def Ctl.ownTaken (c : Ctl) (k : Nat) (be : BitVec 2) (data : Word) : List Nat :=
  (List.range 8).filter fun j => decide (c.ownByte k be data j = some 0)

/-- The entries after such a write. -/
def Ctl.ownWritten (c : Ctl) (k : Nat) (be : BitVec 2) (data : Word) : Ctl :=
  forAll (c.ownTaken k be data) (fun j c => c.setOwner (8 * k + j) (bits data.toNat (8 * j) 6)) c

/-- The write changes the entries taken, and records one outcome. -/
theorem bankOwnWrite_eq (c : Ctl) {k : Nat} (hk : k < 256) (be : BitVec 2) (data : Word) :
    ∃ r st nr, c.bankOwnWrite k be data = (c.ownWritten k be data).regionResult 3 r st nr := by
  have hbuilt : ¬ Config.banks ≤ 8 * k := by simp only [Config.banks, Config.cpq]; omega
  unfold Ctl.bankOwnWrite
  rw [if_neg hbuilt]
  dsimp only
  split
  · exact ⟨_, _, _, rfl⟩
  · split <;> exact ⟨_, _, _, rfl⟩

/-- A byte is taken when it is enabled, asks for a change, and meets a bank that is not STRIKING with a legal code. -/
theorem ownByte_eq_some_zero (c : Ctl) (k : Nat) (be : BitVec 2) (data : Word) (j : Nat) : c.ownByte k be data j = some 0 ↔
    be.getLsbD (j / 4) = true ∧ bits data.toNat (8 * j) 6 ≠ c.owner (8 * k + j) ∧ c.striking (8 * k + j) = false ∧
      ownerOk (bits data.toNat (8 * j) 6) = true := by
  unfold Ctl.ownByte
  dsimp only
  by_cases hen : be.getLsbD (j / 4) = true
  · by_cases hsame : bits data.toNat (8 * j) 6 = c.owner (8 * k + j)
    · simp [hsame]
    · cases c.striking (8 * k + j) <;> cases ownerOk (bits data.toNat (8 * j) 6) <;> simp [hen, hsame]
  · simp [hen]

/-- An owner entry after the write: the code asked for where the byte is enabled, legal, and the bank not STRIKING. -/
theorem owner_ownWritten (c : Ctl) (k : Nat) (be : BitVec 2) (data : Word) {j : Nat} (hj : j < 8) :
    (c.ownWritten k be data).owner (8 * k + j) =
      if be.getLsbD (j / 4) = true ∧ c.striking (8 * k + j) = false ∧ ownerOk (bits data.toNat (8 * j) 6) = true
      then bits data.toNat (8 * j) 6 else c.owner (8 * k + j) := by
  have hcode : ∀ i ∈ c.ownTaken k be data, 8 * k + i = 8 * k + j → bits data.toNat (8 * i) 6 % 64 = bits data.toNat (8 * j) 6 := by
    intro i _ hi
    rw [Nat.add_left_cancel hi]
    exact Nat.mod_eq_of_lt (bits_lt _ _ 6)
  have htaken : (∃ i ∈ c.ownTaken k be data, 8 * k + i = 8 * k + j) ↔ c.ownByte k be data j = some 0 := by
    simp [Ctl.ownTaken, hj]
  rw [Ctl.ownWritten, owner_setOwners _ _ _ _ _ _ hcode]
  simp only [htaken, ownByte_eq_some_zero]
  by_cases hsame : bits data.toNat (8 * j) 6 = c.owner (8 * k + j)
  · simp [hsame]
  · simp [hsame]

theorem striking_ownWritten (c : Ctl) (k : Nat) (be : BitVec 2) (data : Word) (pb : Nat) :
    (c.ownWritten k be data).striking pb = c.striking pb :=
  forAll_keeps (P := fun d => d.striking pb = c.striking pb) (fun _ _ _ hd => (striking_setOwner _ _ _ _).trans hd) rfl

theorem reg_ownWritten_ne (c : Ctl) (k : Nat) (be : BitVec 2) (data : Word) {o : Nat} (h : o ≠ oBankOwn k) :
    (c.ownWritten k be data).reg o = c.reg o := by
  apply forAll_keeps (P := fun d => d.reg o = c.reg o) _ rfl
  intro j hj d hd
  have hj8 : j < 8 := List.mem_range.mp (List.mem_of_mem_filter hj)
  rw [reg_setOwner_ne d _ _ (by rwa [show (8 * k + j) / 8 = k by omega]), hd]

/-! ### Hand-over (R27, R28) -/

/-- A hand-over records the outcome of its checks; unless they fail at the first (INVALID) its cc is noted, and if they pass it is taken for the
next cc. -/
theorem handoverWrite_enabled (c : Ctl) {be : BitVec 2} (hbe : be.getLsbD 0 = true) (data : Word) {r to_ st : Nat} (hr : r = bits data.toNat 0 6)
    (hto : to_ = bits data.toNat 16 6) (hst : st = c.handoverCode r (bits data.toNat 8 6) to_) :
    (st = 0 → c.handoverWrite be data =
      { c.regionResult 2 r 0 false with handing := c.handing ++ [(r, to_, c.cc)], handCc := some c.cc }) ∧
    (st = 6 → c.handoverWrite be data = c.regionResult 2 r 6 false) ∧
    (st ≠ 0 → st ≠ 6 → c.handoverWrite be data = { c.regionResult 2 r st false with handCc := some c.cc }) := by
  subst hr hto
  unfold Ctl.handoverWrite
  rw [hbe]
  simp only [Bool.not_true, Bool.false_eq_true, if_false, ← hst, Ctl.cc]
  refine ⟨fun h => ?_, fun h => ?_, fun h0 h6 => ?_⟩
  · rw [h, if_neg (show ¬ 0 = 6 by decide), if_pos rfl]
    simp only [regionResult_handing, regionResult_clk]
  · rw [h, if_pos rfl, if_neg (show ¬ 6 = 0 by decide)]
  · rw [if_neg h6, if_neg h0, regionResult_clk]

/-- A hand-over whose cc has not ended stays. -/
theorem handoverEnd_early {c : Ctl} {r o x : Nat} (h : c.handing = [(r, o, x)]) (hx : c.cc ≤ x) : c.handoverEnd = c := by
  have hdue : (c.handing.filter fun h => decide (h.2.2 < c.cc)) = [] := by simp [h, hx]
  have hstays : (c.handing.filter fun h => decide (c.cc ≤ h.2.2)) = c.handing := by simp [h, hx]
  rw [Ctl.handoverEnd, hdue, hstays]
  rfl

/-- Once its cc has ended it is carried out: the banks that the region's entry names change owner. -/
theorem handoverEnd_due {c : Ctl} {r o x : Nat} (h : c.handing = [(r, o, x)]) (hx : x < c.cc) :
    c.handoverEnd = forAll (c.regionBanks r) (fun b c => c.setOwner b o) { c with handing := [] } := by
  have hdue : (c.handing.filter fun h => decide (h.2.2 < c.cc)) = [(r, o, x)] := by simp [h, hx]
  have hstays : (c.handing.filter fun h => decide (c.cc ≤ h.2.2)) = [] := by simp [h, hx]
  have hbanks : ({ c with handing := [] } : Ctl).regionBanks r = c.regionBanks r := regionBanks_of_regs rfl r
  rw [Ctl.handoverEnd, hdue, hstays]
  simp only [List.foldl_cons, List.foldl_nil, hbanks]

/-- Settles O42: the entries after a write (`owner_ownWritten`), the outcomes of a hand-over (`handoverWrite_enabled`), and the owners that one leaves
once its cc has ended (`handoverEnd_due`, `owner_setOwners`). -/
theorem ownersAndHandover : Obligations.OwnersAndHandover := by
  refine ⟨fun s k be data hs hk hbe => ⟨fun hhigh => ?_, fun hlow => ?_⟩, fun s be data r to_ st hs hbe hr hto hst => ?_,
    fun c r o x hh hr ho => ⟨handoverEnd_early hh, fun hx => ?_⟩⟩
  · rw [exec_bankOwnWrite hs hk hbe, Ctl.bankOwnWrite, if_pos (show Config.banks ≤ 8 * k by simp only [Config.banks, Config.cpq]; omega)]
  · obtain ⟨r, st, nr, hw⟩ := bankOwnWrite_eq s.c hlow be data
    refine ⟨_, exec_bankOwnWrite hs hk hbe data, rfl, fun j hj => ?_, fun o ho hstat => ?_⟩
    · rw [wrote_owner, wrote_striking, hw, owner_regionResult, striking_regionResult]
      exact ⟨owner_ownWritten s.c k be data hj, striking_ownWritten s.c k be data _⟩
    · rw [wrote_reg, hw, reg_regionResult_ne _ _ _ _ _ hstat, reg_ownWritten_ne _ _ _ _ ho]
  · have hbe0 : be ≠ 0 := by rintro rfl; simp at hbe
    obtain ⟨hok, hinv, hother⟩ := handoverWrite_enabled s.c hbe data hr hto hst
    rw [exec_handover hs hbe0]
    exact ⟨fun h => by rw [hok h], fun h => by rw [hinv h], fun h h' => by rw [hother h h']⟩
  · rw [handoverEnd_due hh hx]
    refine ⟨handing_setOwners (fun b => b) (fun _ => o) _ _, fun pb _ => ?_⟩
    rw [owner_setOwners (fun b => b) (fun _ => o) _ _ _ o fun _ _ _ => Nat.mod_eq_of_lt ho]
    simp only [exists_eq_right]
    rfl

end Sys2Proof.Machine

end

section
/-! Fills of banks: where they begin and end (R17, R23). -/

namespace Sys2Proof.Machine

theorem fillOf_setFill (c : Ctl) (pb pb' : Nat) (f : Option BankFill) : (c.setFill pb f).fillOf pb' = if pb' = pb then f else c.fillOf pb' :=
  Tab.get_set none c.fills pb pb' f

@[simp] theorem fillOf_setFld (c : Ctl) (o : Nat) (f : FieldPos) (x pb : Nat) : (c.setFld o f x).fillOf pb = c.fillOf pb := by
  rw [Ctl.fillOf, Ctl.setFld_fills, Ctl.fillOf]

/-- The units beside the fills. -/
def Ctl.besideFills (c : Ctl) : Ctl := { c with fills := [] }

@[simp] theorem besideFills_setFill (c : Ctl) (pb : Nat) (f : Option BankFill) : (c.setFill pb f).besideFills = c.besideFills := rfl

/-- The fills of several banks are noted with one entry: of these banks alone. -/
theorem fillOf_setFills (l : List Nat) (f : Option BankFill) (c : Ctl) (pb : Nat) :
    (forAll l (fun b d => d.setFill b f) c).fillOf pb = if pb ∈ l then f else c.fillOf pb := by
  induction l generalizing c with
  | nil => simp
  | cons b l ih =>
    rw [forAll_cons, ih, fillOf_setFill]
    by_cases hl : pb ∈ l
    · simp [hl]
    · simp [hl]

theorem besideFills_setFills (l : List Nat) (f : Option BankFill) (c : Ctl) :
    (forAll l (fun b d => d.setFill b f) c).besideFills = c.besideFills := by
  induction l generalizing c with
  | nil => rfl
  | cons b l ih => exact ih (c.setFill b f)

/-- Fills that begin are noted in the present bc. -/
theorem fillsBegin_eq (c : Ctl) (l : List Nat) (strike : Bool) :
    c.fillsBegin l strike = forAll l (fun b d => d.setFill b (some { strike := strike, since := c.bc })) c := by
  unfold Ctl.fillsBegin
  induction l generalizing c with
  | nil => rfl
  | cons b l ih => exact ih (c.setFill b (some { strike := strike, since := c.bc }))

theorem fillOf_fillsBegin (c : Ctl) {l : List Nat} (strike : Bool) {pb : Nat} (h : pb ∈ l) :
    (c.fillsBegin l strike).fillOf pb = some { strike := strike, since := c.bc } := by
  rw [fillsBegin_eq, fillOf_setFills, if_pos h]

@[simp] theorem besideFills_fillsBegin (c : Ctl) (l : List Nat) (strike : Bool) : (c.fillsBegin l strike).besideFills = c.besideFills := by
  rw [fillsBegin_eq, besideFills_setFills]

@[simp] theorem fillsBegin_regs (c : Ctl) (l : List Nat) (strike : Bool) : (c.fillsBegin l strike).regs = c.regs :=
  (congrArg Ctl.regs (besideFills_fillsBegin c l strike) :)
@[simp] theorem fillsBegin_refills (c : Ctl) (l : List Nat) (strike : Bool) : (c.fillsBegin l strike).refills = c.refills :=
  (congrArg Ctl.refills (besideFills_fillsBegin c l strike) :)

end Sys2Proof.Machine

end

section
/-! Writes of the region map (R22, R23). -/

namespace Sys2Proof.Machine

/-- A field of the region-map entries does not stand in MIO_REGION_STAT. -/
theorem oRegion_ne_oRegionStat {n : Nat} (hn : n < 64) : oRegion n ≠ oRegionStat := by
  simp only [oRegion, oRegionStat]
  omega

theorem oRegion_ne_oStatus (n : Nat) : oRegion n ≠ oStatus := by
  simp only [oRegion, oStatus]
  omega

/-- A field write leaves the bits of a mask alone that lie outside the field. -/
theorem reg_setFld_and (c : Ctl) (o : Nat) (f : FieldPos) (x o' : Nat) (m : Word)
    (hm : ∀ i, f.lo ≤ i → i < f.lo + f.width → m.getLsbD i = false) : (c.setFld o f x).reg o' &&& m = c.reg o' &&& m := by
  rw [Ctl.reg_setFld]
  split
  · apply BitVec.eq_of_getLsbD_eq
    intro i hi
    rw [BitVec.getLsbD_and, BitVec.getLsbD_and, BitVec.getLsbD_ofNat, testBit_putBits]
    split
    · next h => simp [hm i h.1 h.2]
    · rw [decide_eq_true hi, Bool.true_and]
      rfl
  · rfl

end Sys2Proof.Machine

end

section
/-! What a write of MIO_REGION_n comes to (R22, R23). -/

namespace Sys2Proof.Machine

/-! ### Refused -/

theorem regionCode_le (c : Ctl) (n v : Nat) : c.regionCode n v ≤ 5 := by
  unfold Ctl.regionCode
  dsimp only
  split_ifs <;> omega

theorem locked_of_regionCode {c : Ctl} {n v : Nat} (h : c.regionCode n v = 0) : c.locked = false := by
  cases hl : c.locked
  · rfl
  · simp [Ctl.regionCode, hl] at h

@[simp] theorem locked_regionResult (c : Ctl) (op r st : Nat) (nr : Bool) : (c.regionResult op r st nr).locked = c.locked := by
  rw [Ctl.locked, fld_regionResult_ne _ _ _ _ _ (by decide), Ctl.locked]

/-- What a refused write of entry `n` does: its code is recorded, and LOCK_WR is set while LOCK is 1 (R374). -/
def Ctl.mapRefused (c : Ctl) (n st : Nat) : Ctl :=
  if c.locked then (c.regionResult 1 n st false).flag oStatus status_LOCK_WR else c.regionResult 1 n st false

theorem regionWrite_refused {c : Ctl} {n : Nat} {be : BitVec 2} {data : Word} {v st : Nat}
    (hv : v = (merge (c.reg (oRegion n)) be data &&& mapMask).toNat) (hcode : c.regionCode n v = st) (hst : st ≠ 0) :
    c.regionWrite n be data = c.mapRefused n st := by
  subst hv
  unfold Ctl.regionWrite
  dsimp only
  rw [hcode, if_pos hst, locked_regionResult, Ctl.mapRefused]

@[simp] theorem besideRegs_mapRefused (c : Ctl) (n st : Nat) : (c.mapRefused n st).besideRegs = c.besideRegs := by
  unfold Ctl.mapRefused
  split <;> simp

theorem reg_mapRefused_ne (c : Ctl) (n st : Nat) {o : Nat} (hstat : o ≠ oRegionStat) (hstatus : o ≠ oStatus) :
    (c.mapRefused n st).reg o = c.reg o := by
  unfold Ctl.mapRefused
  split
  · rw [Ctl.flag_reg, Ctl.reg_setFld_ne _ _ hstatus, reg_regionResult_ne _ _ _ _ _ hstat]
  · exact reg_regionResult_ne _ _ _ _ _ hstat

/-- Its outcome is what MIO_REGION_STAT shows. -/
theorem fld_mapRefused (c : Ctl) (n st : Nat) (f : FieldPos) (hf : f.word = 0) :
    (c.mapRefused n st).fld oRegionStat f = (c.regionResult 1 n st false).fld oRegionStat f := by
  unfold Ctl.mapRefused
  split
  · rw [Ctl.flag_fld, Ctl.fld_setFld_ne _ _ (by decide) (.inl (by rw [hf]; decide))]
  · rfl

theorem fld_mapRefused_lockWr {c : Ctl} (h : c.locked = true) (n st : Nat) : (c.mapRefused n st).fld oStatus status_LOCK_WR = 1 := by
  rw [Ctl.mapRefused, if_pos h, Ctl.flag_fld]
  exact Ctl.fld_setFld_same _ _ status_LOCK_WR 1 (by decide)

/-! ### Accepted -/

/-- An entry names other clusters, or another code. -/
def mapMoved (old v : Nat) : Bool := decide (bits old 0 32 ≠ bits v 0 32) || decide (bits old 33 1 ≠ bits v 33 1)

theorem mapMoved_iff (old v : Nat) : mapMoved old v = true ↔ bits old 0 32 ≠ bits v 0 32 ∨ bits old 33 1 ≠ bits v 33 1 := by
  simp [mapMoved]

/-- A refill of region `n` begins: its entry becomes or stays valid, and names other clusters or another code, or a refill has waited for
it, or clusters are powered up. -/
def Ctl.mapRefills (c : Ctl) (n old v : Nat) : Bool :=
  mapValid v && (mapMoved old v || (c.fillPend.getLsbD n && !mapValid old) || c.powersUp v)

/-- The registers after an accepted write. -/
def Ctl.mapLoaded (c : Ctl) (n v : Nat) (fenced refill : Bool) : Ctl :=
  (((c.regionResult 1 n 0 false).setReg (oRegion n) (BitVec.ofNat 64 v)).setFld (oRegion n) region_FENCED fenced.toNat).setFld
    (oRegion n) region_BUSY refill.toNat

@[simp] theorem besideRegs_mapLoaded (c : Ctl) (n v : Nat) (fenced refill : Bool) : (c.mapLoaded n v fenced refill).besideRegs = c.besideRegs := by
  simp [Ctl.mapLoaded]

/-- The refill of region `n` begins: at row 0 of its banks. -/
def Ctl.beginRefill (c : Ctl) (n : Nat) : Ctl :=
  ({ c with refills := c.refills ||| 1#64 <<< n, fillPend := c.fillPend &&& ~~~ (1#64 <<< n) } : Ctl).fillsBegin (c.regionBanks n) false

@[simp] theorem beginRefill_regs (c : Ctl) (n : Nat) : (c.beginRefill n).regs = c.regs := fillsBegin_regs _ _ _

theorem beginRefill_refills (c : Ctl) {n : Nat} (hn : n < 64) : (c.beginRefill n).refills.getLsbD n = true := by
  rw [Ctl.beginRefill, fillsBegin_refills]
  simp [hn]

theorem fillOf_beginRefill (c : Ctl) (n : Nat) {pb : Nat} (h : pb ∈ (c.beginRefill n).regionBanks n) :
    (c.beginRefill n).fillOf pb = some { since := c.bc } := by
  rw [regionBanks_of_regs (beginRefill_regs c n)] at h
  exact fillOf_fillsBegin _ _ h

/-- Region `n` is noted for a refill. -/
def Ctl.noteRefill (c : Ctl) (n : Nat) : Ctl := { c with fillPend := c.fillPend ||| 1#64 <<< n }

@[simp] theorem noteRefill_regs (c : Ctl) (n : Nat) : (c.noteRefill n).regs = c.regs := rfl
@[simp] theorem noteRefill_refills (c : Ctl) (n : Nat) : (c.noteRefill n).refills = c.refills := rfl
theorem noteRefill_fillPend (c : Ctl) {n : Nat} (hn : n < 64) : (c.noteRefill n).fillPend.getLsbD n = true := by
  simp [Ctl.noteRefill, hn]

/-- Whether clusters are powered up depends on the region map and MIO_PWR_OP alone. -/
theorem powersUp_of_reg {c d : Ctl} (hmap : ∀ r < 64, d.reg (oRegion r) = c.reg (oRegion r)) (hpwr : d.reg oPwrOp = c.reg oPwrOp) (v : Nat) :
    d.powersUp v = c.powersUp v := by
  have hnamed : ∀ s, ((List.range 64).any fun r => mapValid (d.reg (oRegion r)).toNat && (mapClusters (d.reg (oRegion r)).toNat).contains s) =
      (List.range 64).any fun r => mapValid (c.reg (oRegion r)).toNat && (mapClusters (c.reg (oRegion r)).toNat).contains s := by
    intro s
    rw [Bool.eq_iff_iff, List.any_eq_true, List.any_eq_true]
    exact exists_congr fun r => and_congr_right fun hr => by rw [hmap r (List.mem_range.mp hr)]
  have hoff : d.fld oPwrOp pwrOp_AUTO_OFF = c.fld oPwrOp pwrOp_AUTO_OFF := congrArg (fun w : Word => bits w.toNat 21 1) hpwr
  rw [Ctl.powersUp, hoff]
  simp only [hnamed]
  rfl

theorem powersUp_regionResult (c : Ctl) (op r st : Nat) (nr : Bool) (v : Nat) : (c.regionResult op r st nr).powersUp v = c.powersUp v :=
  powersUp_of_reg (fun _ hr => reg_regionResult_ne _ _ _ _ _ (oRegion_ne_oRegionStat hr)) (reg_regionResult_ne _ _ _ _ _ (by decide)) v

theorem regionWrite_accepted {c : Ctl} (hready : c.sysReady = true) {n : Nat} {be : BitVec 2} {data : Word} {old v : Nat}
    (hold : old = (c.reg (oRegion n) &&& mapMask).toNat) (hv : v = (merge (c.reg (oRegion n)) be data &&& mapMask).toNat)
    (hcode : c.regionCode n v = 0) : ∃ fenced, c.regionWrite n be data =
      if c.mapRefills n old v then (c.mapLoaded n v fenced true).beginRefill n
      else if mapMoved old v && !mapValid v then (c.mapLoaded n v fenced false).noteRefill n
      else c.mapLoaded n v fenced false := by
  refine ⟨(mapClusters v).any fun s => (c.regionResult 1 n 0 false).isFenced (s / 64) (s % 64) || (c.regionResult 1 n 0 false).quadFenced (s / 64), ?_⟩
  unfold Ctl.regionWrite
  dsimp only
  rw [← hv, ← hold, hcode, locked_regionResult, locked_of_regionCode hcode, if_neg Bool.false_ne_true, if_neg (fun h => h rfl),
    powersUp_regionResult, regionResult_fillPend, ← Ctl.mapLoaded, ← mapMoved, ← Ctl.mapRefills]
  generalize ((mapClusters v).any fun s => (c.regionResult 1 n 0 false).isFenced (s / 64) (s % 64) || (c.regionResult 1 n 0 false).quadFenced (s / 64)) = fenced
  cases c.mapRefills n old v
  · have hd := sysReady_of_besideRegs (besideRegs_mapLoaded c n v fenced false)
    generalize c.mapLoaded n v fenced false = d at hd ⊢
    have hd' : ¬ (!d.sysReady) = true := by rw [hd, hready]; decide
    rw [if_neg hd', if_neg Bool.false_ne_true, if_neg Bool.false_ne_true, Ctl.noteRefill]
  · have hd := sysReady_of_besideRegs (besideRegs_mapLoaded c n v fenced true)
    generalize c.mapLoaded n v fenced true = d at hd ⊢
    have hd' : ¬ (!d.sysReady) = true := by rw [hd, hready]; decide
    rw [if_neg hd', if_pos rfl, if_pos rfl, Ctl.beginRefill]

/-! ### The registers and the refills after an accepted write -/

theorem reg_mapLoaded_ne (c : Ctl) (n v : Nat) (fenced refill : Bool) {o : Nat} (hstat : o ≠ oRegionStat) (ho : o ≠ oRegion n) :
    (c.mapLoaded n v fenced refill).reg o = c.reg o := by
  rw [Ctl.mapLoaded, Ctl.reg_setFld_ne _ _ ho, Ctl.reg_setFld_ne _ _ ho, Ctl.reg_setReg_ne _ ho, reg_regionResult_ne _ _ _ _ _ hstat]

theorem fld_mapLoaded_status (c : Ctl) {n : Nat} (hn : n < 64) (v : Nat) (fenced refill : Bool) :
    (c.mapLoaded n v fenced refill).fld oRegionStat regionStat_STATUS = 0 := by
  have ho : oRegionStat ≠ oRegion n := (oRegion_ne_oRegionStat hn).symm
  rw [Ctl.mapLoaded, Ctl.fld_setFld_ne _ _ (by decide) (.inl ho), Ctl.fld_setFld_ne _ _ (by decide) (.inl ho), Ctl.fld_setReg_ne _ _ ho,
    fld_regionResult_status]

theorem fld_mapLoaded_busy (c : Ctl) (n v : Nat) (fenced refill : Bool) :
    (c.mapLoaded n v fenced refill).fld (oRegion n) region_BUSY = refill.toNat := by
  have hbusy := Ctl.fld_setFld_same (((c.regionResult 1 n 0 false).setReg (oRegion n) (BitVec.ofNat 64 v)).setFld (oRegion n) region_FENCED fenced.toNat)
    (oRegion n) region_BUSY refill.toNat (by decide)
  rw [Ctl.mapLoaded, hbusy]
  cases refill <;> rfl

/-- FENCED and BUSY lie outside the bits that can be written, which hold the entry. -/
theorem reg_mapLoaded_mask (c : Ctl) (n : Nat) {v : Nat} (x : Word) (hv : v = (x &&& mapMask).toNat) (fenced refill : Bool) :
    ((c.mapLoaded n v fenced refill).reg (oRegion n) &&& mapMask).toNat = v := by
  have hbusy : ∀ i, region_BUSY.lo ≤ i → i < region_BUSY.lo + region_BUSY.width → mapMask.getLsbD i = false := by
    intro i h1 h2
    obtain rfl : i = 50 := Nat.le_antisymm (Nat.le_of_lt_succ h2) h1
    decide
  have hfenced : ∀ i, region_FENCED.lo ≤ i → i < region_FENCED.lo + region_FENCED.width → mapMask.getLsbD i = false := by
    intro i h1 h2
    obtain rfl : i = 49 := Nat.le_antisymm (Nat.le_of_lt_succ h2) h1
    decide
  rw [Ctl.mapLoaded, reg_setFld_and _ _ _ _ _ _ hbusy, reg_setFld_and _ _ _ _ _ _ hfenced, Ctl.reg_setReg_same, hv, BitVec.ofNat_toNat,
    BitVec.setWidth_eq, BitVec.and_assoc, BitVec.and_self]

/-- The registers after an accepted write, BUSY as the refill begins or not. -/
theorem regionWrite_regs {c : Ctl} (hready : c.sysReady = true) {n : Nat} {be : BitVec 2} {data : Word} {old v : Nat}
    (hold : old = (c.reg (oRegion n) &&& mapMask).toNat) (hv : v = (merge (c.reg (oRegion n)) be data &&& mapMask).toNat)
    (hcode : c.regionCode n v = 0) : ∃ fenced, (c.regionWrite n be data).regs = (c.mapLoaded n v fenced (c.mapRefills n old v)).regs := by
  obtain ⟨fenced, h⟩ := regionWrite_accepted hready hold hv hcode
  refine ⟨fenced, ?_⟩
  rw [h]
  cases c.mapRefills n old v
  · rw [if_neg Bool.false_ne_true]
    split
    · rw [noteRefill_regs]
    · rfl
  · rw [if_pos rfl, beginRefill_regs]

/-- A refill of the region begins at row 0 of its banks. -/
theorem regionWrite_refills {c : Ctl} (hready : c.sysReady = true) {n : Nat} (hn : n < 64) {be : BitVec 2} {data : Word} {old v : Nat}
    (hold : old = (c.reg (oRegion n) &&& mapMask).toNat) (hv : v = (merge (c.reg (oRegion n)) be data &&& mapMask).toNat)
    (hcode : c.regionCode n v = 0) (hrefills : c.mapRefills n old v = true) :
    (c.regionWrite n be data).refills.getLsbD n = true ∧
      ∀ pb ∈ (c.regionWrite n be data).regionBanks n, (c.regionWrite n be data).fillOf pb = some { since := c.bc } := by
  obtain ⟨fenced, h⟩ := regionWrite_accepted hready hold hv hcode
  rw [hrefills, if_pos rfl] at h
  have hbc : (c.mapLoaded n v fenced true).bc = c.bc := congrArg Clk.bc (clk_of_besideRegs (besideRegs_mapLoaded c n v fenced true))
  rw [h, ← hbc]
  exact ⟨beginRefill_refills _ hn, fun pb => fillOf_beginRefill _ n⟩

/-- Where no refill begins, an entry that is moved and left invalid is noted for its refill, and the refills under way go on. -/
theorem regionWrite_noRefill {c : Ctl} (hready : c.sysReady = true) {n : Nat} (hn : n < 64) {be : BitVec 2} {data : Word} {old v : Nat}
    (hold : old = (c.reg (oRegion n) &&& mapMask).toNat) (hv : v = (merge (c.reg (oRegion n)) be data &&& mapMask).toNat)
    (hcode : c.regionCode n v = 0) (hrefills : c.mapRefills n old v = false) :
    (c.regionWrite n be data).refills = c.refills ∧
      (mapMoved old v = true → mapValid v = false → (c.regionWrite n be data).fillPend.getLsbD n = true) := by
  obtain ⟨fenced, h⟩ := regionWrite_accepted hready hold hv hcode
  rw [hrefills, if_neg Bool.false_ne_true] at h
  have hd := refills_of_besideRegs (besideRegs_mapLoaded c n v fenced false)
  rw [h]
  split
  · exact ⟨(noteRefill_refills _ n).trans hd, fun _ _ => noteRefill_fillPend _ hn⟩
  · next hmoved => exact ⟨hd, fun hm hval => absurd (by rw [hm, hval]; rfl) hmoved⟩

/-- Region-map writes: refused with the code alone (`regionWrite_refused`), or the entry loaded and its refill begun or noted (`regionWrite_accepted`). -/
theorem regionMapWrites : regionMapWritesRule := by
  intro s n be data old v hs hn hbe hold hv
  refine ⟨fun st hcode hst => ⟨_, exec_regionWrite hs hn hbe data, rfl, ?_⟩, fun hcode => ⟨_, exec_regionWrite hs hn hbe data, rfl, ?_⟩⟩
  · have hst8 : st < 8 := by have := regionCode_le s.c n v; omega
    simp only [wrote_fld, wrote_reg, wrote_regs, regionWrite_refused hv hcode hst]
    refine ⟨?_, ?_, ?_, ?_, fun hl => fld_mapRefused_lockWr hl n st, fun o => reg_mapRefused_ne _ _ _, ?_⟩
    · rw [fld_mapRefused _ _ _ _ rfl, fld_regionResult_status, Nat.mod_eq_of_lt hst8]
    · rw [fld_mapRefused _ _ _ _ rfl, fld_regionResult_op]
    · rw [fld_mapRefused _ _ _ _ rfl, fld_regionResult_region, Nat.mod_eq_of_lt hn]
    · rw [fld_mapRefused _ _ _ _ rfl, fld_regionResult_refused _ _ _ _ hst]
    · exact ⟨(s.c.mapRefused n st).notes, congrArg (s.wrote _) (eq_of_besideRegs (besideRegs_mapRefused s.c n st))⟩
  · have hready : s.c.sysReady = true := hs.1.1.1
    obtain ⟨fenced, hregs⟩ := regionWrite_regs hready hold hv hcode
    simp only [wrote_refills, wrote_fillPend, wrote_regionBanks, wrote_fillOf, ← mapMoved_iff,
      reg_of_regs ((wrote_regs s (.regionWrite n be data) _).trans hregs), fld_of_regs ((wrote_regs s (.regionWrite n be data) _).trans hregs)]
    refine ⟨fld_mapLoaded_status _ hn _ _ _, reg_mapLoaded_mask _ _ _ hv _ _, fun hval hmoved => ?_, fun hval hmoved => ?_,
      fun hslots hcodeBit hpend hup => ?_, fun r hr hrn => ?_⟩
    · have hrefills : s.c.mapRefills n old v = true := by simp [Ctl.mapRefills, hval, hmoved]
      exact ⟨by rw [fld_mapLoaded_busy, hrefills]; rfl, regionWrite_refills hready hn hold hv hcode hrefills⟩
    · have hrefills : s.c.mapRefills n old v = false := by simp [Ctl.mapRefills, hval]
      exact ⟨by rw [fld_mapLoaded_busy, hrefills]; rfl, (regionWrite_noRefill hready hn hold hv hcode hrefills).2 hmoved hval⟩
    · have hmoved : mapMoved old v = false := by simp [mapMoved, hslots, hcodeBit]
      have hrefills : s.c.mapRefills n old v = false := by simp [Ctl.mapRefills, hmoved, hpend, hup]
      exact ⟨by rw [fld_mapLoaded_busy, hrefills]; rfl, (regionWrite_noRefill hready hn hold hv hcode hrefills).1⟩
    · exact reg_mapLoaded_ne _ _ _ _ _ (oRegion_ne_oRegionStat hr) (by simp only [oRegion]; omega)

end Sys2Proof.Machine

end

section
/-! What a service access leaves alone: the account of its slot, and the write of a row (R235 to R244, R255, R287, R321). -/

namespace Sys2Proof.Machine

theorem inject_of_not_factory {c : Ctl} (h : c.boot.factory = false) (gi : Nat) (rep : Bool) (g : Granule) : c.inject gi rep g = (c, g) := by
  simp [Ctl.inject, h]

/-- The units beside those that a service access changes: registers, arbiters and used banks with the account of its slot, write-backs, scrubber and
images with the write of a row. -/
def Ctl.besideService (c : Ctl) : Ctl :=
  { c with regs := [], notes := {}, arbs := [], busy := [], wbq := [], wbNew := [], scrubs := [], audit := {} }

theorem clk_of_besideService {c d : Ctl} (h : d.besideService = c.besideService) : d.clk = c.clk := (congrArg Ctl.clk h :)
theorem boot_of_besideService {c d : Ctl} (h : d.besideService = c.besideService) : d.boot = c.boot := (congrArg Ctl.boot h :)
theorem fills_of_besideService {c d : Ctl} (h : d.besideService = c.besideService) : d.fills = c.fills := (congrArg Ctl.fills h :)
theorem unders_of_besideService {c d : Ctl} (h : d.besideService = c.besideService) : d.unders = c.unders := (congrArg Ctl.unders h :)

theorem fillOf_of_besideService {c d : Ctl} (h : d.besideService = c.besideService) (pb : Nat) : d.fillOf pb = c.fillOf pb := by
  rw [Ctl.fillOf, fills_of_besideService h, Ctl.fillOf]

theorem bc_of_besideService {c d : Ctl} (h : d.besideService = c.besideService) : d.bc = c.bc := by
  rw [Ctl.bc, clk_of_besideService h, Ctl.bc]

theorem under_of_besideService {c d : Ctl} (h : d.besideService = c.besideService) (q : Nat) : d.under q = c.under q := by
  rw [Ctl.under, unders_of_besideService h, Ctl.under]

theorem built_of_besideService {c d : Ctl} (h : d.besideService = c.besideService) (q cl : Nat) : d.built q cl = c.built q cl := by
  rw [Ctl.built, under_of_besideService h, Ctl.built]

theorem putAt_of_besideService {c d : Ctl} (h : d.besideService = c.besideService) (key : Nat) (g : Granule) : d.putAt key g = c.putAt key g := by
  simp only [Ctl.putAt, under_of_besideService h]

/-! ### The account of a slot -/

@[simp] theorem besideService_setFld (c : Ctl) (o : Nat) (f : FieldPos) (x : Nat) : (c.setFld o f x).besideService = c.besideService := rfl
@[simp] theorem besideService_satAdd (c : Ctl) (o : Nat) (f : FieldPos) (x : Nat) : (c.satAdd o f x).besideService = c.besideService := rfl
@[simp] theorem besideService_setArb (c : Ctl) (q : Nat) (a : Arbiter) : (c.setArb q a).besideService = c.besideService := rfl
@[simp] theorem besideService_useBank (c : Ctl) (pb : Nat) : (c.useBank pb).besideService = c.besideService := rfl
@[simp] theorem besideService_countGrant (c : Ctl) (r : Nat) : (c.countGrant r).besideService = c.besideService := rfl

theorem besideService_forAll {l : List Nat} {f : Nat → Ctl → Ctl} (hf : ∀ i d, (f i d).besideService = d.besideService) (c : Ctl) :
    (forAll l f c).besideService = c.besideService :=
  forAll_keeps (P := fun d => d.besideService = c.besideService) (fun i _ d hd => (hf i d).trans hd) rfl

@[simp] theorem besideService_waitLosers (c : Ctl) (q : Nat) (rs : List AReq) (w : Option AReq) : (c.waitLosers q rs w).besideService = c.besideService := rfl

@[simp] theorem besideService_runDown (c : Ctl) (q pb : Nat) (rs : List AReq) : (c.runDown q pb rs).besideService = c.besideService := by
  apply besideService_forAll
  intro r d
  split
  · exact besideService_setArb _ _ _
  · rfl

@[simp] theorem besideService_backOff (c : Ctl) (q pb cls : Nat) (rs : List AReq) (w : AReq) (step : Nat) :
    (c.backOff q pb cls rs w step).besideService = c.besideService := by
  unfold Ctl.backOff
  dsimp only
  split
  · exact besideService_runDown c q pb rs
  · refine (besideService_forAll (fun r d => ?_) _).trans (besideService_runDown c q pb rs)
    split
    · rfl
    · exact besideService_setArb _ _ _

@[simp] theorem besideService_grantTo (c : Ctl) (q pb cls : Nat) (w : AReq) (step : Nat) : (c.grantTo q pb cls w step).besideService = c.besideService := by
  simp [Ctl.grantTo]

@[simp] theorem besideService_account (c : Ctl) (q pb cls : Nat) (rs : List AReq) (d : SlotWin) :
    (c.account q pb cls rs d).besideService = c.besideService := by
  obtain ⟨win, lost⟩ := d
  cases win <;> cases lost <;> simp [Ctl.account]

/-- A try for a service slot changes nothing but the accounts of the slot. -/
@[simp] theorem besideService_serviceTry (c : Ctl) (q cl b r : Nat) : (c.serviceTry q cl b r).1.besideService = c.besideService := by
  unfold Ctl.serviceTry
  dsimp only
  split
  · rfl
  · split
    · exact besideService_waitLosers _ _ _ _
    · split
      · rfl
      · split
        · exact besideService_account _ _ _ _ _ _
        · exact besideService_waitLosers _ _ _ _

/-! ### The write of a row -/

theorem besideService_setWb (c : Ctl) (x y : Tab (List WbEntry)) : ({ c with wbq := x, wbNew := y } : Ctl).besideService = c.besideService := rfl

@[simp] theorem besideService_cancelWb (c : Ctl) (q : Nat) (p : Nat → Bool) : (c.cancelWb q p).besideService = c.besideService := by
  refine (besideService_setWb _ _ _).trans ?_
  split
  · rfl
  · exact besideService_satAdd _ _ _ _

@[simp] theorem besideService_cancelScrub (c : Ctl) (q cl : Nat) (p : Nat → Bool) : (c.cancelScrub q cl p).besideService = c.besideService := rfl

@[simp] theorem besideService_wimgWritten (c : Ctl) (k : Nat) (staging : Bool) : (c.wimgWritten k staging).besideService = c.besideService := by
  unfold Ctl.wimgWritten
  dsimp only
  split
  · split
    · rfl
    · exact besideService_setFld _ _ _ _
  · split
    · rfl
    · split
      · exact besideService_setFld _ _ _ _
      · rfl

@[simp] theorem besideService_wimgTouch (c : Ctl) (gi : Nat) (staging : Bool) : (c.wimgTouch gi staging).besideService = c.besideService := by
  refine besideService_forAll (fun k d => ?_) c
  split
  · exact besideService_wimgWritten _ _ _
  · rfl

end Sys2Proof.Machine

end

section
/-! Fills by rows, and the end of a refill (R17, R23, R90, R91). -/

namespace Sys2Proof.Machine

@[simp] theorem fillOf_useBank (c : Ctl) (pb pb' : Nat) : (c.useBank pb).fillOf pb' = c.fillOf pb' := rfl

/-- What the fill of a row discards and tells before its write: write-backs of the row, and weight images (R255, R287). -/
def Ctl.fillTold (c : Ctl) (pb row : Nat) : Ctl :=
  let key := rowKey (pbQuad pb) (c.built (pbQuad pb) (pbCluster pb)) (pb % 16) row
  ((c.cancelWb (pbQuad pb) fun k => k == key).cancelScrub (pbQuad pb) (c.built (pbQuad pb) (pbCluster pb)) fun k => k == key).wimgTouch
    (c.giOf (pbQuad pb) (pbCluster pb) (pb % 16) row) false

@[simp] theorem besideService_fillTold (c : Ctl) (pb row : Nat) : (c.fillTold pb row).besideService = c.besideService := by
  simp [Ctl.fillTold]

/-- Outside the factory no injection meets the fill: the row takes the fill granule, and the next bc has the row after it. -/
theorem fillRow_eq {c : Ctl} (hfac : c.boot.factory = false) (pb : Nat) (f : BankFill) : c.fillRow pb f =
    (((c.fillTold pb f.row).setFill pb (some { f with row := f.row + 1, lastBc := c.bc, since := c.bc + 1 })).useBank pb,
      c.putAt (rowKey (pbQuad pb) (c.built (pbQuad pb) (pbCluster pb)) (pb % 16) f.row) fillGranule) := by
  have htold := besideService_fillTold c pb f.row
  have hinj := inject_of_not_factory ((congrArg Boot.factory (boot_of_besideService htold)).trans hfac)
  unfold Ctl.fillRow
  dsimp only
  rw [← Ctl.fillTold]
  generalize c.fillTold pb f.row = d at htold hinj ⊢
  rw [hinj, bc_of_besideService htold, putAt_of_besideService htold]

theorem fillOf_fillRow {c : Ctl} (hfac : c.boot.factory = false) (pb : Nat) (f : BankFill) :
    (c.fillRow pb f).1.fillOf pb = some { f with row := f.row + 1, lastBc := c.bc, since := c.bc + 1 } := by
  rw [fillRow_eq hfac, fillOf_useBank, Ctl.fillOf_setFill_same]

theorem ops_fillRow {c : Ctl} (hfac : c.boot.factory = false) (pb : Nat) (f : BankFill) :
    (c.fillRow pb f).2 = c.putAt (rowKey (pbQuad pb) (c.built (pbQuad pb) (pbCluster pb)) (pb % 16) f.row) fillGranule := by
  rw [fillRow_eq hfac]

/-- The fill of a bank has its turn in the present bc where a row is left and the block is not in safe state: a strike that takes its cluster writes at
once, another fill tries for a service slot. -/
theorem fillStep_of_fillLeft {c : Ctl} {pb : Nat} {f : BankFill} (hf : c.fillOf pb = some f) (hleft : c.fillLeft pb = true)
    (hblack : c.blackout = false) (hready : c.sysReady = true) : c.fillStep pb =
      if f.strike && c.strikeTakes (pbQuad pb) (pbCluster pb) then c.fillRow pb f
      else if (c.serviceTry (pbQuad pb) (pbCluster pb) (pb % 16) (46 + 4 * pbQuad pb)).2 then
        (c.serviceTry (pbQuad pb) (pbCluster pb) (pb % 16) (46 + 4 * pbQuad pb)).1.fillRow pb f
      else ((c.serviceTry (pbQuad pb) (pbCluster pb) (pb % 16) (46 + 4 * pbQuad pb)).1, []) := by
  simp only [Ctl.fillStep, hf, hleft, hblack, hready]
  rfl

theorem fillStep_idle {c : Ctl} {pb : Nat} (h : c.fillLeft pb = false ∨ c.blackout = true ∨ c.sysReady = false) : c.fillStep pb = (c, []) := by
  unfold Ctl.fillStep
  split
  · rfl
  · rw [if_pos (by rcases h with h | h | h <;> simp [h])]

/-- A fill with its slot writes one row. -/
theorem fillStep_writes (c : Ctl) (pb : Nat) (f : BankFill) (hready : c.sysReady = true) (hblack : c.blackout = false) (hfac : c.boot.factory = false)
    (hf : c.fillOf pb = some f) (hleft : c.fillLeft pb = true)
    (hslot : (f.strike = true ∧ c.strikeTakes (pbQuad pb) (pbCluster pb) = true) ∨
      (c.serviceTry (pbQuad pb) (pbCluster pb) (pb % 16) (46 + 4 * pbQuad pb)).2 = true) :
    (c.fillStep pb).1.fillOf pb = some { f with row := f.row + 1, lastBc := c.bc, since := c.bc + 1 } ∧
      (c.fillStep pb).2 = c.putAt (rowKey (pbQuad pb) (c.built (pbQuad pb) (pbCluster pb)) (pb % 16) f.row) fillGranule := by
  rw [fillStep_of_fillLeft hf hleft hblack hready]
  by_cases hstrike : (f.strike && c.strikeTakes (pbQuad pb) (pbCluster pb)) = true
  · rw [if_pos hstrike]
    exact ⟨fillOf_fillRow hfac pb f, ops_fillRow hfac pb f⟩
  · have hwon := hslot.resolve_left fun h => hstrike (by rw [h.1, h.2]; rfl)
    have htry := besideService_serviceTry c (pbQuad pb) (pbCluster pb) (pb % 16) (46 + 4 * pbQuad pb)
    rw [if_neg hstrike, if_pos hwon]
    generalize (c.serviceTry (pbQuad pb) (pbCluster pb) (pb % 16) (46 + 4 * pbQuad pb)).1 = d at htry ⊢
    have hfacd : d.boot.factory = false := (congrArg Boot.factory (boot_of_besideService htry)).trans hfac
    rw [fillOf_fillRow hfacd, ops_fillRow hfacd, bc_of_besideService htry, built_of_besideService htry, putAt_of_besideService htry]
    exact ⟨rfl, rfl⟩

/-- A fill without its slot, or with nothing to do, writes no row. -/
theorem fillStep_waits (c : Ctl) (pb : Nat) (f : BankFill) (hf : c.fillOf pb = some f)
    (h : c.fillLeft pb = false ∨ c.blackout = true ∨ ((f.strike = false ∨ c.strikeTakes (pbQuad pb) (pbCluster pb) = false) ∧
      (c.serviceTry (pbQuad pb) (pbCluster pb) (pb % 16) (46 + 4 * pbQuad pb)).2 = false)) :
    (c.fillStep pb).2 = [] ∧ (c.fillStep pb).1.fillOf pb = some f := by
  by_cases hidle : c.fillLeft pb = false ∨ c.blackout = true ∨ c.sysReady = false
  · rw [fillStep_idle hidle]
    exact ⟨rfl, hf⟩
  · simp only [not_or, Bool.not_eq_false, Bool.not_eq_true] at hidle
    obtain ⟨hleft, hblack, hready⟩ := hidle
    obtain ⟨hstrike, hlost⟩ := (h.resolve_left (by simp [hleft])).resolve_left (by simp [hblack])
    have hstrike' : ¬ (f.strike && c.strikeTakes (pbQuad pb) (pbCluster pb)) = true := by rcases hstrike with h | h <;> simp [h]
    rw [fillStep_of_fillLeft hf hleft hblack hready, if_neg hstrike', if_neg (by rw [hlost]; decide)]
    exact ⟨rfl, (fillOf_of_besideService (besideService_serviceTry _ _ _ _ _) pb).trans hf⟩

/-! ### REFILL_DONE (R23) -/

/-- The units once the refill of region `r` has ended with the fills of some banks, BUSY left out. -/
def Ctl.refillEnded (c : Ctl) (r : Nat) (pbs : List Nat) : Ctl :=
  let d := forAll pbs (fun pb d => d.setFill pb none) c
  { d with refills := d.refills &&& ~~~ (1#64 <<< r) }

theorem fillOf_refillEnded (c : Ctl) (r : Nat) (pbs : List Nat) (pb : Nat) :
    (c.refillEnded r pbs).fillOf pb = if pb ∈ pbs then none else c.fillOf pb := fillOf_setFills pbs none c pb

theorem refills_refillEnded (c : Ctl) {r : Nat} (hr : r < 64) (pbs : List Nat) : (c.refillEnded r pbs).refills.getLsbD r = false := by
  simp [Ctl.refillEnded, hr]

/-- Whether an understudy of the region is still filled, the registers and the understudies say. -/
theorem fillBusy_of_units {c d : Ctl} (hregs : d.regs = c.regs) (hunders : d.unders = c.unders) (r : Nat) : d.fillBusy r = c.fillBusy r := by
  have hunder : d.under = c.under := funext fun q => by rw [Ctl.under, hunders, Ctl.under]
  rw [Ctl.fillBusy, reg_of_regs hregs, hunder, Ctl.fillBusy]

theorem refillDone_early {c : Ctl} {r : Nat} (h : c.refills.getLsbD r = false ∨ ∃ pb ∈ c.regionBanks r, c.fillLeft pb = true) : c.refillDone r = c := by
  unfold Ctl.refillDone
  dsimp only
  rw [if_pos]
  rcases h with h | ⟨pb, hpb, hleft⟩
  · simp [h]
  · have hany : (c.regionBanks r).any c.fillLeft = true := List.any_eq_true.mpr ⟨pb, hpb, hleft⟩
    simp [hany]

/-- The banks whose fill ends with a refill: those of the region under a fill that is no strike's. -/
def Ctl.Refilled (c : Ctl) (r pb : Nat) : Prop := pb ∈ c.regionBanks r ∧ ∃ f, c.fillOf pb = some f ∧ f.strike = false

/-- With no row left the refill ends, and with it BUSY unless an understudy of the region is still filled. -/
theorem refillDone_due {c : Ctl} {r : Nat} (hready : c.sysReady = true) (hblack : c.blackout = false) (href : c.refills.getLsbD r = true)
    (hleft : ∀ pb ∈ c.regionBanks r, c.fillLeft pb = false) : ∃ pbs, (∀ pb, pb ∈ pbs ↔ c.Refilled r pb) ∧
    c.refillDone r = if c.fillBusy r then c.refillEnded r pbs else (c.refillEnded r pbs).setFld (oRegion r) region_BUSY 0 := by
  have hnone : (c.regionBanks r).any c.fillLeft = false := List.any_eq_false.mpr fun pb hpb => by simp [hleft pb hpb]
  have hdue : ¬ (!c.refills.getLsbD r || c.blackout || !c.sysReady || (c.regionBanks r).any c.fillLeft) = true := by simp [href, hblack, hready, hnone]
  have hbusy : ∀ pbs, (c.refillEnded r pbs).fillBusy r = c.fillBusy r := fun pbs =>
    fillBusy_of_units (congrArg Ctl.regs (besideFills_setFills pbs none c) :) (congrArg Ctl.unders (besideFills_setFills pbs none c) :) r
  unfold Ctl.refillDone
  dsimp only
  rw [if_neg hdue, ← Ctl.refillEnded, hbusy]
  refine ⟨_, fun pb => ?_, rfl⟩
  rw [List.mem_filter, Ctl.Refilled]
  cases c.fillOf pb <;> simp

/-- Once a refill has ended, the banks of the region are filled for a strike alone. -/
theorem refillDone_ends {c : Ctl} {r : Nat} (hr : r < 64) (hready : c.sysReady = true) (hblack : c.blackout = false) (href : c.refills.getLsbD r = true)
    (hleft : ∀ pb ∈ c.regionBanks r, c.fillLeft pb = false) :
    (c.refillDone r).refills.getLsbD r = false ∧ (c.fillBusy r = false → (c.refillDone r).fld (oRegion r) region_BUSY = 0) ∧
      ∀ pb ∈ c.regionBanks r, ∀ f, (c.refillDone r).fillOf pb = some f → f.strike = true := by
  obtain ⟨pbs, hpbs, hdone⟩ := refillDone_due hready hblack href hleft
  have hkept : ∀ pb ∈ c.regionBanks r, ∀ f, (c.refillEnded r pbs).fillOf pb = some f → f.strike = true := by
    intro pb hpb f hf
    rw [fillOf_refillEnded] at hf
    split at hf
    · exact absurd hf nofun
    · next hnot =>
      by_contra hstrike
      exact hnot ((hpbs pb).mpr ⟨hpb, f, hf, Bool.not_eq_true _ ▸ hstrike⟩)
  rw [hdone]
  split
  · next hbusy => exact ⟨refills_refillEnded c hr pbs, fun h => absurd hbusy (by simp [h]), hkept⟩
  · rw [Ctl.setFld_refills]
    simp only [fillOf_setFld]
    exact ⟨refills_refillEnded c hr pbs, fun _ => Ctl.fld_setFld_same _ _ region_BUSY _ (by decide), hkept⟩

/-- REFILL_DONE ends a refill with no row left, and no other (R23). -/
theorem refillEnds (s : State) (r : Nat) (hs : s.working) (hr : r < 64) :
    (s.c.refills.getLsbD r = false ∨ (∃ pb ∈ s.c.regionBanks r, s.c.fillLeft pb = true) → exec (.refillDone r) s = .next s) ∧
    (s.c.refills.getLsbD r = true → (∀ pb ∈ s.c.regionBanks r, s.c.fillLeft pb = false) → ∃ t, exec (.refillDone r) s = .next t ∧
      t.c.refills.getLsbD r = false ∧ t.pending = s.pending ∧ t.banks = s.banks ∧ (s.c.fillBusy r = false → t.c.fld (oRegion r) region_BUSY = 0) ∧
      (∀ pb ∈ s.c.regionBanks r, ∀ f, t.c.fillOf pb = some f → f.strike = true)) := by
  obtain ⟨⟨hready, hrun⟩, hblack⟩ := hs
  have hexec : exec (.refillDone r) s = .next { s with c := s.c.refillDone r } := onUnit_next (decide_eq_true hr) hrun fun c => c.refillDone r
  refine ⟨fun h => by rw [hexec, refillDone_early h], fun href hleft => ⟨_, hexec, ?_⟩⟩
  obtain ⟨hbit, hbusy, hkept⟩ := refillDone_ends hr hready hblack href hleft
  exact ⟨hbit, rfl, rfl, hbusy, hkept⟩

/-- Settles O41: writes of the region map (`regionMapWrites`), the end of a refill (`refillEnds`), and the fill of a bank with its slot (`fillStep_writes`) and
without (`fillStep_waits`). -/
theorem regionMapAndRefill : Obligations.RegionMapAndRefill := by
  refine ⟨regionMapWrites, refillEnds, ?_, ?_⟩
  · rintro c pb q cl f rfl rfl
    exact fillStep_writes c pb f
  · rintro c pb q cl f rfl rfl
    exact fillStep_waits c pb f

end Sys2Proof.Machine

end

section
/-! Writes through the control port that do not act: the gates of R36, R63, R64 and R308. -/

namespace Sys2Proof.Machine

/-- A command that writes through the control port has the meaning of such a write, whatever the register's own effect is. -/
theorem exec_portWrite {i : Instr} {be : BitVec 2} (h : i.portWrite = some be) (s : State) :
    ∃ f, exec i s = onUnit i.wf s fun c => c.ctlWrite i be f := by
  cases i <;> cases h <;> exact ⟨_, rfl⟩

/-- The port takes no request while sys_ready is 0, but for one that it has accepted before (R36). -/
theorem ctlWrite_untaken {c : Ctl} (hready : c.sysReady = false) (hturn : c.cTurn = false) (i : Instr) (be : BitVec 2) (f : Ctl → Ctl) :
    c.ctlWrite i be f = c := by
  simp [Ctl.ctlWrite, Ctl.onPort, Ctl.portTakes, hready, hturn]

/-- A write that completes and is not accepted leaves the answer alone (R64). -/
theorem ctlWrite_refused {c : Ctl} (hready : c.sysReady = true) (hopen : c.portOpen = true) {be : BitVec 2} (h : c.accepts be = false) (i : Instr)
    (f : Ctl → Ctl) : c.ctlWrite i be f = { c.notePort i with cRsp := c.writeRsp be, cTurn := false } := by
  simp [Ctl.ctlWrite, Ctl.onPort, Ctl.portTakes, hready, hopen, h]

/-- While a request accepted before is outstanding, a write queues behind it (R63). -/
theorem ctlWrite_queued {c : Ctl} (hready : c.sysReady = true) (hopen : c.portOpen = false) (i : Instr) (be : BitVec 2) (f : Ctl → Ctl) :
    c.ctlWrite i be f = c.queueReq (.write i) := by
  simp [Ctl.ctlWrite, Ctl.onPort, Ctl.portTakes, hready, hopen]

/-- A refused write of a command that writes through the port changes nothing but the answer. -/
theorem exec_refusedWrite {s : State} (hs : s.open_) {i : Instr} {be : BitVec 2} (hi : i.portWrite = some be) (hwf : i.wf = true)
    (h : s.c.accepts be = false) : exec i s = .next (s.answered i s.c (s.c.writeRsp be)) := by
  obtain ⟨⟨hready, hrun⟩, hopen⟩ := hs
  obtain ⟨f, hf⟩ := exec_portWrite hi s
  rw [hf, onUnit_next hwf hrun, ctlWrite_refused hready hopen h]
  rfl

theorem portWritesNeedSysReady : portWritesNeedSysReadyRule := by
  intro i be s hi hwf hready hturn
  obtain ⟨f, hf⟩ := exec_portWrite hi s
  rw [hf, hwf, onUnit_true, ctlWrite_untaken hready hturn, ite_self]

theorem safeStateIgnoresPortWrites : safeStateIgnoresPortWritesRule := by
  intro i be s hi hwf hs hbe hblack
  rw [exec_refusedWrite hs hi hwf (by simp [Ctl.accepts, hblack]), Ctl.writeRsp, if_neg hbe, if_pos hblack]

theorem noByteEnableIsBadBe : noByteEnableIsBadBeRule := fun _ _ hi hwf hs => exec_refusedWrite hs hi hwf rfl

theorem portWritesWaitTheirTurn : portWritesWaitTheirTurnRule := by
  intro i be s hi hwf ⟨hready, hrun⟩ hopen
  obtain ⟨f, hf⟩ := exec_portWrite hi s
  rw [hf, onUnit_next hwf hrun, ctlWrite_queued hready hopen]
  refine ⟨fun hroom => ?_, fun hfull => ?_⟩
  · rw [Ctl.queueReq, if_pos hroom]
    rfl
  · rw [Ctl.queueReq, if_neg (Nat.not_lt.mpr hfull)]

/-- Settles O9: every such command is a write of the control port (`exec_portWrite`), which the port does not take, refuses or queues. -/
theorem controlPortGates : Obligations.ControlPortGates :=
  ⟨portWritesNeedSysReady, safeStateIgnoresPortWrites, noByteEnableIsBadBe, portWritesWaitTheirTurn⟩

end Sys2Proof.Machine

end

section
/-! What reset leaves (R37, R343, R369). -/

namespace Sys2Proof.Machine

/-- At reset every table is empty, so no key is out of order and no entry holds its default. -/
theorem reset_tablesOk : State.reset.c.tablesOk := by
  simp [Ctl.tablesOk, Ctl.regsOk, risingKeys, State.reset]

/-- A sequencer that no table lists has no head, no lanes and no reads. -/
theorem default_bounded : Seq.bounded {} := by
  simp [Seq.bounded]

theorem resetBanksCanonical : resetBanksCanonicalRule :=
  ⟨rfl, reset_tablesOk, fun _ => default_bounded⟩

/-- The outputs are those of no sequencer running, no response and no fault. -/
theorem resetLeavesTableValues : resetLeavesTableValuesRule := by
  refine ⟨rfl, rfl, rfl, fun n => ⟨rfl, rfl, rfl⟩, ?_⟩
  decide +kernel

/-- Settles O10: empty tables are canonical (`reset_tablesOk`), and each value listed is computed from the register tables. -/
theorem resetState : Obligations.ResetState := ⟨resetBanksCanonical, resetLeavesTableValues⟩

end Sys2Proof.Machine

end

section
/-! The time counter and its captures (R298 to R300). -/

namespace Sys2Proof.Machine

/-! ### Reads after the field writes of the time registers -/

/-- A field write acts on the registers alone. -/
theorem regs_setFld_of_regs {c d : Ctl} (h : d.regs = c.regs) (o : Nat) (f : FieldPos) (x : Nat) : (d.setFld o f x).regs = (c.setFld o f x).regs := by
  simp only [Ctl.setFld, Ctl.setReg, reg_of_regs h, h]

/-- A change of the time state is one of the field, beside the counter. -/
theorem regs_setTimeState (c : Ctl) (st : Nat) : (c.setTimeState st).regs = (c.setFld oTimeCtl timeCtl_STATE st).regs := by
  rw [Ctl.setTimeState]

/-- A set kept or dropped is one of the field, beside the counter. -/
theorem regs_timePend (c : Ctl) (p : Option (BitVec 48)) : (c.timePend p).regs = (c.setFld oTimeCtl timeCtl_SET_PEND p.isSome.toNat).regs := by
  rw [Ctl.timePend]

/-- A set applied is two such changes. -/
theorem regs_timeApply (c : Ctl) (sec ns frac : Nat) :
    (c.timeApply sec ns frac).regs = ((c.setFld oTimeCtl timeCtl_SET_PEND 0).setFld oTimeCtl timeCtl_STATE 1).regs := by
  rw [Ctl.timeApply, regs_setTimeState, regs_setFld_of_regs (regs_timePend c none)]
  rfl

theorem timeState_of_regs {c d : Ctl} (h : d.regs = c.regs) : d.timeState = c.timeState := by
  rw [Ctl.timeState, fld_of_regs h, Ctl.timeState]

@[simp] theorem timeState_setTimeState (c : Ctl) (st : Nat) : (c.setTimeState st).timeState = st % 4 := by
  rw [Ctl.timeState, fld_of_regs (regs_setTimeState c st), Ctl.fld_setFld_same _ _ _ _ (by decide)]
  rfl

theorem reg_setTimeState_ne (c : Ctl) (st : Nat) {o : Nat} (h : o ≠ oTimeCtl) : (c.setTimeState st).reg o = c.reg o := by
  rw [reg_of_regs (regs_setTimeState c st), Ctl.reg_setFld_ne _ _ h]

@[simp] theorem timeState_timeApply (c : Ctl) (sec ns frac : Nat) : (c.timeApply sec ns frac).timeState = 1 := by
  rw [Ctl.timeState, fld_of_regs (regs_timeApply c sec ns frac), Ctl.fld_setFld_same _ _ _ _ (by decide)]
  rfl

theorem setPend_timeApply (c : Ctl) (sec ns frac : Nat) : (c.timeApply sec ns frac).fld oTimeCtl timeCtl_SET_PEND = 0 := by
  rw [fld_of_regs (regs_timeApply c sec ns frac), Ctl.fld_setFld_ne _ _ (by decide) (by decide), Ctl.fld_setFld_same _ _ _ _ (by decide)]
  rfl

theorem reg_timeApply_ne (c : Ctl) (sec ns frac : Nat) {o : Nat} (h : o ≠ oTimeCtl) : (c.timeApply sec ns frac).reg o = c.reg o := by
  rw [reg_of_regs (regs_timeApply c sec ns frac), Ctl.reg_setFld_ne _ _ h, Ctl.reg_setFld_ne _ _ h]

/-! ### The counter after a set -/

@[simp] theorem timeApply_time (c : Ctl) (sec ns frac : Nat) : (c.timeApply sec ns frac).time =
    { c.time with sec := sec, sub := ns * 2 ^ 32 + frac, pending := none, good := 0 } := rfl

/-! ### Commands -/

theorem exec_timeSet {s : State} (h : s.accepting) (sec : BitVec 48) (atPps : Bool) :
    exec (.timeSet sec atPps) s = .next (s.wrote (.timeSet sec atPps) (s.c.timeSet sec atPps)) := onUnit_ctlWrite rfl h (by decide) _ _

theorem exec_timeSetCancel {s : State} (h : s.accepting) : exec .timeSetCancel s = .next (s.wrote .timeSetCancel (s.c.timePend none)) :=
  onUnit_ctlWrite rfl h (by decide) _ _

@[simp] theorem wrote_time (s : State) (i : Instr) (c : Ctl) : (s.wrote i c).c.time = c.time := by
  obtain ⟨nn, h⟩ := wrote_eq s i c
  rw [h]

@[simp] theorem wrote_timeState (s : State) (i : Instr) (c : Ctl) : (s.wrote i c).c.timeState = c.timeState :=
  timeState_of_regs (wrote_regs s i c)

/-- A set that is not kept for the next edge applies at once, whatever the fraction it takes is. -/
theorem timeSet_now (s : State) (sec : BitVec 48) (h : s.accepting) :
    ∃ t, exec (.timeSet sec false) s = .next t ∧ t.banks = s.banks ∧ t.c.time.sec = sec.toNat ∧
      t.c.time.sub / 2 ^ 32 = s.c.fld oTimeSetNs timeSetNs_NS ∧ t.c.time.pending = none ∧ t.c.timeState = 1 ∧
      t.c.fld oTimeCtl timeCtl_SET_PEND = 0 ∧ ∀ o, o ≠ oTimeCtl → t.c.reg o = s.c.reg o := by
  refine ⟨_, exec_timeSet h sec false, rfl, ?_⟩
  simp only [wrote_time, wrote_timeState, wrote_fld, wrote_reg, Ctl.timeSet, Bool.false_eq_true, if_false, timeApply_time, timeState_timeApply,
    setPend_timeApply]
  refine ⟨trivial, ?_, trivial, trivial, trivial, fun o ho => reg_timeApply_ne s.c.draw.2 _ _ _ ho⟩
  omega

/-- A read that is accepted waits behind the requests before it; with four outstanding it does not transfer (R63). -/
theorem exec_timeNowRead {s : State} (h : s.live) : exec .timeNowRead s = .next (s.units (s.c.queueReq (.read oTimeNow 3))) := by
  obtain ⟨hready, hrun⟩ := h
  rw [show exec .timeNowRead s = onUnit true s fun c => c.readAccept oTimeNow 3 from rfl, onUnit_next rfl hrun, Ctl.readAccept, if_pos hready]
  rfl

theorem exec_holdover {s : State} (h : s.live) {e : Nat} (hsince : s.c.time.since = some e) : exec .holdover s =
    .next (s.units (if s.c.timeState = 2 ∧ 2 * secondUnits ≤ e then s.c.setTimeState 3 else s.c)) := by
  rw [show exec .holdover s = onUnit true s Ctl.holdover from rfl, onUnit_next rfl h.2, Ctl.holdover, hsince]
  rfl

/-- A read of the counter samples it, and SEC_HI takes the upper seconds (R298). -/
theorem readReq_timeNow (c : Ctl) : c.readReq oTimeNow 3 = (c.timeRead.1, c.timeRead.2, 0) := by
  have hreg : c.readReg oTimeNow = some (BitVec.ofNat 64 c.timeRead.2.toNat) := rfl
  rw [Ctl.readReq, if_neg (by decide), hreg, BitVec.ofNat_toNat, BitVec.setWidth_eq]
  rfl

theorem timeCommands : timeRule := by
  refine ⟨fun s sec h => ⟨exec_timeSet h sec true, timeSet_now s sec h, exec_timeSetCancel h⟩, fun s h => ⟨?_, ?_, ?_, ?_⟩, fun c rest hreqs => ⟨?_, ?_⟩⟩
  · intro hroom
    rw [exec_timeNowRead h, Ctl.queueReq, if_pos hroom]
  · intro hfull
    rw [exec_timeNowRead h, Ctl.queueReq, if_neg (Nat.not_lt.mpr hfull)]
    rfl
  · intro e hsince hlocked he
    rw [exec_holdover h hsince, if_pos ⟨hlocked, he⟩]
    rfl
  · intro e hsince hno
    rw [exec_holdover h hsince, if_neg (by unfold secondUnits; omega)]
    rfl
  · intro hvalid hready
    simp [Ctl.readsNow, hvalid, hready]
  · intro hgone hclamped
    have hrsp : (c.cRsp.valid && !c.cReady) = false := by rcases hgone with h | h <;> simp [h]
    simp only [Ctl.readsNow, hrsp, hreqs, hclamped, readReq_timeNow]
    rfl

/-! ### The time state after a capture -/

/-- The count of good captures. -/
def Ctl.setGood (c : Ctl) (n : Nat) : Ctl := { c with time := { c.time with good := n } }

@[simp] theorem setGood_time (c : Ctl) (n : Nat) : (c.setGood n).time = { c.time with good := n } := rfl
@[simp] theorem regs_setGood (c : Ctl) (n : Nat) : (c.setGood n).regs = c.regs := by rw [Ctl.setGood]
@[simp] theorem clk_setGood (c : Ctl) (n : Nat) : (c.setGood n).clk = c.clk := by rw [Ctl.setGood]
theorem setTimeState_time (c : Ctl) (st : Nat) : (c.setTimeState st).time = { c.time with good := 0 } := by rw [Ctl.setTimeState]
theorem clk_setTimeState (c : Ctl) (st : Nat) : (c.setTimeState st).clk = c.clk := by rw [Ctl.setTimeState, Ctl.setFld_clk]

/-- A capture that lies off by more than LOCK_NS leaves LOCKED and HOLDOVER for FREE; the fourth good one in a row leads from FREE and HOLDOVER to
LOCKED (R300). -/
theorem ppsState_eq (c : Ctl) (ns : Nat) : c.ppsState ns =
    if c.fld oTimeCtl timeCtl_LOCK_NS < offsetOf ns then (if c.timeState = 2 ∨ c.timeState = 3 then c.setTimeState 1 else c.setGood 0)
    else if (c.timeState = 1 ∨ c.timeState = 3) ∧ 4 ≤ c.time.good + 1 then (c.setGood (c.time.good + 1)).setTimeState 2
    else c.setGood (c.time.good + 1) := by
  unfold Ctl.ppsState
  rfl

/-- A capture changes the count of good ones alone in the counter, MIO_TIME_CTL alone among the registers, and no clock. -/
theorem ppsState_keeps (c : Ctl) (ns : Nat) : (∃ n, (c.ppsState ns).time = { c.time with good := n }) ∧
    (∀ o, o ≠ oTimeCtl → (c.ppsState ns).reg o = c.reg o) ∧ (c.ppsState ns).clk = c.clk := by
  have hstate : ∀ (d : Ctl) (st : Nat), (∃ n, d.time = { c.time with good := n }) → (∀ o, d.reg o = c.reg o) → d.clk = c.clk →
      (∃ n, (d.setTimeState st).time = { c.time with good := n }) ∧ (∀ o, o ≠ oTimeCtl → (d.setTimeState st).reg o = c.reg o) ∧
      (d.setTimeState st).clk = c.clk := fun d st ⟨n, hn⟩ hreg hclk =>
    ⟨⟨0, by rw [setTimeState_time, hn]⟩, fun o ho => (reg_setTimeState_ne d st ho).trans (hreg o), (clk_setTimeState d st).trans hclk⟩
  have hgood : ∀ n, (∃ n', (c.setGood n).time = { c.time with good := n' }) ∧ (∀ o, (c.setGood n).reg o = c.reg o) ∧ (c.setGood n).clk = c.clk :=
    fun n => ⟨⟨n, rfl⟩, reg_of_regs (regs_setGood c n), clk_setGood c n⟩
  have hcount := fun n => (hgood n).imp_right (And.imp_left fun h o (_ : o ≠ oTimeCtl) => h o)
  rw [ppsState_eq]
  split_ifs
  · exact hstate c 1 ⟨_, rfl⟩ (fun _ => rfl) rfl
  · exact hcount 0
  · exact hstate _ 2 (hgood _).1 (hgood _).2.1 (hgood _).2.2
  · exact hcount _

theorem timeState_ppsState (c : Ctl) (ns : Nat) : (c.ppsState ns).timeState =
    if c.fld oTimeCtl timeCtl_LOCK_NS < offsetOf ns then (if c.timeState = 2 ∨ c.timeState = 3 then 1 else c.timeState)
    else if (c.timeState = 1 ∨ c.timeState = 3) ∧ 3 ≤ c.time.good then 2 else c.timeState := by
  have hgood : ∀ n, (c.setGood n).timeState = c.timeState := fun n => timeState_of_regs (regs_setGood c n)
  simp only [ppsState_eq, apply_ite Ctl.timeState, timeState_setTimeState, hgood, Nat.reduceMod, Nat.reduceLeDiff]

/-! ### A detected edge -/

/-- The registers that record a capture, and its frame reference (R299). -/
def Ctl.ppsNoted (c : Ctl) : Ctl :=
  let p := c.ppsCapture
  let c := ((c.setFld oTimePps timePps_NS p.2).setFld oTimePps timePps_SEC p.1).flag oTimePps timePps_NEW
  (c.setFld oTimeFref timeFref_FRAME (frameOf c.bc)).setFld oTimeFref timeFref_SLOT (slotOf c.bc)

/-- From a detected edge on the time since the latest one is counted anew. -/
def Ctl.ppsSeen (c : Ctl) : Ctl := { c with time := { c.time with since := some 0 } }

/-- The set that an edge applies: one that was kept before the cc of the edge (R299). -/
def Ctl.ppsSet (c : Ctl) : Ctl :=
  match c.time.pending with
  | some sec => if c.time.setCc = c.cc then c else c.timeApply sec.toNat (c.fld oTimeSetNs timeSetNs_PPS_COMP) 0
  | none => c

/-- The edge before came less than 500 ms of counter time ago. -/
def Ctl.ppsEarly (c : Ctl) : Bool := match c.time.since with | some e => decide (e < secondUnits / 2) | none => false

/-- An edge that counts leaves its record, then the time state it makes, then a set that was kept. -/
theorem ppsEdge_eq (c : Ctl) :
    c.ppsEdge = if c.ppsEarly || !c.timeRuns then c else (c.ppsNoted.ppsSeen.ppsState c.ppsCapture.2).ppsSet := by
  unfold Ctl.ppsEdge
  -- The change of the time state enters as an unknown: the match on what it leaves would have the kernel evaluate it.
  obtain ⟨f, hf⟩ : ∃ f, f = Ctl.ppsState := exists_eq
  rw [← hf]
  rfl

theorem ppsEarly_iff (c : Ctl) : c.ppsEarly = true ↔ ∃ e, c.time.since = some e ∧ e < 5 * 10 ^ 8 * 2 ^ 32 := by
  rw [Ctl.ppsEarly]
  cases c.time.since with
  | none => simp
  | some e =>
    rw [decide_eq_true_iff]
    simp [secondUnits]

/-! ### The record of a capture

The offsets are numerals here: a step that rests on unfolding would have the kernel evaluate the register map, so each rests on its lemma. -/

@[simp] theorem ppsNoted_time (c : Ctl) : c.ppsNoted.time = c.time := by simp -implicitDefEqProofs [Ctl.ppsNoted]
@[simp] theorem ppsNoted_clk (c : Ctl) : c.ppsNoted.clk = c.clk := by simp -implicitDefEqProofs [Ctl.ppsNoted]

theorem reg_ppsNoted_ne (c : Ctl) {o : Nat} (hpps : o ≠ oTimePps) (hfref : o ≠ oTimeFref) : c.ppsNoted.reg o = c.reg o := by
  simp -implicitDefEqProofs [Ctl.ppsNoted, Ctl.reg_setFld, hpps, hfref]

theorem fld_ppsNoted (c : Ctl) :
    c.ppsNoted.fld oTimePps timePps_NS = c.ppsCapture.2 % 2 ^ 32 ∧ c.ppsNoted.fld oTimePps timePps_SEC = c.ppsCapture.1 % 2 ^ 16 ∧
    c.ppsNoted.fld oTimePps timePps_NEW = 1 ∧ c.ppsNoted.fld oTimeFref timeFref_FRAME = frameOf c.bc ∧
    c.ppsNoted.fld oTimeFref timeFref_SLOT = slotOf c.bc := by
  simp -implicitDefEqProofs [Ctl.ppsNoted, Ctl.fld_setFld_same, Ctl.fld_setFld_ne, Ctl.bc, frameOf, slotOf]

theorem regs_ppsSeen (c : Ctl) : c.ppsSeen.regs = c.regs := by rw [Ctl.ppsSeen]
theorem clk_ppsSeen (c : Ctl) : c.ppsSeen.clk = c.clk := by rw [Ctl.ppsSeen]
theorem ppsSeen_time (c : Ctl) : c.ppsSeen.time = { c.time with since := some 0 } := by rw [Ctl.ppsSeen]

/-! ### The set that an edge applies -/

theorem ppsSet_kept {c : Ctl} (h : c.time.pending = none ∨ c.time.setCc = c.cc) : c.ppsSet = c := by
  rw [Ctl.ppsSet]
  rcases h with h | h
  · rw [h]
  · cases c.time.pending with
    | none => rfl
    | some sec => exact if_pos h

theorem ppsSet_applied {c : Ctl} {sec : BitVec 48} (hpend : c.time.pending = some sec) (hcc : c.time.setCc ≠ c.cc) :
    c.ppsSet = c.timeApply sec.toNat (c.fld oTimeSetNs timeSetNs_PPS_COMP) 0 := by
  rw [Ctl.ppsSet, hpend]
  exact if_neg hcc

/-! ### The whole edge -/

/-- The units before a set that an edge applies. -/
def Ctl.ppsMoved (c : Ctl) : Ctl := c.ppsNoted.ppsSeen.ppsState c.ppsCapture.2

theorem ppsMoved_time (c : Ctl) : ∃ n, c.ppsMoved.time = { c.time with since := some 0, good := n } := by
  obtain ⟨n, hn⟩ := (ppsState_keeps c.ppsNoted.ppsSeen c.ppsCapture.2).1
  exact ⟨n, by rw [Ctl.ppsMoved, hn, ppsSeen_time, ppsNoted_time]⟩

theorem ppsMoved_cc (c : Ctl) : c.ppsMoved.cc = c.cc := by
  rw [Ctl.cc, Ctl.ppsMoved, (ppsState_keeps _ _).2.2, clk_ppsSeen, ppsNoted_clk, Ctl.cc]

theorem reg_ppsMoved (c : Ctl) {o : Nat} (h : o ≠ oTimeCtl) : c.ppsMoved.reg o = c.ppsNoted.reg o := by
  rw [Ctl.ppsMoved, (ppsState_keeps _ _).2.1 o h, reg_of_regs (regs_ppsSeen _)]

theorem reg_ppsSet_ne (c : Ctl) {o : Nat} (h : o ≠ oTimeCtl) : c.ppsSet.reg o = c.reg o := by
  by_cases hk : c.time.pending = none ∨ c.time.setCc = c.cc
  · rw [ppsSet_kept hk]
  · obtain ⟨hpend, hcc⟩ := not_or.mp hk
    obtain ⟨sec, hsec⟩ := Option.ne_none_iff_exists'.mp hpend
    rw [ppsSet_applied hsec hcc, reg_timeApply_ne _ _ _ _ h]

/-- What a detected edge records beside MIO_TIME_CTL is its capture. -/
theorem fld_pps (c : Ctl) {o : Nat} (f : FieldPos) (h : o + 8 * f.word ≠ oTimeCtl) : c.ppsMoved.ppsSet.fld o f = c.ppsNoted.fld o f := by
  rw [Ctl.fld, reg_ppsSet_ne _ h, reg_ppsMoved c h, Ctl.fld]

theorem timeState_ppsMoved (c : Ctl) : c.ppsMoved.timeState =
    if c.fld oTimeCtl timeCtl_LOCK_NS < offsetOf c.ppsCapture.2 then (if c.timeState = 2 ∨ c.timeState = 3 then 1 else c.timeState)
    else if (c.timeState = 1 ∨ c.timeState = 3) ∧ 3 ≤ c.time.good then 2 else c.timeState := by
  have hfld : ∀ f : FieldPos, f.word = 0 → c.ppsNoted.ppsSeen.fld oTimeCtl f = c.fld oTimeCtl f := fun f hf => by
    rw [fld_of_regs (regs_ppsSeen _), Ctl.fld, hf, reg_ppsNoted_ne c (by decide) (by decide), Ctl.fld, hf]
  have hst : c.ppsNoted.ppsSeen.timeState = c.timeState := hfld timeCtl_STATE rfl
  rw [Ctl.ppsMoved, timeState_ppsState, hst, hfld timeCtl_LOCK_NS rfl, ppsSeen_time, ppsNoted_time]

theorem exec_ppsEdge {s : State} (h : s.c.clk.frozen = false) : exec .ppsEdge s = .next (s.units s.c.ppsEdge) :=
  onUnit_next rfl h Ctl.ppsEdge

theorem ppsEdge_ignored {c : Ctl} (h : c.ppsEarly = true) : c.ppsEdge = c := by
  rw [ppsEdge_eq, h, Bool.true_or, if_pos rfl]

theorem ppsEdge_taken {c : Ctl} (hlate : c.ppsEarly = false) (hruns : c.timeRuns = true) : c.ppsEdge = c.ppsMoved.ppsSet := by
  rw [ppsEdge_eq, hlate, hruns, if_neg (by decide), Ctl.ppsMoved]

/-- The nanoseconds of a capture lie below a second. -/
theorem ppsCapture_lt (c : Ctl) (h : c.time.sub / 2 ^ 32 < 10 ^ 9) : c.ppsCapture.2 < 2 ^ 32 := by
  simp only [Ctl.ppsCapture]
  split <;> simp only <;> omega

/-- What a detected edge records (R299). -/
theorem fld_ppsEdge {c : Ctl} (h : c.time.sub / 2 ^ 32 < 10 ^ 9) :
    c.ppsMoved.ppsSet.fld oTimePps timePps_NS = c.ppsCapture.2 ∧ c.ppsMoved.ppsSet.fld oTimePps timePps_NEW = 1 ∧
    c.ppsMoved.ppsSet.fld oTimePps timePps_SEC = c.ppsCapture.1 % 2 ^ 16 ∧
    c.ppsMoved.ppsSet.fld oTimeFref timeFref_FRAME = frameOf c.bc ∧ c.ppsMoved.ppsSet.fld oTimeFref timeFref_SLOT = slotOf c.bc := by
  obtain ⟨hns, hsec, hnew, hframe, hslot⟩ := fld_ppsNoted c
  rw [fld_pps c timePps_NS (by decide), fld_pps c timePps_NEW (by decide), fld_pps c timePps_SEC (by decide), fld_pps c timeFref_FRAME (by decide),
    fld_pps c timeFref_SLOT (by decide)]
  exact ⟨hns.trans (Nat.mod_eq_of_lt (ppsCapture_lt c h)), hnew, hsec, hframe, hslot⟩

theorem ppsEdges : ppsRule := by
  intro s hrun hphase hmode
  have hruns : s.c.timeRuns = true := by simp [Ctl.timeRuns, hrun, hphase, hmode]
  refine ⟨fun e hsince he => ?_, fun ns comp st cap hsince hns hns9 hcomp hst hcap => ⟨_, exec_ppsEdge hrun, rfl, ?_⟩⟩
  · rw [exec_ppsEdge hrun, ppsEdge_ignored ((ppsEarly_iff s.c).mpr ⟨e, hsince, he⟩)]
    rfl
  have hlate : s.c.ppsEarly = false := by
    rw [← Bool.not_eq_true, ppsEarly_iff]
    rintro ⟨e, he, hlt⟩
    exact absurd (hsince e he) (Nat.not_le.mpr hlt)
  have hcapture : s.c.ppsCapture.2 = cap ∧ (comp ≤ ns → s.c.ppsCapture.1 = s.c.time.sec) := by
    subst hcap hcomp hns
    simp only [Ctl.ppsCapture]
    split
    · exact ⟨rfl, fun _ => rfl⟩
    · exact ⟨rfl, fun hle => absurd hle ‹_›⟩
  obtain ⟨n, htime⟩ := ppsMoved_time s.c
  have hstate := timeState_ppsMoved s.c
  obtain ⟨hNS, hNEW, hSEC, hFRAME, hSLOT⟩ := fld_ppsEdge (hns ▸ hns9)
  have hcc : s.c.ppsMoved.time.setCc = s.c.ppsMoved.cc ↔ s.c.time.setCc = s.c.cc := by rw [htime, ppsMoved_cc]
  rw [hcapture.1] at hNS hstate
  simp only [State.units, ppsEdge_taken hlate hruns]
  have hsince' : s.c.ppsMoved.ppsSet.time.since = some 0 := by
    by_cases hk : s.c.ppsMoved.time.pending = none ∨ s.c.ppsMoved.time.setCc = s.c.ppsMoved.cc
    · rw [ppsSet_kept hk, htime]
    · obtain ⟨hpend, hcc⟩ := not_or.mp hk
      obtain ⟨sec, hsec⟩ := Option.ne_none_iff_exists'.mp hpend
      rw [ppsSet_applied hsec hcc, timeApply_time, htime]
  refine ⟨hsince', hNS, hNEW, fun hle => hSEC.trans (by rw [hcapture.2 hle]), hFRAME, hSLOT, fun o hpps hfref hctl => ?_, fun hkeep => ?_,
    fun sec hpend hnow => ?_⟩
  · rw [reg_ppsSet_ne _ hctl, reg_ppsMoved _ hctl, reg_ppsNoted_ne _ hpps hfref]
  · rw [ppsSet_kept (by rw [hcc, htime]; exact hkeep), htime, hstate, hst]
    exact ⟨rfl, rfl, rfl, rfl⟩
  · have happly : s.c.ppsMoved.fld oTimeSetNs timeSetNs_PPS_COMP = comp := by
      rw [hcomp, Ctl.fld, reg_ppsMoved _ (by decide), reg_ppsNoted_ne _ (by decide) (by decide), Ctl.fld]
    rw [ppsSet_applied (sec := sec) (by rw [htime]; exact hpend) (hcc.not.mpr hnow), happly]
    simp only [timeApply_time, Nat.add_zero, timeState_timeApply, and_self]

/-- Settles O50: the commands and reads of the counter (`timeCommands`), and a detected edge as its record, the time state and the set that it applies (`ppsEdges`). -/
theorem timeCounter : Obligations.TimeCounter := ⟨timeCommands, ppsEdges⟩

end Sys2Proof.Machine

end

section
/-! Raises of fault sources: what they leave alone, and the count (R304, R309 to R311). -/

namespace Sys2Proof.Machine

/-- The units beside the registers, the notes of the present cc, and the reactions and the capture of the fault collector. -/
def Ctl.besideFaults (c : Ctl) : Ctl := { c with regs := [], notes := {}, faults := { c.faults with orders := [], capCc := 0 } }

theorem besideFaults_setReg (c : Ctl) (o : Nat) (v : Word) : (c.setReg o v).besideFaults = c.besideFaults := by
  rw [Ctl.setReg, Ctl.besideFaults, Ctl.besideFaults]

theorem besideFaults_setFld (c : Ctl) (o : Nat) (f : FieldPos) (x : Nat) : (c.setFld o f x).besideFaults = c.besideFaults := by
  rw [Ctl.setFld, besideFaults_setReg]

theorem besideFaults_noteOnes (c : Ctl) (o : Nat) (m : Word) : (c.noteOnes o m).besideFaults = c.besideFaults := by
  rw [Ctl.noteOnes, Ctl.besideFaults, Ctl.besideFaults]

theorem besideFaults_flag (c : Ctl) (o : Nat) (f : FieldPos) : (c.flag o f).besideFaults = c.besideFaults := by
  rw [Ctl.flag, besideFaults_noteOnes, besideFaults_setFld]

theorem besideFaults_satAdd (c : Ctl) (o : Nat) (f : FieldPos) (x : Nat) : (c.satAdd o f x).besideFaults = c.besideFaults := by
  rw [Ctl.satAdd, ← besideFaults_setFld c o f (min (c.fld o f + x) (2 ^ f.width - 1)), Ctl.besideFaults, Ctl.besideFaults]

theorem besideFaults_capCc (c : Ctl) (x : Nat) : ({ c with faults := { c.faults with capCc := x } } : Ctl).besideFaults = c.besideFaults := by
  rw [Ctl.besideFaults, Ctl.besideFaults]

theorem besideFaults_orders (c : Ctl) (x : List FaultOrder) : ({ c with faults := { c.faults with orders := x } } : Ctl).besideFaults = c.besideFaults := by
  rw [Ctl.besideFaults, Ctl.besideFaults]

theorem besideFaults_capture (c : Ctl) (s v unit : Nat) : (c.capture s v unit).besideFaults = c.besideFaults := by
  simp only [Ctl.capture, besideFaults_setFld, besideFaults_flag, besideFaults_capCc]

theorem besideFaults_capOver (c : Ctl) (v : Nat) : (c.capOver v).besideFaults = c.besideFaults := by
  simp only [Ctl.capOver]
  split <;> simp only [besideFaults_flag]

theorem besideFaults_captureRaise (c : Ctl) (s v unit : Nat) : (c.captureRaise s v unit).1.besideFaults = c.besideFaults := by
  simp only [Ctl.captureRaise]
  split
  · simp only [besideFaults_capture, Ctl.uncap, besideFaults_orders]
  · split <;> simp only [besideFaults_capture, besideFaults_capOver, Ctl.uncap, besideFaults_orders]
/-- A raise acts in the registers, and in the reactions and the capture of the fault collector, alone (R309 to R311). -/
theorem besideFaults_raise (c : Ctl) (s unit : Nat) : (c.raise s unit).besideFaults = c.besideFaults := by
  simp only [Ctl.raise]
  split
  · split <;> simp only [besideFaults_satAdd, besideFaults_noteOnes, besideFaults_setReg]
  · split <;> split <;> split <;> simp only [besideFaults_satAdd, besideFaults_noteOnes, besideFaults_setReg, besideFaults_orders,
    besideFaults_captureRaise, besideFaults_flag]

/-- The registers in which a raise of source `s` is counted and recorded. -/
def raiseRegs (s : Nat) : List Nat := [oFltCnt s, oFltSticky, oFltStat, oFltCap, oFltCap + 8]

theorem reg_faults (c : Ctl) (x : Faults) (o : Nat) : ({ c with faults := x } : Ctl).reg o = c.reg o := reg_of_regs rfl o

theorem reg_capture_ne (c : Ctl) (s v unit : Nat) {o : Nat} (h : o ≠ oFltCap) (h8 : o ≠ oFltCap + 8) : (c.capture s v unit).reg o = c.reg o := by
  simp -implicitDefEqProofs only [Ctl.capture, Ctl.flag_reg, Ctl.reg_setFld, reg_faults]
  simp [h, h8]

theorem reg_capOver_ne (c : Ctl) (v : Nat) {o : Nat} (h : o ≠ oFltCap) : (c.capOver v).reg o = c.reg o := by
  simp only [Ctl.capOver]
  split <;> simp -implicitDefEqProofs [Ctl.reg_setFld, h]

theorem reg_captureRaise_ne (c : Ctl) (s v unit : Nat) {o : Nat} (h : o ≠ oFltCap) (h8 : o ≠ oFltCap + 8) :
    (c.captureRaise s v unit).1.reg o = c.reg o := by
  simp only [Ctl.captureRaise]
  split
  · rw [reg_capture_ne _ _ _ _ h h8, Ctl.uncap, reg_faults]
  · split
    · rw [reg_capture_ne _ _ _ _ h h8, reg_capOver_ne _ _ h, Ctl.uncap, reg_faults]
    · rw [reg_capOver_ne _ _ h]

/-- Beside the record of the raise the registers are those with the raise counted. -/
theorem reg_raise (c : Ctl) (s unit : Nat) {o : Nat} (h : o ∉ [oFltSticky, oFltStat, oFltCap, oFltCap + 8]) :
    (c.raise s unit).reg o = (c.satAdd (oFltCnt s) fltCnt_COUNT 1).reg o := by
  simp only [List.mem_cons, List.not_mem_nil, or_false, not_or] at h
  obtain ⟨hsticky, hstat, hcap, hcap8⟩ := h
  have hnote : ∀ d : Ctl, ∀ m : Word, ((d.setReg oFltSticky m).noteOnes oFltSticky (1#64 <<< s)).reg o = d.reg o := fun d m => by
    rw [Ctl.noteOnes_reg, Ctl.reg_setReg_ne _ hsticky]
  have hflag : ∀ d : Ctl, (d.flag oFltStat fltStat_ERR_LATCHED).reg o = d.reg o := fun d => by
    rw [Ctl.flag_reg, Ctl.reg_setFld_ne _ _ hstat]
  simp only [Ctl.raise]
  split
  · split
    · rw [hnote]
    · rfl
  · split <;> split <;> split <;> simp only [reg_faults, reg_captureRaise_ne _ _ _ _ hcap hcap8, hflag, hnote]

theorem reg_raise_ne (c : Ctl) (s unit : Nat) {o : Nat} (h : o ∉ raiseRegs s) : (c.raise s unit).reg o = c.reg o := by
  rw [raiseRegs, List.mem_cons, not_or] at h
  rw [reg_raise c s unit h.2, Ctl.satAdd_reg, Ctl.reg_setFld_ne _ _ h.1]

theorem fld_raise_ne (c : Ctl) (s unit : Nat) {o : Nat} {f : FieldPos} (h : o + 8 * f.word ∉ raiseRegs s) : (c.raise s unit).fld o f = c.fld o f := by
  rw [Ctl.fld, reg_raise_ne c s unit h, Ctl.fld]

/-- A raise is counted (R309). -/
theorem fltCnt_raise (c : Ctl) (s unit : Nat) :
    (c.raise s unit).fld (oFltCnt s) fltCnt_COUNT = min (c.fld (oFltCnt s) fltCnt_COUNT + 1) (2 ^ 32 - 1) := by
  have hne : oFltCnt s + 8 * fltCnt_COUNT.word ∉ [oFltSticky, oFltStat, oFltCap, oFltCap + 8] := by
    simp only [oFltCnt, oFltSticky, oFltStat, oFltCap, List.mem_cons, List.not_mem_nil, or_false, not_or]
    omega
  have hcount : ∀ n, min (n + 1) (2 ^ fltCnt_COUNT.width - 1) % 2 ^ fltCnt_COUNT.width = min (n + 1) (2 ^ 32 - 1) := fun n =>
    Nat.mod_eq_of_lt (Nat.lt_of_le_of_lt (Nat.min_le_right _ _) (by decide))
  rw [Ctl.fld, reg_raise c s unit hne, ← Ctl.fld, Ctl.satAdd_fld, Ctl.fld_setFld_same _ _ _ _ (by decide), hcount]

theorem clk_raise (c : Ctl) (s unit : Nat) : (c.raise s unit).clk = c.clk := (congrArg Ctl.clk (besideFaults_raise c s unit) :)
theorem boot_raise (c : Ctl) (s unit : Nat) : (c.raise s unit).boot = c.boot := (congrArg Ctl.boot (besideFaults_raise c s unit) :)
theorem power_raise (c : Ctl) (s unit : Nat) : (c.raise s unit).power = c.power := (congrArg Ctl.power (besideFaults_raise c s unit) :)

end Sys2Proof.Machine

end

section
/-! Reset, the release of rst_n, the root PLL and the key (R343 to R346). -/

namespace Sys2Proof.Machine

/-! ### Reset -/

theorem factoryShown_off {c : Ctl} (h : c.boot.factory = false) : c.factoryShown = c := by
  rw [Ctl.factoryShown, h]
  rfl

/-- Factory test mode is shown in MIO_FLT_STAT alone. -/
theorem factoryShown_on {c : Ctl} (h : c.boot.factory = true) : c.factoryShown.boot = c.boot ∧ c.factoryShown.sysReady = c.sysReady ∧
    c.factoryShown.fld oFltStat fltStat_FACTORY = 1 ∧ ∀ o, o ≠ oFltStat → c.factoryShown.reg o = c.reg o := by
  have hreg : ∀ o, c.factoryShown.reg o = ((c.setFld oFltStat fltStat_FACTORY 1).setFld oFltStat fltStat_ALIVE_STOP 3).reg o := fun o => by
    rw [Ctl.factoryShown, if_pos h, reg_faults]
  refine ⟨?_, ?_, ?_, fun o ho => ?_⟩
  · rw [Ctl.factoryShown, if_pos h, Ctl.setFld_boot, Ctl.setFld_boot]
  · rw [Ctl.factoryShown, if_pos h, Ctl.setFld_sysReady, Ctl.setFld_sysReady]
  · rw [Ctl.fld, hreg, ← Ctl.fld, Ctl.fld_setFld_ne _ _ (by decide) (by decide), Ctl.fld_setFld_same _ _ _ _ (by decide)]
    rfl
  · rw [hreg, Ctl.reg_setFld_ne _ _ ho, Ctl.reg_setFld_ne _ _ ho]

theorem exec_rstNAssert (s : State) : exec .rstNAssert s = .next (s.units s.c.afterReset) := rfl

theorem resetReturnsEveryUnit : resetReturnsEveryUnitRule := by
  refine ⟨fun s hf => ?_, fun s hf => ⟨_, exec_rstNAssert s, ?_⟩, fun s => rfl⟩
  · rw [exec_rstNAssert, Ctl.afterReset, hf, factoryShown_off rfl, pinsKept]
  · rw [Ctl.afterReset, hf]
    obtain ⟨hboot, hready, hfactory, hregs⟩ := factoryShown_on
      (c := { boot := { factory := true }, free := s.c.free, cReady := s.c.cReady, power := { vwarn := s.c.power.vwarn } }) rfl
    exact ⟨hboot, hready, hfactory, fun o ho => (hregs o ho).trans rfl, rfl⟩

/-! ### The lock of the root PLL -/

theorem exec_pllLock (d : NvmDevice) (k : StartChecks) {s : State} (hrun : s.c.clk.frozen = false) :
    exec (.pllLock d k) s = .next { s with c := (s.c.pllLock d k).1, banks := applyOps s.banks (s.c.pllLock d k).2 } := 
  onBanks_next rfl hrun fun _ c => c.pllLock d k

/-- The clocks run, and the raise that a stopped clock has owed is made (R341). -/
theorem clocksRun_spec (c : Ctl) : c.clocksRun.clk = { c.clk with run := true } ∧ c.clocksRun.boot = c.boot ∧ c.clocksRun.power.owed = false ∧
    (c.power.owed = false → ∀ o, c.clocksRun.reg o = c.reg o) := by
  simp only [Ctl.clocksRun]
  split
  · next h => exact ⟨by rw [clk_raise, Ctl.setPower_clk], by rw [boot_raise, Ctl.setPower_boot], by rw [power_raise]; rfl, fun h' => absurd h (by simp [h'])⟩
  · next h => exact ⟨rfl, rfl, Bool.eq_false_iff.mpr h, fun _ o => rfl⟩

/-- The end of step 3: STEP reads 4, the device is known, the RAMs are clear, and the key is awaited. -/
theorem startRom_waits {c : Ctl} (d : NvmDevice) (k : StartChecks) (hkey : c.boot.key = none) :
    (c.startRom d k).2 = [] ∧ (c.startRom d k).1.clk = c.clocksRun.clk ∧ (c.startRom d k).1.power = c.clocksRun.power ∧
    (∃ x, (c.startRom d k).1.boot = { c.boot with dev := d, pll := some (d, k), iramRun := [], iramIdle := [], dram := [], phase := .waitKey, keyFrom := x }) ∧
    (c.startRom d k).1.fld oSmBoot smBoot_STEP = 4 ∧ ∀ o, o ≠ oSmBoot → (c.startRom d k).1.reg o = c.clocksRun.reg o := by
  obtain ⟨-, hboot, -, -⟩ := clocksRun_spec c
  have hnone : (c.clocksRun.boot.key.isSome = true) ↔ False := by simp [hboot, hkey]
  simp only [Ctl.startRom, Ctl.setBoot_boot, Ctl.setFld_boot, hnone, if_false]
  refine ⟨trivial, ?_, ?_, ⟨_, by rw [hboot]⟩, ?_, fun o ho => ?_⟩
  · rw [Ctl.setBoot_clk, Ctl.setFld_clk, Ctl.setFld_clk]
  · rw [Ctl.setBoot_power, Ctl.setFld_power, Ctl.setFld_power]
  · rw [Ctl.setBoot_fld, Ctl.fld_setFld_ne _ _ (by decide) (by decide), Ctl.fld_setFld_same _ _ _ _ (by decide)]
    rfl
  · rw [Ctl.setBoot_reg, Ctl.reg_setFld_ne _ _ ho, Ctl.reg_setFld_ne _ _ ho]

/-! ### The key -/

theorem exec_keyDelivery (key : BitVec 256) (id : BitVec 16) {s : State} (hrun : s.c.clk.frozen = false) :
    exec (.keyDelivery key id) s = .next { s with c := (s.c.keyIn key id).1, banks := applyOps s.banks (s.c.keyIn key id).2 } :=
  onBanks_next rfl hrun fun _ c => c.keyIn key id

/-- A key that the key port does not take changes nothing, in tableau or not. -/
theorem exec_keyDelivery_untaken (key : BitVec 256) (id : BitVec 16) {s : State} (h : s.c.keyReady = false) : exec (.keyDelivery key id) s = .next s := by
  cases hrun : s.c.clk.frozen with
  | true => exact onBanks_frozen rfl hrun fun _ c => c.keyIn key id
  | false => simp [exec_keyDelivery key id hrun, Ctl.keyIn, h]

/-- Before step 1 of the start is over the lock of the PLL is not acted on, in tableau or not. -/
theorem exec_pllLock_early (d : NvmDevice) (k : StartChecks) {s : State} (hphase : s.c.boot.phase = .waitPll) (href : s.c.clk.ref < 40) :
    exec (.pllLock d k) s = .next s := by
  cases hrun : s.c.clk.frozen with
  | true => exact onBanks_frozen rfl hrun fun _ c => c.pllLock d k
  | false => simp [exec_pllLock d k hrun, Ctl.pllLock, hphase, href]

/-- A wait for the key that is over leads to recovery mode with RESULT 6, and nowhere else (R345). -/
theorem recover_keyTimeout (c : Ctl) : (c.recover 6).boot = { c.boot with phase := .recovery } ∧ (c.recover 6).sysReady = c.sysReady ∧
    (c.recover 6).fld oFwStat fwStat_RESULT = 6 ∧ (c.recover 6).fld oSmBoot smBoot_RECOVERY = 1 ∧
    ∀ o, o ≠ oFwStat → o ≠ oSmBoot → (c.recover 6).reg o = c.reg o := by
  have h : c.recover 6 = ((c.fwResult 6).setFld oSmBoot smBoot_RECOVERY 1).setBoot fun (b : Boot) => { b with phase := .recovery } := by
    rw [Ctl.recover]
    rfl
  rw [h, Ctl.fwResult, Ctl.setFw]
  refine ⟨?_, ?_, ?_, ?_, fun o hfw hsm => ?_⟩
  · rw [Ctl.setBoot_boot, Ctl.setFld_boot, Ctl.setFld_boot]
  · rw [Ctl.setBoot_sysReady, Ctl.setFld_sysReady, Ctl.setFld_sysReady]
  · rw [Ctl.setBoot_fld, Ctl.fld_setFld_ne _ _ (by decide) (by decide), Ctl.fld_setFld_same _ _ _ _ (by decide)]
    rfl
  · rw [Ctl.setBoot_fld, Ctl.fld_setFld_same _ _ _ _ (by decide)]
    rfl
  · rw [Ctl.setBoot_reg, Ctl.reg_setFld_ne _ _ hsm, Ctl.reg_setFld_ne _ _ hfw]

theorem exec_keyTimeout_late {s : State} (hphase : s.c.boot.phase = .waitKey) (hlate : s.c.boot.keyFrom + 8 * 2 ^ 28 ≤ s.c.tbc)
    (hrun : s.c.clk.frozen = false) : exec .keyTimeout s = .next (s.units (s.c.recover 6)) := by
  refine (onUnit_next rfl hrun fun c => if c.boot.phase = .waitKey ∧ c.keyLate then c.recover 6 else c).trans ?_
  rw [if_pos ⟨hphase, decide_eq_true hlate⟩]
  rfl

theorem startUpUpToTheKey : startUpUpToTheKeyRule := by
  refine ⟨fun s m hphase => ?_, fun s d k => exec_pllLock_early d k, fun s d k hphase href hkey hrun => ?_, fun s key id href => ?_,
    fun s key id hphase href hkey hrun => ?_, fun s key id hkey => ?_, fun s hphase hlate hrun => ?_⟩
  · change onDoor true s _ = _
    rw [onDoor_true, if_pos hphase]
    rfl
  · obtain ⟨hops, hclk, hpower, ⟨x, hboot⟩, hstep, hregs⟩ := startRom_waits (c := s.c) d k hkey
    obtain ⟨hrunning, -, howed, hreg⟩ := clocksRun_spec s.c
    have hlock : s.c.pllLock d k = s.c.startRom d k := by rw [Ctl.pllLock, if_pos hphase, if_neg (Nat.not_lt.mpr href)]
    refine ⟨_, exec_pllLock d k hrun, ?_⟩
    rw [hlock, hops, hboot]
    exact ⟨hclk.trans hrunning, rfl, rfl, rfl, rfl, rfl, rfl, hstep, rfl, fun hnot o ho => (hregs o ho).trans (hreg hnot o),
      fun _ => ⟨by rw [hpower, howed], hregs⟩⟩
  · have hready : s.c.keyReady = false := by simp [Ctl.keyReady, Nat.not_le.mpr href]
    exact ⟨hready, exec_keyDelivery_untaken key id hready⟩
  · have hready : s.c.keyReady = true := by simp [Ctl.keyReady, hphase, href, hkey]
    refine ⟨hready, ?_⟩
    rw [exec_keyDelivery key id hrun, Ctl.keyIn, hready]
    simp [Ctl.setBoot, hphase, State.units]
  · exact exec_keyDelivery_untaken key id (by simp [Ctl.keyReady, hkey])
  · obtain ⟨hboot, hready, hresult, hrecovery, hregs⟩ := recover_keyTimeout s.c
    exact ⟨_, exec_keyTimeout_late hphase hlate hrun, hboot, hready, hresult, hrecovery, hregs, rfl⟩

/-- Settles O11: reset (`factoryShown_on`), the lock of the PLL up to the wait for the key (`startRom_waits`, `clocksRun_spec`), the key, and its time-out
(`recover_keyTimeout`). -/
theorem resetAndStartUp : Obligations.ResetAndStartUp := ⟨resetReturnsEveryUnit, startUpUpToTheKey⟩

end Sys2Proof.Machine

end

section
/-! A W1C field that the block sets in the cc of a write (R371), where a note of the stage door on the same register stands. -/

namespace Sys2Proof.Machine

/-- Units after start-up that note a write of the stage door of 0 to DECODE_ERR in this cc. -/
def doorClears : Ctl := { sysReady := true, everReady := true, boot := { phase := .ready }, clk := { bc := 8000, run := true },
                          notes := { door := [(oStatus, 8, 0)] } }

/-- DECODE_ERR after the block sets it and a write of the control port clears it, in one cc of these units; 1 where the write does not complete. -/
def clearedErr : Nat :=
  match exec (.registerWrite .control oStatus 3 8) { pending := [], banks := [], c := doorClears.flag oStatus status_DECODE_ERR } with
  | .next t => t.c.fld oStatus status_DECODE_ERR
  | _ => 1

/-- The noted value is loaded after the write, and takes the bit that the block has set with it. -/
theorem clearedErr_eq : clearedErr = 0 := by decide +kernel

/-- Refutes O13: of a W1C field that the block sets in the cc of a write the statement asks for 1 in every state, and names no note of the stage door on its
register. With one (`doorClears`) the noted value stands over the write, W1C fields included, and DECODE_ERR reads 0. -/
theorem not_registerWrites : ¬ Obligations.RegisterWrites := by
  rintro ⟨-, -, hset, -, -⟩
  obtain ⟨⟨t, ht, hone⟩, -⟩ := hset { pending := [], banks := [], c := doorClears } 8 ⟨⟨⟨rfl, rfl⟩, rfl⟩, rfl⟩ rfl
  have hzero := clearedErr_eq
  rw [clearedErr, ht] at hzero
  exact absurd (hone.symm.trans hzero) (by decide)

end Sys2Proof.Machine

end

section
/-! A read at its bank-access bc that has counted as a cue violation before (R94). -/

namespace Sys2Proof.Machine

/-- A read of one granule by sequencer 0, due in bc 8,000, that has counted as a cue violation already. -/
def counted : RAccess :=
  { id := 0, issue := 3990, deliver := 4000, bankBc := 8000, opmode := 0, oparg := 0, viol := true, lanes := [{ gi := 0 }] }

/-- Units after start-up in bc 8,000 that hold this read and whose banks no group owns. -/
def heldCounted : State :=
  { pending := [], banks := [], c := { sysReady := true, everReady := true, boot := { phase := .ready }, clk := { bc := 8000, run := true },
                                       seqs := [(0, { reads := [counted] })] } }

/-- CV_COUNT after the bank access of the read; 1 where the access does not complete. -/
def countAfter : Nat :=
  match exec (.scheduledBankAccess 0 false) heldCounted with
  | .next t => t.c.fld oCvCount ⟨0, 0, 32⟩
  | _ => 1

/-- The count stays at 0: a violation of an access that has counted goes on without a count. -/
theorem countAfter_eq : countAfter = 0 := by decide +kernel

/-- The lane has the cause OWNER: the port's group does not own the bank. -/
theorem heldCounted_owner : heldCounted.c.pathCause (heldCounted.c.groupOf 0) 0 8000 = 1 := by decide +kernel

/-- The read is due, its lane misses the read-ahead wing, sequencer 0 has no vector port, nothing has counted, and the block works. -/
theorem heldCounted_read : (heldCounted.c.seq 0).dueRead heldCounted.c.bc = some counted ∧ (heldCounted.c.seq 0).raHit 0 3990 = none ∧
    isVector 0 = false ∧ heldCounted.c.fld oCvCount ⟨0, 0, 32⟩ = 0 ∧ heldCounted.c.blackout = false := by decide +kernel

/-- Refutes O19: of a plain read the statement asks for one more counted violation when its lane comes to a cause, and does not ask that the access has not
counted before (`RAccess.viol`). With `heldCounted` it has, so CV_COUNT stays at 0. -/
theorem not_scheduledAccesses : ¬ Obligations.ScheduledAccesses := by
  rintro ⟨-, hread, -⟩
  obtain ⟨hdue, hmiss, hport, hcount, hwork⟩ := heldCounted_read
  obtain ⟨-, hcause⟩ := hread heldCounted 0 counted { gi := 0 } ⟨⟨rfl, rfl⟩, hwork⟩ (by decide) hdue rfl rfl rfl rfl rfl rfl hmiss (fun h => absurd (hport.symm.trans h) (by decide))
  obtain ⟨t, ht, -, hone, -⟩ := hcause 1 heldCounted_owner (by decide)
  have hzero := countAfter_eq
  rw [countAfter, ht] at hzero
  rw [hcount] at hone
  exact absurd (hone.symm.trans hzero) (by decide)

end Sys2Proof.Machine

end

section

namespace Sys2Proof.Machine

/-! What a stack request that transfers changes (R50, R51, R193). -/

/-- The record of a port after request `t` has transferred in bc `bc`. -/
def StackPort.gone (p : StackPort) (t : StackTag) (bc : Nat) : StackPort :=
  { p with shown := none, issueBc := some bc, tags := p.tags ++ [{ t with useBc := bc }]
           bursts := if t.write then p.bursts ++ [{ tag := t.tag, n := if t.sys.isSome then t.total else t.n }] else p.bursts }

/-- The source read of granule `i` of a SPILL request. -/
def Ctl.spillReq (c : Ctl) (n : Nat) (t : StackTag) (i : Nat) : AReq :=
  { id := 0, req := n, kind := .spillRead t.ctx (t.from_ + i), gi := c.ringGi t.ctx (t.from_ + i), group := c.cx t.ctx strCtx_GROUP, write := false,
    order := t.tag, since := c.bc, dest := i }

/-- `d` has the same ports, contexts and registers below the weight images as `c`, but for bursts of port `n`, and its requests come after those of `c`. -/
structure TransferFrame (n : Nat) (c d : Ctl) : Prop where
  sOut : d.sOut = c.sOut
  ctxs : d.ctxs = c.ctxs
  reg : ∀ o, o < 0x300000 → d.reg o = c.reg o
  others : ∀ k, k ≠ n → d.sport k = c.sport k
  shown : (d.sport n).shown = (c.sport n).shown
  tags : (d.sport n).tags = (c.sport n).tags
  areqs : ∃ new, d.areqs = c.areqs ++ new

namespace TransferFrame

variable {n : Nat} {c d e : Ctl}

theorem refl (n : Nat) (c : Ctl) : TransferFrame n c c := ⟨rfl, rfl, fun _ _ => rfl, fun _ _ => rfl, rfl, rfl, [], (List.append_nil _).symm⟩

theorem trans (h : TransferFrame n c d) (k : TransferFrame n d e) : TransferFrame n c e where
  sOut := k.sOut.trans h.sOut
  ctxs := k.ctxs.trans h.ctxs
  reg o ho := (k.reg o ho).trans (h.reg o ho)
  others m hm := (k.others m hm).trans (h.others m hm)
  shown := k.shown.trans h.shown
  tags := k.tags.trans h.tags
  areqs := by
    obtain ⟨new, hnew⟩ := h.areqs
    obtain ⟨more, hmore⟩ := k.areqs
    exact ⟨new ++ more, by rw [hmore, hnew, List.append_assoc]⟩

theorem forAll {l : List Nat} {f : Nat → Ctl → Ctl} (hf : ∀ i d, TransferFrame n d (f i d)) (c : Ctl) : TransferFrame n c (forAll l f c) :=
  forAll_keeps (P := TransferFrame n c) (fun i _ d hd => hd.trans (hf i d)) (refl n c)

theorem request (n : Nat) (c : Ctl) (a : AReq) : TransferFrame n c (c.request a) :=
  ⟨rfl, rfl, fun _ _ => rfl, fun _ _ => rfl, rfl, rfl, _, rfl⟩

theorem draw (n : Nat) (c : Ctl) : TransferFrame n c c.draw.2 :=
  ⟨rfl, rfl, fun _ _ => rfl, fun _ _ => rfl, rfl, rfl, [], (List.append_nil _).symm⟩

theorem spillInto (n : Nat) (c : Ctl) (tag place : Nat) (g : Granule) : TransferFrame n c (c.spillInto n tag place g) where
  sOut := rfl
  ctxs := rfl
  reg _ _ := rfl
  others k hk := Ctl.sport_setSport_ne c hk _
  shown := by rw [Ctl.spillInto, Ctl.sport_setSport_same]
  tags := by rw [Ctl.spillInto, Ctl.sport_setSport_same]
  areqs := ⟨[], (List.append_nil _).symm⟩

/-- Units that agree beside the services, and in the registers below the weight images. -/
theorem of_besideService (n : Nat) (h : d.besideService = c.besideService) (hreg : ∀ o, o < 0x300000 → d.reg o = c.reg o) : TransferFrame n c d where
  sOut := (congrArg Ctl.sOut h :)
  ctxs := (congrArg Ctl.ctxs h :)
  reg := hreg
  others k _ := (congrArg (fun d => Ctl.sport d k) h :)
  shown := (congrArg (fun d => (Ctl.sport d n).shown) h :)
  tags := (congrArg (fun d => (Ctl.sport d n).tags) h :)
  areqs := ⟨[], by rw [List.append_nil]; exact (congrArg Ctl.areqs h :)⟩

end TransferFrame

/-- A write of a weight image is told in its own registers. -/
theorem reg_wimgWritten_ne (c : Ctl) (k : Nat) (staging : Bool) {o : Nat} (h : o ≠ oWimg k) : (c.wimgWritten k staging).reg o = c.reg o := by
  have hset : ∀ (d : Ctl) (f : FieldPos) (x : Nat), f.word = 0 → (d.setFld (oWimg k) f x).reg o = d.reg o := fun d f x hf =>
    Ctl.reg_setFld_ne d x (by rwa [hf])
  simp only [Ctl.wimgWritten]
  split
  · split
    · rfl
    · exact (hset _ _ _ rfl).trans (reg_of_regs rfl o)
  · split
    · exact reg_of_regs rfl o
    · split
      · exact hset _ _ _ rfl
      · rfl

theorem wimgStackWrite_frame (c : Ctl) (n m gaddr : Nat) (staging : Bool) : TransferFrame n c (c.wimgStackWrite m gaddr staging) := by
  refine .forAll (fun k d => ?_) c
  dsimp only
  split
  · exact .of_besideService n (besideService_wimgWritten d k staging) fun o ho => reg_wimgWritten_ne d k staging (by simp only [oWimg]; omega)
  · exact .refl n d

theorem wimgStackWrite_sports (c : Ctl) (m gaddr : Nat) (staging : Bool) : (c.wimgStackWrite m gaddr staging).sports = c.sports := by
  refine forAll_keeps (P := fun d => d.sports = c.sports) (fun k _ d hd => ?_) rfl
  dsimp only
  split
  · exact Eq.trans (congrArg Ctl.sports (besideService_wimgWritten d k staging) :) hd
  · exact hd

theorem wimgStackWrite_areqs (c : Ctl) (m gaddr : Nat) (staging : Bool) : (c.wimgStackWrite m gaddr staging).areqs = c.areqs := by
  refine forAll_keeps (P := fun d => d.areqs = c.areqs) (fun k _ d hd => ?_) rfl
  dsimp only
  split
  · exact Eq.trans (congrArg Ctl.areqs (besideService_wimgWritten d k staging) :) hd
  · exact hd

theorem saveGather_frame (c : Ctl) (n : Nat) (t : StackTag) (r : SaveRun) : TransferFrame n c (c.saveGather n t r) := by
  have hrows : TransferFrame n c (forAll (List.range t.n) (fun i c =>
      match r.at_ (t.from_ + i) with
      | .inl g => c.spillInto n t.tag i g
      | .inr x => c.request (c.imgReadReq n t.tag (t.from_ + i) i x.1 x.2)) c) := by
    refine .forAll (fun i d => ?_) c
    split
    · exact .spillInto n d _ _ _
    · exact .request n d _
  simp only [Ctl.saveGather]
  split
  · exact hrows.trans ((TransferFrame.draw n _).trans (.spillInto n _ _ _ _))
  · exact hrows

/-- The source reads of a request are presented in order. -/
theorem spillReqs_kinds (n : Nat) (t : StackTag) (l : List Nat) (c : Ctl) :
    ∃ new, (forAll l (fun i c => c.request (c.spillReq n t i)) c).areqs = c.areqs ++ new ∧
      new.map AReq.kind = l.map fun i => AKind.spillRead t.ctx (t.from_ + i) := by
  induction l generalizing c with
  | nil => exact ⟨[], (List.append_nil _).symm, rfl⟩
  | cons i l ih =>
    obtain ⟨new, hnew, hkinds⟩ := ih (c.request (c.spillReq n t i))
    exact ⟨{ c.spillReq n t i with id := c.nextReq } :: new, by rw [forAll_cons, hnew, Ctl.request, List.append_assoc]; rfl,
      by rw [List.map_cons, hkinds]; rfl⟩

/-! ### The transfer by the kind of request -/

theorem requestGoes_read (c : Ctl) (n : Nat) {t : StackTag} (hw : t.write = false) :
    c.requestGoes n t = c.setSport n ((c.sport n).gone t c.bc) := by
  simp only [Ctl.requestGoes, StackPort.gone, hw]
  rfl

theorem requestGoes_spill (c : Ctl) (n : Nat) {t : StackTag} (hw : t.write = true) (hs : t.sys = none) :
    c.requestGoes n t = forAll (List.range t.n) (fun i c => c.request (c.spillReq n t i))
      ((c.setSport n ((c.sport n).gone t c.bc)).wimgStackWrite n ((c.cx t.ctx strCtx_SADDR + t.from_) % 2 ^ 36) (decide (c.cx t.ctx strCtx_DIGEST = 1))) := by
  simp only [Ctl.requestGoes, StackPort.gone, hw, hs]
  rfl

/-- Beside the port's record a transfer changes bursts, requests that it presents, and weight images. -/
theorem requestGoes_frame (c : Ctl) (n : Nat) (t : StackTag) : TransferFrame n (c.setSport n ((c.sport n).gone t c.bc)) (c.requestGoes n t) := by
  cases hw : t.write with
  | false => rw [requestGoes_read c n hw]; exact .refl n _
  | true =>
    cases hs : t.sys with
    | none =>
      rw [requestGoes_spill c n hw hs]
      exact (wimgStackWrite_frame _ n n _ _).trans (.forAll (fun i d => .request n d _) _)
    | some y =>
      have hgone : c.requestGoes n t =
          (let c := (c.setSport n ((c.sport n).gone t c.bc)).wimgStackWrite n (c.sout n).gaddr.toNat false
           match c.audit.save with | some r => c.saveGather n t r | none => c) := by
        simp only [Ctl.requestGoes, StackPort.gone, hw, hs]
        rfl
      rw [hgone]
      refine (wimgStackWrite_frame _ n n (c.sout n).gaddr.toNat false).trans ?_
      dsimp only
      split
      · exact saveGather_frame _ n t _
      · exact .refl n _

/-- A SPILL's burst waits for the granules whose reads the transfer presents. -/
theorem requestGoes_spilled (c : Ctl) (n : Nat) {t : StackTag} (hw : t.write = true) (hs : t.sys = none) :
    ((c.requestGoes n t).sport n).bursts = (c.sport n).bursts ++ [{ tag := t.tag, n := t.n }] ∧
      ∃ new, (c.requestGoes n t).areqs = c.areqs ++ new ∧ new.map AReq.kind = (List.range t.n).map fun i => AKind.spillRead t.ctx (t.from_ + i) := by
  rw [requestGoes_spill c n hw hs]
  constructor
  · have hsports : ∀ d : Ctl, (forAll (List.range t.n) (fun i c => c.request (c.spillReq n t i)) d).sports = d.sports := fun d => by
      refine forAll_keeps (P := fun e => e.sports = d.sports) (fun i _ e he => ?_) rfl
      exact he
    rw [Ctl.sport, hsports, wimgStackWrite_sports, ← Ctl.sport, Ctl.sport_setSport_same, StackPort.gone, hw, hs]
    rfl
  · obtain ⟨new, hnew, hkinds⟩ := spillReqs_kinds n t (List.range t.n)
      ((c.setSport n ((c.sport n).gone t c.bc)).wimgStackWrite n ((c.cx t.ctx strCtx_SADDR + t.from_) % 2 ^ 36) (decide (c.cx t.ctx strCtx_DIGEST = 1)))
    rw [wimgStackWrite_areqs] at hnew
    exact ⟨new, hnew, hkinds⟩
/-! What a scope event leaves alone (R155). -/

theorem besideFaults_scopeEvent (c : Ctl) (rel acq kind target source req : Nat) : (c.scopeEvent rel acq kind target source req).besideFaults = c.besideFaults := by
  simp only [Ctl.scopeEvent]
  split
  · rfl
  · split <;> simp only [List.foldl_cons, List.foldl_nil, besideFaults_raise, besideFaults_setFld, besideFaults_flag, besideFaults_satAdd]

/-- A scope event is recorded below the counters. -/
theorem reg_scopeEvent_ne (c : Ctl) (rel acq kind target source req : Nat) {o : Nat} (h : 0x80000 ≤ o) :
    (c.scopeEvent rel acq kind target source req).reg o = c.reg o := by
  have hraise : o ∉ raiseRegs 13 := by
    simp only [raiseRegs, oFltCnt, oFltSticky, oFltStat, oFltCap, List.mem_cons, List.not_mem_nil, or_false, not_or]
    omega
  have hset : ∀ (d : Ctl) (p x lo w : Nat), p < 0x20000 → (d.setFld p ⟨0, lo, w⟩ x).reg o = d.reg o := fun d p x lo w hp =>
    Ctl.reg_setFld_ne d x (by simp only; omega)
  simp only [Ctl.scopeEvent]
  split
  · rfl
  · split <;> simp -implicitDefEqProofs only [List.foldl_cons, List.foldl_nil, reg_raise_ne _ _ _ hraise, Ctl.flag_reg, Ctl.satAdd_reg,
      hset _ oScopeCount _ _ _ (by decide), hset _ oScopeRec _ _ _ (by decide)]

theorem besideFaults_creditEvent (c : Ctl) (x : Nat) : (c.creditEvent x).besideFaults = c.besideFaults := by
  simp only [Ctl.creditEvent]
  split
  · exact besideFaults_scopeEvent _ _ _ _ _ _ _
  · rfl

theorem reg_creditEvent_ne (c : Ctl) (x : Nat) {o : Nat} (h : 0x80000 ≤ o) : (c.creditEvent x).reg o = c.reg o := by
  simp only [Ctl.creditEvent]
  split
  · exact reg_scopeEvent_ne _ _ _ _ _ _ _ h
  · rfl
/-! ### Presentation (R50, R187) -/

/-- What a port shows with request `t` that begins at `ga`. -/
def StackOut.asking (o : StackOut) (t : StackTag) (ga : Nat) : StackOut :=
  { o with reqValid := true, write := t.write, tag := BitVec.ofNat 11 t.tag, gaddr := BitVec.ofNat 36 ga, len := BitVec.ofNat 7 (t.total - 1) }

/-- The record of port n with request `t` of a context presented. -/
def Ctl.showing (c : Ctl) (n : Nat) (t : StackTag) : StackPort :=
  let p := c.sport n
  let run := if p.runCtx = some t.ctx then p.runLen + 1 else 1
  { p with shown := some t, issueBc := some c.bc, lastSel := Tab.set 0 p.lastSel (c.cx t.ctx strCtx_PRI) (t.ctx + 1)
           runCtx := some t.ctx, runLen := if run = 5 then 1 else run, reserved := if c.reserves t.ctx then p.reserved + t.total else p.reserved }

/-- The record of context x once its next request is presented. -/
def Ctl.asked (c : Ctl) (x : Nat) : CtxRun := { c.ctx x with reqIdx := (c.ctx x).reqIdx + 1, movedCc := c.cc, reqCc := c.cc + 1 }

/-- Context x counts a request up to granule `upto` as issued. -/
def Ctl.issued (c : Ctl) (x upto : Nat) : Ctl :=
  (c.setCx x strCtx_ISSUED upto).setCx x strCtx_OUTST (c.cx x strCtx_OUTST + 1)

/-- The granule that a request of context x begins at. -/
def Ctl.startGaddr (c : Ctl) (x : Nat) : Nat := if c.requestBack x then c.requestGaddr x - 1 else c.requestGaddr x

theorem requestShow_eq (c : Ctl) (n : Nat) (t : StackTag) : c.requestShow n t =
    ((((c.setSport n (c.showing n t)).setCtx t.ctx (c.asked t.ctx)).creditEvent t.ctx).issued t.ctx (t.from_ + t.n)).setSout n
      ((c.sout n).asking t (c.startGaddr t.ctx)) := by
  simp only [Ctl.requestShow, Ctl.issued, Ctl.showing, Ctl.asked, Ctl.startGaddr, StackOut.asking]

theorem besideFaults_setSout {c d : Ctl} (h : d.besideFaults = c.besideFaults) (n : Nat) (o : StackOut) :
    (d.setSout n o).besideFaults = (c.setSout n o).besideFaults :=
  (congrArg (fun b : Ctl => b.setSout n o) h :)

theorem sport_of_besideFaults {c d : Ctl} (h : d.besideFaults = c.besideFaults) (n : Nat) : d.sport n = c.sport n := (congrArg (fun b => Ctl.sport b n) h :)
theorem areqs_of_besideFaults {c d : Ctl} (h : d.besideFaults = c.besideFaults) : d.areqs = c.areqs := (congrArg Ctl.areqs h :)
theorem clk_of_besideFaults {c d : Ctl} (h : d.besideFaults = c.besideFaults) : d.clk = c.clk := (congrArg Ctl.clk h :)

/-- Beside the registers the presentation of a context's request changes its port, the context and the port's outputs. -/
theorem besideFaults_requestShow (c : Ctl) (n : Nat) (t : StackTag) : (c.requestShow n t).besideFaults =
    (((c.setSport n (c.showing n t)).setCtx t.ctx (c.asked t.ctx)).setSout n ((c.sout n).asking t (c.startGaddr t.ctx))).besideFaults := by
  rw [requestShow_eq]
  exact besideFaults_setSout (by rw [Ctl.issued, Ctl.setCx, besideFaults_setFld, Ctl.setCx, besideFaults_setFld, besideFaults_creditEvent]) n _

theorem requestShow_sport (c : Ctl) (n : Nat) (t : StackTag) : (c.requestShow n t).sport n = c.showing n t :=
  (sport_of_besideFaults (besideFaults_requestShow c n t) n).trans (Ctl.sport_setSport_same c n _)

theorem requestShow_sport_ne (c : Ctl) {n k : Nat} (hk : k ≠ n) (t : StackTag) : (c.requestShow n t).sport k = c.sport k :=
  (sport_of_besideFaults (besideFaults_requestShow c n t) k).trans (Ctl.sport_setSport_ne c hk _)

theorem requestShow_sout (c : Ctl) (n : Nat) (t : StackTag) : (c.requestShow n t).sout n = (c.sout n).asking t (c.startGaddr t.ctx) := by
  rw [requestShow_eq, Ctl.sout_setSout_same]

theorem requestShow_areqs (c : Ctl) (n : Nat) (t : StackTag) : (c.requestShow n t).areqs = c.areqs :=
  (areqs_of_besideFaults (besideFaults_requestShow c n t)).trans rfl

theorem requestShow_clk (c : Ctl) (n : Nat) (t : StackTag) : (c.requestShow n t).clk = c.clk :=
  (clk_of_besideFaults (besideFaults_requestShow c n t)).trans rfl

/-- The registers from the counters on change as the context counts the request (log entry 90). -/
theorem requestShow_fld (c : Ctl) (n : Nat) (t : StackTag) (f : FieldPos) : (c.requestShow n t).cx t.ctx f =
    (((c.setSport n (c.showing n t)).setCtx t.ctx (c.asked t.ctx)).creditEvent t.ctx |>.issued t.ctx (t.from_ + t.n)).cx t.ctx f := by
  rw [requestShow_eq, Ctl.cx, Ctl.setSout_fld, Ctl.cx]

theorem cx_creditEvent (c : Ctl) (y x : Nat) (f : FieldPos) : (c.creditEvent y).cx x f = c.cx x f := by
  rw [Ctl.cx, Ctl.fld, reg_creditEvent_ne c y (by simp only [oStrCtx]; omega), ← Ctl.fld, Ctl.cx]

theorem issued_issued (c : Ctl) (x upto : Nat) : (c.issued x upto).cx x strCtx_ISSUED = upto % 2 ^ 32 := by
  rw [Ctl.issued, Ctl.cx, Ctl.setCx, Ctl.fld_setFld_ne _ _ (by decide) (.inl (by simp only; omega)), Ctl.setCx, Ctl.fld_setFld_same _ _ _ _ (by decide)]

theorem issued_outst (c : Ctl) (x upto : Nat) : (c.issued x upto).cx x strCtx_OUTST = (c.cx x strCtx_OUTST + 1) % 2 ^ 10 := by
  rw [Ctl.issued, Ctl.cx, Ctl.setCx, Ctl.fld_setFld_same _ _ _ _ (by decide)]

theorem requestShow_issued (c : Ctl) (n : Nat) (t : StackTag) : (c.requestShow n t).cx t.ctx strCtx_ISSUED = (t.from_ + t.n) % 2 ^ 32 := by
  rw [requestShow_fld, issued_issued]

theorem requestShow_outst (c : Ctl) (n : Nat) (t : StackTag) : (c.requestShow n t).cx t.ctx strCtx_OUTST = (c.cx t.ctx strCtx_OUTST + 1) % 2 ^ 10 := by
  rw [requestShow_fld, issued_outst, cx_creditEvent, Ctl.cx, Ctl.setCtx_fld, Ctl.setSport_fld, Ctl.cx]

/-! ### STREAM_REQUEST_ISSUE (R50, R51, R188) -/

theorem exec_streamRequestIssue {s : State} (h : s.working) {n tag : Nat} (hn : n < 24) (ht : tag < 2048) (ready : Bool) :
    exec (.streamRequestIssue n tag ready) s = .next { s with c := s.c.requestIssue n tag ready } :=
  onUnit_next (decide_eq_true ⟨hn, ht⟩) h.1.2 fun c => c.requestIssue n tag ready

/-- A port that shows nothing presents its next request under a free tag, which goes at once where the port is ready. -/
theorem requestIssue_free {c : Ctl} {n tag : Nat} (hshown : (c.sport n).shown = none) (hport : c.portReady n = true)
    (htags : ∀ u ∈ (c.sport n).tags, u.tag ≠ tag) (hquar : tag ∉ (c.sport n).quar) {t : StackTag}
    (hnext : ((c.requestNext n tag).sport n).shown = some t) (ready : Bool) :
    c.requestIssue n tag ready = if ready then (c.requestNext n tag).requestGoes n t else c.requestNext n tag := by
  have hany : ((c.sport n).tags.any fun t => decide (t.tag = tag)) = false := by simpa using htags
  have hcont : (c.sport n).quar.contains tag = false := by simpa using hquar
  simp only [Ctl.requestIssue, hshown, hport, hany, hcont, hnext]
  rfl

theorem requestNext_ctx {c : Ctl} {n x : Nat} (hdue : c.hashDue n = none) (hpause : c.fld oStrCfg strCfg_ISSUE_PAUSE = 0)
    (hsel : c.select n = some x) (hover : c.osetOver x = false) (tag : Nat) : c.requestNext n tag = c.requestShow n (c.nextRequest tag x) := by
  simp only [Ctl.requestNext, hdue, if_pos hpause, hsel, hover]
  rfl

theorem requestNext_hash {c : Ctl} {n : Nat} {y : SysNext} (hdue : c.hashDue n = some y) (tag : Nat) : c.requestNext n tag = c.sysShow n tag y := by
  simp only [Ctl.requestNext, hdue]

/-- What port n shows, and the registers below the weight images, are those of the presentation whether or not the request goes at once. -/
theorem requestGoes_shows (c : Ctl) (n : Nat) (t : StackTag) (ready : Bool) :
    (if ready then c.requestGoes n t else c).sOut = c.sOut ∧ (∀ o, o < 0x300000 → (if ready then c.requestGoes n t else c).reg o = c.reg o) ∧
      ∀ k, k ≠ n → (if ready then c.requestGoes n t else c).sport k = c.sport k := by
  cases ready with
  | false => exact ⟨rfl, fun _ _ => rfl, fun _ _ => rfl⟩
  | true =>
    obtain ⟨hsOut, -, hreg, hothers, -, -, -⟩ := requestGoes_frame c n t
    exact ⟨hsOut, hreg, fun k hk => (hothers k hk).trans (Ctl.sport_setSport_ne c hk _)⟩

theorem requestGoes_sport (c : Ctl) (n : Nat) (t : StackTag) :
    ((c.requestGoes n t).sport n).shown = none ∧ ((c.requestGoes n t).sport n).tags = (c.sport n).tags ++ [{ t with useBc := c.bc }] := by
  obtain ⟨-, -, -, -, hshown, htags, -⟩ := requestGoes_frame c n t
  rw [Ctl.sport_setSport_same] at hshown htags
  exact ⟨hshown, htags⟩

/-- A request of one granule at the end of its 128 begins a granule before (R187). -/
theorem startGaddr_eq (c : Ctl) (x : Nat) : c.startGaddr x = (c.cx x strCtx_SADDR + c.cx x strCtx_ISSUED) % 2 ^ 36 -
    (if c.nextLen x = 1 ∧ (c.cx x strCtx_SADDR + c.cx x strCtx_ISSUED) % 2 ^ 36 % 128 = 127 then 1 else 0) := by
  rw [Ctl.startGaddr, Ctl.requestBack, Ctl.requestGaddr]
  split_ifs with hback hone hone
  · rfl
  · exact absurd (of_decide_eq_true hback) hone
  · exact absurd (decide_eq_true hone) hback
  · rfl

/-- The next request of the selected context transfers, or stays presented. -/
theorem contextRequest {c : Ctl} {n tag x : Nat} (hshown : (c.sport n).shown = none) (hissues : c.portIssues n = true)
    (htags : ∀ u ∈ (c.sport n).tags, u.tag ≠ tag) (hquar : tag ∉ (c.sport n).quar) (hdue : c.hashDue n = none) (hsel : c.select n = some x)
    (hover : c.osetOver x = false) (ready : Bool) : c.requestIssue n tag ready =
      if ready then (c.requestShow n (c.nextRequest tag x)).requestGoes n (c.nextRequest tag x) else c.requestShow n (c.nextRequest tag x) := by
  rw [Ctl.portIssues, Bool.and_eq_true, decide_eq_true_eq] at hissues
  obtain ⟨hport, hpause⟩ := hissues
  have hnext := requestNext_ctx hdue hpause hsel hover tag
  rw [requestIssue_free hshown hport htags hquar (t := c.nextRequest tag x) (by rw [hnext, requestShow_sport]; rfl), hnext]

theorem requestShow_goes_areqs (c : Ctl) (n tag x : Nat) (ready : Bool) : ∃ new,
    (if ready then (c.requestShow n (c.nextRequest tag x)).requestGoes n (c.nextRequest tag x) else c.requestShow n (c.nextRequest tag x)).areqs =
      c.areqs ++ new ∧ (c.cx x strCtx_DIR ≠ 1 ∨ ready = false → new = []) ∧
      (c.cx x strCtx_DIR = 1 → ready = true → new.map AReq.kind = (List.range (c.nextLen x)).map fun i => AKind.spillRead x (c.cx x strCtx_ISSUED + i)) := by
  have hnone : (c.requestShow n (c.nextRequest tag x)).areqs = c.areqs ++ [] := by rw [requestShow_areqs, List.append_nil]
  cases ready with
  | false => exact ⟨[], hnone, fun _ => rfl, fun _ h => absurd h (by decide)⟩
  | true =>
    by_cases hdir : c.cx x strCtx_DIR = 1
    · obtain ⟨-, new, hnew, hkinds⟩ := requestGoes_spilled (c.requestShow n (c.nextRequest tag x)) n (t := c.nextRequest tag x) (decide_eq_true hdir) rfl
      rw [requestShow_areqs] at hnew
      exact ⟨new, hnew, fun h => by simp [hdir] at h, fun _ _ => hkinds⟩
    · refine ⟨[], ?_, fun _ => rfl, fun h => absurd h hdir⟩
      rw [if_pos rfl, requestGoes_read _ n (t := c.nextRequest tag x) (decide_eq_false hdir), Ctl.setSport_areqs, hnone]

theorem lt_of_mem_liveCtxs {c : Ctl} {x : Nat} (h : x ∈ c.liveCtxs) : x < 16384 := by
  simp only [Ctl.liveCtxs, List.mem_map, List.mem_filter, decide_eq_true_eq] at h
  obtain ⟨e, ⟨-, hlo, hhi, -⟩, rfl⟩ := h
  omega

/-- What is picked out of a list, by its first that satisfies `p` or else its first, stands in it. -/
theorem mem_of_find_or_head {l : List Nat} {p : Nat → Bool} {x : Nat} (h : (match l.find? p with | some y => some y | none => l.head?) = some x) : x ∈ l := by
  split at h
  · next y hy => exact Option.some.inj h ▸ List.mem_of_find?_eq_some hy
  · exact List.mem_of_head? h

/-- A port selects among the live contexts. -/
theorem lt_of_select {c : Ctl} {n x : Nat} (h : c.select n = some x) : x < 16384 := by
  simp only [Ctl.select] at h
  generalize hxs : List.filter (fun x => decide (c.cx x strCtx_SPORT = n) && c.issuable x) c.liveCtxs = xs at h
  generalize hts : (if (xs.filter fun x => !(c.ctx x).late).isEmpty = true then xs else xs.filter fun x => !(c.ctx x).late) = ts at h
  have hlive : ∀ y ∈ ts, y < 16384 := fun y hy => by
    have hy : y ∈ xs := by
      rw [← hts] at hy
      split at hy
      · exact hy
      · exact List.mem_of_mem_filter hy
    exact lt_of_mem_liveCtxs (List.mem_of_mem_filter (hxs ▸ hy))
  refine hlive x (List.mem_of_mem_filter (p := fun x => decide (c.cx x strCtx_PRI = ts.foldl (fun m x => max m (c.cx x strCtx_PRI)) 0)) ?_)
  split at h
  · split at h
    · next hy => exact Option.some.inj h ▸ List.contains_iff_mem.1 hy.1
    · exact mem_of_find_or_head h
  · exact mem_of_find_or_head h

/-- A presented request goes in a bc in which the port is ready and has not presented or sent another. -/
theorem requestIssue_shown {s : State} (h : s.working) {n : Nat} {u : StackTag} (hshown : (s.c.sport n).shown = some u)
    (hbc : (s.c.sport n).issueBc ≠ some s.c.bc) (tag : Nat) : s.c.requestIssue n tag true = s.c.requestGoes n u := by
  obtain ⟨⟨hready, hrun⟩, -⟩ := h
  simp [Ctl.requestIssue, hshown, hready, hrun, hbc]

/-! ### Requests of the block itself (R286) -/

/-- What the owner of a request of the block notes of it. -/
theorem onOwner_eq (c : Ctl) (y : SysReq) (h : HashRun → HashRun) (v : SaveRun → SaveRun) (r : RestRun → RestRun) :
    ∃ a, c.onOwner y h v r = { c with audit := a } := by
  cases y <;> exact ⟨_, rfl⟩

/-- The record of port n with request `t` of the block presented. -/
def Ctl.sysShowing (c : Ctl) (n : Nat) (t : StackTag) (hash : Bool) : StackPort :=
  let p := c.sport n
  { p with shown := some t, issueBc := some c.bc, runCtx := p.runCtx.filter c.issuable, hashBc := if hash then c.bc else p.hashBc }

/-- The request that asks for `y` under a tag. -/
def Ctl.sysTag (c : Ctl) (tag : Nat) (y : SysNext) : StackTag :=
  { tag := tag, ctx := Config.contexts, sys := some y.sys, from_ := y.first, n := y.n, total := max 2 y.n, write := decide (y.sys = .save), useBc := c.bc }

theorem sysShow_eq (c : Ctl) (n tag : Nat) (y : SysNext) : ∃ hash a, c.sysShow n tag y =
    { (c.setSport n (c.sysShowing n (c.sysTag tag y) hash)).setSout n ((c.sout n).asking (c.sysTag tag y) y.gaddr) with audit := a } := by
  obtain ⟨a, ha⟩ := onOwner_eq ((c.setSport n (c.sysShowing n (c.sysTag tag y) (match y.sys with | .hash _ => true | _ => false))).setSout n
    ((c.sout n).asking (c.sysTag tag y) y.gaddr)) y.sys (fun h => { h with asked := oneMore h.asked n }) (fun v => { v with asked := oneMore v.asked n })
    (fun r => { r with asked := oneMore r.asked n })
  exact ⟨_, a, ha⟩

/-- A hash request that is due is presented (R286). -/
theorem hashRequest {c : Ctl} {n tag : Nat} {y : SysNext} (hshown : (c.sport n).shown = none) (hport : c.portReady n = true)
    (htags : ∀ u ∈ (c.sport n).tags, u.tag ≠ tag) (hquar : tag ∉ (c.sport n).quar) (hdue : c.hashDue n = some y) :
    c.requestIssue n tag false = c.sysShow n tag y ∧ ((c.sysShow n tag y).sport n).shown = some (c.sysTag tag y) := by
  have hnext := requestNext_hash hdue tag
  have hsport : ((c.sysShow n tag y).sport n).shown = some (c.sysTag tag y) := by
    obtain ⟨hash, a, ha⟩ := sysShow_eq c n tag y
    rw [ha]
    exact congrArg StackPort.shown (Ctl.sport_setSport_same c n (c.sysShowing n (c.sysTag tag y) hash))
  refine ⟨?_, hsport⟩
  rw [requestIssue_free hshown hport htags hquar (t := c.sysTag tag y) (by rw [hnext]; exact hsport), if_neg (by decide), hnext]

theorem stackRequestTransfers : stackRequestTransfersRule := by
  refine ⟨fun s n tag x m ready hwork hn ht hshown hissues htags hquar hdue hsel hover hm _ => ?_, ?_, ?_⟩
  · subst hm
    have hissue := contextRequest hshown hissues htags hquar hdue hsel hover ready
    obtain ⟨new, hareqs, hnone, hkinds⟩ := requestShow_goes_areqs s.c n tag x ready
    obtain ⟨hsOut, hreg, hothers⟩ := requestGoes_shows (s.c.requestShow n (s.c.nextRequest tag x)) n (s.c.nextRequest tag x) ready
    rw [← hissue] at hareqs hsOut hreg hothers
    have hout : (s.c.requestIssue n tag ready).sout n = (s.c.sout n).asking (s.c.nextRequest tag x) (s.c.startGaddr x) := by
      rw [Ctl.sout, hsOut, ← Ctl.sout, requestShow_sout]
      rfl
    have hx := lt_of_select hsel
    have hcx : ∀ f : FieldPos, f.word ≤ 7 → (s.c.requestIssue n tag ready).cx x f = (s.c.requestShow n (s.c.nextRequest tag x)).cx x f := fun f hf => by
      rw [Ctl.cx, Ctl.fld, hreg _ (by simp only [oStrCtx]; omega), ← Ctl.fld, Ctl.cx]
    refine ⟨_, new, s.c.nextRequest tag x, exec_streamRequestIssue hwork hn ht ready, rfl, hareqs, ?_⟩
    simp only [hout]
    refine ⟨rfl, rfl, rfl, rfl, congrArg (BitVec.ofNat 36) (startGaddr_eq s.c x), (hcx _ (by decide)).trans (requestShow_issued _ _ _),
      (hcx _ (by decide)).trans (requestShow_outst _ _ _), rfl, rfl, rfl, rfl, rfl, rfl, ?_, ?_, hnone, hkinds,
      fun k hk => (hothers k hk).trans (requestShow_sport_ne s.c hk _)⟩
    · rintro rfl
      obtain ⟨hgone, htag⟩ := requestGoes_sport (s.c.requestShow n (s.c.nextRequest tag x)) n (s.c.nextRequest tag x)
      rw [hissue, if_pos rfl]
      refine ⟨hgone, htag.trans ?_⟩
      rw [requestShow_sport, Ctl.bc, requestShow_clk]
      rfl
    · rintro rfl
      rw [hissue, if_neg (by decide), requestShow_sport]
      exact ⟨rfl, rfl⟩
  · intro s n tag u hwork hn ht hshown
    refine ⟨?_, fun hbc => ?_⟩
    · rw [exec_streamRequestIssue hwork hn ht]
      simp [Ctl.requestIssue, hshown]
    · obtain ⟨hsOut, hctxs, -, hothers, -, -, new, hareqs⟩ := requestGoes_frame s.c n u
      obtain ⟨hgone, htag⟩ := requestGoes_sport s.c n u
      refine ⟨{ s with c := s.c.requestGoes n u }, new, ?_, rfl, hareqs, hsOut, hgone, htag, fun x => ?_, fun hread => ?_, fun hw hsys => ?_,
        fun k hk => (hothers k hk).trans (Ctl.sport_setSport_ne s.c hk _)⟩
      · rw [exec_streamRequestIssue hwork hn ht, requestIssue_shown hwork hshown hbc]
      · rw [Ctl.ctx, hctxs, Ctl.setSport_ctxs, Ctl.ctx]
      · rw [requestGoes_read s.c n hread] at hareqs
        refine ⟨List.self_eq_append_right.1 hareqs, ?_⟩
        simp only [requestGoes_read s.c n hread, Ctl.sport_setSport_same, StackPort.gone, hread]
        rfl
      · obtain ⟨hbursts, more, hmore, hkinds⟩ := requestGoes_spilled s.c n hw hsys
        obtain rfl : new = more := List.append_cancel_left (hareqs.symm.trans hmore)
        exact ⟨hbursts, hkinds⟩
  · intro s n tag y hwork hn ht hshown hport htags hquar hdue
    obtain ⟨hissue, hsport⟩ := hashRequest hshown hport htags hquar hdue
    obtain ⟨hash, a, ha⟩ := sysShow_eq s.c n tag y
    have hexec := exec_streamRequestIssue hwork hn ht false
    rw [hissue] at hexec
    refine ⟨_, s.c.sysTag tag y, hexec, rfl, hsport, rfl, rfl, rfl, rfl, ?_⟩
    have hmine : (s.c.sysShow n tag y).sport n = s.c.sysShowing n (s.c.sysTag tag y) hash := by
      rw [ha]
      exact Ctl.sport_setSport_same s.c n _
    have hout : (s.c.sysShow n tag y).sout n = (s.c.sout n).asking (s.c.sysTag tag y) y.gaddr := by
      rw [ha]
      exact Tab.get_set_same ({} : StackOut) s.c.sOut n ((s.c.sout n).asking (s.c.sysTag tag y) y.gaddr)
    simp only [hmine, hout]
    refine ⟨rfl, rfl, rfl, rfl, fun k hk => ?_, fun x => ?_⟩
    · rw [ha]
      exact Ctl.sport_setSport_ne s.c hk _
    · rw [ha]
      rfl

/-! ### STACK_WRITE_BEAT (R50, R52) -/

theorem exec_stackWriteBeat {s : State} (h : s.working) {n : Nat} (hn : n < 24) (ready : Bool) :
    exec (.stackWriteBeat n ready) s = .next { s with c := s.c.writeBeat n ready } :=
  onUnit_next (decide_eq_true hn) h.1.2 fun c => c.writeBeat n ready

/-- What remains of the bursts after the next beat. -/
def WriteBurst.left (u : WriteBurst) (rest : List WriteBurst) : List WriteBurst :=
  if u.sent + u.places.length = u.n then rest else { u with sent := u.sent + u.places.length } :: rest

/-- What a port shows with the next beat of a burst. -/
def StackOut.beat (o : StackOut) (u : WriteBurst) : StackOut :=
  { o with wdValid := true, wdData := u.places.map (fun i => Tab.get 0 u.data i), wdLanes := BitVec.ofNat 32 (2 ^ u.places.length - 1)
           wdLast := decide (u.sent + u.places.length = u.n) }

section

variable {c : Ctl} {n : Nat} {u : WriteBurst} {rest : List WriteBurst}

/-- With no beat presented the next one is presented, once its granules are there, and goes at once where the port is ready. -/
theorem writeBeat_idle (hready : c.sysReady = true) (hrun : c.clk.frozen = false) (hblack : c.blackout = false) (hin : (c.sport n).removed = false)
    (hbursts : (c.sport n).bursts = u :: rest) (hbc : (c.sport n).beatBc ≠ some c.bc) (hbeat : (c.sport n).beat = false) (ready : Bool) :
    c.writeBeat n ready = if u.places.all (fun i => u.data.any fun e => decide (e.1 = i)) then
      (if ready then (c.beatShow n u).beatGoes n u rest else c.beatShow n u) else c := by
  simp only [Ctl.writeBeat, hbursts, hready, hrun, hblack, hin, hbeat, hbc]
  cases u.places.all (fun i => u.data.any fun e => decide (e.1 = i)) <;> rfl

/-- A presented beat goes in a bc in which the port is ready. -/
theorem writeBeat_shown (hready : c.sysReady = true) (hrun : c.clk.frozen = false) (hin : (c.sport n).removed = false)
    (hbursts : (c.sport n).bursts = u :: rest) (hbc : (c.sport n).beatBc ≠ some c.bc) (hbeat : (c.sport n).beat = true) (ready : Bool) :
    c.writeBeat n ready = if ready then c.beatGoes n u rest else c := by
  cases ready <;> simp [Ctl.writeBeat, hbursts, hready, hrun, hin, hbeat, hbc]

end

theorem places_length (u : WriteBurst) : u.places.length = min 32 (u.n - u.sent) := by
  rw [WriteBurst.places, List.length_map, List.length_range]

theorem beatShow_eq (c : Ctl) (n : Nat) (u : WriteBurst) : c.beatShow n u =
    (c.setSport n { c.sport n with beat := true, beatBc := some c.bc }).setSout n ((c.sout n).beat u) := rfl

theorem beatShow_sport (c : Ctl) (n : Nat) (u : WriteBurst) : (c.beatShow n u).sport n = { c.sport n with beat := true, beatBc := some c.bc } := by
  rw [beatShow_eq, Ctl.sport, Ctl.setSout_sports, ← Ctl.sport, Ctl.sport_setSport_same]

theorem beatGoes_eq (c : Ctl) (n : Nat) (u : WriteBurst) (rest : List WriteBurst) : c.beatGoes n u rest =
    c.setSport n { c.sport n with bursts := u.left rest, beat := false, beatBc := some c.bc } := rfl

/-- The granules of the next beat are there exactly when each of its places is in the burst's data. -/
theorem places_there (u : WriteBurst) : u.places.all (fun i => u.data.any fun e => decide (e.1 = i)) = true ↔
    ∀ i, i < min 32 (u.n - u.sent) → u.data.any (fun e => decide (e.1 = u.sent + i)) = true := by
  simp [WriteBurst.places]

theorem stackWriteBeatCarriesGranules : stackWriteBeatCarriesGranulesRule := by
  rintro s n m ready u rest left o hwork hn hin hbursts rfl hbc rfl rfl
  obtain ⟨⟨hready, hrun⟩, hblack⟩ := hwork
  have hexec := exec_stackWriteBeat ⟨⟨hready, hrun⟩, hblack⟩ hn ready
  have hleft : (if u.sent + min 32 (u.n - u.sent) = u.n then rest else { u with sent := u.sent + min 32 (u.n - u.sent) } :: rest) = u.left rest := by
    rw [WriteBurst.left, places_length]
  have hout : (s.c.sout n).beat u = { s.c.sout n with
      wdValid := true, wdData := (List.range (min 32 (u.n - u.sent))).map (fun i => Tab.get 0 u.data (u.sent + i))
      wdLanes := BitVec.ofNat 32 (2 ^ min 32 (u.n - u.sent) - 1), wdLast := decide (u.sent + min 32 (u.n - u.sent) = u.n) } := by
    rw [StackOut.beat, places_length, WriteBurst.places, List.map_map]
    rfl
  rw [hleft, ← hout, hexec]
  refine ⟨fun hbeat hthere => ?_, fun hbeat hmissing => ?_, fun hbeat => ?_⟩
  · rw [writeBeat_idle hready hrun hblack hin hbursts hbc hbeat, if_pos ((places_there u).2 hthere)]
    cases ready with
    | false =>
      refine ⟨_, rfl, Ctl.sout_setSout_same _ n _, Ctl.sport_setSport_same s.c n _, fun k hk => ⟨Ctl.sport_setSport_ne s.c hk _, Ctl.sout_setSout_ne _ hk _⟩, rfl⟩
    | true =>
      refine ⟨_, rfl, Ctl.sout_setSout_same _ n _, ?_, fun k hk => ⟨?_, Ctl.sout_setSout_ne _ hk _⟩, rfl⟩
      · rw [if_pos rfl, beatGoes_eq]
        refine (Ctl.sport_setSport_same _ n _).trans ?_
        rw [beatShow_sport]
        rfl
      · exact (Ctl.sport_setSport_ne _ hk _).trans (Ctl.sport_setSport_ne s.c hk _)
  · rw [writeBeat_idle hready hrun hblack hin hbursts hbc hbeat, if_neg]
    obtain ⟨i, hi, hno⟩ := hmissing
    intro hall
    rw [(places_there u).1 hall i hi] at hno
    exact absurd hno (by decide)
  · rw [writeBeat_shown hready hrun hin hbursts hbc hbeat]
    cases ready <;> rfl

/-- Settles O30: a request and a write beat are presented, and stay as they are until the bc in which they transfer. -/
theorem stackRequests : Obligations.StackRequests := ⟨stackRequestTransfers, stackWriteBeatCarriesGranules⟩

end Sys2Proof.Machine

end

section
/-! What an ECC event leaves alone (R250 to R259). -/

namespace Sys2Proof.Machine

/-- The units beside what an ECC event records: registers and notes, reactions and captures, corrections of a lap, the event log and write-backs. -/
def Ctl.besideEcc (c : Ctl) : Ctl :=
  { c with regs := [], notes := {}, faults := { c.faults with orders := [], capCc := 0 }, lapCorr := [], lapTold := [], logq := [], wbNew := [] }

theorem besideEcc_of_besideFaults {c d : Ctl} (h : d.besideFaults = c.besideFaults) : d.besideEcc = c.besideEcc := (congrArg Ctl.besideEcc h :)

theorem besideEcc_satAdd (c : Ctl) (o : Nat) (f : FieldPos) (x : Nat) : (c.satAdd o f x).besideEcc = c.besideEcc :=
  besideEcc_of_besideFaults (besideFaults_satAdd c o f x)

theorem besideEcc_raise (c : Ctl) (s unit : Nat) : (c.raise s unit).besideEcc = c.besideEcc := besideEcc_of_besideFaults (besideFaults_raise c s unit)

theorem besideEcc_logEvent (c : Ctl) (s : EccSite) (kind pos : Nat) : (c.logEvent s kind pos).besideEcc = c.besideEcc := by
  rw [Ctl.logEvent, Ctl.besideEcc, Ctl.besideEcc]

theorem besideEcc_lapCorrected (c : Ctl) (q : Nat) : (c.lapCorrected q).besideEcc = c.besideEcc := by
  simp only [Ctl.lapCorrected, Ctl.lapRaise]
  split
  · rw [besideEcc_raise, Ctl.besideEcc, Ctl.besideEcc]
  · rw [Ctl.besideEcc, Ctl.besideEcc]

/-- What the counts, the log, the count of a lap and the raise of source 7 keep, the record of an ECC event keeps (R250, R257). -/
theorem eccRecord_keeps {P : Ctl → Prop} (s : EccSite) (d : Decoded) (hcount : ∀ c f, f.word = 0 → P c → P (c.satAdd (oEccCnt s.cnt) f 1))
    (hlog : ∀ c kind pos, P c → P (c.logEvent s kind pos)) (hlap : ∀ c, P c → P (c.lapCorrected s.cnt)) (hraise : ∀ c, P c → P (c.raise 7 s.unit))
    {c : Ctl} (h : P c) : P (c.eccRecord s d) := by
  have hif : ∀ (p : Prop) [Decidable p] (x y : Ctl), P x → P y → P (if p then x else y) := fun p _ x y hx hy => by
    split
    · exact hx
    · exact hy
  have hone : P (if d.fixed = 1 then c.satAdd (oEccCnt s.cnt) eccCnt_CORR1 1 else c.satAdd (oEccCnt s.cnt) eccCnt_CORRM 1) :=
    hif _ _ _ (hcount _ _ rfl h) (hcount _ _ rfl h)
  simp only [Ctl.eccRecord]
  generalize (if d.fixed = 1 then c.satAdd (oEccCnt s.cnt) eccCnt_CORR1 1 else c.satAdd (oEccCnt s.cnt) eccCnt_CORRM 1) = c₁ at hone
  have htwo := hif (s.cnt < 4) _ _ (hlap _ hone) hone
  generalize (if s.cnt < 4 then c₁.lapCorrected s.cnt else c₁) = c₂ at htwo
  have hfixed := hif (d.fixed = 0) _ _ h (hif (d.fixed = 1) _ _ (hif (c₂.fld oEccCfg eccCfg_LOG_CORR1 = 1) _ _ (hlog _ 1 d.pos htwo) htwo) (hlog _ 2 0x1FF htwo))
  generalize (if d.fixed = 0 then c else _) = c₃ at hfixed ⊢
  have hbad := hif (d.bad = true) _ _ (hraise _ (hlog _ 3 0x1FF (hcount _ eccCnt_UNCORR rfl hfixed))) hfixed
  generalize (if d.bad = true then _ else c₃) = c₄ at hbad ⊢
  exact hif _ _ _ (hlog _ 4 0x1FF (hcount _ eccCnt_POIS rfl hbad)) hbad

theorem besideEcc_eccRecord (c : Ctl) (s : EccSite) (d : Decoded) : (c.eccRecord s d).besideEcc = c.besideEcc :=
  eccRecord_keeps (P := fun e => e.besideEcc = c.besideEcc) s d (fun e f _ h => (besideEcc_satAdd e _ f 1).trans h)
    (fun e k p h => (besideEcc_logEvent e s k p).trans h) (fun e h => (besideEcc_lapCorrected e s.cnt).trans h)
    (fun e h => (besideEcc_raise e 7 s.unit).trans h) rfl

theorem besideEcc_queueWb (c : Ctl) (q key gi : Nat) (w : Granule) (bc : Nat) : (c.queueWb q key gi w bc).besideEcc = c.besideEcc := by
  rw [Ctl.queueWb, Ctl.besideEcc, Ctl.besideEcc]

theorem besideEcc_bankRead (c : Ctl) (b : Tab Granule) (path req gi bc : Nat) : (c.bankRead b path req gi bc).1.besideEcc = c.besideEcc := by
  simp only [Ctl.bankRead]
  split
  · rw [besideEcc_queueWb, besideEcc_eccRecord]
  · rw [besideEcc_eccRecord]

/-- The registers in which an ECC event counted under `cnt` is counted, and those of the raises of its sources. -/
def eccRegs (cnt : Nat) : List Nat := [oEccCnt cnt, oFltCnt 7, oFltCnt 8, oFltSticky, oFltStat, oFltCap, oFltCap + 8]

theorem reg_eccRecord_ne (c : Ctl) (s : EccSite) (d : Decoded) {o : Nat} (h : o ∉ eccRegs s.cnt) : (c.eccRecord s d).reg o = c.reg o := by
  simp only [eccRegs, List.mem_cons, List.not_mem_nil, or_false, not_or] at h
  obtain ⟨hcnt, hseven, height, hrest⟩ := h
  have hraise : ∀ (e : Ctl) (k unit : Nat), o ≠ oFltCnt k → (e.raise k unit).reg o = e.reg o := fun e k unit hk =>
    reg_raise_ne e k unit (by simp only [raiseRegs, List.mem_cons, List.not_mem_nil, or_false, not_or]; exact ⟨hk, hrest⟩)
  refine eccRecord_keeps (P := fun e => e.reg o = c.reg o) s d (fun e f hf he => ?_) (fun e k p he => ?_) (fun e he => ?_)
    (fun e he => (hraise e 7 s.unit hseven).trans he) rfl
  · rw [Ctl.satAdd_reg, Ctl.reg_setFld_ne _ _ (by rw [hf]; exact hcnt), he]
  · exact (reg_of_regs rfl o).trans he
  · simp only [Ctl.lapCorrected, Ctl.lapRaise]
    split
    · rw [hraise _ _ _ height]
      exact (reg_of_regs rfl o).trans he
    · exact (reg_of_regs rfl o).trans he

theorem reg_bankRead_ne (c : Ctl) (b : Tab Granule) (path req gi bc : Nat) {o : Nat} (h : o ∉ eccRegs (c.place gi).quad) :
    (c.bankRead b path req gi bc).1.reg o = c.reg o := by
  simp only [Ctl.bankRead]
  split
  · exact (reg_of_regs rfl o).trans (reg_eccRecord_ne c _ _ h)
  · exact reg_eccRecord_ne c _ _ h

theorem areqs_of_besideEcc {c d : Ctl} (h : d.besideEcc = c.besideEcc) : d.areqs = c.areqs := (congrArg Ctl.areqs h :)
theorem sports_of_besideEcc {c d : Ctl} (h : d.besideEcc = c.besideEcc) : d.sports = c.sports := (congrArg Ctl.sports h :)
theorem ctxs_of_besideEcc {c d : Ctl} (h : d.besideEcc = c.besideEcc) : d.ctxs = c.ctxs := (congrArg Ctl.ctxs h :)
theorem clk_of_besideEcc {c d : Ctl} (h : d.besideEcc = c.besideEcc) : d.clk = c.clk := (congrArg Ctl.clk h :)

end Sys2Proof.Machine

end

section

/-! Stack read beats, acknowledgements, time-outs and removed ports (R53 to R58, R189, R190, R199, R313). -/

namespace Sys2Proof.Machine

/-! ### Registers of a context -/

/-- A write of one field of a context leaves every field that stands in other words or bits. -/
theorem cx_setCx_ne (c : Ctl) (x : Nat) {f f' : FieldPos} (v : Nat) (hf : f.lo + f.width ≤ 64)
    (h : f'.word ≠ f.word ∨ f'.lo + f'.width ≤ f.lo ∨ f.lo + f.width ≤ f'.lo) : (c.setCx x f v).cx x f' = c.cx x f' :=
  Ctl.fld_setFld_ne c v hf (h.imp_left fun hw => by omega)

theorem cx_setCx_same (c : Ctl) (x : Nat) (f : FieldPos) (v : Nat) (hf : f.lo + f.width ≤ 64) : (c.setCx x f v).cx x f = v % 2 ^ f.width :=
  Ctl.fld_setFld_same c _ f v hf

/-- The words of the contexts stand above the registers of ports, sources and counters. -/
theorem reg_setCx_low (c : Ctl) (x : Nat) (f : FieldPos) (v : Nat) {o : Nat} (h : o < 0x200000) : (c.setCx x f v).reg o = c.reg o :=
  Ctl.reg_setFld_ne _ _ (by simp only [oStrCtx]; omega)

theorem fld_setCx_low (c : Ctl) (x : Nat) (f : FieldPos) (v : Nat) {o : Nat} {f' : FieldPos} (h : o + 8 * f'.word < 0x200000) :
    (c.setCx x f v).fld o f' = c.fld o f' := by
  rw [Ctl.fld, reg_setCx_low _ _ _ _ h, ← Ctl.fld]

/-! ### A tag that leaves use (R54, R189) -/

/-- The record of a port without the tag of a request. -/
def StackPort.without (p : StackPort) (tag : Nat) : StackPort := { p with tags := p.tags.filter fun u => decide (u.tag ≠ tag) }

/-- A port with a tag less, whose context has a request less outstanding. -/
def Ctl.tagGone (c : Ctl) (n : Nat) (t : StackTag) : Ctl :=
  (c.setSport n ((c.sport n).without t.tag)).setCx t.ctx strCtx_OUTST (c.cx t.ctx strCtx_OUTST - 1)

theorem tagGone_ctxs (c : Ctl) (n : Nat) (t : StackTag) : (c.tagGone n t).ctxs = c.ctxs := by
  rw [Ctl.tagGone, Ctl.setCx, Ctl.setFld_ctxs, Ctl.setSport_ctxs]

theorem tagEnds_eq (c : Ctl) (n : Nat) {t : StackTag} (hs : t.sys = none) :
    c.tagEnds n t = c.tagGone n t ∨ c.tagEnds n t = (c.tagGone n t).setCtx t.ctx { (c.tagGone n t).ctx t.ctx with late := false } := by
  have hgone : (c.setSport n { c.sport n with tags := (c.sport n).tags.filter fun u => decide (u.tag ≠ t.tag) }).setCx t.ctx strCtx_OUTST
      ((c.setSport n { c.sport n with tags := (c.sport n).tags.filter fun u => decide (u.tag ≠ t.tag) }).cx t.ctx strCtx_OUTST - 1) = c.tagGone n t := by
    rw [Ctl.cx, Ctl.setSport_fld, ← Ctl.cx, Ctl.tagGone, StackPort.without]
  cases hold : c.oldestTag t.ctx with
  | none => exact .inl (by simp only [Ctl.tagEnds, hs, hold, Option.isSome_none, Bool.false_eq_true, if_false, hgone])
  | some o =>
    by_cases hsame : o.tag = t.tag
    · exact .inr (by simp only [Ctl.tagEnds, hs, hold, Option.isSome_none, Bool.false_eq_true, if_false, hsame, decide_true, if_true, hgone])
    · exact .inl (by simp only [Ctl.tagEnds, hs, hold, Option.isSome_none, Bool.false_eq_true, if_false, hsame, decide_false, hgone])

section

variable (c : Ctl) (n : Nat) {t : StackTag} (hs : t.sys = none)

include hs

theorem tagEnds_sports : (c.tagEnds n t).sports = (c.setSport n ((c.sport n).without t.tag)).sports := by
  obtain h | h := tagEnds_eq c n hs <;> rw [h] <;> rfl

theorem tagEnds_sport : (c.tagEnds n t).sport n = (c.sport n).without t.tag := by
  rw [Ctl.sport, tagEnds_sports c n hs, ← Ctl.sport, Ctl.sport_setSport_same]

theorem tagEnds_ctx : ∃ l, (c.tagEnds n t).ctx t.ctx = { c.ctx t.ctx with late := l } := by
  obtain h | h := tagEnds_eq c n hs
  · exact ⟨(c.ctx t.ctx).late, by rw [h, Ctl.ctx, tagGone_ctxs, ← Ctl.ctx]⟩
  · exact ⟨false, by rw [h, Ctl.ctx_setCtx_same, Ctl.ctx, tagGone_ctxs, ← Ctl.ctx]⟩

theorem tagEnds_fld (o : Nat) (f : FieldPos) : (c.tagEnds n t).fld o f = (c.setCx t.ctx strCtx_OUTST (c.cx t.ctx strCtx_OUTST - 1)).fld o f := by
  have hgone : (c.tagGone n t).fld o f = (c.setCx t.ctx strCtx_OUTST (c.cx t.ctx strCtx_OUTST - 1)).fld o f := by
    rw [Ctl.tagGone]
    exact fld_of_regs rfl o f
  obtain h | h := tagEnds_eq c n hs <;> rw [h]
  · exact hgone
  · rw [Ctl.setCtx_fld, hgone]

theorem tagEnds_areqs : (c.tagEnds n t).areqs = c.areqs := by
  have hgone : (c.tagGone n t).areqs = c.areqs := by rw [Ctl.tagGone, Ctl.setCx, Ctl.setFld_areqs, Ctl.setSport_areqs]
  obtain h | h := tagEnds_eq c n hs <;> rw [h]
  · exact hgone
  · rw [Ctl.setCtx_areqs, hgone]

theorem tagEnds_clk : (c.tagEnds n t).clk = c.clk := by
  have hgone : (c.tagGone n t).clk = c.clk := by rw [Ctl.tagGone, Ctl.setCx, Ctl.setFld_clk, Ctl.setSport_clk]
  obtain h | h := tagEnds_eq c n hs <;> rw [h]
  · exact hgone
  · rw [Ctl.setCtx_clk, hgone]

theorem tagEnds_outst : (c.tagEnds n t).cx t.ctx strCtx_OUTST = c.cx t.ctx strCtx_OUTST - 1 := by
  have hlt : c.cx t.ctx strCtx_OUTST < 1024 := bits_lt _ _ _
  rw [Ctl.cx, tagEnds_fld c n hs, ← Ctl.cx, cx_setCx_same _ _ _ _ (by decide)]
  exact Nat.mod_eq_of_lt (lt_of_le_of_lt (Nat.sub_le _ _) hlt)

theorem tagEnds_cx_ne {f : FieldPos} (h : f.word ≠ 0 ∨ f.lo + f.width ≤ 52 ∨ 62 ≤ f.lo) : (c.tagEnds n t).cx t.ctx f = c.cx t.ctx f := by
  rw [Ctl.cx, tagEnds_fld c n hs, ← Ctl.cx, cx_setCx_ne _ _ _ (by decide) h]

theorem tagEnds_fld_ne {o : Nat} {f : FieldPos} (h : o + 8 * f.word < 0x200000) : (c.tagEnds n t).fld o f = c.fld o f := by
  rw [tagEnds_fld c n hs, fld_setCx_low _ _ _ _ h]

end

/-! ### A context that halts (R199, R201) -/

theorem runDown_eq (c : Ctl) (q pb : Nat) (rs : List AReq) : ∃ ar, c.runDown q pb rs = { c with arbs := ar } := by
  refine forAll_keeps (P := fun d => ∃ ar, d = { c with arbs := ar }) (fun r _ d hd => ?_) ⟨c.arbs, rfl⟩
  obtain ⟨ar, rfl⟩ := hd
  dsimp only
  split
  · exact ⟨_, rfl⟩
  · exact ⟨ar, rfl⟩

/-- The account of a slot that goes unused changes arbiters and the banks in use. -/
theorem withdrawWin_eq (c : Ctl) (a : AReq) : ∃ ar busy, c.withdrawWin a = { c with arbs := ar, busy := busy } := by
  simp only [Ctl.withdrawWin]
  split
  · split
    · obtain ⟨ar, har⟩ := runDown_eq (c.waitLosers (c.reqPlace a).quad ((c.rivals (reqClass a.req) (c.reqPlace a).pbank).filter fun b => decide (b.req ≠ a.req)) none)
        (c.reqPlace a).quad (c.reqPlace a).pbank (c.rivals (reqClass a.req) (c.reqPlace a).pbank)
      rw [har]
      exact ⟨_, _, rfl⟩
    · exact ⟨c.arbs, c.busy, rfl⟩
  · exact ⟨c.arbs, c.busy, rfl⟩

theorem withdraw_eq (c : Ctl) (p : AReq → Bool) :
    ∃ ar busy, c.withdraw p = { c with arbs := ar, busy := busy, areqs := c.areqs.filter fun a => !(p a && a.second.isNone) } := by
  have hfold : ∀ (l : List AReq) (d : Ctl), ∃ ar busy, l.foldl Ctl.withdrawWin d = { d with arbs := ar, busy := busy } := by
    intro l
    induction l with
    | nil => exact fun d => ⟨d.arbs, d.busy, rfl⟩
    | cons a l ih =>
      intro d
      obtain ⟨ar, busy, hone⟩ := withdrawWin_eq d a
      obtain ⟨ar', busy', hrest⟩ := ih (d.withdrawWin a)
      exact ⟨ar', busy', by rw [List.foldl_cons, hrest, hone]⟩
  obtain ⟨ar, busy, hall⟩ := hfold (c.areqs.filter fun a => p a && a.second.isNone) c
  exact ⟨ar, busy, by simp only [Ctl.withdraw, hall]⟩

theorem unreserve_plain {c : Ctl} {x : Nat} (hxop : c.cx x strCtx_XOP = 0) (k : Nat) : c.unreserve x k = c := by
  rw [Ctl.unreserve, if_neg (by rw [hxop]; exact fun h => absurd h.1 (by decide))]

/-- The landings of a plain context that lie at or after its limit are discarded. -/
theorem purge_eq {c : Ctl} {x : Nat} (hxop : c.cx x strCtx_XOP = 0) : ∃ ar busy landed, c.purge x =
    { c with arbs := ar, busy := busy, landed := landed, areqs := c.areqs.filter fun a => !(AReq.voidOf (c.ctx x) x a && a.second.isNone) } := by
  obtain ⟨ar, busy, h⟩ := withdraw_eq c (AReq.voidOf (c.ctx x) x)
  have hplain : (c.withdraw (AReq.voidOf (c.ctx x) x)).cx x strCtx_XOP = 0 := by
    rw [h]
    exact (fld_of_regs rfl _ _).trans hxop
  simp only [Ctl.purge]
  rw [unreserve_plain hplain, h]
  exact ⟨_, _, _, rfl⟩

/-- The record of a context that halts with status `st` at granule `pos`. -/
def CtxRun.halting (r : CtxRun) (st pos : Nat) : CtxRun := { r with drain := some (.halted (BitVec.ofNat 4 st)), fail := some pos }

/-- A running context outside ordered sets, with no accumulation, drains and halts. -/
theorem ctxHalt_eq {c : Ctl} {x : Nat} (hrun : c.ctxState x = 2) (hoset : c.cx x strCtx_OSET = 0) (hxop : c.cx x strCtx_XOP = 0) (st pos : Nat) :
    ∃ told ar busy landed, c.ctxHalt x st pos = { (c.setCx x strCtx_STATE 3).setCtx x ((c.ctx x).halting st pos) with
      dlTold := told, arbs := ar, busy := busy, landed := landed
      areqs := c.areqs.filter fun a => !(AReq.voidOf ((c.ctx x).halting st pos) x a && a.second.isNone) } := by
  have hleave : ∃ told, c.dlLeave x = { c with dlTold := told } := by
    rw [Ctl.dlLeave]
    split
    · exact ⟨_, rfl⟩
    · exact ⟨c.dlTold, rfl⟩
  obtain ⟨told, htold⟩ := hleave
  have hone : c.drainOne x (.halted (BitVec.ofNat 4 st)) pos = (((c.dlLeave x).setCx x strCtx_STATE 3).setCtx x ((c.ctx x).halting st pos)).purge x := by
    rw [Ctl.drainOne, if_pos hrun, CtxRun.halting]
  have hplain : (((c.dlLeave x).setCx x strCtx_STATE 3).setCtx x ((c.ctx x).halting st pos)).cx x strCtx_XOP = 0 := by
    rw [Ctl.cx, Ctl.setCtx_fld, ← Ctl.cx, cx_setCx_ne _ _ _ (by decide) (.inl (by decide)), htold]
    exact (fld_of_regs rfl _ _).trans hxop
  obtain ⟨ar, busy, landed, hpurge⟩ := purge_eq hplain
  rw [Ctl.ctx_setCtx_same] at hpurge
  have hdrain : c.drainOne x (.halted (BitVec.ofNat 4 st)) pos = { (c.setCx x strCtx_STATE 3).setCtx x ((c.ctx x).halting st pos) with
      dlTold := told, arbs := ar, busy := busy, landed := landed
      areqs := c.areqs.filter fun a => !(AReq.voidOf ((c.ctx x).halting st pos) x a && a.second.isNone) } := by
    rw [hone, hpurge, htold]
    rfl
  have hvoid : ∀ d : Ctl, d.osetVoid 0 0xA = d := fun d => by simp [Ctl.osetVoid]
  have hset : (c.drainOne x (.halted (BitVec.ofNat 4 st)) pos).cx x strCtx_OSET = 0 := by
    rw [hdrain, ← hoset, ← cx_setCx_ne c x (f := strCtx_STATE) (f' := strCtx_OSET) 3 (by decide) (.inr (.inr (by decide)))]
    exact fld_of_regs rfl _ _
  refine ⟨told, ar, busy, landed, ?_⟩
  rw [Ctl.ctxHalt, Ctl.ctxDrain]
  simp only [hrun, decide_true, if_true]
  rw [hset, hvoid, hdrain]

section

variable {c : Ctl} {x : Nat} (hrun : c.ctxState x = 2) (hoset : c.cx x strCtx_OSET = 0) (hxop : c.cx x strCtx_XOP = 0) (st pos : Nat)

include hrun hoset hxop

theorem ctxHalt_ctx : (c.ctxHalt x st pos).ctx x = (c.ctx x).halting st pos := by
  obtain ⟨told, ar, busy, landed, h⟩ := ctxHalt_eq hrun hoset hxop st pos
  rw [h]
  exact Ctl.ctx_setCtx_same c x _

theorem ctxHalt_fld (o : Nat) (f : FieldPos) : (c.ctxHalt x st pos).fld o f = (c.setCx x strCtx_STATE 3).fld o f := by
  obtain ⟨told, ar, busy, landed, h⟩ := ctxHalt_eq hrun hoset hxop st pos
  rw [h]
  exact fld_of_regs rfl o f

theorem ctxHalt_state : (c.ctxHalt x st pos).ctxState x = 3 := by
  rw [Ctl.ctxState, ctxHalt_fld hrun hoset hxop, ← Ctl.cx, cx_setCx_same _ _ _ _ (by decide)]
  rfl

theorem ctxHalt_cx_ne {f : FieldPos} (h : f.word ≠ 0 ∨ 3 ≤ f.lo) : (c.ctxHalt x st pos).cx x f = c.cx x f := by
  rw [Ctl.cx, ctxHalt_fld hrun hoset hxop, ← Ctl.cx, cx_setCx_ne _ _ _ (by decide) (h.imp_right .inr)]

theorem ctxHalt_fld_ne {o : Nat} {f : FieldPos} (h : o + 8 * f.word < 0x200000) : (c.ctxHalt x st pos).fld o f = c.fld o f := by
  rw [ctxHalt_fld hrun hoset hxop, fld_setCx_low _ _ _ _ h]

theorem ctxHalt_sports : (c.ctxHalt x st pos).sports = c.sports := by
  obtain ⟨told, ar, busy, landed, h⟩ := ctxHalt_eq hrun hoset hxop st pos
  rw [h, Ctl.setCtx_sports, Ctl.setCx, Ctl.setFld_sports]

theorem ctxHalt_sOut : (c.ctxHalt x st pos).sOut = c.sOut := by
  obtain ⟨told, ar, busy, landed, h⟩ := ctxHalt_eq hrun hoset hxop st pos
  rw [h, Ctl.setCtx_sOut, Ctl.setCx, Ctl.setFld_sOut]

theorem ctxHalt_areqs : (c.ctxHalt x st pos).areqs =
    c.areqs.filter fun a => !(AReq.voidOf ((c.ctx x).halting st pos) x a && a.second.isNone) := by
  obtain ⟨told, ar, busy, landed, h⟩ := ctxHalt_eq hrun hoset hxop st pos
  rw [h]

end

/-! ### Counters, and the prefix that is counted (R161, R192) -/

/-- The value of a counter after a change: what it shows rises by the change, wherever it falls among the recent ones. -/
theorem cntInsert_value (x rank scope : Nat) (d : BitVec 32) (ld : Option (BitVec 32)) (l : List CntHist) (now : CntVal) :
    (cntInsert x rank scope d ld l now).2.value = now.value + d := by
  have hop : ∀ r0 : Nat, (now.op r0 rank scope d).value = now.value + d := fun r0 => by
    rw [CntVal.op]
    split <;> rfl
  induction l with
  | nil => exact hop 0
  | cons h t ih =>
    rw [cntInsert]
    split
    · exact ih
    · dsimp only
      split
      · exact hop _
      · rfl

/-- A change of a counter loads the three fields of its word. -/
theorem cntChange_regs (c : Ctl) (i x amount scope : Nat) : ∃ src sc, (c.cntChange i x 2 amount scope).regs =
    (((c.setFld (oCnt i) cnt_VALUE (BitVec.ofNat 32 (c.fld (oCnt i) cnt_VALUE) + BitVec.ofNat 32 amount).toNat).setFld (oCnt i) cnt_LAST_SRC src).setFld
      (oCnt i) cnt_REL_SCOPE sc).regs := by
  have hvalue := cntInsert_value x 2 scope (BitVec.ofNat 32 amount) none ((Tab.get [] c.cntHist i).dropWhile fun h => decide (h.ec + 64 < c.ec)) (c.cntNow i)
  simp only [Ctl.cntChange]
  simp only [show ¬ (2 = 5) by decide, if_false]
  rw [hvalue, Ctl.cntNow]
  exact ⟨_, _, rfl⟩

/-- A change of a counter that is no load adds its amount (R161). -/
theorem cntChange_value (c : Ctl) (i x amount scope : Nat) :
    (c.cntChange i x 2 amount scope).fld (oCnt i) cnt_VALUE = (c.fld (oCnt i) cnt_VALUE + amount) % 2 ^ 32 := by
  obtain ⟨src, sc, h⟩ := cntChange_regs c i x amount scope
  rw [fld_of_regs h, Ctl.fld_setFld_ne _ _ (by decide) (.inr (.inl (by decide))), Ctl.fld_setFld_ne _ _ (by decide) (.inr (.inl (by decide))),
    Ctl.fld_setFld_same _ _ _ _ (by decide), BitVec.toNat_add, BitVec.toNat_ofNat, BitVec.toNat_ofNat, ← Nat.add_mod]
  exact Nat.mod_mod _ _

theorem cntChange_reg_ne (c : Ctl) (i x amount scope : Nat) {o : Nat} (h : o ≠ oCnt i) : (c.cntChange i x 2 amount scope).reg o = c.reg o := by
  obtain ⟨src, sc, heq⟩ := cntChange_regs c i x amount scope
  rw [reg_of_regs heq, Ctl.reg_setFld_ne _ _ h, Ctl.reg_setFld_ne _ _ h, Ctl.reg_setFld_ne _ _ h]

theorem cntChange_sports (c : Ctl) (i x rank amount scope : Nat) : (c.cntChange i x rank amount scope).sports = c.sports := by
  rw [Ctl.cntChange, Ctl.setFld_sports, Ctl.setFld_sports, Ctl.setFld_sports]

/-- The prefix goes over the granules that are there, to the first that is not. -/
theorem prefixFrom_eq {ok : Nat → Bool} {s n fuel : Nat} (hok : ∀ i, i < n → ok (s + i) = true) (hend : ok (s + n) = false) (hfuel : n ≤ fuel) :
    prefixFrom ok 1 fuel s = s + n := by
  induction n generalizing s fuel with
  | zero =>
    cases fuel with
    | zero => rfl
    | succ fuel => rw [prefixFrom, if_neg (by simpa using hend)]; rfl
  | succ n ih =>
    obtain ⟨fuel, rfl⟩ : ∃ k, fuel = k + 1 := ⟨fuel - 1, by omega⟩
    have hfirst : ok s = true := hok 0 (by omega)
    rw [prefixFrom, if_pos hfirst, ih (fun i hi => by rw [Nat.add_assoc, Nat.add_comm 1]; exact hok (i + 1) (by omega))
      (by rw [Nat.add_assoc, Nat.add_comm 1]; exact hend) (by omega)]
    omega

/-- A plain context counts one destination granule for each of the stack (R192). -/
theorem narrow_plain {c : Ctl} {x : Nat} (hxop : c.cx x strCtx_XOP = 0) : c.narrow x = 1 := by
  simp [Ctl.narrow, Ctl.cxIn, Ctl.cxOut, hxop]

theorem dstCount_plain {c : Ctl} {x : Nat} (hxop : c.cx x strCtx_XOP = 0) (s : Nat) : c.dstCount x s = s := by
  simp [Ctl.dstCount, Ctl.cxIn, Ctl.cxOut, hxop]

/-! ### Acknowledgements (R53, R57, R192, R193) -/

/-- COUNTED of a plain SPILL moves over the granules of an acknowledgement that stands at it, short of the length, and the arrival counter follows. -/
theorem ctxAdvance_acked {c : Ctl} {x n : Nat} (hdir : c.cx x strCtx_DIR = 1) (hxop : c.cx x strCtx_XOP = 0) (hn : 0 < n)
    (hacked : (c.ctx x).acked = [(c.cx x strCtx_COUNTED, n)]) (hdrain : (c.ctx x).drain = none) (hfail : (c.ctx x).fail = none)
    (hlen : c.cx x strCtx_COUNTED + n < c.cx x strCtx_LEN) : ∃ r, c.ctxAdvance x =
      ((c.setCx x strCtx_COUNTED (c.cx x strCtx_COUNTED + n)).cntChange (c.cx x strCtx_ARR_CNT) (c.ec + 1) 2 n 2).setCtx x r := by
  have hbelow : ∀ s, (c.ctx x).below s = true := fun s => by simp [CtxRun.below, CtxRun.limit, hdrain, hfail]
  have hdone : ∀ s, c.granuleDone x (c.ctx x) s = decide (c.cx x strCtx_COUNTED ≤ s ∧ s < c.cx x strCtx_COUNTED + n) := fun s => by
    simp [Ctl.granuleDone, hdir, hacked]
  have hprefix : prefixFrom (fun s => decide (s < c.cx x strCtx_LEN) && (c.ctx x).below s && c.granuleDone x (c.ctx x) s) 1
      (c.cx x strCtx_LEN - c.cx x strCtx_COUNTED) (c.cx x strCtx_COUNTED) = c.cx x strCtx_COUNTED + n := by
    refine prefixFrom_eq (fun i hi => ?_) ?_ (by omega)
    · simp only [hbelow, hdone, Bool.and_true, Bool.and_eq_true, decide_eq_true_eq]
      omega
    · simp only [hdone, Bool.and_eq_false_iff, decide_eq_false_iff_not]
      omega
  simp only [Ctl.ctxAdvance, narrow_plain hxop, hprefix, dstCount_plain hxop]
  rw [if_neg (by omega), if_neg (by omega), Nat.add_sub_cancel_left]
  exact ⟨_, rfl⟩

theorem exec_stackWack {s : State} (h : s.working) {n tag : Nat} (hn : n < 24) (ht : tag < 2048) (err : Bool) :
    exec (.stackWack n tag err) s = .next { s with c := s.c.wack n tag err } :=
  onUnit_next (decide_eq_true ⟨hn, ht⟩) h.1.2 fun c => c.wack n tag err

theorem cx_cntChange {c : Ctl} {i : Nat} (hi : i < 4096) (e amount scope x : Nat) (f : FieldPos) : (c.cntChange i e 2 amount scope).cx x f = c.cx x f := by
  rw [Ctl.cx, Ctl.fld, cntChange_reg_ne _ _ _ _ _ (by simp only [oCnt, oStrCtx]; omega), ← Ctl.fld, Ctl.cx]

/-- The acknowledgement of a SPILL request ends its tag; its context counts it, or halts. -/
theorem wack_known {s : State} (h : s.working) {n tag : Nat} {g : StackTag} (hquar : (s.c.sport n).quar.contains tag = false)
    (hfind : ((s.c.sport n).tags.find? fun t => decide (t.tag = tag) && t.write) = some g) (hsys : g.sys = none) (err : Bool) :
    s.c.wack n tag err = if err then (s.c.tagEnds n g).ctxHalt g.ctx 6 g.from_ else
      ((s.c.tagEnds n g).setCtx g.ctx { (s.c.tagEnds n g).ctx g.ctx with acked := (g.from_, g.n) :: ((s.c.tagEnds n g).ctx g.ctx).acked }).ctxAdvance g.ctx := by
  obtain ⟨⟨hready, hrun⟩, hblack⟩ := h
  simp only [Ctl.wack, hready, hrun, hblack, hquar, hfind, hsys]
  rfl

/-- No tag of a port is left that has been taken out. -/
theorem ne_of_mem_without {p : StackPort} {tag : Nat} {u : StackTag} (h : u ∈ (p.without tag).tags) : u.tag ≠ tag :=
  of_decide_eq_true (List.mem_filter.1 h).2

section

variable {s : State} {n tag : Nat} {g : StackTag} (hwork : s.working) (hn : n < 24) (ht : tag < 2048) (htag : g.tag = tag) (hsys : g.sys = none)
  (hoset : s.c.cx g.ctx strCtx_OSET = 0) (hxop : s.c.cx g.ctx strCtx_XOP = 0) (hstate : s.c.ctxState g.ctx = 2)

include hwork hn ht htag hsys hoset hxop hstate

theorem ackedBad (hquar : (s.c.sport n).quar.contains tag = false)
    (hfind : ((s.c.sport n).tags.find? fun t => decide (t.tag = tag) && t.write) = some g) :
    ∃ t, exec (.stackWack n tag true) s = .next t ∧ t.banks = s.banks ∧ t.c.ctxState g.ctx = 3 ∧ (t.c.ctx g.ctx).drain = some (.halted 6) ∧
      (t.c.ctx g.ctx).fail = some g.from_ ∧ (∀ u ∈ (t.c.sport n).tags, u.tag ≠ tag) ∧ t.c.cx g.ctx strCtx_OUTST = s.c.cx g.ctx strCtx_OUTST - 1 := by
  have hexec := exec_stackWack hwork hn ht true
  rw [wack_known hwork hquar hfind hsys, if_pos rfl] at hexec
  have hstate : (s.c.tagEnds n g).ctxState g.ctx = 2 := (tagEnds_cx_ne s.c n hsys (f := strCtx_STATE) (.inr (.inl (by decide)))).trans hstate
  have hoset := (tagEnds_cx_ne s.c n hsys (f := strCtx_OSET) (.inr (.inl (by decide)))).trans hoset
  have hxop := (tagEnds_cx_ne s.c n hsys (f := strCtx_XOP) (.inl (by decide))).trans hxop
  have hctx := ctxHalt_ctx hstate hoset hxop 6 g.from_
  refine ⟨_, hexec, rfl, ctxHalt_state hstate hoset hxop 6 g.from_, by rw [hctx]; rfl, by rw [hctx]; rfl, fun u hu => ?_, ?_⟩
  · rw [Ctl.sport, ctxHalt_sports hstate hoset hxop, ← Ctl.sport, tagEnds_sport s.c n hsys, htag] at hu
    exact ne_of_mem_without hu
  · rw [ctxHalt_cx_ne hstate hoset hxop 6 g.from_ (.inr (by decide)), tagEnds_outst s.c n hsys]

omit hoset in
theorem ackedGood (hquar : (s.c.sport n).quar.contains tag = false)
    (hfind : ((s.c.sport n).tags.find? fun t => decide (t.tag = tag) && t.write) = some g) (hdir : s.c.cx g.ctx strCtx_DIR = 1)
    (hacked : (s.c.ctx g.ctx).acked = []) (hdrain : (s.c.ctx g.ctx).drain = none) (hfail : (s.c.ctx g.ctx).fail = none)
    (hcounted : s.c.cx g.ctx strCtx_COUNTED = g.from_) (hpos : 0 < g.n) (hlen : g.from_ + g.n < s.c.cx g.ctx strCtx_LEN) :
    ∃ t, exec (.stackWack n tag false) s = .next t ∧ t.banks = s.banks ∧ t.c.ctxState g.ctx = 2 ∧ t.c.cx g.ctx strCtx_COUNTED = g.from_ + g.n ∧
      t.c.cx g.ctx strCtx_OUTST = s.c.cx g.ctx strCtx_OUTST - 1 ∧ (∀ u ∈ (t.c.sport n).tags, u.tag ≠ tag) ∧
      t.c.fld (oCnt (s.c.cx g.ctx strCtx_ARR_CNT)) cnt_VALUE = (s.c.fld (oCnt (s.c.cx g.ctx strCtx_ARR_CNT)) cnt_VALUE + g.n) % 2 ^ 32 := by
  obtain ⟨late, hctx⟩ := tagEnds_ctx s.c n hsys
  have hkeep : ∀ f : FieldPos, f.word ≠ 0 ∨ f.lo + f.width ≤ 52 ∨ 62 ≤ f.lo → (s.c.tagEnds n g).cx g.ctx f = s.c.cx g.ctx f := fun f hf =>
    tagEnds_cx_ne s.c n hsys hf
  generalize hd : (s.c.tagEnds n g).setCtx g.ctx { (s.c.tagEnds n g).ctx g.ctx with acked := (g.from_, g.n) :: ((s.c.tagEnds n g).ctx g.ctx).acked } = d
  have hcx : ∀ f : FieldPos, d.cx g.ctx f = (s.c.tagEnds n g).cx g.ctx f := fun f => by rw [← hd]; rfl
  have hrec : d.ctx g.ctx = { s.c.ctx g.ctx with late := late, acked := [(g.from_, g.n)] } := by rw [← hd, Ctl.ctx_setCtx_same, hctx, hacked]
  have hcounted' : d.cx g.ctx strCtx_COUNTED = g.from_ := by rw [hcx, hkeep _ (.inl (by decide)), hcounted]
  have hlen' : d.cx g.ctx strCtx_LEN = s.c.cx g.ctx strCtx_LEN := by rw [hcx, hkeep _ (.inl (by decide))]
  obtain ⟨r, hadvance⟩ := ctxAdvance_acked (c := d) (x := g.ctx) (by rw [hcx, hkeep _ (.inr (.inl (by decide))), hdir]) (by rw [hcx, hkeep _ (.inl (by decide)), hxop])
    hpos (by rw [hrec, hcounted']) (by rw [hrec]; exact hdrain) (by rw [hrec]; exact hfail) (by rw [hcounted', hlen']; exact hlen)
  have hexec := exec_stackWack hwork hn ht false
  rw [wack_known hwork hquar hfind hsys, if_neg (by decide), hd, hadvance] at hexec
  have harr : d.cx g.ctx strCtx_ARR_CNT = s.c.cx g.ctx strCtx_ARR_CNT := by rw [hcx, hkeep _ (.inl (by decide))]
  rw [harr, hcounted'] at hexec
  have hend : ∀ f : FieldPos, (((d.setCx g.ctx strCtx_COUNTED (g.from_ + g.n)).cntChange (s.c.cx g.ctx strCtx_ARR_CNT) (d.ec + 1) 2 g.n 2).setCtx g.ctx r).cx g.ctx f =
      (d.setCx g.ctx strCtx_COUNTED (g.from_ + g.n)).cx g.ctx f := fun f => by
    rw [Ctl.cx, Ctl.setCtx_fld, ← Ctl.cx, cx_cntChange (bits_lt _ _ _)]
  have hother : ∀ f : FieldPos, f.word ≠ 7 → (d.setCx g.ctx strCtx_COUNTED (g.from_ + g.n)).cx g.ctx f = (s.c.tagEnds n g).cx g.ctx f := fun f hf => by
    rw [cx_setCx_ne _ _ _ (by decide) (.inl hf), hcx]
  have hlen32 : g.from_ + g.n < 2 ^ 32 := hlen.trans (bits_lt _ _ _)
  refine ⟨_, hexec, rfl, ?_, ?_, ?_, fun u hu => ?_, ?_⟩
  · exact (hend strCtx_STATE).trans ((hother _ (by decide)).trans ((hkeep _ (.inr (.inl (by decide)))).trans hstate))
  · rw [hend, cx_setCx_same _ _ _ _ (by decide)]
    exact Nat.mod_eq_of_lt hlen32
  · rw [hend, hother _ (by decide), tagEnds_outst s.c n hsys]
  · rw [Ctl.sport, Ctl.setCtx_sports, cntChange_sports, Ctl.setCx, Ctl.setFld_sports, ← hd, Ctl.setCtx_sports, ← Ctl.sport, tagEnds_sport s.c n hsys, htag] at hu
    exact ne_of_mem_without hu
  · rw [Ctl.setCtx_fld, cntChange_value]
    have hcnt : oCnt (s.c.cx g.ctx strCtx_ARR_CNT) + 8 * cnt_VALUE.word < 0x200000 := by
      have hlt : s.c.cx g.ctx strCtx_ARR_CNT < 4096 := bits_lt _ _ _
      simp only [oCnt]
      omega
    rw [fld_setCx_low _ _ _ _ hcnt, ← hd, Ctl.setCtx_fld, tagEnds_fld_ne s.c n hsys hcnt]

end

/-! ### Time-outs (R56, R199) -/

theorem exec_tagTimeout {s : State} (h : s.working) {n tag : Nat} (hn : n < 24) (ht : tag < 2048) :
    exec (.tagTimeout n tag) s = .next { s with c := s.c.tagTimeout n tag } :=
  onUnit_next (decide_eq_true ⟨hn, ht⟩) h.1.2 fun c => c.tagTimeout n tag

/-- A tag times out once it has been in use for 2^TIMEOUT_EXP bc. -/
theorem tagTimeout_known {s : State} (h : s.working) {n tag : Nat} {g : StackTag} (hfind : ((s.c.sport n).tags.find? fun t => decide (t.tag = tag)) = some g)
    (hexp : s.c.fld (oSportCfg n) sportCfg_TIMEOUT_EXP ≠ 0) : s.c.tagTimeout n tag =
      if s.c.bc < g.useBc + 2 ^ s.c.fld (oSportCfg n) sportCfg_TIMEOUT_EXP then s.c else s.c.tagOut n g := by
  obtain ⟨⟨hready, -⟩, hblack⟩ := h
  simp [Ctl.tagTimeout, hready, hblack, hfind, hexp]

/-- MIO_SPORT_STAT_n tells of a time-out. -/
def Ctl.outTold (c : Ctl) (n tag : Nat) : Ctl :=
  ((c.satAdd (oSportStat n) sportStat_TIMEOUTS 1).setFld (oSportStat n) sportStat_LAST_TAG tag).setFld (oSportStat n) sportStat_LAST_KIND 5

theorem outTold_kind (c : Ctl) (n tag : Nat) : (c.outTold n tag).fld (oSportStat n) sportStat_LAST_KIND = 5 := by
  rw [Ctl.outTold, Ctl.fld_setFld_same _ _ _ _ (by decide)]
  rfl

theorem outTold_tag (c : Ctl) (n : Nat) {tag : Nat} (h : tag < 2048) : (c.outTold n tag).fld (oSportStat n) sportStat_LAST_TAG = tag := by
  rw [Ctl.outTold, Ctl.fld_setFld_ne _ _ (by decide) (.inr (.inl (by decide))), Ctl.fld_setFld_same _ _ _ _ (by decide)]
  exact Nat.mod_eq_of_lt h

theorem outTold_count (c : Ctl) (n tag : Nat) : (c.outTold n tag).fld (oSportStat n) sportStat_TIMEOUTS =
    min (c.fld (oSportStat n) sportStat_TIMEOUTS + 1) 0xFFFF := by
  rw [Ctl.outTold, Ctl.fld_setFld_ne _ _ (by decide) (.inr (.inl (by decide))), Ctl.fld_setFld_ne _ _ (by decide) (.inr (.inl (by decide))), Ctl.satAdd_fld,
    Ctl.fld_setFld_same _ _ _ _ (by decide)]
  exact Nat.mod_eq_of_lt (lt_of_le_of_lt (Nat.min_le_right _ _) (by decide))

theorem outTold_reg_ne (c : Ctl) (n tag : Nat) {o : Nat} (h : o ≠ oSportStat n) : (c.outTold n tag).reg o = c.reg o := by
  rw [Ctl.outTold, Ctl.reg_setFld_ne _ _ h, Ctl.reg_setFld_ne _ _ h, Ctl.satAdd_reg, Ctl.reg_setFld_ne _ _ h]

theorem outTold_cx (c : Ctl) {n : Nat} (hn : n < 24) (tag x : Nat) (f : FieldPos) : (c.outTold n tag).cx x f = c.cx x f := by
  rw [Ctl.cx, Ctl.fld, outTold_reg_ne _ _ _ (by simp only [oSportStat, oStrCtx]; omega), ← Ctl.fld, Ctl.cx]

theorem outTold_sports (c : Ctl) (n tag : Nat) : (c.outTold n tag).sports = c.sports := by
  rw [Ctl.outTold, Ctl.setFld_sports, Ctl.setFld_sports, Ctl.satAdd_sports]

/-- A tag goes from use into quarantine. -/
def Ctl.quarantine (c : Ctl) (n : Nat) (t : StackTag) : Ctl :=
  (c.tagEnds n t).setSport n { (c.tagEnds n t).sport n with quar := t.tag :: ((c.tagEnds n t).sport n).quar }

theorem quarantine_sport (c : Ctl) (n : Nat) {t : StackTag} (hs : t.sys = none) :
    (c.quarantine n t).sport n = { (c.sport n).without t.tag with quar := t.tag :: (c.sport n).quar } := by
  rw [Ctl.quarantine, Ctl.sport_setSport_same, tagEnds_sport c n hs]
  rfl

theorem quarantine_fld (c : Ctl) (n : Nat) (t : StackTag) (o : Nat) (f : FieldPos) : (c.quarantine n t).fld o f = (c.tagEnds n t).fld o f := by
  rw [Ctl.quarantine, Ctl.setSport_fld]

theorem tagOut_eq {c : Ctl} {n : Nat} (hn : n < 24) {t : StackTag} (hs : t.sys = none) (hxop : c.cx t.ctx strCtx_XOP = 0) :
    c.tagOut n t = ((c.outTold n t.tag).quarantine n t).ctxHalt t.ctx 5 t.from_ := by
  have hplain : ((c.outTold n t.tag).quarantine n t).cx t.ctx strCtx_XOP = 0 := by
    rw [Ctl.cx, quarantine_fld, ← Ctl.cx, tagEnds_cx_ne _ _ hs (.inl (by decide)), outTold_cx _ hn, hxop]
  have hsame : (if t.write then (c.outTold n t.tag).quarantine n t else ((c.outTold n t.tag).quarantine n t).unreserve t.ctx (t.total - 32 * t.beats)) =
      (c.outTold n t.tag).quarantine n t := by
    rw [unreserve_plain hplain, ite_self]
  simp only [Ctl.tagOut, hs]
  rw [← Ctl.outTold, ← Ctl.quarantine, hsame]

section

variable {s : State} {n tag : Nat} {g : StackTag} (hwork : s.working) (hn : n < 24) (ht : tag < 2048) (htag : g.tag = tag) (hsys : g.sys = none)
  (hoset : s.c.cx g.ctx strCtx_OSET = 0) (hxop : s.c.cx g.ctx strCtx_XOP = 0) (hstate : s.c.ctxState g.ctx = 2)

include hwork hn ht htag hsys hoset hxop hstate

theorem timedOut (hfind : ((s.c.sport n).tags.find? fun t => decide (t.tag = tag)) = some g)
    (hexp : s.c.fld (oSportCfg n) sportCfg_TIMEOUT_EXP ≠ 0) (hbc : g.useBc + 2 ^ s.c.fld (oSportCfg n) sportCfg_TIMEOUT_EXP ≤ s.c.bc) :
    ∃ t, exec (.tagTimeout n tag) s = .next t ∧ t.banks = s.banks ∧
      (t.c.sport n).quar = tag :: (s.c.sport n).quar ∧ (∀ u ∈ (t.c.sport n).tags, u.tag ≠ tag) ∧ t.c.ctxState g.ctx = 3 ∧
      (t.c.ctx g.ctx).drain = some (.halted 5) ∧ (t.c.ctx g.ctx).fail = some g.from_ ∧ t.c.fld (oSportStat n) sportStat_LAST_KIND = 5 ∧
      t.c.fld (oSportStat n) sportStat_LAST_TAG = tag ∧
      t.c.fld (oSportStat n) sportStat_TIMEOUTS = min (s.c.fld (oSportStat n) sportStat_TIMEOUTS + 1) 0xFFFF := by
  have hexec := exec_tagTimeout hwork hn ht
  rw [tagTimeout_known hwork hfind hexp, if_neg (by omega), tagOut_eq hn hsys hxop, htag] at hexec
  have hkeep : ∀ f : FieldPos, f.word ≠ 0 ∨ f.lo + f.width ≤ 52 ∨ 62 ≤ f.lo → ((s.c.outTold n tag).quarantine n g).cx g.ctx f = s.c.cx g.ctx f := fun f hf => by
    rw [Ctl.cx, quarantine_fld, ← Ctl.cx, tagEnds_cx_ne _ _ hsys hf, outTold_cx _ hn]
  have hstate := (hkeep strCtx_STATE (.inr (.inl (by decide)))).trans hstate
  have hoset := (hkeep strCtx_OSET (.inr (.inl (by decide)))).trans hoset
  have hxop := (hkeep strCtx_XOP (.inl (by decide))).trans hxop
  have hctx := ctxHalt_ctx hstate hoset hxop 5 g.from_
  have hsport : (((s.c.outTold n tag).quarantine n g).ctxHalt g.ctx 5 g.from_).sport n = { (s.c.sport n).without tag with quar := tag :: (s.c.sport n).quar } := by
    rw [Ctl.sport, ctxHalt_sports hstate hoset hxop, ← Ctl.sport, quarantine_sport _ _ hsys, htag, Ctl.sport, outTold_sports, ← Ctl.sport]
  have hlow : oSportStat n < 0x200000 := by
    simp only [oSportStat]
    omega
  have hstat : ∀ f : FieldPos, f.word = 0 → (((s.c.outTold n tag).quarantine n g).ctxHalt g.ctx 5 g.from_).fld (oSportStat n) f = (s.c.outTold n tag).fld (oSportStat n) f :=
    fun f hf => by
      have hlow : oSportStat n + 8 * f.word < 0x200000 := by rwa [hf]
      rw [ctxHalt_fld_ne hstate hoset hxop _ _ hlow, quarantine_fld, tagEnds_fld_ne _ _ hsys hlow]
  refine ⟨_, hexec, rfl, by rw [hsport], fun u hu => ?_, ctxHalt_state hstate hoset hxop 5 g.from_, by rw [hctx]; rfl, by rw [hctx]; rfl, ?_, ?_, ?_⟩
  · rw [hsport] at hu
    exact ne_of_mem_without hu
  · rw [hstat _ rfl, outTold_kind]
  · rw [hstat _ rfl, outTold_tag _ _ ht]
  · rw [hstat _ rfl, outTold_count]

end

/-! ### A port that is removed (R313) -/

/-- A port presents neither a request nor a beat. -/
def StackOut.Quiet (o : StackOut) : Prop := o.reqValid = false ∧ o.wdValid = false

/-- What port `k` shows from the next bc on. -/
def Ctl.showsOn (c : Ctl) (k : Nat) : Ctl := c.setSout k { c.sout k with reqValid := (c.sport k).shown.isSome, wdValid := (c.sport k).beat }

theorem get_of_not_key {α : Type} {d : α} {t : Tab α} {k : Nat} (h : k ∉ t.map Prod.fst) : Tab.get d t k = d := by
  induction t with
  | nil => rfl
  | cons e t ih =>
    rw [List.map_cons, List.mem_cons, not_or] at h
    rw [Tab.get, if_neg (Ne.symm h.1), ih h.2]

theorem quiet_of_showsOn {n : Nat} (l : List Nat) {c : Ctl} (hshown : (c.sport n).shown = none) (hbeat : (c.sport n).beat = false)
    (h : n ∈ l ∨ (c.sout n).Quiet) : ((forAll l (fun k c => c.showsOn k) c).sout n).Quiet := by
  induction l generalizing c with
  | nil => exact h.resolve_left List.not_mem_nil
  | cons k l ih =>
    refine ih hshown hbeat ?_
    by_cases hk : n = k
    · subst hk
      exact .inr (by simp only [Ctl.showsOn, Ctl.sout_setSout_same, hshown, hbeat]; exact ⟨rfl, rfl⟩)
    · simp only [Ctl.showsOn, Ctl.sout_setSout_ne c hk]
      exact h.imp_left fun hmem => (List.mem_cons.1 hmem).resolve_left hk

/-- A port that has nothing to present shows nothing from the next bc on (R50). -/
theorem sportsBc_quiet {c : Ctl} {n : Nat} (hshown : (c.sport n).shown = none) (hbeat : (c.sport n).beat = false) : (c.sportsBc.sout n).Quiet := by
  have hkeys : n ∈ c.sOut.map Prod.fst ∨ (c.sout n).Quiet := by
    by_cases hn : n ∈ c.sOut.map Prod.fst
    · exact .inl hn
    · exact .inr (by rw [Ctl.sout, get_of_not_key hn]; exact ⟨rfl, rfl⟩)
  have hfirst := quiet_of_showsOn (c.sOut.map Prod.fst) hshown hbeat hkeys
  have hsecond : ∀ (l : List Nat) (d : Ctl), (forAll l (fun n c =>
      match (c.sport n).runCtx with
      | some x => if (c.sport n).shown.isSome ∨ (c.sport n).issueBc = some c.bc ∨ (c.portIssues n ∧ c.issuable x) then c
          else c.setSport n { c.sport n with runCtx := none, runLen := 0 }
      | none => c) d).sOut = d.sOut := fun l d => by
    refine forAll_keeps (P := fun e => e.sOut = d.sOut) (fun k _ e he => ?_) rfl
    dsimp only
    split
    · split
      · exact he
      · exact he
    · exact he
  have hsame : c.sportsBc.sOut = (forAll (c.sOut.map Prod.fst) (fun k c => c.showsOn k) c).sOut := hsecond _ _
  rwa [Ctl.sout, hsame]

/-- A port goes: its bursts and its beat with it. -/
def StackPort.off (p : StackPort) : StackPort := { p with removed := true, bursts := [], beat := false, shown := none }

/-- A port's enable that is to take effect later falls with its removal. -/
def offLater (n : Nat) (l : Nat × Word × Word) : Nat × Word × Word :=
  if l.1 = oSportCfg n then (l.1, l.2.1, BitVec.ofNat 64 (putBits l.2.2.toNat sportCfg_ENABLE.lo sportCfg_ENABLE.width 0)) else l

/-- A source read of a SPILL of port n. -/
def AReq.spillsAt (n : Nat) (a : AReq) : Bool := decide (a.req = n) && match a.kind with | .spillRead _ _ => true | _ => false

/-- The units with port n removed and its reads withdrawn, what it presents left. -/
def Ctl.sportOff (c : Ctl) (n : Nat) : Ctl :=
  ((({ c with later := c.later.map (offLater n) } : Ctl).setFld (oSportCfg n) sportCfg_ENABLE 0).setSport n
    { c.sport n with removed := true, bursts := [], beat := false }).withdraw (AReq.spillsAt n)

theorem setFld_later (c : Ctl) (l : List (Nat × Word × Word)) (o : Nat) (f : FieldPos) (x : Nat) :
    (({ c with later := l } : Ctl).setFld o f x).regs = (c.setFld o f x).regs := rfl

/-- With its port a context loses no more than the reads that are withdrawn. -/
theorem sportOff_eq (c : Ctl) (n : Nat) : (c.sportOff n).sport n = { c.sport n with removed := true, bursts := [], beat := false } ∧
    (c.sportOff n).sOut = c.sOut ∧ (c.sportOff n).ctxs = c.ctxs ∧ ∀ o f, (c.sportOff n).fld o f = (c.setFld (oSportCfg n) sportCfg_ENABLE 0).fld o f := by
  obtain ⟨ar, busy, h⟩ := withdraw_eq ((({ c with later := c.later.map (offLater n) } : Ctl).setFld (oSportCfg n) sportCfg_ENABLE 0).setSport n
    { c.sport n with removed := true, bursts := [], beat := false }) (AReq.spillsAt n)
  have hfld : ∀ o f, (({ c with later := c.later.map (offLater n) } : Ctl).setFld (oSportCfg n) sportCfg_ENABLE 0).fld o f =
      (c.setFld (oSportCfg n) sportCfg_ENABLE 0).fld o f := fun o f => fld_of_regs (setFld_later c _ _ _ _) o f
  have hsOut : (({ c with later := c.later.map (offLater n) } : Ctl).setFld (oSportCfg n) sportCfg_ENABLE 0).sOut = c.sOut := by rw [Ctl.setFld_sOut]
  have hctxs : (({ c with later := c.later.map (offLater n) } : Ctl).setFld (oSportCfg n) sportCfg_ENABLE 0).ctxs = c.ctxs := by rw [Ctl.setFld_ctxs]
  rw [Ctl.sportOff]
  generalize (({ c with later := c.later.map (offLater n) } : Ctl).setFld (oSportCfg n) sportCfg_ENABLE 0) = d at h hfld hsOut hctxs
  rw [h]
  exact ⟨Ctl.sport_setSport_same d n _, hsOut, hctxs, hfld⟩

theorem sportOff_sport (c : Ctl) (n : Nat) : (c.sportOff n).sport n = { c.sport n with removed := true, bursts := [], beat := false } := (sportOff_eq c n).1

theorem sportOff_fld (c : Ctl) (n o : Nat) (f : FieldPos) : (c.sportOff n).fld o f = (c.setFld (oSportCfg n) sportCfg_ENABLE 0).fld o f := by
  obtain ⟨-, -, -, hfld⟩ := sportOff_eq c n
  exact hfld o f

theorem sportOff_cx (c : Ctl) {n : Nat} (hn : n < 24) (x : Nat) (f : FieldPos) : (c.sportOff n).cx x f = c.cx x f := by
  rw [Ctl.cx, sportOff_fld, Ctl.fld, Ctl.reg_setFld_ne _ _ (by simp only [oSportCfg, oStrCtx]; omega), ← Ctl.fld, Ctl.cx]

/-- The request that a port presents is withdrawn: its context has one less outstanding. -/
def Ctl.unasked (c : Ctl) (n : Nat) (t : StackTag) : Ctl :=
  (c.setSport n { c.sport n with shown := none }).setCx t.ctx strCtx_OUTST (c.cx t.ctx strCtx_OUTST - 1)

theorem unasked_sport (c : Ctl) (n : Nat) (t : StackTag) : (c.unasked n t).sport n = { c.sport n with shown := none } := by
  rw [Ctl.unasked, Ctl.setCx, Ctl.sport, Ctl.setFld_sports, ← Ctl.sport, Ctl.sport_setSport_same]

theorem unasked_cx_ne (c : Ctl) {n : Nat} (hn : n < 24) (t : StackTag) {f : FieldPos} (h : f.word ≠ 0 ∨ f.lo + f.width ≤ 52 ∨ 62 ≤ f.lo) :
    ((c.sportOff n).unasked n t).cx t.ctx f = c.cx t.ctx f := by
  rw [Ctl.unasked, cx_setCx_ne _ _ _ (by decide) h, Ctl.cx, Ctl.setSport_fld, ← Ctl.cx, sportOff_cx c hn]

/-- The removal of a port with no tag in use withdraws the request that it presents, whose context halts. -/
theorem sportRemove_eq {c : Ctl} {n : Nat} {t : StackTag} (hin : (c.sport n).removed = false) (htags : (c.sport n).tags = [])
    (hshown : (c.sport n).shown = some t) (hs : t.sys = none) (hn : n < 24) (hxop : c.cx t.ctx strCtx_XOP = 0) (hoset : c.cx t.ctx strCtx_OSET = 0)
    (hstate : c.ctxState t.ctx = 2) : c.sportRemove n = ((c.sportOff n).unasked n t).ctxHalt t.ctx 5 t.from_ := by
  have hkeep : ∀ f : FieldPos, f.word ≠ 0 ∨ f.lo + f.width ≤ 52 ∨ 62 ≤ f.lo → ((c.sportOff n).unasked n t).cx t.ctx f = c.cx t.ctx f := fun f => unasked_cx_ne c hn t
  have hstate := (hkeep strCtx_STATE (.inr (.inl (by decide)))).trans hstate
  have hoset := (hkeep strCtx_OSET (.inr (.inl (by decide)))).trans hoset
  have hxop := (hkeep strCtx_XOP (.inl (by decide))).trans hxop
  have hwithdraw : (c.sportOff n).requestWithdraw n t = ((c.sportOff n).unasked n t).ctxHalt t.ctx 5 t.from_ := by
    have hsame : (if t.write then (c.sportOff n).unasked n t else ((c.sportOff n).unasked n t).unreserve t.ctx t.total) = (c.sportOff n).unasked n t := by
      rw [unreserve_plain hxop, ite_self]
    simp only [Ctl.requestWithdraw, hs]
    rw [← hsame]
    rfl
  have hnone : ((((c.sportOff n).unasked n t).ctxHalt t.ctx 5 t.from_).sport n).tags = [] := by
    rw [Ctl.sport, ctxHalt_sports hstate hoset hxop, ← Ctl.sport, unasked_sport, sportOff_sport]
    exact htags
  have hoff : c.sportRemove n =
      (let d := match ((c.sportOff n).sport n).shown with | some t => (c.sportOff n).requestWithdraw n t | none => c.sportOff n
       (d.sport n).tags.foldl (fun c t => c.tagOut n t) d) := by
    rw [Ctl.sportRemove, if_neg (by rw [hin]; decide)]
    rfl
  rw [hoff, sportOff_sport, hshown]
  simp only [hwithdraw, hnone, List.foldl_nil]

section

variable {c : Ctl} {n : Nat} {g : StackTag} (hn : n < 24) (hsys : g.sys = none) (hoset : c.cx g.ctx strCtx_OSET = 0) (hxop : c.cx g.ctx strCtx_XOP = 0)
  (hstate : c.ctxState g.ctx = 2)

include hn hsys hoset hxop hstate

theorem portRemoved (hin : (c.sport n).removed = false) (htags : (c.sport n).tags = []) (hshown : (c.sport n).shown = some g) :
    ((c.sportRemove n).sport n).shown = none ∧ ((c.sportRemove n).sport n).quar = (c.sport n).quar ∧ (c.sportRemove n).sOut = c.sOut ∧
      ((c.sportRemove n).sportsBc.sout n).reqValid = false ∧ ((c.sportRemove n).sportsBc.sout n).wdValid = false ∧
      (c.sportRemove n).fld (oSportCfg n) sportCfg_ENABLE = 0 ∧ (c.sportRemove n).ctxState g.ctx = 3 ∧
      ((c.sportRemove n).ctx g.ctx).drain = some (.halted 5) ∧ ((c.sportRemove n).ctx g.ctx).fail = some g.from_ ∧
      (c.sportRemove n).cx g.ctx strCtx_OUTST = c.cx g.ctx strCtx_OUTST - 1 ∧
      (c.sportRemove n).fld (oSportStat n) sportStat_TIMEOUTS = c.fld (oSportStat n) sportStat_TIMEOUTS := by
  rw [sportRemove_eq hin htags hshown hsys hn hxop hoset hstate]
  obtain ⟨hport, hsOut, hctxs, -⟩ := sportOff_eq c n
  have hkeep : ∀ f : FieldPos, f.word ≠ 0 ∨ f.lo + f.width ≤ 52 ∨ 62 ≤ f.lo → ((c.sportOff n).unasked n g).cx g.ctx f = c.cx g.ctx f := fun f => unasked_cx_ne c hn g
  have hstate := (hkeep strCtx_STATE (.inr (.inl (by decide)))).trans hstate
  have hoset := (hkeep strCtx_OSET (.inr (.inl (by decide)))).trans hoset
  have hxop := (hkeep strCtx_XOP (.inl (by decide))).trans hxop
  have hctx := ctxHalt_ctx hstate hoset hxop 5 g.from_
  have hsport : (((c.sportOff n).unasked n g).ctxHalt g.ctx 5 g.from_).sport n = (c.sport n).off := by
    rw [Ctl.sport, ctxHalt_sports hstate hoset hxop, ← Ctl.sport, unasked_sport, hport]
    rfl
  have hquiet := sportsBc_quiet (c := ((c.sportOff n).unasked n g).ctxHalt g.ctx 5 g.from_) (n := n) (by rw [hsport]; rfl) (by rw [hsport]; rfl)
  have hlow : ∀ (o : Nat) (f : FieldPos), o + 8 * f.word < 0x200000 → (((c.sportOff n).unasked n g).ctxHalt g.ctx 5 g.from_).fld o f =
      (c.setFld (oSportCfg n) sportCfg_ENABLE 0).fld o f := fun o f h => by
    rw [ctxHalt_fld_ne hstate hoset hxop _ _ h, Ctl.unasked, fld_setCx_low _ _ _ _ h, Ctl.setSport_fld, sportOff_fld]
  refine ⟨by rw [hsport]; rfl, by rw [hsport]; rfl, ?_, hquiet.1, hquiet.2, ?_, ctxHalt_state hstate hoset hxop 5 g.from_, by rw [hctx]; rfl, by rw [hctx]; rfl, ?_, ?_⟩
  · rw [ctxHalt_sOut hstate hoset hxop, Ctl.unasked, Ctl.setCx, Ctl.setFld_sOut, Ctl.setSport_sOut, hsOut]
  · rw [hlow _ _ (by simp only [oSportCfg]; omega), Ctl.fld_setFld_same _ _ _ _ (by decide)]
    rfl
  · rw [ctxHalt_cx_ne hstate hoset hxop _ _ (.inr (by decide)), Ctl.unasked, cx_setCx_same _ _ _ _ (by decide), ← sportOff_cx c hn]
    exact Nat.mod_eq_of_lt (lt_of_le_of_lt (Nat.sub_le _ _) (bits_lt _ _ _))
  · rw [hlow _ _ (by simp only [oSportStat]; omega), Ctl.fld_setFld_ne _ _ (by decide) (.inl (by simp only [oSportStat, oSportCfg]; omega))]

end

theorem stackAcksAndTimeouts : stackAcksAndTimeoutsRule := by
  rintro s n tag x g hwork hn ht htag hsys rfl - - hoset hxop
  refine ⟨fun _ hquar hfind => ⟨fun hstate => ?_, fun hstate hdir hacked hdrain hfail hcounted hpos hlen => ?_⟩, fun hfind hstate hexp => ⟨fun hbc => ?_, fun hbc => ?_⟩,
    fun hin htags hshown hstate c hc => ?_⟩
  · exact ackedBad hwork hn ht htag hsys hoset hxop hstate hquar hfind
  · exact ackedGood hwork hn ht htag hsys hxop hstate hquar hfind hdir hacked hdrain hfail hcounted hpos hlen
  · rw [exec_tagTimeout hwork hn ht, tagTimeout_known hwork hfind hexp, if_pos hbc]
  · exact timedOut hwork hn ht htag hsys hoset hxop hstate hfind hexp hbc
  · rw [hc]
    exact portRemoved hn hsys hoset hxop hstate hin htags hshown

/-! ### Beats that are refused (R55) -/

theorem exec_stackRspBeat {s : State} (h : s.working) {n tag : Nat} (hn : n < 24) (ht : tag < 2048) (lanes : BitVec 32) (last err : Bool) (data : List Granule) :
    exec (.stackRspBeat n tag lanes last err data) s = .next { s with c := s.c.rspBeat n tag lanes last err data } :=
  onUnit_next (decide_eq_true ⟨hn, ht⟩) h.1.2 fun c => c.rspBeat n tag lanes last err data

/-- The record of a refused event in MIO_SPORT_STAT_n. -/
def Ctl.refusalTold (c : Ctl) (n tag kind : Nat) : Ctl :=
  ((c.satAdd (oSportStat n) sportStat_PROTO_ERR 1).setFld (oSportStat n) sportStat_LAST_TAG tag).setFld (oSportStat n) sportStat_LAST_KIND kind

theorem stackRefuse_eq (c : Ctl) (n tag kind : Nat) : c.stackRefuse n tag kind = (c.refusalTold n tag kind).raise 16 n := by
  rw [Ctl.stackRefuse, Ctl.refusalTold]

theorem besideFaults_stackRefuse (c : Ctl) (n tag kind : Nat) : (c.stackRefuse n tag kind).besideFaults = c.besideFaults := by
  rw [stackRefuse_eq, besideFaults_raise, Ctl.refusalTold, besideFaults_setFld, besideFaults_setFld, besideFaults_satAdd]

theorem stackRefuse_stat (c : Ctl) {n : Nat} (hn : n < 24) (tag kind : Nat) {f : FieldPos} (hf : f.word = 0) :
    (c.stackRefuse n tag kind).fld (oSportStat n) f = (c.refusalTold n tag kind).fld (oSportStat n) f := by
  rw [stackRefuse_eq, fld_raise_ne _ _ _ (by
    simp only [raiseRegs, oSportStat, oFltCnt, oFltSticky, oFltStat, oFltCap, hf, List.mem_cons, List.not_mem_nil, or_false, not_or]
    omega)]

theorem stackRefuse_kind (c : Ctl) {n : Nat} (hn : n < 24) (tag : Nat) {kind : Nat} (hk : kind < 8) :
    (c.stackRefuse n tag kind).fld (oSportStat n) sportStat_LAST_KIND = kind := by
  rw [stackRefuse_stat c hn _ _ rfl, Ctl.refusalTold, Ctl.fld_setFld_same _ _ _ _ (by decide)]
  exact Nat.mod_eq_of_lt hk

theorem stackRefuse_tag (c : Ctl) {n : Nat} (hn : n < 24) {tag : Nat} (ht : tag < 2048) (kind : Nat) :
    (c.stackRefuse n tag kind).fld (oSportStat n) sportStat_LAST_TAG = tag := by
  rw [stackRefuse_stat c hn _ _ rfl, Ctl.refusalTold, Ctl.fld_setFld_ne _ _ (by decide) (.inr (.inl (by decide))), Ctl.fld_setFld_same _ _ _ _ (by decide)]
  exact Nat.mod_eq_of_lt ht

theorem stackRefuse_count (c : Ctl) {n : Nat} (hn : n < 24) (tag kind : Nat) :
    (c.stackRefuse n tag kind).fld (oSportStat n) sportStat_PROTO_ERR = min (c.fld (oSportStat n) sportStat_PROTO_ERR + 1) 0xFFFF := by
  rw [stackRefuse_stat c hn _ _ rfl, Ctl.refusalTold, Ctl.fld_setFld_ne _ _ (by decide) (.inr (.inl (by decide))),
    Ctl.fld_setFld_ne _ _ (by decide) (.inr (.inl (by decide))), Ctl.satAdd_fld, Ctl.fld_setFld_same _ _ _ _ (by decide)]
  exact Nat.mod_eq_of_lt (lt_of_le_of_lt (Nat.min_le_right _ _) (by decide))

theorem stackRefuse_raised (c : Ctl) {n : Nat} (hn : n < 24) (tag kind : Nat) :
    (c.stackRefuse n tag kind).fld (oFltCnt 16) fltCnt_COUNT = min (c.fld (oFltCnt 16) fltCnt_COUNT + 1) 0xFFFFFFFF := by
  have hne : oFltCnt 16 + 8 * fltCnt_COUNT.word ≠ oSportStat n := by
    simp only [oFltCnt, oSportStat]
    omega
  rw [stackRefuse_eq, fltCnt_raise, Ctl.refusalTold, Ctl.fld_setFld_ne _ _ (by decide) (.inl hne), Ctl.fld_setFld_ne _ _ (by decide) (.inl hne), Ctl.satAdd_fld,
    Ctl.fld_setFld_ne _ _ (by decide) (.inl hne)]
  rfl

theorem beatKind_lt (t : StackTag) (lanes : Nat) (last : Bool) : beatKind t lanes last < 8 := by
  simp only [beatKind]
  split
  · decide
  · split
    · decide
    · split <;> decide

section

variable {s : State} {n tag : Nat} (hwork : s.working) (hrsp : s.c.rspReady n = true)

include hwork hrsp

theorem rspBeat_quarantined (hquar : (s.c.sport n).quar.contains tag = true) (lanes : BitVec 32) (last err : Bool) (data : List Granule) :
    s.c.rspBeat n tag lanes last err data =
      if last then s.c.setSport n { s.c.sport n with quar := (s.c.sport n).quar.filter fun q => decide (q ≠ tag) } else s.c := by
  simp only [Ctl.rspBeat, hrsp, hwork.2, hwork.1.2, hquar]
  rfl

theorem rspBeat_unknown (hquar : (s.c.sport n).quar.contains tag = false)
    (hfind : ((s.c.sport n).tags.find? fun t => decide (t.tag = tag) && !t.write) = none) (lanes : BitVec 32) (last err : Bool) (data : List Granule) :
    s.c.rspBeat n tag lanes last err data = s.c.stackRefuse n tag 1 := by
  simp only [Ctl.rspBeat, hrsp, hwork.2, hwork.1.2, hquar, hfind, Bool.not_true, Bool.or_false, Bool.false_eq_true, if_false]

/-- A beat that R55 refuses changes no more of a port than that a tag may be broken. -/
theorem rspBeat_refused {g : StackTag} (hquar : (s.c.sport n).quar.contains tag = false)
    (hfind : ((s.c.sport n).tags.find? fun t => decide (t.tag = tag) && !t.write) = some g) {lanes : BitVec 32} {last : Bool}
    (hkind : beatKind g lanes.toNat last ≠ 0) (err : Bool) (data : List Granule) : ∃ p : StackPort,
      (s.c.rspBeat n tag lanes last err data = s.c.stackRefuse n tag (beatKind g lanes.toNat last) ∨
        s.c.rspBeat n tag lanes last err data = (s.c.stackRefuse n tag (beatKind g lanes.toNat last)).setSport n p) ∧
      p.tags.map (fun u => (u.tag, u.beats)) = (s.c.sport n).tags.map fun u => (u.tag, u.beats) := by
  have hport := sport_of_besideFaults (besideFaults_stackRefuse s.c n tag (beatKind g lanes.toNat last)) n
  refine ⟨{ s.c.sport n with tags := (s.c.sport n).tags.map fun u => if u.tag = tag then { u with broken := true } else u }, ?_, ?_⟩
  · by_cases hbroken : beatKind g lanes.toNat last = 3 ∧ ¬ last
    · right
      simp only [Ctl.rspBeat, hrsp, hwork.2, hwork.1.2, hquar, hfind, if_pos hkind, if_pos hbroken, hport, Bool.not_true, Bool.or_false, Bool.false_eq_true, if_false]
    · left
      simp only [Ctl.rspBeat, hrsp, hwork.2, hwork.1.2, hquar, hfind, if_pos hkind, if_neg hbroken, Bool.not_true, Bool.or_false, Bool.false_eq_true, if_false]
  · rw [List.map_map]
    refine List.map_congr_left fun u _ => ?_
    simp only [Function.comp_apply]
    split <;> rfl

end

/-! ### The granule that lands (R57, R58, R190) -/

/-- An encoded message carries its data. -/
theorem gData_encode (rep : Bool) (m : Nat) : gData (encode rep m) = m % 2 ^ 256 := by
  have hsplit : ∀ k a b : Nat, 256 ≤ k → (a % 2 ^ k + b * 2 ^ k) % 2 ^ 256 = a % 2 ^ 256 := fun k a b hk => by
    obtain ⟨j, rfl⟩ := Nat.exists_eq_add_of_le hk
    rw [Nat.pow_add, Nat.mul_comm (2 ^ 256), ← Nat.mul_assoc, Nat.add_mul_mod_self_right, Nat.mod_mod_of_dvd _ (Dvd.intro_left _ rfl)]
  rw [gData, encode, BitVec.toNat_ofNat, Nat.mod_mod_of_dvd _ (Nat.pow_dvd_pow 2 (by decide)), Nat.shiftLeft_eq]
  exact hsplit _ _ _ (by cases rep <;> decide)

/-- Tags stand above the data of a message. -/
theorem data_mod (data t u v : Nat) : (data % 2 ^ 256 + t <<< 256 + u <<< 257 + v <<< 258) % 2 ^ 256 = data % 2 ^ 256 := by
  simp only [Nat.shiftLeft_eq]
  omega

theorem gData_mkRep (data : Nat) (p : Bool) (f : Nat) : gData (mkRep data p f) = data % 2 ^ 256 := by
  rw [mkRep, gData_encode]
  have h := data_mod data p.toNat (f % 8) 0
  rwa [Nat.zero_shiftLeft, Nat.add_zero] at h

theorem gData_mkWorking (data : Nat) (p full : Bool) (e : Nat) : gData (mkWorking data p full e) = data % 2 ^ 256 := by
  rw [mkWorking, gData_encode, data_mod]

theorem gData_mod (g : Granule) : gData g % 2 ^ 256 = gData g := Nat.mod_eq_of_lt (Nat.mod_lt _ (by decide))

/-- The context of a plain FILL, by its fields. -/
structure FillFields (c : Ctl) (n x : Nat) : Prop where
  state : c.ctxState x = 2
  port : c.cx x strCtx_SPORT = n
  dir : c.cx x strCtx_DIR = 0
  xop : c.cx x strCtx_XOP = 0
  oset : c.cx x strCtx_OSET = 0
  mode : c.cx x strCtx_FMT_MODE ≠ 3

/-- The decode of an arriving granule: one with rsp_err is uncorrectable. -/
def arrivingAs (c : Ctl) (x gi : Nat) (err : Bool) (g : Granule) : Decoded :=
  if err then ⟨true, 0, 0x1FF, false, poisonGranule (c.cxRep x gi)⟩ else decodeG (c.stackRep x gi) g

/-- A plain FILL lands a granule as `landsAs` says. -/
theorem landForm_eq {c : Ctl} {n x : Nat} (h : FillFields c n x) (gi : Nat) (err : Bool) (g : Granule) :
    c.landForm x gi (arrivingAs c x gi err g) = (c, (landsAs c x gi err g).1) ∧
      ((arrivingAs c x gi err g).bad || (arrivingAs c x gi err g).pois) = (landsAs c x gi err g).2 := by
  obtain ⟨-, -, hdir, -, -, hmode⟩ := h
  have hrep : c.cxRep x gi = c.repOf gi := by simp [Ctl.cxRep, hdir]
  have hkind : c.stackRep x gi = if c.cx x strCtx_RECODE = 0 then c.repOf gi else decide (c.cx x strCtx_RECODE = 2) := by
    rw [Ctl.stackRep, hrep]
  cases err with
  | true =>
    refine ⟨?_, by simp [arrivingAs, landsAs]⟩
    simp only [arrivingAs, Ctl.landForm, landsAs, hrep]
    rfl
  | false =>
    refine ⟨?_, by simp [arrivingAs, landsAs, hkind]⟩
    simp only [arrivingAs, Ctl.landForm, landsAs, hrep, hkind]
    generalize (if c.cx x strCtx_RECODE = 0 then c.repOf gi else decide (c.cx x strCtx_RECODE = 2)) = kind
    simp only [Bool.false_or, Bool.false_eq_true, if_false]
    generalize decodeG kind g = d
    have hdata : gData (if kind = c.repOf gi then d.word else if c.repOf gi = true then mkRep (gData d.word) d.pois 0 else mkWorking (gData d.word) d.pois true 0) =
        gData d.word := by
      split
      · rfl
      · split
        · rw [gData_mkRep, gData_mod]
        · rw [gData_mkWorking, gData_mod]
    have hstamp : gData (if c.cx x strCtx_TAG_STAMP = 1 then mkWorking (gData d.word) d.pois true (c.cx x strCtx_EPOCH)
        else if kind = c.repOf gi then d.word else if c.repOf gi = true then mkRep (gData d.word) d.pois 0 else mkWorking (gData d.word) d.pois true 0) = gData d.word := by
      split
      · rw [gData_mkWorking, gData_mod]
      · exact hdata
    split
    · rfl
    · rw [hdata]
      by_cases hone : c.cx x strCtx_FMT_MODE = 1
      · simp [Ctl.fmtOf, hone, hstamp]
      · by_cases htwo : c.cx x strCtx_FMT_MODE = 2
        · simp [Ctl.fmtOf, htwo, hstamp]
        · have hzero : c.cx x strCtx_FMT_MODE = 0 := by
            have hlt : c.cx x strCtx_FMT_MODE < 4 := bits_lt _ _ _
            omega
          simp [Ctl.fmtOf, hzero]

/-! ### An arriving granule (R57, R190, R199) -/

/-- The landing of stack granule `at_` of a plain FILL. -/
def Ctl.landing (c : Ctl) (n x at_ idx : Nat) (g : Granule) (keep : Bool) : AReq :=
  { id := 0, req := n, kind := .streamLand x at_ at_, gi := c.ringGi x at_, group := c.cx x strCtx_GROUP, granule := g, mask := c.skipMask x at_
    since := c.landSince n, order := idx, keep := keep }

theorem present_eq {c : Ctl} {n x : Nat} (h : FillFields c n x) (at_ idx : Nat) (g : Granule) (keep : Bool) :
    c.present x at_ at_ idx g keep = c.request (c.landing n x at_ idx g keep) := by
  obtain ⟨-, hport, hdir, hxop, hoset, -⟩ := h
  simp only [Ctl.present, Ctl.landing, hport, hdir, hxop, hoset]
  rfl

theorem request_areqs (c : Ctl) (a : AReq) : (c.request a).areqs = c.areqs ++ [{ a with id := c.nextReq }] := rfl

/-- `d` has the clock, the ports, and the registers and record of context x, of `c`: events of the ECC and landings leave them. -/
structure Keeps (c d : Ctl) (x : Nat) : Prop where
  reg : ∀ o, o ∉ eccRegs 4 → d.reg o = c.reg o
  ctx : d.ctx x = c.ctx x
  clk : d.clk = c.clk
  sports : d.sports = c.sports

namespace Keeps

variable {c d e : Ctl} {n x : Nat}

theorem refl (c : Ctl) (x : Nat) : Keeps c c x := ⟨fun _ _ => rfl, rfl, rfl, rfl⟩

theorem trans (h : Keeps c d x) (k : Keeps d e x) : Keeps c e x :=
  ⟨fun o ho => (k.reg o ho).trans (h.reg o ho), k.ctx.trans h.ctx, k.clk.trans h.clk, k.sports.trans h.sports⟩

theorem request (c : Ctl) (x : Nat) (a : AReq) : Keeps c (c.request a) x := ⟨fun _ _ => rfl, rfl, rfl, rfl⟩

theorem eccRecord (c : Ctl) (x : Nat) {s : EccSite} (hs : s.cnt = 4) (d : Decoded) : Keeps c (c.eccRecord s d) x where
  reg o ho := reg_eccRecord_ne c s d (by rwa [hs])
  ctx := by rw [Ctl.ctx, ctxs_of_besideEcc (besideEcc_eccRecord c s d), Ctl.ctx]
  clk := clk_of_besideEcc (besideEcc_eccRecord c s d)
  sports := sports_of_besideEcc (besideEcc_eccRecord c s d)

theorem fld (h : Keeps c d x) {o : Nat} {f : FieldPos} (ho : o + 8 * f.word ∉ eccRegs 4) : d.fld o f = c.fld o f := by
  rw [Ctl.fld, h.reg _ ho, ← Ctl.fld]

theorem cx (h : Keeps c d x) (f : FieldPos) : d.cx x f = c.cx x f :=
  h.fld (by
    simp only [eccRegs, oStrCtx, oEccCnt, oFltCnt, oFltSticky, oFltStat, oFltCap, List.mem_cons, List.not_mem_nil, or_false, not_or]
    omega)

theorem fillFields (h : Keeps c d x) (hc : FillFields c n x) : FillFields d n x :=
  ⟨(h.cx _).trans hc.state, (h.cx _).trans hc.port, (h.cx _).trans hc.dir, (h.cx _).trans hc.xop, (h.cx _).trans hc.oset, by rw [h.cx]; exact hc.mode⟩

theorem bc (h : Keeps c d x) : d.bc = c.bc := by
  rw [Ctl.bc, h.clk, ← Ctl.bc]

theorem repOf (h : Keeps c d x) (gi : Nat) : d.repOf gi = c.repOf gi := by
  rw [Ctl.repOf, Ctl.regionRep, h.fld (by
    simp only [eccRegs, oRegion, oEccCnt, oFltCnt, oFltSticky, oFltStat, oFltCap, List.mem_cons, List.not_mem_nil, or_false, not_or]
    omega), ← Ctl.regionRep, ← Ctl.repOf]

theorem ringGi (h : Keeps c d x) (k : Nat) : d.ringGi x k = c.ringGi x k := by
  simp only [Ctl.ringGi, h.cx]

theorem landsAs_eq (h : Keeps c d x) (gi : Nat) (err : Bool) (g : Granule) : landsAs d x gi err g = landsAs c x gi err g := by
  simp only [landsAs, h.cx, h.repOf]

theorem arrivingAs_eq (h : Keeps c d x) (gi : Nat) (err : Bool) (g : Granule) : arrivingAs d x gi err g = arrivingAs c x gi err g := by
  simp only [arrivingAs, Ctl.stackRep, Ctl.cxRep, h.cx, h.repOf]

theorem landSince (h : Keeps c d x) (n : Nat) : d.landSince n = c.landSince n := by
  have hpert : ∀ lo w, d.fld oPertStream ⟨0, lo, w⟩ = c.fld oPertStream ⟨0, lo, w⟩ := fun lo w => h.fld (by
    simp only [eccRegs, oPertStream, oEccCnt, oFltCnt, oFltSticky, oFltStat, oFltCap, List.mem_cons, List.not_mem_nil, or_false, not_or]
    omega)
  simp only [Ctl.landSince, hpert, h.bc]

end Keeps

/-- A granule of a plain FILL that runs is presented as it lands; one at fault halts the context where POIS_PASS is 0. -/
theorem arrive_eq {c : Ctl} {n x : Nat} (h : FillFields c n x) (hdrain : (c.ctx x).drain = none) (hfail : (c.ctx x).fail = none) (at_ idx : Nat)
    (g : Granule) (err : Bool) : ∃ d, Keeps c d x ∧ d.areqs = c.areqs ∧ c.arrive x at_ idx g err =
      (let fail := (landsAs c x (c.ringGi x at_) err g).2 && decide (c.cx x strCtx_POIS_PASS = 0)
       let l := d.request (d.landing n x at_ idx (landsAs c x (c.ringGi x at_) err g).1 fail)
       if fail then l.ctxHalt x 4 at_ else l) := by
  have hbelow : (c.ctx x).below at_ = true := by simp [CtxRun.below, CtxRun.limit, hdrain, hfail]
  have hcheck : ∃ d, Keeps c d x ∧ d.areqs = c.areqs ∧
      (if err then (c, ⟨true, 0, 0x1FF, false, poisonGranule (c.cxRep x (c.ringGi x at_))⟩) else c.arrivalCheck x (c.ringGi x at_) g) =
        (d, arrivingAs c x (c.ringGi x at_) err g) := by
    cases err with
    | true => exact ⟨c, .refl c x, rfl, rfl⟩
    | false =>
      refine ⟨c.eccRecord (c.portSite 4 2 n (c.ringGi x at_)) (decodeG (c.stackRep x (c.ringGi x at_)) g), .eccRecord c x rfl _,
        areqs_of_besideEcc (besideEcc_eccRecord c _ _), ?_⟩
      simp only [Ctl.arrivalCheck, h.dir, h.port]
      rfl
  obtain ⟨d, hkeeps, hareqs, hcheck⟩ := hcheck
  refine ⟨d, hkeeps, hareqs, ?_⟩
  obtain ⟨hform, hbad⟩ := landForm_eq (hkeeps.fillFields h) (c.ringGi x at_) err g
  rw [hkeeps.arrivingAs_eq, hkeeps.landsAs_eq] at hform hbad
  have hplain : ¬ c.cx x strCtx_XOP = 1 := by
    rw [h.xop]
    decide
  simp only [Ctl.arrive, hbelow, Bool.not_true, Bool.false_eq_true, if_false, narrow_plain h.xop, dstCount_plain h.xop, Nat.lt_irrefl, hcheck, hplain, hform, hbad,
    present_eq (hkeeps.fillFields h), hkeeps.cx]

/-! ### The granules of a beat (R57, R190, R199) -/

theorem arriveAll_append (x : Nat) (t : StackTag) (err : Bool) (l m : List Granule) (off : Nat) (c : Ctl) :
    Ctl.arriveAll x t err off (l ++ m) c = Ctl.arriveAll x t err (off + l.length) m (Ctl.arriveAll x t err off l c) := by
  induction l generalizing off c with
  | nil => rfl
  | cons g l ih => rw [List.cons_append, Ctl.arriveAll, ih, List.length_cons, Nat.add_assoc, Nat.add_comm 1, ← Ctl.arriveAll]

/-- Once a plain context has come to a limit, later granules are discarded (R202). -/
theorem arriveAll_beyond {x : Nat} {t : StackTag} {p : Nat} {c : Ctl} (hskip : t.skip = 0) (hn : 1 < t.n) (hxop : c.cx x strCtx_XOP = 0)
    (hlimit : (c.ctx x).limit = some p) (err : Bool) (l : List Granule) (off : Nat) (hoff : p ≤ t.from_ + off) : Ctl.arriveAll x t err off l c = c := by
  induction l generalizing off with
  | nil => rfl
  | cons g l ih =>
    have hbelow : (c.ctx x).below (t.from_ + off) = false := by simpa [CtxRun.below, hlimit] using hoff
    have hgone : c.arrive x (t.from_ + off) t.seqIdx g err = c := by
      rw [Ctl.arrive, hbelow]
      exact unreserve_plain hxop 1
    rw [Ctl.arriveAll, hskip, if_neg (by omega), if_neg (by omega), hgone]
    exact ih (off + 1) (by omega)

/-- A request of the areqs that a halt of context x at `lim` or later leaves alone: none of its landings, or one of an earlier granule. -/
def AReq.Before (x lim : Nat) (a : AReq) : Prop := a.party ≠ (0, x) ∨ ∃ k, k < lim ∧ a.kind = .streamLand x k k

theorem voidOf_before {x lim : Nat} {a : AReq} (h : a.Before x lim) {r : CtxRun} (hlimit : r.limit = some lim) : a.voidOf r x = false := by
  obtain hother | ⟨k, hk, hkind⟩ := h
  · simp only [AReq.party, AReq.voidOf] at hother ⊢
    split at hother <;> simp_all
  · simp [AReq.voidOf, hkind, CtxRun.below, hlimit, hk]

/-- The failing granule of a halt still lands (R199). -/
theorem voidOf_kept {r : CtxRun} {lim x : Nat} (hlimit : r.limit = some lim) {d : Ctl} {n idx id : Nat} {w : Granule} :
    AReq.voidOf r x { d.landing n x lim idx w true with id := id } = false := by
  simp [AReq.voidOf, Ctl.landing, hlimit]

/-- A landing that has just been presented. -/
def AReq.Fresh (c : Ctl) (a : AReq) : Prop := a.since = c.bc ∧ a.second = none ∧ a.acc = none

section

variable {c : Ctl} {n x : Nat} (h : FillFields c n x) (hdrain : (c.ctx x).drain = none) (hfail : (c.ctx x).fail = none)
  (hpert : Nat.testBit (c.fld oPertStream pertStream_PORTS) n = false) {t : StackTag} (hskip : t.skip = 0) (hn : 1 < t.n) (err : Bool) (off : Nat) (g : Nat → Granule)

/-- What lands for granule `i` of a beat that begins at granule `off` of request `t`. -/
def landOf (c : Ctl) (x : Nat) (t : StackTag) (err : Bool) (off : Nat) (g : Nat → Granule) (i : Nat) : Granule × Bool :=
  landsAs c x (c.ringGi x (t.from_ + (off + i))) err (g i)

/-- The landing of granule `i` of a beat: its kind, its place and the granule. -/
def landedAt (c : Ctl) (x : Nat) (t : StackTag) (err : Bool) (off : Nat) (g : Nat → Granule) (i : Nat) : AKind × Nat × Granule :=
  (AKind.streamLand x (t.from_ + (off + i)) (t.from_ + (off + i)), c.ringGi x (t.from_ + (off + i)), (landOf c x t err off g i).1)

include hpert in
theorem landing_fresh {d : Ctl} (hkeeps : Keeps c d x) (at_ idx : Nat) (w : Granule) (keep : Bool) (id : Nat) :
    ({ d.landing n x at_ idx w keep with id := id } : AReq).Fresh c := by
  refine ⟨?_, rfl, rfl⟩
  show d.landSince n = c.bc
  rw [hkeeps.landSince, Ctl.landSince, if_neg (by rw [hpert]; decide)]

include h hdrain hfail in
/-- A granule of the beat arrives while the context goes on. -/
theorem arrive_of_keeps {d : Ctl} (hkeeps : Keeps c d x) (i idx : Nat) : ∃ e, Keeps c e x ∧ e.areqs = d.areqs ∧ d.arrive x (t.from_ + (off + i)) idx (g i) err =
    (let fail := (landOf c x t err off g i).2 && decide (c.cx x strCtx_POIS_PASS = 0)
     let l := e.request (e.landing n x (t.from_ + (off + i)) idx (landOf c x t err off g i).1 fail)
     if fail then l.ctxHalt x 4 (t.from_ + (off + i)) else l) := by
  obtain ⟨e, hone, hsame, harrive⟩ := arrive_eq (hkeeps.fillFields h) (by rw [hkeeps.ctx, hdrain]) (by rw [hkeeps.ctx, hfail]) (t.from_ + (off + i)) idx (g i) err
  rw [hkeeps.landsAs_eq, hkeeps.ringGi, hkeeps.cx] at harrive
  exact ⟨e, hkeeps.trans hone, hsame, harrive⟩

omit h hdrain hfail hpert in
include hskip hn in
theorem arriveAll_one (d : Ctl) (w : Granule) (o : Nat) : Ctl.arriveAll x t err o [w] d = d.arrive x (t.from_ + o) t.seqIdx w err := by
  rw [Ctl.arriveAll, Ctl.arriveAll, hskip, if_neg (by omega), if_neg (by omega)]

/-- The landings of granules 0 to k of the beat, the last of them presented in `e`. -/
def BeatLands (c : Ctl) (x : Nat) (t : StackTag) (err : Bool) (off : Nat) (g : Nat → Granule) (k : Nat) (new : List AReq) : Prop :=
  (∀ a ∈ new, a.Fresh c) ∧ new.map (fun a => (a.kind, a.gi, a.granule)) = (List.range k).map (landedAt c x t err off g)

omit h hdrain hfail hpert hskip hn in
theorem BeatLands.kind {k : Nat} {new : List AReq} (hnew : BeatLands c x t err off g k new) {a : AReq} (ha : a ∈ new) :
    ∃ i, i < k ∧ a.kind = .streamLand x (t.from_ + (off + i)) (t.from_ + (off + i)) := by
  have hmem := List.mem_map_of_mem (f := fun a : AReq => (a.kind, a.gi, a.granule)) ha
  rw [hnew.2, List.mem_map] at hmem
  obtain ⟨i, hi, heq⟩ := hmem
  exact ⟨i, List.mem_range.1 hi, (congrArg Prod.fst heq).symm⟩

omit hdrain hfail hskip hn in
include hpert in
/-- The landing of the next granule joins those of the granules before. -/
theorem landed_snoc {e : Ctl} (hone : Keeps c e x) {k : Nat} {new : List AReq} (hnew : BeatLands c x t err off g k new) (keep : Bool) (id : Nat) :
    BeatLands c x t err off g (k + 1)
      (new ++ [{ e.landing n x (t.from_ + (off + k)) t.seqIdx (landOf c x t err off g k).1 keep with id := id }]) := by
  obtain ⟨hfresh, hmap⟩ := hnew
  refine ⟨fun a ha => ?_, ?_⟩
  · obtain ha | ha := List.mem_append.1 ha
    · exact hfresh a ha
    · rw [List.mem_singleton.1 ha]
      exact landing_fresh hpert hone _ _ _ _ _
  · rw [List.map_append, hmap, List.range_succ, List.map_append]
    refine congrArg _ ?_
    rw [List.map_cons, List.map_nil, List.map_cons, List.map_nil, landedAt, ← hone.ringGi]
    rfl

include h hdrain hfail hpert hskip hn

/-- Granules that are not at fault, or that POIS_PASS lets pass, are presented one after the other, and the context goes on. -/
theorem arriveAll_run (k : Nat) (hgood : ∀ i, i < k → ((landOf c x t err off g i).2 && decide (c.cx x strCtx_POIS_PASS = 0)) = false) :
    Keeps c (Ctl.arriveAll x t err off ((List.range k).map g) c) x ∧
      ∃ new, (Ctl.arriveAll x t err off ((List.range k).map g) c).areqs = c.areqs ++ new ∧ BeatLands c x t err off g k new := by
  induction k with
  | zero => exact ⟨.refl c x, [], (List.append_nil _).symm, fun a ha => absurd ha List.not_mem_nil, rfl⟩
  | succ k ih =>
    obtain ⟨hkeeps, new, hareqs, hnew⟩ := ih fun i hi => hgood i (by omega)
    rw [List.range_succ, List.map_append, arriveAll_append, List.length_map, List.length_range]
    generalize Ctl.arriveAll x t err off ((List.range k).map g) c = d at hkeeps hareqs ⊢
    obtain ⟨e, hone, hsame, harrive⟩ := arrive_of_keeps h hdrain hfail err off g hkeeps k t.seqIdx (t := t)
    rw [hgood k (by omega)] at harrive
    rw [List.map_cons, List.map_nil, arriveAll_one hskip hn, harrive]
    exact ⟨hone.trans (.request e x _), _, by rw [if_neg (by decide), Ctl.request, hsame, hareqs, List.append_assoc], landed_snoc hpert err off g hone hnew false e.nextReq⟩

/-- The first granule at fault that POIS_PASS does not let pass still lands; the context halts there with status POISON, and those behind are discarded. -/
theorem arriveAll_halt {f r : Nat} (hreqs : ∀ b ∈ c.areqs, b.party ≠ (0, x)) (hpass : c.cx x strCtx_POIS_PASS = 0)
    (hgood : ∀ i, i < f → (landOf c x t err off g i).2 = false) (hbad : (landOf c x t err off g f).2 = true) :
    ∃ e, Keeps c e x ∧ ∃ new, BeatLands c x t err off g (f + 1) new ∧
      Ctl.arriveAll x t err off ((List.range (f + 1 + r)).map g) c = e.ctxHalt x 4 (t.from_ + (off + f)) ∧
      (e.ctxHalt x 4 (t.from_ + (off + f))).areqs = c.areqs ++ new := by
  obtain ⟨hkeeps, new, hareqs, hnew⟩ := arriveAll_run h hdrain hfail hpert hskip hn err off g f fun i hi => by rw [hgood i hi]; rfl
  obtain ⟨d, hone, hsame, harrive⟩ := arrive_of_keeps h hdrain hfail err off g hkeeps f t.seqIdx (t := t)
  rw [hbad, hpass] at harrive
  have hland : Keeps c (d.request (d.landing n x (t.from_ + (off + f)) t.seqIdx (landOf c x t err off g f).1 true)) x := hone.trans (.request d x _)
  have hmore := landed_snoc hpert err off g hone hnew true d.nextReq
  have hfields := hland.fillFields h
  have hlimit : (((d.request (d.landing n x (t.from_ + (off + f)) t.seqIdx (landOf c x t err off g f).1 true)).ctx x).halting 4 (t.from_ + (off + f))).limit =
      some (t.from_ + (off + f)) := rfl
  have hall := request_areqs d (d.landing n x (t.from_ + (off + f)) t.seqIdx (landOf c x t err off g f).1 true)
  rw [hsame, hareqs, List.append_assoc] at hall
  refine ⟨_, hland, _, hmore, ?_, ?_⟩
  · rw [List.range_add, List.map_append, arriveAll_append, List.range_succ, List.map_append, arriveAll_append, List.length_map, List.length_range, List.map_cons,
      List.map_nil, arriveAll_one hskip hn, harrive, if_pos (by decide)]
    exact arriveAll_beyond hskip hn ((ctxHalt_cx_ne hfields.state hfields.oset hfields.xop _ _ (.inl (by decide))).trans hfields.xop)
      (by rw [ctxHalt_ctx hfields.state hfields.oset hfields.xop]; exact hlimit) err _ _ (by
        rw [List.length_append, List.length_map, List.length_range, List.length_singleton]
        omega)
  · rw [ctxHalt_areqs hfields.state hfields.oset hfields.xop, hall]
    refine List.filter_eq_self.2 fun b hb => ?_
    rw [← List.append_assoc] at hb
    obtain hb | hb := List.mem_append.1 hb
    · have hbefore : b.Before x (t.from_ + (off + f)) := by
        obtain hb | hb := List.mem_append.1 hb
        · exact .inl (hreqs b hb)
        · obtain ⟨i, hi, hkind⟩ := hnew.kind err off g hb
          exact .inr ⟨t.from_ + (off + i), by omega, hkind⟩
      rw [voidOf_before hbefore hlimit]
      rfl
    · rw [List.mem_singleton.1 hb, voidOf_kept hlimit]
      rfl

end

/-! ### A beat in order (R53, R57) -/

/-- A beat of tag `g` is counted, and the last one ends the tag. -/
def Ctl.beatCounted (c : Ctl) (n tag : Nat) (g : StackTag) (last : Bool) : Ctl :=
  let d := c.setSport n { c.sport n with tags := (c.sport n).tags.map fun u => if u.tag = tag then { u with beats := u.beats + 1 } else u }
  if last then d.tagEnds n g else d

theorem rspBeat_inOrder {s : State} (hwork : s.working) {n tag : Nat} (hrsp : s.c.rspReady n = true) {g : StackTag}
    (hquar : (s.c.sport n).quar.contains tag = false) (hfind : ((s.c.sport n).tags.find? fun t => decide (t.tag = tag) && !t.write) = some g)
    {lanes : BitVec 32} {last : Bool} (hkind : beatKind g lanes.toNat last = 0) (hsys : g.sys = none) (err : Bool) (data : List Granule) :
    s.c.rspBeat n tag lanes last err data = Ctl.arriveAll g.ctx g err (32 * g.beats)
      ((List.range (min 32 (g.total - 32 * g.beats))).map fun i => data.getD i 0) (s.c.beatCounted n tag g last) := by
  simp only [Ctl.rspBeat, hrsp, hwork.2, hwork.1.2, hquar, hfind, hkind, hsys, Ctl.beatCounted, Bool.not_true, Bool.or_false, Bool.false_eq_true, if_false,
    ne_eq, not_true_eq_false]

section

variable (c : Ctl) (n tag : Nat) {g : StackTag} (hsys : g.sys = none) (last : Bool)

include hsys

theorem beatCounted_cx {f : FieldPos} (h : f.word ≠ 0 ∨ f.lo + f.width ≤ 52 ∨ 62 ≤ f.lo) : (c.beatCounted n tag g last).cx g.ctx f = c.cx g.ctx f := by
  simp only [Ctl.beatCounted]
  split
  · rw [tagEnds_cx_ne _ _ hsys h, Ctl.cx, Ctl.setSport_fld, ← Ctl.cx]
  · rw [Ctl.cx, Ctl.setSport_fld, ← Ctl.cx]

theorem beatCounted_low {o : Nat} {f : FieldPos} (h : o + 8 * f.word < 0x200000) : (c.beatCounted n tag g last).fld o f = c.fld o f := by
  simp only [Ctl.beatCounted]
  split
  · rw [tagEnds_fld_ne _ _ hsys h, Ctl.setSport_fld]
  · rw [Ctl.setSport_fld]

theorem beatCounted_areqs : (c.beatCounted n tag g last).areqs = c.areqs := by
  simp only [Ctl.beatCounted]
  split
  · rw [tagEnds_areqs _ _ hsys, Ctl.setSport_areqs]
  · rw [Ctl.setSport_areqs]

theorem beatCounted_bc : (c.beatCounted n tag g last).bc = c.bc := by
  simp only [Ctl.beatCounted]
  split
  · rw [Ctl.bc, tagEnds_clk _ _ hsys, Ctl.setSport_clk, ← Ctl.bc]
  · rw [Ctl.bc, Ctl.setSport_clk, ← Ctl.bc]

theorem beatCounted_ctx : ∃ l, (c.beatCounted n tag g last).ctx g.ctx = { c.ctx g.ctx with late := l } := by
  simp only [Ctl.beatCounted]
  split
  · exact tagEnds_ctx _ n hsys
  · exact ⟨(c.ctx g.ctx).late, rfl⟩

theorem beatCounted_last (htag : g.tag = tag) : (∀ u ∈ ((c.beatCounted n tag g true).sport n).tags, u.tag ≠ tag) ∧
    (c.beatCounted n tag g true).cx g.ctx strCtx_OUTST = c.cx g.ctx strCtx_OUTST - 1 := by
  rw [Ctl.beatCounted, if_pos rfl]
  refine ⟨fun u hu => ?_, ?_⟩
  · rw [tagEnds_sport _ _ hsys, htag] at hu
    exact ne_of_mem_without hu
  · rw [tagEnds_outst _ _ hsys, Ctl.cx, Ctl.setSport_fld, ← Ctl.cx]

end

theorem ringGi_beatCounted (c : Ctl) (n tag : Nat) {g : StackTag} (hsys : g.sys = none) (last : Bool) (k : Nat) :
    (c.beatCounted n tag g last).ringGi g.ctx k = c.ringGi g.ctx k := by
  rw [Ctl.ringGi, beatCounted_cx c n tag hsys last (.inl (by decide)), beatCounted_cx c n tag hsys last (.inl (by decide)), ← Ctl.ringGi]

theorem landsAs_beatCounted (c : Ctl) (n tag : Nat) {g : StackTag} (hsys : g.sys = none) (last : Bool) (gi : Nat) (err : Bool) (w : Granule) :
    landsAs (c.beatCounted n tag g last) g.ctx gi err w = landsAs c g.ctx gi err w := by
  have hrep : (c.beatCounted n tag g last).repOf gi = c.repOf gi := by
    rw [Ctl.repOf, Ctl.regionRep, beatCounted_low c n tag hsys last, ← Ctl.regionRep, ← Ctl.repOf]
    simp only [oRegion, giRegion]
    omega
  simp only [landsAs, hrep, beatCounted_cx c n tag hsys last (.inl (show strCtx_RECODE.word ≠ 0 by decide)), beatCounted_cx c n tag hsys last (.inl (show strCtx_FMT.word ≠ 0 by decide)),
    beatCounted_cx c n tag hsys last (.inl (show strCtx_FMT_MODE.word ≠ 0 by decide)),
    beatCounted_cx c n tag hsys last (f := strCtx_TAG_STAMP) (.inr (.inl (by decide))), beatCounted_cx c n tag hsys last (f := strCtx_EPOCH) (.inr (.inl (by decide)))]

theorem beatCounted_fields (c : Ctl) {n : Nat} (tag : Nat) {g : StackTag} (hsys : g.sys = none) (last : Bool) (h : FillFields c n g.ctx) :
    FillFields (c.beatCounted n tag g last) n g.ctx :=
  ⟨(beatCounted_cx c n tag hsys last (f := strCtx_STATE) (.inr (.inl (by decide)))).trans h.state,
    (beatCounted_cx c n tag hsys last (f := strCtx_SPORT) (.inr (.inl (by decide)))).trans h.port,
    (beatCounted_cx c n tag hsys last (f := strCtx_DIR) (.inr (.inl (by decide)))).trans h.dir,
    (beatCounted_cx c n tag hsys last (f := strCtx_XOP) (.inl (by decide))).trans h.xop,
    (beatCounted_cx c n tag hsys last (f := strCtx_OSET) (.inr (.inl (by decide)))).trans h.oset,
    by rw [beatCounted_cx c n tag hsys last (.inl (by decide))]; exact h.mode⟩

theorem sports_of_besideFaults {c d : Ctl} (h : d.besideFaults = c.besideFaults) : d.sports = c.sports := (congrArg Ctl.sports h :)

theorem stackRefuse_sports (c : Ctl) (n tag kind : Nat) : (c.stackRefuse n tag kind).sports = c.sports := sports_of_besideFaults (besideFaults_stackRefuse c n tag kind)
theorem stackRefuse_areqs (c : Ctl) (n tag kind : Nat) : (c.stackRefuse n tag kind).areqs = c.areqs := areqs_of_besideFaults (besideFaults_stackRefuse c n tag kind)

/-- A beat of no tag that a read uses is refused as of kind 1. -/
theorem unknownBeat {s : State} {n tag : Nat} (hn : n < 24) (ht : tag < 2048) {lanes : BitVec 32} {last err : Bool} {data : List Granule}
    (hexec : exec (.stackRspBeat n tag lanes last err data) s = .next { s with c := s.c.stackRefuse n tag 1 }) :
    ∃ t, exec (.stackRspBeat n tag lanes last err data) s = .next t ∧ t.c.sports = s.c.sports ∧ t.c.areqs = s.c.areqs ∧ t.banks = s.banks ∧
      t.c.fld (oSportStat n) sportStat_LAST_KIND = 1 ∧ t.c.fld (oSportStat n) sportStat_LAST_TAG = tag ∧
      t.c.fld (oSportStat n) sportStat_PROTO_ERR = min (s.c.fld (oSportStat n) sportStat_PROTO_ERR + 1) 0xFFFF ∧
      t.c.fld (oFltCnt 16) fltCnt_COUNT = min (s.c.fld (oFltCnt 16) fltCnt_COUNT + 1) 0xFFFFFFFF := by
  have hkind := stackRefuse_kind s.c hn tag (kind := 1) (by decide)
  have htag := stackRefuse_tag s.c hn ht 1
  have hcount := stackRefuse_count s.c hn tag 1
  have hraised := stackRefuse_raised s.c hn tag 1
  exact ⟨_, hexec, stackRefuse_sports s.c n tag 1, stackRefuse_areqs s.c n tag 1, rfl, by simp only [hkind], by simp only [htag], by simp only [hcount],
    by simp only [hraised]⟩

theorem stackBeatsLand : stackBeatsLandRule := by
  intro s n tag lanes last err data hwork hn ht hrsp
  have hexec := exec_stackRspBeat hwork hn ht lanes last err data
  refine ⟨fun hquar => ?_, fun hquar hfind => ?_, fun g x hquar hfind hx => ⟨fun hkind => ?_, ?_⟩⟩
  · rw [hexec, rspBeat_quarantined hwork hrsp hquar]
    rfl
  · rw [rspBeat_unknown hwork hrsp hquar hfind] at hexec
    exact unknownBeat hn ht hexec
  · obtain ⟨p, hbeat, htags⟩ := rspBeat_refused hwork hrsp hquar hfind hkind err data
    have hareqs := stackRefuse_areqs s.c n tag (beatKind g lanes.toNat last)
    have hkindIs := stackRefuse_kind s.c hn tag (beatKind_lt g lanes.toNat last)
    have hcount := stackRefuse_count s.c hn tag (beatKind g lanes.toNat last)
    obtain hbeat | hbeat := hbeat <;> rw [hbeat] at hexec
    · refine ⟨_, hexec, hareqs, rfl, by simp only [hkindIs], by simp only [hcount], ?_⟩
      rw [Ctl.sport, stackRefuse_sports, ← Ctl.sport]
    · refine ⟨_, hexec, ?_, rfl, ?_, ?_, ?_⟩
      · rw [Ctl.setSport_areqs, hareqs]
      · rw [Ctl.setSport_fld, hkindIs]
      · rw [Ctl.setSport_fld, hcount]
      · rw [Ctl.sport_setSport_same, htags]
  · intro count place gi land hkind hsys hfill hskip hone hpert hcount hplace hgi hland
    subst hx
    obtain ⟨-, hstate, hport, hdir, hxop, hoset, hmode, hdrain, hfail, hreqs⟩ := hfill
    obtain ⟨late, hctx⟩ := beatCounted_ctx s.c n tag hsys last
    have htag : g.tag = tag := by
      have hg := List.find?_some hfind
      rw [Bool.and_eq_true, decide_eq_true_eq] at hg
      exact hg.1
    rw [rspBeat_inOrder hwork hrsp hquar hfind hkind hsys, ← hcount] at hexec
    have hfields := beatCounted_fields s.c tag hsys last ⟨hstate, hport, hdir, hxop, hoset, hmode⟩
    have hpass := beatCounted_cx s.c n tag hsys last (f := strCtx_POIS_PASS) (.inr (.inl (by decide)))
    have hbc := beatCounted_bc s.c n tag hsys last
    have hareqs := beatCounted_areqs s.c n tag hsys last
    have hpert' : Nat.testBit ((s.c.beatCounted n tag g last).fld oPertStream pertStream_PORTS) n = false := by
      rw [beatCounted_low s.c n tag hsys last (by decide), hpert]
    have hmatch : ∀ i, landOf (s.c.beatCounted n tag g last) g.ctx g err (32 * g.beats) (fun i => data.getD i 0) i = land i := fun i => by
      rw [landOf, ringGi_beatCounted s.c n tag hsys, landsAs_beatCounted s.c n tag hsys, hland, hgi, hplace]
    have hat : ∀ i, landedAt (s.c.beatCounted n tag g last) g.ctx g err (32 * g.beats) (fun i => data.getD i 0) i =
        (AKind.streamLand g.ctx (place i) (place i), gi i, (land i).1) := fun i => by
      rw [landedAt, hmatch, ringGi_beatCounted s.c n tag hsys, hgi, hplace]
    have hlast : last = true → (∀ u ∈ ((s.c.beatCounted n tag g last).sport n).tags, u.tag ≠ tag) ∧
        (s.c.beatCounted n tag g last).cx g.ctx strCtx_OUTST = s.c.cx g.ctx strCtx_OUTST - 1 := fun hl => by
      rw [hl]
      exact beatCounted_last s.c n tag hsys htag
    generalize s.c.beatCounted n tag g last = c at hexec hfields hpass hbc hareqs hpert' hmatch hat hlast hctx
    have hdrain : (c.ctx g.ctx).drain = none := by rw [hctx, ← hdrain]
    have hfail : (c.ctx g.ctx).fail = none := by rw [hctx, ← hfail]
    have hfresh : ∀ a : AReq, a.Fresh c → a.since = s.c.bc ∧ a.second = none ∧ a.acc = none := fun a ha => by rwa [← hbc]
    by_cases hall : s.c.cx g.ctx strCtx_POIS_PASS = 1 ∨ ∀ i, i < count → (land i).2 = false
    · obtain ⟨hkeeps, new, hnew, hfreshes, hmap⟩ := arriveAll_run hfields hdrain hfail hpert' hskip hone err (32 * g.beats) (fun i => data.getD i 0) count fun i hi => by
        rw [hmatch, hpass]
        obtain hpass | hgood := hall
        · rw [hpass, Bool.and_comm]
          rfl
        · rw [hgood i hi]
          rfl
      refine ⟨_, new, hexec, rfl, hnew.trans (by rw [hareqs]), fun a ha => hfresh a (hfreshes a ha), fun hl => ?_, fun _ => ⟨?_, ?_⟩, fun f hzero hf hbad => ?_⟩
      · obtain ⟨htags, houtst⟩ := hlast hl
        exact ⟨by rw [Ctl.sport, hkeeps.sports]; exact htags, (hkeeps.cx _).trans houtst⟩
      · exact (hkeeps.cx _).trans hfields.state
      · rw [hmap]
        exact List.map_congr_left fun i _ => hat i
      · obtain hpass | hgood := hall
        · rw [hzero] at hpass
          exact absurd hpass (by decide)
        · rw [hgood f hf] at hbad
          exact absurd hbad (by decide)
    · rw [not_or] at hall
      obtain ⟨hnot, hsome⟩ := hall
      have hzero : s.c.cx g.ctx strCtx_POIS_PASS = 0 := by
        have hlt : s.c.cx g.ctx strCtx_POIS_PASS < 2 := bits_lt _ _ _
        omega
      have hex : ∃ f, f < count ∧ (land f).2 = true := by
        simpa using hsome
      obtain ⟨hf, hbad⟩ := Nat.find_spec hex
      have hgood : ∀ i, i < Nat.find hex → (land i).2 = false := fun i hi => by
        have hmin := Nat.find_min hex hi
        rw [not_and] at hmin
        exact Bool.eq_false_of_not_eq_true (hmin (by omega))
      generalize Nat.find hex = f at hf hbad hgood
      obtain ⟨r, rfl⟩ := Nat.exists_eq_add_of_lt hf
      obtain ⟨e, hkeeps, new, ⟨hfreshes, hmap⟩, hend, hnew⟩ := arriveAll_halt hfields hdrain hfail hpert' hskip hone err (32 * g.beats) (fun i => data.getD i 0)
        (f := f) (r := r) (by rw [hareqs]; exact hreqs) (hpass.trans hzero) (fun i hi => by rw [hmatch, hgood i hi]) (by rw [hmatch, hbad])
      rw [show f + r + 1 = f + 1 + r by omega, hend] at hexec
      have hfields' := hkeeps.fillFields hfields
      have hctx' := ctxHalt_ctx hfields'.state hfields'.oset hfields'.xop 4 (g.from_ + (32 * g.beats + f))
      refine ⟨_, new, hexec, rfl, hnew.trans (by rw [hareqs]), fun a ha => hfresh a (hfreshes a ha), fun hl => ?_, fun hgo => ?_, fun f' _ hf' hbad' hgood' => ?_⟩
      · obtain ⟨htags, houtst⟩ := hlast hl
        refine ⟨by rw [Ctl.sport, ctxHalt_sports hfields'.state hfields'.oset hfields'.xop, hkeeps.sports]; exact htags, ?_⟩
        exact (ctxHalt_cx_ne hfields'.state hfields'.oset hfields'.xop _ _ (.inr (by decide))).trans ((hkeeps.cx _).trans houtst)
      · exact absurd hgo (not_or.2 ⟨hnot, hsome⟩)
      · have hsame : f' = f := by
          obtain hlt | rfl | hlt := Nat.lt_trichotomy f' f
          · rw [hgood f' hlt] at hbad'
            exact absurd hbad' (by decide)
          · rfl
          · rw [hgood' f hlt] at hbad
            exact absurd hbad (by decide)
        subst hsame
        refine ⟨ctxHalt_state hfields'.state hfields'.oset hfields'.xop _ _, by rw [hctx']; rfl, by rw [hctx', hplace]; rfl, ?_⟩
        rw [hmap]
        exact List.map_congr_left fun i _ => hat i

/-- Settles O31: beats land granule by granule, and a request that fails halts its context at the request's first granule. -/
theorem stackResponses : Obligations.StackResponses := ⟨stackBeatsLand, stackAcksAndTimeouts⟩

end Sys2Proof.Machine

end

section
/-! What a cue violation leaves alone, and the judgement of a read (R93 to R95). -/

namespace Sys2Proof.Machine

/-- The units beside what a cue violation is counted, recorded and raised in. -/
def Ctl.besideCv (c : Ctl) : Ctl := { c with regs := [], notes := {}, faults := { c.faults with orders := [], capCc := 0, due := [] } }

theorem besideCv_of_besideFaults {c d : Ctl} (h : d.besideFaults = c.besideFaults) : d.besideCv = c.besideCv := (congrArg Ctl.besideCv h :)

theorem besideCv_satAdd (c : Ctl) (o : Nat) (f : FieldPos) (x : Nat) : (c.satAdd o f x).besideCv = c.besideCv :=
  besideCv_of_besideFaults (besideFaults_satAdd c o f x)
theorem besideCv_setFld (c : Ctl) (o : Nat) (f : FieldPos) (x : Nat) : (c.setFld o f x).besideCv = c.besideCv :=
  besideCv_of_besideFaults (besideFaults_setFld c o f x)
theorem besideCv_flag (c : Ctl) (o : Nat) (f : FieldPos) : (c.flag o f).besideCv = c.besideCv := besideCv_of_besideFaults (besideFaults_flag c o f)

theorem besideCv_raiseAt (c : Ctl) (x s unit : Nat) : (c.raiseAt x s unit).besideCv = c.besideCv := by
  rw [Ctl.raiseAt]
  split
  · exact besideCv_of_besideFaults (besideFaults_raise c s unit)
  · rw [Ctl.besideCv, Ctl.besideCv]

theorem besideCv_cvFill (c : Ctl) (n : Nat) (write : Bool) (lane cause gi bc sceneNo off : Nat) :
    (c.cvFill n write lane cause gi bc sceneNo off).besideCv = c.besideCv := by
  simp only [Ctl.cvFill, List.foldl_cons, List.foldl_nil, besideCv_setFld, besideCv_flag]

theorem besideCv_cueViolation (c : Ctl) (n : Nat) (write : Bool) (lane cause gi bc sceneNo off : Nat) :
    (c.cueViolation n write lane cause gi bc sceneNo off).besideCv = c.besideCv := by
  simp only [Ctl.cueViolation]
  rw [besideCv_raiseAt]
  split
  · rw [besideCv_cvFill, besideCv_satAdd]
  · rw [besideCv_flag]
    split
    · rw [besideCv_cvFill, besideCv_satAdd]
    · rw [besideCv_satAdd]

theorem besideCv_cvFurther (c : Ctl) (n lane cause gi bc sceneNo off : Nat) : (c.cvFurther n lane cause gi bc sceneNo off).besideCv = c.besideCv := by
  simp only [Ctl.cvFurther]
  split
  · rw [besideCv_cvFill]
  · rfl

theorem besideCv_countRead (c : Ctl) (n : Nat) (x : Cause) : (c.countRead n x).besideCv = c.besideCv := by
  rw [Ctl.countRead]
  split
  · rw [besideCv_satAdd]
  · split
    · rw [besideCv_satAdd]
    · rfl

theorem besideCv_countStatus (c : Ctl) (n : Nat) (code : BitVec 2) : (c.countStatus n code).besideCv = c.besideCv := by
  rw [Ctl.countStatus]
  split
  · rw [besideCv_satAdd]
  · split
    · rw [besideCv_satAdd]
    · split
      · rw [besideCv_satAdd]
      · rfl

theorem besideCv_writeViolation (c : Ctl) (n : Nat) (a : WAccess) (dec : List (WLane × Cause)) : (c.writeViolation n a dec).besideCv = c.besideCv := by
  rw [Ctl.writeViolation]
  split
  · rfl
  · exact besideCv_cueViolation _ _ _ _ _ _ _ _ _

/-- What every application of a fold keeps, the fold keeps. -/
theorem besideCv_foldl {α : Type} (f : Ctl → α → Ctl) (hf : ∀ c x, (f c x).besideCv = c.besideCv) (l : List α) (c : Ctl) :
    (l.foldl f c).besideCv = c.besideCv := by
  induction l generalizing c with
  | nil => rfl
  | cons x l ih => rw [List.foldl_cons, ih, hf]

theorem seqs_of_besideCv {c d : Ctl} (h : d.besideCv = c.besideCv) : d.seqs = c.seqs := (congrArg Ctl.seqs h :)

/-- A read whose lanes change is put back, and has counted as a violation or not. -/
theorem readJudge_eq (c : Ctl) (n : Nat) (r r' : RAccess) : ∃ v d, Ctl.besideCv d = c.besideCv ∧ c.readJudge n r r' = d.putRead n { r' with viol := v } := by
  have hcount := fun l => besideCv_foldl (fun c (x : Nat × RLane × RLane) => c.countRead n x.2.2.cause) (fun c x => besideCv_countRead c n _) l c
  simp only [Ctl.readJudge]
  split
  · exact ⟨r'.viol, _, hcount _, rfl⟩
  · split
    · exact ⟨r'.viol, _, hcount _, rfl⟩
    · refine ⟨true, _, ?_, rfl⟩
      split
      · exact (besideCv_cvFurther _ _ _ _ _ _ _ _).trans (hcount _)
      · exact (besideCv_cueViolation _ _ _ _ _ _ _ _ _).trans (hcount _)

end Sys2Proof.Machine

end

section
/-! The write wing's issue and status, and the delivery of reads (R40 to R46, R141 to R143). -/

namespace Sys2Proof.Machine

/-- An entry that is put back under its own number is among the entries. -/
theorem mem_map_replace {α : Type} {key : α → Nat} {x x' : α} {l : List α} (h : x ∈ l) (hkey : key x' = key x) :
    x' ∈ l.map fun y => if key y = key x' then x' else y :=
  List.mem_map.2 ⟨x, h, if_pos hkey.symm⟩

theorem mem_putWrite {c : Ctl} {n : Nat} {a a' : WAccess} (h : a ∈ (c.seq n).writes) (hid : a'.id = a.id) : a' ∈ ((c.putWrite n a').seq n).writes := by
  rw [Ctl.putWrite, Ctl.seq_setSeq_same]
  exact mem_map_replace h hid

theorem rehWrite_keeps (c : Ctl) (n : Nat) (a : WAccess) (code : WLane → Nat) : ∃ x, c.rehWrite n a code = { c with reh := x } := by
  rw [Ctl.rehWrite]
  split
  · exact ⟨_, rfl⟩
  · exact ⟨c.reh, rfl⟩

theorem groupIssue_next {s : State} {n : Nat} {a : WAccess} (hlive : s.live) (hn : n < 104)
    (hfind : ((s.c.seq n).writes.find? fun x => !x.issued && decide (x.t ≤ s.c.ec)) = some a) :
    ∃ a', a'.id = a.id ∧ a'.issued = true ∧ exec (.wingGroupIssue n) s = .next (s.units (s.c.putWrite n a')) := by
  refine ⟨{ a with issued := true, via := s.c.routeOf n (a.own.map fun l => l.gi), first := a.first || a.own.isEmpty, done := a.done || a.own.isEmpty },
    rfl, rfl, (onUnit_next (decide_eq_true hn) hlive.2 fun c => c.groupIssue n).trans ?_⟩
  rw [Ctl.groupIssue, hfind]
  simp only [hlive.1, if_true]
  rfl

theorem statusEc_of_regs {c d : Ctl} (h : d.regs = c.regs) (a : WAccess) : d.statusEc a = c.statusEc a := by
  simp only [Ctl.statusEc, Ctl.writeLat, fld_of_regs h]

/-- The sequencer after its access `a` has reported. -/
def Seq.tell (q : Seq) (a : WAccess) : Seq := { q with writes := q.writes.map fun y => if y.id = a.id then { a with told := true } else y }

theorem writeStatus_next {s : State} {n : Nat} {a : WAccess} {l : WLane} (hlive : s.live) (hn : n < 104)
    (hfind : ((s.c.seq n).writes.find? fun x => !x.told) = some a) (hlanes : a.lanes = [l]) (hown : l.follow = none) (hdone : a.done = true)
    (hec : s.c.statusEc a ≤ s.c.ec) :
    ∃ x, exec (.writeStatus n) s = .next (s.units { ({ s.c with reh := x } : Ctl).setSeq n ((s.c.seq n).tell a).prune with
      stOut := Tab.set {} s.c.stOut n (StatusOut.mk (s.c.statusEc a) true a.seqNo a.mask (BitVec.ofNat 16 (l.code.toNat <<< (2 * l.lane)))) }) := by
  have hsome : a.own.isEmpty = false := by simp [WAccess.own, hlanes, hown]
  have hsettled : (s.c.seq n).settled a = true := by simp [Seq.settled, hdone, hlanes, hown]
  have hcode : (a.lanes.map fun l => ((s.c.seq n).laneCode l).toNat <<< (2 * l.lane)).foldl (fun x y => x + y) 0 = l.code.toNat <<< (2 * l.lane) := by
    simp [hlanes, Seq.laneCode, hown]
  obtain ⟨x, hx⟩ := rehWrite_keeps s.c n a fun l => (((s.c.seq n).tell a).laneCode l).toNat
  refine ⟨x, (onUnit_next (decide_eq_true hn) hlive.2 fun c => c.writeStatus n).trans ?_⟩
  rw [Seq.tell] at hx
  rw [Ctl.writeStatus, hfind]
  simp only [hsome, Bool.false_eq_true, if_false, hlive.1, hec, hsettled, and_self, if_true, hx, hcode]
  rw [statusEc_of_regs (c := s.c) (by rfl)]
  rfl

theorem wingIssueAndStatus : wingIssueAndStatusRule := by
  refine ⟨fun s n a hlive hn hfind => ?_, fun s n a l hlive hn hfind hlanes hown _ hdone hec => ?_⟩
  · obtain ⟨a', hid, hissued, hexec⟩ := groupIssue_next hlive hn hfind
    have hseq : (s.c.putWrite n a').seq n = { s.c.seq n with writes := (s.c.seq n).writes.map fun y => if y.id = a'.id then a' else y } :=
      Ctl.seq_setSeq_same _ _ _
    refine ⟨_, hexec, ?_, ?_, ?_, a', mem_putWrite (List.mem_of_find?_eq_some hfind) hid, hid, hissued⟩
    · rw [State.units, hseq]
      rfl
    · rw [State.units, hseq]
    · rw [State.units, hseq, List.length_map]
  · obtain ⟨x, hexec⟩ := writeStatus_next hlive hn hfind hlanes hown hdone hec
    refine ⟨_, hexec, rfl, fun m hm => ?_, ?_⟩
    · exact Ctl.seq_setSeq_ne ({ s.c with reh := x } : Ctl) hm _
    · simp only [State.units, Tab.get_set_same]
/-! ### READ_DELIVERY (R40 to R43, R141) -/

/-- The units whose state a read delivery of sequencer `n` rests on are those of `c`, and so are the other sequencers and every bus. -/
structure SameBut (n : Nat) (c d : Ctl) : Prop where
  others : ∀ m, m ≠ n → d.seq m = c.seq m
  buses  : d.rdOut = c.rdOut
  dark   : d.blackout = c.blackout

theorem SameBut.refl (n : Nat) (c : Ctl) : SameBut n c c := ⟨fun _ _ => rfl, rfl, rfl⟩

theorem SameBut.trans {n : Nat} {c d e : Ctl} (h : SameBut n c d) (h' : SameBut n d e) : SameBut n c e :=
  ⟨fun m hm => (h'.others m hm).trans (h.others m hm), h'.buses.trans h.buses, h'.dark.trans h.dark⟩

theorem seq_of_besideCv {c d : Ctl} (h : d.besideCv = c.besideCv) (n : Nat) : d.seq n = c.seq n := by rw [Ctl.seq, seqs_of_besideCv h, Ctl.seq]

theorem sameBut_of_besideCv (n : Nat) {c d : Ctl} (h : d.besideCv = c.besideCv) : SameBut n c d :=
  ⟨fun m _ => seq_of_besideCv h m, (congrArg Ctl.rdOut h :), (congrArg Ctl.blackout h :)⟩

theorem sameBut_setSeq (n : Nat) (c : Ctl) (q : Seq) : SameBut n c (c.setSeq n q) := ⟨fun _ hm => c.seq_setSeq_ne hm q, rfl, rfl⟩

theorem sameBut_readJudge (c : Ctl) (n : Nat) (r r' : RAccess) : SameBut n c (c.readJudge n r r') := by
  obtain ⟨v, d, hd, hjudge⟩ := readJudge_eq c n r r'
  rw [hjudge, Ctl.putRead]
  exact (sameBut_of_besideCv n hd).trans (sameBut_setSeq n d _)

/-- A judgement changes no more of its sequencer than the read access it puts back. -/
theorem seq_readJudge (c : Ctl) (n : Nat) (r r' : RAccess) :
    ∃ v, (c.readJudge n r r').seq n = { c.seq n with reads := (c.seq n).reads.map fun y => if y.id = r'.id then { r' with viol := v } else y } := by
  obtain ⟨v, d, hd, hjudge⟩ := readJudge_eq c n r r'
  exact ⟨v, by rw [hjudge, Ctl.putRead, Ctl.seq_setSeq_same, seq_of_besideCv hd]⟩

/-- A read access as the taking of forwarded values leaves it: one that waits for none is as it was. -/
structure Forwarded (f : RAccess → RAccess) : Prop where
  id      : ∀ x, (f x).id = x.id
  deliver : ∀ x, (f x).deliver = x.deliver
  done    : ∀ x, (f x).done = x.done
  idle    : ∀ x, x.waits = false → f x = x

theorem forwarded_update {f : RAccess → RAccess} (hf : Forwarded f) {r r' : RAccess} (hwaits : r.waits = true) (hid : r'.id = r.id)
    (hdeliver : r'.deliver = r.deliver) (hdone : r'.done = r.done) : Forwarded (Function.update f r r') := by
  refine ⟨fun x => ?_, fun x => ?_, fun x => ?_, fun x hx => ?_⟩ <;> obtain rfl | hne := eq_or_ne x r
  · rw [Function.update_self, hid]
  · rw [Function.update_of_ne hne, hf.id]
  · rw [Function.update_self, hdeliver]
  · rw [Function.update_of_ne hne, hf.deliver]
  · rw [Function.update_self, hdone]
  · rw [Function.update_of_ne hne, hf.done]
  · rw [hwaits] at hx
    cases hx
  · rw [Function.update_of_ne hne, hf.idle x hx]

/-- With numbers of their own, the read that is put back under its number is one. -/
theorem map_replace_forwarded {f : RAccess → RAccess} (hf : Forwarded f) {rs : List RAccess} (hnodup : (rs.map fun x => x.id).Nodup) {r r' : RAccess}
    (hr : r ∈ rs) (hid : r'.id = r.id) : ((rs.map f).map fun y => if y.id = r'.id then r' else y) = rs.map (Function.update f r r') := by
  rw [List.map_map]
  refine List.map_congr_left fun x hx => ?_
  rw [Function.comp_apply, hf.id, hid]
  split
  · next h => rw [List.inj_on_of_nodup_map hnodup hx hr h, Function.update_self]
  · next h => rw [Function.update_of_ne fun he => h (congrArg RAccess.id he)]

theorem seq_readJudge_forwarded {c : Ctl} {n : Nat} {q : Seq} {f : RAccess → RAccess} (hf : Forwarded f) (hnodup : (q.reads.map fun x => x.id).Nodup)
    (hq : c.seq n = { q with reads := q.reads.map f }) {r : RAccess} (hr : r ∈ q.reads) (hwaits : r.waits = true) {r' : RAccess} (hid : r'.id = r.id)
    (hdeliver : r'.deliver = r.deliver) (hdone : r'.done = r.done) :
    ∃ f', Forwarded f' ∧ (c.readJudge n r r').seq n = { q with reads := q.reads.map f' } := by
  obtain ⟨v, hv⟩ := seq_readJudge c n r r'
  refine ⟨_, forwarded_update hf (r' := { r' with viol := v }) hwaits hid hdeliver hdone, ?_⟩
  rw [hv, hq, ← map_replace_forwarded hf hnodup hr (r' := { r' with viol := v }) hid]

/-- One read access of sequencer `n` takes its forwarded values. -/
def Ctl.forwardsRead (upto e n : Nat) (c : Ctl) (r : RAccess) : Ctl :=
  c.readJudge n r { r with lanes := r.lanes.map (c.forwardLane (c.seq n) r upto e) }

theorem forwardsOf_eq (c : Ctl) (upto e n : Nat) : c.forwardsOf upto e n = ((c.seq n).reads.filter RAccess.waits).foldl (Ctl.forwardsRead upto e n) c := rfl

theorem foldl_forwardsRead (upto e n : Nat) {q : Seq} (hnodup : (q.reads.map fun x => x.id).Nodup) :
    ∀ (l : List RAccess) (c : Ctl) (f : RAccess → RAccess), (∀ r ∈ l, r ∈ q.reads ∧ r.waits = true) → Forwarded f →
      c.seq n = { q with reads := q.reads.map f } →
      SameBut n c (l.foldl (Ctl.forwardsRead upto e n) c) ∧
        ∃ f', Forwarded f' ∧ (l.foldl (Ctl.forwardsRead upto e n) c).seq n = { q with reads := q.reads.map f' } := by
  intro l
  induction l with
  | nil => exact fun c f _ hf hq => ⟨SameBut.refl n c, f, hf, hq⟩
  | cons r l ih =>
    intro c f hl hf hq
    obtain ⟨hr, hwaits⟩ := hl r (List.mem_cons_self ..)
    obtain ⟨f₁, hf₁, hq₁⟩ := seq_readJudge_forwarded hf hnodup hq hr hwaits
      (r' := { r with lanes := r.lanes.map (c.forwardLane (c.seq n) r upto e) }) rfl rfl rfl
    obtain ⟨hsame, f', hf', hq'⟩ := ih _ f₁ (fun x hx => hl x (List.mem_cons_of_mem _ hx)) hf₁ hq₁
    exact ⟨(sameBut_readJudge c n r _).trans hsame, f', hf', hq'⟩

/-- The reads that wait for no forwarded value stay as they are (R141). -/
theorem forwardsOf_keeps (c : Ctl) (upto e n : Nat) (hnodup : ((c.seq n).reads.map fun x => x.id).Nodup) :
    SameBut n c (c.forwardsOf upto e n) ∧ ∃ f, Forwarded f ∧ (c.forwardsOf upto e n).seq n = { c.seq n with reads := (c.seq n).reads.map f } := by
  rw [forwardsOf_eq]
  exact foldl_forwardsRead upto e n hnodup _ c id (fun r hr => by simpa using List.mem_filter.1 hr) ⟨fun _ => rfl, fun _ => rfl, fun _ => rfl, fun _ _ => rfl⟩
    (by rw [List.map_id])

/-- The next delivery is of the same read access. -/
theorem nextDelivery_forwarded {q : Seq} {f : RAccess → RAccess} (hf : Forwarded f) {e : Nat} {r : RAccess} (h : q.nextDelivery e = some r)
    (hwaits : r.waits = false) : ({ q with reads := q.reads.map f } : Seq).nextDelivery e = some r := by
  rw [Seq.nextDelivery] at h ⊢
  simp only [List.filter_map, Function.comp_def, hf.done, hf.deliver, List.find?_map, List.all_map, hf.id] at h ⊢
  rw [h, Option.map_some, hf.idle r hwaits]

/-! ### The bus (R40, R42, R43) -/

/-- The number whose bits are the lanes that satisfy `p`, lane 0 first. -/
def maskNat (p : OutLane → Bool) : List OutLane → Nat
  | [] => 0
  | x :: l => Nat.bit (p x) (maskNat p l)

theorem foldl_add_double (l : List Nat) (b : Nat) : (l.map fun x => 2 * x).foldl (fun a b => a + b) (2 * b) = 2 * l.foldl (fun a b => a + b) b := by
  induction l generalizing b with
  | nil => rfl
  | cons x l ih => rw [List.map_cons, List.foldl_cons, List.foldl_cons, ← Nat.mul_add, ih]

theorem foldl_add_init (l : List Nat) (b : Nat) : l.foldl (fun a b => a + b) b = b + l.foldl (fun a b => a + b) 0 := by
  induction l generalizing b with
  | nil => rfl
  | cons x l ih => rw [List.foldl_cons, List.foldl_cons, ih, ih (0 + x)]; omega

theorem foldl_laneBits (p : OutLane → Bool) (l : List OutLane) :
    (l.mapIdx fun k x => if p x then 2 ^ k else 0).foldl (fun a b => a + b) 0 = maskNat p l := by
  induction l with
  | nil => rfl
  | cons x l ih =>
    have hshift : (l.mapIdx fun k y => if p y = true then 2 ^ (k + 1) else 0) = (l.mapIdx fun k y => if p y = true then 2 ^ k else 0).map fun b => 2 * b := by
      refine List.ext_getElem? fun i => ?_
      rw [List.getElem?_map, List.getElem?_mapIdx, List.getElem?_mapIdx, Option.map_map]
      refine congrArg (fun f => Option.map f l[i]?) (funext fun y => ?_)
      rw [Function.comp_apply, mul_ite, Nat.pow_succ']
    rw [List.mapIdx_cons, List.foldl_cons, hshift, foldl_add_init, maskNat, Nat.bit_val, ← ih, ← foldl_add_double _ 0]
    cases p x
    · simp
    · simp [Nat.add_comm]

theorem testBit_maskNat (p : OutLane → Bool) (l : List OutLane) (k : Nat) : (maskNat p l).testBit k = (l[k]?).any p := by
  induction l generalizing k with
  | nil => simp [maskNat]
  | cons x l ih =>
    cases k with
    | zero => simp [maskNat]
    | succ k => rw [maskNat, Nat.testBit_bit_succ, ih, List.getElem?_cons_succ]

theorem maskNat_true (l : List OutLane) : maskNat (fun _ => true) l = 2 ^ l.length - 1 := by
  induction l with
  | nil => rfl
  | cons x l ih =>
    have := Nat.two_pow_pos l.length
    rw [maskNat, Nat.bit_val, ih, List.length_cons, Nat.pow_succ]
    simp only [Bool.toNat_true]
    omega

theorem laneMask_eq (l : List OutLane) (p : OutLane → Bool) : laneMask l p = BitVec.ofNat 8 (maskNat p l) := by rw [laneMask, foldl_laneBits]

/-- Bit `k` of a mask of at most eight lanes says whether lane `k` satisfies the property. -/
theorem laneMask_getLsbD {l : List OutLane} (h : l.length ≤ 8) (p : OutLane → Bool) {k : Nat} {x : OutLane} (hk : l[k]? = some x) :
    (laneMask l p).getLsbD k = p x := by
  have hlt := (List.getElem?_eq_some_iff.1 hk).1
  rw [laneMask_eq, BitVec.getLsbD_ofNat, testBit_maskNat, hk, decide_eq_true (by omega), Bool.true_and, Option.any_some]

/-- The bus with lanes `l` in ec `e`. -/
def busOf (e : Nat) (l : List OutLane) : ReadOut :=
  { ec := e, valid := true, lanes := laneMask l fun _ => true, data := l.map fun x => x.granule, pois := laneMask l fun x => gPoison x.granule,
    rep := laneMask l fun x => x.rep }

theorem drive_keeps {c : Ctl} (hblack : c.blackout = false) (n e : Nat) (l : List OutLane) :
    ∃ d, Ctl.besideCv d = c.besideCv ∧ c.drive n e l = { d with rdOut := Tab.set {} d.rdOut n (busOf e l) } :=
  ⟨c.satAdd (oPstat n) pstat_POIS ((l.filter fun x => gPoison x.granule).length), besideCv_satAdd c _ _ _,
    by simp only [Ctl.drive, hblack, Bool.false_eq_true, if_false, busOf]⟩

/-- A plain lane on the bus (R42). -/
def RLane.out (l : RLane) : OutLane := { granule := l.granule, rep := l.rep }

theorem readDeliver_keeps {c : Ctl} (hblack : c.blackout = false) (n : Nat) {r : RAccess} (hdropped : r.dropped = false) (hmode : r.opmode = 0) :
    ∃ q d, Ctl.besideCv d = (c.setSeq n q).besideCv ∧
      c.readDeliver n r = { d with rdOut := Tab.set {} d.rdOut n (busOf r.deliver (r.lanes.map RLane.out)) } := by
  have hlanes : ∀ (q : Seq) (r' : RAccess), r'.opmode = 0 → q.deliverLanes r' = (r'.lanes.map RLane.out, 0) := fun q r' h => by
    simp [Seq.deliverLanes, h, RLane.out]
  simp only [Ctl.readDeliver, hdropped, Bool.false_eq_true, if_false, hlanes, hmode, or_true, if_true]
  exact ⟨_, drive_keeps (by exact hblack) n r.deliver _⟩

/-- The delivery of the read access `r` of a state whose units are those of `s` beside sequencer `n`. -/
theorem drives_of_readDeliver {s : State} {n : Nat} {c : Ctl} {r : RAccess} (hblack : s.c.blackout = false) (hsame : SameBut n s.c c)
    (hexec : exec (.readDelivery n) s = .next (s.units (c.readDeliver n r))) (hdropped : r.dropped = false) (hmode : r.opmode = 0) (hlen : r.lanes.length ≤ 8) :
    Drives s (s.units (c.readDeliver n r)) n r.deliver (busOf r.deliver (r.lanes.map RLane.out)) := by
  obtain ⟨q, d, hd, heq⟩ := readDeliver_keeps (hsame.dark.trans hblack) n hdropped hmode
  have hall := hsame.trans ((sameBut_setSeq n c q).trans (sameBut_of_besideCv n hd))
  have hlen' : (r.lanes.map RLane.out).length ≤ 8 := by rwa [List.length_map]
  rw [heq] at hexec ⊢
  refine ⟨hexec, ?_, rfl, rfl, ?_, fun k g hk => ?_, fun m hm => ⟨?_, hall.others m hm⟩, rfl⟩
  · simp only [State.units, Tab.get_set_same]
  · simp only [busOf, laneMask_eq, maskNat_true, List.length_map]
  · obtain ⟨x, hx, rfl⟩ := Option.map_eq_some_iff.1 (by simpa only [busOf, List.getElem?_map] using hk)
    exact laneMask_getLsbD hlen' (fun x => gPoison x.granule) (by simpa only [List.getElem?_map] using hx)
  · simp only [State.units, Tab.get_set_ne _ _ _ hm, hall.buses]

theorem readDelivery_exec {s : State} {n : Nat} (hwork : s.working) (hn : n < 104) {r : RAccess}
    (hnext : ((s.c.forwardsOf s.c.bc s.c.ec n).seq n).nextDelivery s.c.ec = some r) :
    exec (.readDelivery n) s = .next (s.units (if (s.c.forwardsOf s.c.bc s.c.ec n).delivers ((s.c.forwardsOf s.c.bc s.c.ec n).seq n) r
      then (s.c.forwardsOf s.c.bc s.c.ec n).readDeliver n r else s.c)) := by
  obtain ⟨⟨hready, hfrozen⟩, hblack⟩ := hwork
  refine (onUnit_next (decide_eq_true hn) hfrozen fun c => c.readDelivery n).trans ?_
  simp only [Ctl.readDelivery, hready, hblack, Bool.false_eq_true, not_false_eq_true, and_self, if_true, hnext, true_and]
  rfl

theorem delivers_of_untiled (c : Ctl) (q : Seq) {r : RAccess} (hwaits : r.waits = false) (hchecked : r.checked = true) (htile : r.tile = none) :
    c.delivers q r = true := by
  simp [Ctl.delivers, hchecked, hwaits, htile]

theorem readDeliveryDrivesTheBus : readDeliveryDrivesTheBusRule := by
  intro s n r hwork hn hdel hmode htile hlen
  obtain ⟨hnext, hdelivers, hdropped, hwaits, hnodup⟩ := hdel
  obtain ⟨hsame, f, hf, hseq⟩ := forwardsOf_keeps s.c s.c.bc s.c.ec n hnodup
  have hchecked : r.checked = true := by
    rw [Ctl.delivers, Bool.and_assoc, Bool.and_eq_true] at hdelivers
    exact hdelivers.1
  have hexec := readDelivery_exec hwork hn ((congrArg (fun q => Seq.nextDelivery q s.c.ec) hseq).trans (nextDelivery_forwarded hf hnext hwaits))
  rw [delivers_of_untiled _ _ hwaits hchecked htile, if_pos rfl] at hexec
  refine ⟨_, _, drives_of_readDeliver hwork.2 hsame hexec hdropped hmode hlen, ?_, fun k l hk => ?_⟩
  · rw [busOf, List.map_map]
    rfl
  · exact laneMask_getLsbD (by rwa [List.length_map]) (fun x => x.rep) (x := l.out) (by rw [List.getElem?_map, hk, Option.map_some])

/-! ### Forwarded lanes (R141) -/

section
variable {c : Ctl} {q : Seq} {r : RAccess} {upto e : Nat} {l : RLane} {x : Nat × Nat} {y : WAccess × WLane}

theorem forwardLane_of_fwd_none (h : l.fwd = none) : c.forwardLane q r upto e l = l := by simp only [Ctl.forwardLane, h]

/-- Of a write that is over in time the lane takes the granule as the write left it. -/
theorem forwardLane_formed (hfwd : l.fwd = some x) (hcause : l.cause = 0) (hgot : l.got = false) (hsource : q.source x = some y)
    (hlate : y.1.lateFor r.deliver = false) (hdone : y.1.done = true) (hover : y.1.lastBc < upto) (htag : c.tagChecked l.gi = false)
    (hdropped : r.dropped = false) : c.forwardLane q r upto e l = { l with got := true, granule := y.2.after, bad := gPoison y.2.after } := by
  simp only [Ctl.forwardLane, hfwd, hcause, ne_eq, not_true_eq_false, hgot, Bool.false_eq_true, or_self, if_false, hsource, hlate, hdone, hover, and_self,
    if_true, htag, false_and, hdropped]

/-- Of a write that may yet be over in time the lane waits. -/
theorem forwardLane_open (hfwd : l.fwd = some x) (hsource : q.source x = some y) (hlate : y.1.lateFor r.deliver = false) (hdone : y.1.done = false) :
    c.forwardLane q r upto e l = l := by
  simp only [Ctl.forwardLane, hfwd, hsource, hlate, Bool.false_eq_true, if_false, hdone, false_and, ite_self]

end

theorem waits_eq_false_iff {r : RAccess} (hchecked : r.checked = true) (hdone : r.done = false) :
    r.waits = false ↔ ∀ l ∈ r.lanes, l.fwd.isSome = true → l.cause = 0 → l.got = true := by
  simp [RAccess.waits, hchecked, hdone]

section
variable {c : Ctl} {n : Nat} {r : RAccess} (upto e : Nat)

/-- The only read of a channel takes its forwarded values. -/
theorem forwardsOf_waiting (hreads : (c.seq n).reads = [r]) (h : r.waits = true) : c.forwardsOf upto e n = c.forwardsRead upto e n r := by
  rw [forwardsOf_eq, hreads, List.filter_cons_of_pos h]
  rfl

theorem forwardsOf_idle (hreads : (c.seq n).reads = [r]) (h : r.waits = false) : c.forwardsOf upto e n = c := by
  rw [forwardsOf_eq, hreads, List.filter_cons_of_neg (by simp [h])]
  rfl

theorem reads_forwardsRead (hreads : (c.seq n).reads = [r]) :
    ∃ v, ((c.forwardsRead upto e n r).seq n).reads = [{ r with lanes := r.lanes.map (c.forwardLane (c.seq n) r upto e), viol := v }] := by
  obtain ⟨v, hv⟩ := seq_readJudge c n r { r with lanes := r.lanes.map (c.forwardLane (c.seq n) r upto e) }
  refine ⟨v, (congrArg Seq.reads hv).trans ?_⟩
  simp only [hreads, List.map_cons, List.map_nil, if_true]

/-- The only read of a channel after its forwarded values have been taken. -/
theorem reads_forwardsOf (hreads : (c.seq n).reads = [r]) (hchecked : r.checked = true) (hdone : r.done = false)
    (hidle : ∀ l ∈ r.lanes, l.cause = 0 ∧ l.got = false) :
    SameBut n c (c.forwardsOf upto e n) ∧
      ∃ v, ((c.forwardsOf upto e n).seq n).reads = [{ r with lanes := r.lanes.map (c.forwardLane (c.seq n) r upto e), viol := v }] := by
  cases h : r.waits with
  | true =>
    rw [forwardsOf_waiting upto e hreads h]
    exact ⟨sameBut_readJudge c n r _, reads_forwardsRead upto e hreads⟩
  | false =>
    have hfwd : ∀ l ∈ r.lanes, l.fwd = none := fun l hl => by
      by_contra hne
      have hgot := (waits_eq_false_iff hchecked hdone).1 h l hl (Option.isSome_iff_ne_none.2 hne) (hidle l hl).1
      rw [(hidle l hl).2] at hgot
      cases hgot
    have hmap : r.lanes.map (c.forwardLane (c.seq n) r upto e) = r.lanes :=
      (List.map_congr_left fun l hl => forwardLane_of_fwd_none (hfwd l hl)).trans (List.map_id _)
    rw [forwardsOf_idle upto e hreads h, hmap]
    exact ⟨SameBut.refl n c, r.viol, hreads⟩

end

theorem nextDelivery_single {q : Seq} {r : RAccess} (hreads : q.reads = [r]) (hdone : r.done = false) {e : Nat} (hec : r.deliver ≤ e) :
    q.nextDelivery e = some r := by
  simp [Seq.nextDelivery, hreads, hdone, hec]

theorem nextDelivery_mem {q : Seq} {r : RAccess} {e : Nat} (h : q.nextDelivery e = some r) : r ∈ q.reads :=
  List.mem_of_mem_filter (List.mem_of_find?_eq_some h)

/-- A read access that waits is not delivered (R141). -/
theorem readDelivery_waiting {s : State} {n : Nat} (hwork : s.working) (hn : n < 104)
    (hwaits : ∀ r ∈ ((s.c.forwardsOf s.c.bc s.c.ec n).seq n).reads, r.waits = true) (hblack : (s.c.forwardsOf s.c.bc s.c.ec n).blackout = false) :
    exec (.readDelivery n) s = .next s := by
  cases hnext : ((s.c.forwardsOf s.c.bc s.c.ec n).seq n).nextDelivery s.c.ec with
  | none =>
    obtain ⟨⟨hready, hfrozen⟩, hdark⟩ := hwork
    refine (onUnit_next (decide_eq_true hn) hfrozen fun c => c.readDelivery n).trans ?_
    simp only [Ctl.readDelivery, hready, hdark, Bool.false_eq_true, not_false_eq_true, and_self, if_true, hnext]
  | some r =>
    have hnot : (s.c.forwardsOf s.c.bc s.c.ec n).delivers ((s.c.forwardsOf s.c.bc s.c.ec n).seq n) r = false := by
      simp [Ctl.delivers, hblack, hwaits r (nextDelivery_mem hnext)]
    rw [readDelivery_exec hwork hn hnext, hnot]
    rfl

/-- A plain read that is alone on its channel is delivered once it waits for nothing. -/
theorem drives_of_single {s : State} {n : Nat} (hwork : s.working) (hn : n < 104) (hsame : SameBut n s.c (s.c.forwardsOf s.c.bc s.c.ec n)) {r : RAccess}
    (hreads : ((s.c.forwardsOf s.c.bc s.c.ec n).seq n).reads = [r]) (hwaits : r.waits = false) (hchecked : r.checked = true) (hdone : r.done = false)
    (hdropped : r.dropped = false) (hmode : r.opmode = 0) (htile : r.tile = none) (hec : r.deliver ≤ s.c.ec) (hlen : r.lanes.length ≤ 8) :
    Drives s (s.units ((s.c.forwardsOf s.c.bc s.c.ec n).readDeliver n r)) n r.deliver (busOf r.deliver (r.lanes.map RLane.out)) := by
  have hexec := readDelivery_exec hwork hn (nextDelivery_single hreads hdone hec)
  rw [delivers_of_untiled _ _ hwaits hchecked htile, if_pos rfl] at hexec
  exact drives_of_readDeliver hwork.2 hsame hexec hdropped hmode hlen

theorem forwardedLanesAreDelivered : forwardedLanesAreDeliveredRule := by
  refine ⟨fun s n r hwork hn hreads hchecked hdone hdropped hmode htile hec hlen hlanes => ?_,
    fun s n r l x y hwork hn hreads hchecked hdone hl hcause hgot hfwd hsource hlate hopen => ?_⟩
  · obtain ⟨hsame, v, hreads'⟩ := reads_forwardsOf s.c.bc s.c.ec hreads hchecked hdone fun l hl => ⟨(hlanes l hl).1, (hlanes l hl).2.1⟩
    have hlane : ∀ l ∈ r.lanes, (s.c.forwardLane (s.c.seq n) r s.c.bc s.c.ec l).granule =
        (match l.fwd with
          | none => l.granule
          | some x => ((s.c.seq n).source x).elim l.granule fun y => y.2.after) ∧
        ((s.c.forwardLane (s.c.seq n) r s.c.bc s.c.ec l).fwd.isSome = true → (s.c.forwardLane (s.c.seq n) r s.c.bc s.c.ec l).got = true) := fun l hl => by
      obtain ⟨hcause, hgot, hfwd⟩ := hlanes l hl
      cases h : l.fwd with
      | none => simp [forwardLane_of_fwd_none h, h]
      | some x =>
        obtain ⟨y, hsource, hlate, hover, hlast, htag⟩ := hfwd x h
        simp [forwardLane_formed h hcause hgot hsource hlate hover hlast htag hdropped, hsource]
    have hwaits := (waits_eq_false_iff (r := { r with lanes := r.lanes.map (s.c.forwardLane (s.c.seq n) r s.c.bc s.c.ec), viol := v }) hchecked hdone).2
      fun l hl hsome _ => by
        obtain ⟨l₀, hl₀, rfl⟩ := List.mem_map.1 hl
        exact (hlane l₀ hl₀).2 hsome
    have hdrives := drives_of_single hwork hn hsame hreads' hwaits hchecked hdone hdropped hmode htile hec (by rwa [List.length_map])
    refine ⟨_, _, hdrives, ?_⟩
    simp only [busOf, List.map_map]
    exact List.map_congr_left fun l hl => (hlane l hl).1
  · have hwaits : ∀ r' : RAccess, r'.checked = true → r'.done = false → l ∈ r'.lanes → r'.waits = true := fun r' hc hd hmem => by
      by_contra hne
      have h := (waits_eq_false_iff hc hd).1 (Bool.eq_false_iff.2 hne) l hmem (by rw [hfwd]; rfl) hcause
      rw [hgot] at h
      cases h
    obtain ⟨v, hreads'⟩ := reads_forwardsRead (n := n) s.c.bc s.c.ec hreads
    have hof := forwardsOf_waiting s.c.bc s.c.ec hreads (hwaits r hchecked hdone hl)
    refine readDelivery_waiting hwork hn (fun r' hr' => ?_) ?_
    · rw [hof, hreads', List.mem_singleton] at hr'
      subst hr'
      exact hwaits _ hchecked hdone (List.mem_map.2 ⟨l, hl, forwardLane_open hfwd hsource hlate hopen⟩)
    · rw [hof]
      exact (sameBut_readJudge s.c n r _).dark.trans hwork.2

/-- Settles O21: wingIssueAndStatus, readDeliveryDrivesTheBus, forwardedLanesAreDelivered. -/
theorem wingAndReadDelivery : Obligations.WingAndReadDelivery :=
  ⟨wingIssueAndStatus, readDeliveryDrivesTheBus, forwardedLanesAreDelivered⟩

end Sys2Proof.Machine

end

section
/-! Scheduled accesses of several lanes: plain writes, reads and accumulations (R42, R47, R48, R93, R122, R141). -/

namespace Sys2Proof.Machine

/-- The units and the map that say where a granule is stored are those of `c`, and the sequencers too. -/
structure SameRows (c d : Ctl) : Prop where
  map     : ∀ o, 0x40000 ≤ o → o < 0x40200 → d.reg o = c.reg o
  unders  : d.unders = c.unders
  seqs    : d.seqs = c.seqs
  boot    : d.boot = c.boot
  dark    : d.blackout = c.blackout

theorem giRegion_lt (gi : Nat) : giRegion gi < 64 := Nat.mod_lt _ (by decide)

namespace SameRows

variable {c d e : Ctl}

theorem refl (c : Ctl) : SameRows c c := ⟨fun _ _ _ => rfl, rfl, rfl, rfl, rfl⟩

theorem trans (h : SameRows c d) (k : SameRows d e) : SameRows c e :=
  ⟨fun o ho ho' => (k.map o ho ho').trans (h.map o ho ho'), k.unders.trans h.unders, k.seqs.trans h.seqs, k.boot.trans h.boot, k.dark.trans h.dark⟩

theorem regionFld (h : SameRows c d) {r : Nat} (hr : r < 64) {f : FieldPos} (hf : f.word = 0) : d.fld (oRegion r) f = c.fld (oRegion r) f := by
  rw [Ctl.fld, h.map _ (by simp only [oRegion]; omega) (by simp only [oRegion, hf]; omega), ← Ctl.fld]

theorem place (h : SameRows c d) (gi : Nat) : d.place gi = c.place gi := by
  simp only [Ctl.place, Ctl.slotCluster, fun lo => h.regionFld (f := ⟨0, lo, 8⟩) (giRegion_lt gi) rfl]

theorem under (h : SameRows c d) (q : Nat) : d.under q = c.under q := by rw [Ctl.under, h.unders, ← Ctl.under]

theorem built (h : SameRows c d) (q cl : Nat) : d.built q cl = c.built q cl := by rw [Ctl.built, h.under, ← Ctl.built]

theorem keyOf (h : SameRows c d) (gi : Nat) : d.keyOf (d.place gi) = c.keyOf (c.place gi) := by rw [Ctl.keyOf, h.place, h.built, ← Ctl.keyOf]

theorem repOf (h : SameRows c d) (gi : Nat) : d.repOf gi = c.repOf gi := by
  rw [Ctl.repOf, Ctl.regionRep, h.regionFld (giRegion_lt gi) rfl, ← Ctl.regionRep, ← Ctl.repOf]

theorem putAt (h : SameRows c d) (key : Nat) (g : Granule) : d.putAt key g = c.putAt key g := by
  simp only [Ctl.putAt, h.under]

theorem seq (h : SameRows c d) (n : Nat) : d.seq n = c.seq n := by rw [Ctl.seq, h.seqs, ← Ctl.seq]

theorem of_besideService (h : d.besideService = c.besideService) (hmap : ∀ o, 0x40000 ≤ o → o < 0x40200 → d.reg o = c.reg o) : SameRows c d :=
  ⟨hmap, unders_of_besideService h, (congrArg Ctl.seqs h :), boot_of_besideService h, (congrArg Ctl.blackout h :)⟩

end SameRows

theorem place_quad_lt (c : Ctl) (gi : Nat) : (c.place gi).quad < 4 := by
  have h : c.slotCluster (giRegion gi) (gi % 4) < 2 ^ 8 := Nat.mod_lt _ (Nat.two_pow_pos 8)
  simp only [Ctl.place]
  omega

/-! ### The write of a row -/

theorem reg_cancelWb_ne (c : Ctl) (q : Nat) (p : Nat → Bool) {o : Nat} (h : o ≠ oEccWb q) : (c.cancelWb q p).reg o = c.reg o := by
  have hset : ∀ (d : Ctl) (x y : Tab (List WbEntry)), ({ d with wbq := x, wbNew := y } : Ctl).reg o = d.reg o := fun _ _ _ => rfl
  simp only [Ctl.cancelWb]
  rw [hset]
  split
  · rfl
  · rw [Ctl.satAdd_reg, Ctl.reg_setFld_ne _ _ h]

theorem sameRows_cancelWb (c : Ctl) {q : Nat} (hq : q < 4) (p : Nat → Bool) : SameRows c (c.cancelWb q p) :=
  .of_besideService (besideService_cancelWb c q p) fun o ho _ => reg_cancelWb_ne c q p (by simp only [oEccWb]; omega)

theorem sameRows_cancelScrub (c : Ctl) (q cl : Nat) (p : Nat → Bool) : SameRows c (c.cancelScrub q cl p) :=
  .of_besideService (besideService_cancelScrub c q cl p) fun _ _ _ => rfl

theorem sameRows_wimgTouch (c : Ctl) (gi : Nat) (staging : Bool) : SameRows c (c.wimgTouch gi staging) := by
  refine forAll_keeps (P := SameRows c) (fun k _ d hd => ?_) (.refl c)
  split
  · exact hd.trans (.of_besideService (besideService_wimgWritten d k staging) fun o _ ho => reg_wimgWritten_ne d k staging (by simp only [oWimg]; omega))
  · exact hd

/-- Outside factory test mode a commit writes its row, and leaves alone what says where rows are (R24, R321). -/
theorem commit_keeps {c : Ctl} (hblack : c.blackout = false) (hfac : c.boot.factory = false) {who : Writer} (hwho : who ≠ .service) (gi : Nat) (g : Granule) :
    SameRows c (c.commit who gi g).1 ∧ (c.commit who gi g).2 = c.putAt (c.keyOf (c.place gi)) g := by
  simp only [Ctl.commit, hblack, Bool.false_eq_true, if_false, inject_of_not_factory hfac, if_neg hwho]
  have hsame := ((sameRows_cancelWb c (place_quad_lt c gi) fun k => k == c.keyOf (c.place gi)).trans
    (sameRows_cancelScrub _ (c.place gi).quad (c.built (c.place gi).quad (c.place gi).cluster) fun k => k == c.keyOf (c.place gi))).trans
    (sameRows_wimgTouch _ gi (who == .staging))
  exact ⟨hsame, hsame.putAt _ _⟩

theorem schedCommit_keeps {c : Ctl} (hblack : c.blackout = false) (hfac : c.boot.factory = false) (gi : Nat) (g : Granule) :
    SameRows c (c.schedCommit gi g).1 ∧ (c.schedCommit gi g).2 = c.putAt (c.keyOf (c.place gi)) g := by
  have hrestart : SameRows c (c.restartMerges gi) := ⟨fun _ _ _ => rfl, rfl, rfl, rfl, rfl⟩
  obtain ⟨hsame, hops⟩ := commit_keeps (c := c.restartMerges gi) hblack hfac (who := .other) (by decide) gi g
  rw [Ctl.schedCommit]
  exact ⟨hrestart.trans hsame, hops.trans (by rw [hrestart.keyOf, hrestart.putAt])⟩

/-! ### The rows after writes -/

/-- After a write the rows that it reaches hold its granule. -/
theorem rowAt_putAt_written {c : Ctl} {key k : Nat} (h : KeyWritten c key k) (b : Tab Granule) (g : Granule) :
    rowAt (applyOps b (c.putAt key g)) k = g := by
  rw [KeyWritten] at h
  simp only [Ctl.putAt]
  split
  · next hcopy =>
    rw [applyOps_cons, applyOps_cons, applyOps_nil, rowAt_put, rowAt_put]
    rcases h with rfl | ⟨_, rfl⟩
    · split <;> simp
    · rw [if_pos rfl]
  · next hcopy => rw [applyOps_cons, applyOps_nil, rowAt_put, if_pos (h.resolve_right fun hc => hcopy hc.1)]

/-- A write changes no other row. -/
theorem rowAt_putAt_other {c : Ctl} {key k : Nat} (h : ¬ KeyWritten c key k) (b : Tab Granule) (g : Granule) :
    rowAt (applyOps b (c.putAt key g)) k = rowAt b k := by
  rw [KeyWritten, not_or] at h
  simp only [Ctl.putAt]
  split
  · next hcopy =>
    rw [applyOps_cons, applyOps_cons, applyOps_nil, rowAt_put, rowAt_put, if_neg fun hk => h.2 ⟨hcopy, hk⟩, if_neg h.1]
  · rw [applyOps_cons, applyOps_nil, rowAt_put, if_neg h.1]

theorem applyOps_append (b : Tab Granule) (l m : List BankOp) : applyOps b (l ++ m) = applyOps (applyOps b l) m := List.foldl_append

/-- The operations of writes `ws` of granules to rows, in order. -/
def Ctl.putAll (c : Ctl) (ws : List (Nat × Granule)) : List BankOp := ws.flatMap fun w => c.putAt w.1 w.2

/-- A row holds `g` after writes when each write that reaches it carries `g`, and one does or it held `g` before. -/
theorem rowAt_putAll {c : Ctl} {k : Nat} {g : Granule} {ws : List (Nat × Granule)} (hall : ∀ w ∈ ws, KeyWritten c w.1 k → w.2 = g) (b : Tab Granule)
    (hone : (∃ w ∈ ws, KeyWritten c w.1 k) ∨ rowAt b k = g) : rowAt (applyOps b (c.putAll ws)) k = g := by
  induction ws generalizing b with
  | nil => simpa [Ctl.putAll] using hone
  | cons w ws ih =>
    have hall' : ∀ w ∈ ws, KeyWritten c w.1 k → w.2 = g := fun x hx => hall x (List.mem_cons_of_mem w hx)
    rw [Ctl.putAll, List.flatMap_cons, applyOps_append, ← Ctl.putAll]
    by_cases hw : KeyWritten c w.1 k
    · exact ih hall' _ (Or.inr ((rowAt_putAt_written hw b w.2).trans (hall w (List.mem_cons_self ..) hw)))
    · refine ih hall' _ (hone.imp (fun ⟨x, hx, hk⟩ => ⟨x, (List.mem_cons.1 hx).resolve_left fun he => hw (he ▸ hk), hk⟩) fun hb => ?_)
      rw [rowAt_putAt_other hw, hb]

theorem rowAt_putAll_other {c : Ctl} {k : Nat} {ws : List (Nat × Granule)} (h : ∀ w ∈ ws, ¬ KeyWritten c w.1 k) (b : Tab Granule) :
    rowAt (applyOps b (c.putAll ws)) k = rowAt b k := rowAt_putAll (fun w hw hk => absurd hk (h w hw)) b (Or.inr rfl)

/-! ### A plain write of several lanes (R47, R48) -/

/-- With distinct lanes in ascending order, a lane has the cause decided for it. -/
theorem find_lane {lanes : List WLane} (hasc : lanes.Pairwise fun l m => l.lane < m.lane) (dec : WLane → Cause) {l : WLane} (hl : l ∈ lanes) :
    ((lanes.map fun x => (x, dec x)).find? fun y => decide (y.1.lane = l.lane)) = some (l, dec l) := by
  induction lanes with
  | nil => cases hl
  | cons m lanes ih =>
    obtain ⟨hm, hasc⟩ := List.pairwise_cons.1 hasc
    rw [List.map_cons, List.find?_cons]
    rcases List.mem_cons.1 hl with rfl | hl
    · simp
    · rw [decide_eq_false (Nat.ne_of_lt (hm l hl))]
      exact ih hasc hl

/-- The last of lanes in ascending order is the one that none exceeds. -/
theorem getLast_of_ascending {l : List WLane} (hasc : l.Pairwise fun x y => x.lane < y.lane) {h : WLane} (hmem : h ∈ l) (hmax : ∀ m ∈ l, m.lane ≤ h.lane) :
    l.getLast? = some h := by
  rcases List.eq_nil_or_concat l with rfl | ⟨init, z, rfl⟩
  · cases hmem
  · rw [List.concat_eq_append] at *
    rw [List.getLast?_concat]
    rcases List.mem_append.1 hmem with hin | hz
    · have hlt := (List.pairwise_append.1 hasc).2.2 h hin z (List.mem_singleton_self z)
      have := hmax z (by simp)
      omega
    · rw [List.mem_singleton.1 hz]

section
variable {lanes : List WLane} {dec : WLane → Cause} {gi : Nat}

theorem writerOf_eq : writerOf (lanes.map fun x => (x, dec x)) gi = (lanes.filter fun x => decide (dec x = 0) && decide (x.gi = gi)).getLast? := by
  simp [writerOf, List.filter_map, List.getLast?_map, Function.comp_def]

theorem writerOf_some {w : WLane} (h : writerOf (lanes.map fun x => (x, dec x)) gi = some w) : w ∈ lanes ∧ dec w = 0 ∧ w.gi = gi := by
  rw [writerOf_eq] at h
  simpa using List.mem_of_getLast? h

theorem writerOf_none (h : writerOf (lanes.map fun x => (x, dec x)) gi = none) {l : WLane} (hl : l ∈ lanes) (hgi : l.gi = gi) : dec l ≠ 0 := by
  rw [writerOf_eq, List.getLast?_eq_none_iff, List.filter_eq_nil_iff] at h
  intro hdec
  exact h l hl (by simp [hdec, hgi])

/-- The bank write of a granule takes the data of the highest lane that passes for it (R48). -/
theorem writerOf_highest (hasc : lanes.Pairwise fun l m => l.lane < m.lane) {h : WLane} (hhigh : Highest lanes dec h) (hgi : h.gi = gi) :
    writerOf (lanes.map fun x => (x, dec x)) gi = some h := by
  obtain ⟨hmem, hdec, hmax⟩ := hhigh
  rw [writerOf_eq]
  refine getLast_of_ascending (hasc.sublist List.filter_sublist) (by simp [hmem, hdec, hgi]) fun m hm => ?_
  simp only [List.mem_filter, Bool.and_eq_true, decide_eq_true_eq] at hm
  exact hmax m hm.1 (hm.2.2.trans hgi.symm) hm.2.1

end

/-- The rows that a plain access writes, with their granules. -/
def Ctl.plainWrites (c : Ctl) (dec : List (WLane × Cause)) (gis : List Nat) : List (Nat × Granule) :=
  gis.filterMap fun gi => (writerOf dec gi).map fun w => (c.keyOf (c.place gi), w.granule)

theorem plainCommit_keeps {c : Ctl} {dec : List (WLane × Cause)} (hblack : ∀ gi w, writerOf dec gi = some w → c.blackout = false)
    (hfac : c.boot.factory = false) (gis : List Nat) {d : Ctl} (hd : SameRows c d) :
    SameRows c (Ctl.plainCommit dec gis d).1 ∧ (Ctl.plainCommit dec gis d).2 = c.putAll (c.plainWrites dec gis) := by
  induction gis generalizing d with
  | nil => exact ⟨hd, rfl⟩
  | cons gi gis ih =>
    rw [Ctl.plainCommit, Ctl.plainWrites, List.filterMap_cons, ← Ctl.plainWrites]
    split
    · next hw =>
      rw [hw]
      exact ih hd
    · next w hw =>
      obtain ⟨hsame, hops⟩ := schedCommit_keeps (hd.dark.trans (hblack gi w hw)) ((congrArg Boot.factory hd.boot).trans hfac) gi w.granule
      obtain ⟨hsame', hops'⟩ := ih (hd.trans hsame)
      rw [hw]
      refine ⟨hsame', ?_⟩
      dsimp only
      rw [hops, hops', hd.keyOf, hd.putAt]
      rfl

section
variable {c : Ctl} {lanes : List WLane} {dec : WLane → Cause}

/-- What a plain access writes, by its lanes. -/
theorem mem_plainWrites {x : Nat × Granule} (h : x ∈ c.plainWrites (lanes.map fun y => (y, dec y)) ((lanes.map fun y => (y, dec y)).map fun y => y.1.gi).eraseDups) :
    ∃ w ∈ lanes, dec w = 0 ∧ writerOf (lanes.map fun y => (y, dec y)) w.gi = some w ∧ x = (c.keyOf (c.place w.gi), w.granule) := by
  obtain ⟨gi, -, hgi⟩ := List.mem_filterMap.1 h
  obtain ⟨w, hw, rfl⟩ := Option.map_eq_some_iff.1 hgi
  obtain ⟨hmem, hdec, rfl⟩ := writerOf_some hw
  exact ⟨w, hmem, hdec, hw, rfl⟩

theorem mem_plainWrites_of_highest (hasc : lanes.Pairwise fun l m => l.lane < m.lane) {h : WLane} (hhigh : Highest lanes dec h) :
    (c.keyOf (c.place h.gi), h.granule) ∈ c.plainWrites (lanes.map fun y => (y, dec y)) ((lanes.map fun y => (y, dec y)).map fun y => y.1.gi).eraseDups := by
  refine List.mem_filterMap.2 ⟨h.gi, ?_, by rw [writerOf_highest hasc hhigh rfl, Option.map_some]⟩
  rw [List.mem_eraseDups, List.map_map]
  exact List.mem_map.2 ⟨h, hhigh.1, rfl⟩

/-- Each granule takes the data of its highest passing lane. -/
theorem rowAt_plainWrites (hasc : lanes.Pairwise fun l m => l.lane < m.lane) (hapart : RowsApart c lanes) {h : WLane} (hhigh : Highest lanes dec h) {k : Nat}
    (hk : KeyWritten c (c.keyOf (c.place h.gi)) k) (b : Tab Granule) :
    rowAt (applyOps b (c.putAll (c.plainWrites (lanes.map fun y => (y, dec y)) ((lanes.map fun y => (y, dec y)).map fun y => y.1.gi).eraseDups))) k =
      h.granule := by
  refine rowAt_putAll (fun x hx hxk => ?_) b (Or.inl ⟨_, mem_plainWrites_of_highest hasc hhigh, hk⟩)
  obtain ⟨w, hw, -, hwriter, rfl⟩ := mem_plainWrites hx
  rw [writerOf_highest hasc hhigh (hapart w hw h hhigh.1 k hxk hk).symm, Option.some.injEq] at hwriter
  rw [hwriter]

end

/-- The code of a cause of R93 (R47). -/
theorem causeStatus_violation {x : Nat} (h0 : x ≠ 0) (h5 : x ≤ 5) (fault : Bool) : causeStatus x fault = if x = 1 then 2 else 1 := by
  have hviol : isViolation x = true := decide_eq_true ⟨Nat.one_le_iff_ne_zero.2 h0, h5⟩
  have h67 : (x = 1 ∨ x = 6 ∨ x = 7) ↔ x = 1 := by omega
  simp only [causeStatus, h67, hviol, if_true]

/-- The lanes of a plain access after its bank write (R47). -/
theorem plainResult_spec {c : Ctl} {b : Tab Granule} {n : Nat} {lanes : List WLane} {dec : WLane → Cause} (hasc : lanes.Pairwise fun l m => l.lane < m.lane)
    {l : WLane} (hl : l ∈ lanes) (hfollow : l.follow = none) (hpassed : l.passed = false) :
    (c.plainResult b n (lanes.map fun x => (x, dec x)) l).passed = decide (dec l = 0) ∧
      (∀ h, dec l = 0 → Highest lanes dec h → h.gi = l.gi → (c.plainResult b n (lanes.map fun x => (x, dec x)) l).code = (if h.fault then 3 else 0) ∧
        (c.plainResult b n (lanes.map fun x => (x, dec x)) l).after = h.granule) ∧
      (dec l ≠ 0 → dec l ≤ 5 → (c.plainResult b n (lanes.map fun x => (x, dec x)) l).code = (if dec l = 1 then 2 else 1)) := by
  have hcode := fun fault h0 h5 => causeStatus_violation (x := dec l) h0 h5 fault
  simp only [Ctl.plainResult, hfollow, Option.isSome_none, Bool.false_eq_true, if_false, find_lane hasc dec hl, Option.map_some, Option.getD_some,
    Option.some.injEq]
  split
  · next w hw =>
    refine ⟨rfl, fun h hdec hhigh hgi => ?_, hcode w.fault⟩
    rw [writerOf_highest hasc hhigh hgi, Option.some.injEq] at hw
    rw [hdec, hw]
    exact ⟨rfl, rfl⟩
  · next hw =>
    have hdec := writerOf_none hw hl rfl
    exact ⟨by rw [hpassed, decide_eq_false hdec], fun h h0 => absurd h0 hdec, hcode l.fault⟩

theorem own_of_unfollowed {a : WAccess} (h : ∀ l ∈ a.lanes, l.follow = none) : a.own = a.lanes :=
  List.filter_eq_self.2 fun l hl => decide_eq_true (h l hl)

/-- What a plain access leaves of its units and of the rows. -/
theorem plainAccess_keeps {c : Ctl} {b : Tab Granule} {n : Nat} {a : WAccess} (hfac : c.boot.factory = false) (hown : ∀ l ∈ a.lanes, l.follow = none)
    {dec : WLane → Cause} (hdec : dec = c.plainLane b n a) :
    (c.plainAccess b n a).2 = c.putAll (c.plainWrites (a.lanes.map fun y => (y, dec y)) ((a.lanes.map fun y => (y, dec y)).map fun y => y.1.gi).eraseDups) ∧
      (c.plainAccess b n a).1.seq n = { c.seq n with writes := (c.seq n).writes.map fun y => if y.id = a.id then
        { a with lanes := a.lanes.map (c.plainResult b n (a.lanes.map fun y => (y, dec y))), issued := true, first := true, done := true } else y } := by
  subst hdec
  have hblack : ∀ gi w, writerOf (a.lanes.map fun y => (y, c.plainLane b n a y)) gi = some w → c.blackout = false := fun gi w hw => by
    have h0 := (writerOf_some hw).2.1
    by_contra hne
    rw [Ctl.plainLane, if_pos (by simpa using hne)] at h0
    cases h0
  have hcommit := plainCommit_keeps hblack hfac ((a.lanes.map fun y => (y, c.plainLane b n a y)).map fun y => y.1.gi).eraseDups (SameRows.refl c)
  simp only [Ctl.plainAccess, own_of_unfollowed hown]
  refine ⟨hcommit.2, ?_⟩
  rw [seq_of_besideCv (besideCv_writeViolation _ _ _ _), Ctl.putWrite, Ctl.seq_setSeq_same,
    seq_of_besideCv (besideCv_foldl _ (fun d (l : WLane) => besideCv_countStatus d n l.code) _ _), hcommit.1.seq]

theorem dueWrite_mem {q : Seq} {bc : Nat} {a : WAccess} (h : q.dueWrite bc = some a) : a ∈ q.writes := List.mem_of_find?_eq_some h

theorem exec_plainAccess {s : State} {n : Nat} {a : WAccess} (hlive : s.live) (hn : n < 104) (hdue : (s.c.seq n).dueWrite s.c.bc = some a) (hacc : a.acc = none) :
    exec (.scheduledBankAccess n true) s =
      .next { s with c := (s.c.plainAccess s.banks n a).1, banks := applyOps s.banks (s.c.plainAccess s.banks n a).2 } := by
  refine (onBanks_next (decide_eq_true hn) hlive.2 fun b c => c.bankAccess b n true).trans ?_
  simp only [Ctl.bankAccess, hlive.1, Bool.not_true, Bool.false_eq_true, if_false, if_true, hdue, hacc, Option.isSome_none]

theorem writeOfSeveralLanes : writeOfSeveralLanesRule := by
  intro s n a dec hlive hn hfac hdue hacc hlanes hasc hapart hdec
  obtain ⟨hops, hseq⟩ := plainAccess_keeps (b := s.banks) (n := n) hfac (fun l hl => (hlanes l hl).1) hdec
  refine ⟨_, exec_plainAccess hlive hn hdue hacc, rfl, fun l hl k hk => ?_, fun k hk => ?_,
    { a with lanes := a.lanes.map (s.c.plainResult s.banks n (a.lanes.map fun y => (y, dec y))), issued := true, first := true, done := true },
    ?_, rfl, rfl, rfl, List.length_map .., fun i l l' hi hi' => ?_⟩
  · dsimp only
    rw [hops]
    exact rowAt_plainWrites hasc hapart hl hk s.banks
  · dsimp only
    rw [hops]
    refine rowAt_putAll_other (fun x hx => ?_) s.banks
    obtain ⟨w, hw, hw0, -, rfl⟩ := mem_plainWrites hx
    exact hk w hw hw0
  · dsimp only
    rw [hseq]
    exact mem_map_replace (dueWrite_mem hdue) rfl
  · have hl := List.mem_of_getElem? hi
    rw [List.getElem?_map, hi, Option.map_some, Option.some.injEq] at hi'
    subst hi'
    exact plainResult_spec hasc hl (hlanes l hl).1 (hlanes l hl).2

/-! ### The checks of a scheduled access rest on no count (R93) -/

/-- The units and the registers that the checks of a scheduled access read are those of `c`. -/
structure SameChecks (c d : Ctl) : Prop where
  reg   : ∀ o, 0x40000 ≤ o → d.reg o = c.reg o
  units : d.besideEcc = c.besideEcc

namespace SameChecks

variable {c d e : Ctl}

theorem refl (c : Ctl) : SameChecks c c := ⟨fun _ _ => rfl, rfl⟩

theorem trans (h : SameChecks c d) (k : SameChecks d e) : SameChecks c e := ⟨fun o ho => (k.reg o ho).trans (h.reg o ho), k.units.trans h.units⟩

theorem rows (h : SameChecks c d) : SameRows c d where
  map o ho _ := h.reg o ho
  unders := (congrArg Ctl.unders h.units :)
  seqs := (congrArg Ctl.seqs h.units :)
  boot := (congrArg Ctl.boot h.units :)
  dark := (congrArg Ctl.blackout h.units :)

theorem fld (h : SameChecks c d) {o : Nat} {f : FieldPos} (ho : 0x40000 ≤ o) : d.fld o f = c.fld o f := by
  rw [Ctl.fld, h.reg _ (Nat.le_trans ho (Nat.le_add_right _ _)), ← Ctl.fld]

theorem clk (h : SameChecks c d) : d.clk = c.clk := clk_of_besideEcc h.units
theorem bc (h : SameChecks c d) : d.bc = c.bc := by rw [Ctl.bc, h.clk, ← Ctl.bc]
theorem ec (h : SameChecks c d) : d.ec = c.ec := by rw [Ctl.ec, h.clk, ← Ctl.ec]
theorem cc (h : SameChecks c d) : d.cc = c.cc := by rw [Ctl.cc, h.clk, ← Ctl.cc]

theorem groupOf (h : SameChecks c d) (n : Nat) : d.groupOf n = c.groupOf n := h.fld (by simp only [oSeqCfg]; omega)

theorem tagChecked (h : SameChecks c d) (gi : Nat) : d.tagChecked gi = c.tagChecked gi := by
  rw [Ctl.tagChecked, h.reg _ (by simp only [oTagEn]; omega), h.rows.repOf, ← Ctl.tagChecked]

theorem owner (h : SameChecks c d) (pb : Nat) : d.owner pb = c.owner pb := h.fld (by simp only [oBankOwn]; omega)

theorem striking (h : SameChecks c d) (pb : Nat) : d.striking pb = c.striking pb := by
  rw [Ctl.striking, h.fld (by simp only [oBankOwn]; omega), ← Ctl.striking]

theorem inRange (h : SameChecks c d) (use gi : Nat) : d.inRange use gi = c.inRange use gi := by
  have hregion : ∀ f, d.fld (oRegion (giRegion gi)) f = c.fld (oRegion (giRegion gi)) f := fun f => h.fld (by simp only [oRegion]; omega)
  simp only [Ctl.inRange, hregion]

theorem marching (h : SameChecks c d) (q cl : Nat) : d.marching q cl = c.marching q cl := by
  have hmarches : d.marches = c.marches := (congrArg Ctl.marches h.units :)
  rw [Ctl.marching, hmarches, ← Ctl.marching]

theorem struckNow (h : SameChecks c d) (pb : Nat) : d.struckNow pb = c.struckNow pb := by
  have hstrikes : d.strikes = c.strikes := (congrArg Ctl.strikes h.units :)
  rw [Ctl.struckNow, hstrikes, h.cc, ← Ctl.struckNow]

theorem strikeTakes (h : SameChecks c d) (q cl : Nat) : d.strikeTakes q cl = c.strikeTakes q cl := by
  have hfills : d.fills = c.fills := (congrArg Ctl.fills h.units :)
  simp only [Ctl.strikeTakes, hfills, h.striking, h.owner]

theorem swapGoverns (h : SameChecks c d) (q bc : Nat) : d.swapGoverns q bc = c.swapGoverns q bc := by
  have hswap : d.swap = c.swap := (congrArg Ctl.swap h.units :)
  have hcc : d.swapCc = c.swapCc := (congrArg Ctl.swapCc h.units :)
  rw [Ctl.swapGoverns, hswap, hcc, ← Ctl.swapGoverns]

theorem sheet (h : SameChecks c d) (q a s cl : Nat) : d.sheet q a s cl = c.sheet q a s cl := by
  rw [Ctl.sheet, h.reg _ (by simp only [csOff]; omega), ← Ctl.sheet]

theorem classAt (h : SameChecks c d) (q cl bc : Nat) : d.classAt q cl bc = c.classAt q cl bc := by
  simp only [Ctl.classAt, h.strikeTakes, h.marching, h.rows.built, h.swapGoverns, h.sheet]

theorem ownsSched (h : SameChecks c d) (g gi : Nat) : d.ownsSched g gi = c.ownsSched g gi := by
  simp only [Ctl.ownsSched, Ctl.ownedBy, h.rows.place, h.inRange, h.marching, h.rows.built, h.owner, h.striking, h.struckNow]

theorem mayUse (h : SameChecks c d) (g gi bc : Nat) (acc : Bool) : d.mayUse g gi bc acc = c.mayUse g gi bc acc := by
  simp only [Ctl.mayUse, h.rows.place, h.ownsSched, h.classAt]

theorem bankUses (h : SameChecks c d) (bc pb : Nat) : d.bankUses bc pb = c.bankUses bc pb := by
  simp only [Ctl.bankUses, h.rows.seqs, h.rows.place, h.groupOf, h.mayUse]

theorem secondAt (h : SameChecks c d) (bc pb : Nat) : d.secondAt bc pb = c.secondAt bc pb := by
  simp only [Ctl.secondAt, h.rows.seqs, h.rows.place]

theorem pathCause (h : SameChecks c d) (g gi bc : Nat) : d.pathCause g gi bc = c.pathCause g gi bc := by
  simp only [Ctl.pathCause, h.rows.place, h.ownsSched, h.classAt, h.secondAt, h.bankUses]

theorem storedAt (h : SameChecks c d) (b : Tab Granule) (gi : Nat) : d.storedAt b gi = c.storedAt b gi := by
  rw [Ctl.storedAt, h.rows.repOf, h.rows.keyOf, ← Ctl.storedAt]

theorem stepUses (h : SameChecks c d) (b : Tab Granule) (gi bc : Nat) : d.stepUses b gi bc = c.stepUses b gi bc := by
  simp only [Ctl.stepUses, h.rows.place, h.bankUses, h.tagChecked, h.storedAt]

theorem chainResults (h : SameChecks c d) (gi bc : Nat) : d.chainResults gi bc = c.chainResults gi bc := by
  rw [Ctl.chainResults, h.rows.seqs, areqs_of_besideEcc h.units, ← Ctl.chainResults]

/-- A read through the correction stage is counted, logged and raised beside the checks. -/
theorem bankRead (c : Ctl) (b : Tab Granule) (path req gi bc : Nat) : SameChecks c (c.bankRead b path req gi bc).1 where
  reg o ho := reg_bankRead_ne c b path req gi bc (by
    have hq := place_quad_lt c gi
    simp only [eccRegs, oEccCnt, oFltCnt, oFltSticky, oFltStat, oFltCap, List.mem_cons, List.not_mem_nil, or_false, not_or]
    omega)
  units := besideEcc_bankRead c b path req gi bc

end SameChecks

/-- The granule of a row as the correction stage passes it on. -/
def Ctl.stored (c : Ctl) (b : Tab Granule) (gi : Nat) : Decoded := decodeG (c.repOf gi) (rowAt b (c.keyOf (c.place gi)))

theorem Ctl.stored_eq (c : Ctl) (b : Tab Granule) (gi : Nat) : c.stored b gi = decodeG (c.repOf gi) (rowAt b (c.keyOf (c.place gi))) := rfl

theorem SameChecks.stored {c d : Ctl} (h : SameChecks c d) (b : Tab Granule) (gi : Nat) : d.stored b gi = c.stored b gi := by
  rw [Ctl.stored, h.rows.repOf, h.rows.keyOf, ← Ctl.stored]

theorem bankRead_snd (c : Ctl) (b : Tab Granule) (path req gi bc : Nat) : (c.bankRead b path req gi bc).2 = c.stored b gi := rfl

/-! ### A read of several lanes (R42, R93, R141, R147) -/

/-- Each granule that lower lanes have read is the stored one, unless the port has written it in the issue ec. -/
def SeenStored (c : Ctl) (b : Tab Granule) (n issue : Nat) (seen : List (Nat × Decoded)) : Prop :=
  ∀ y ∈ seen, (isVector n = false ∨ (c.seq n).sameEc issue y.1 = none) → y.2 = c.stored b y.1

/-- Lane `l` of the read access `r` of port `n` as its bank access leaves it. -/
structure LaneTaken (c : Ctl) (b : Tab Granule) (n : Nat) (r : RAccess) (l l' : RLane) : Prop where
  gi     : l'.gi = l.gi
  scale  : l'.scale = l.scale
  fwd    : l'.fwd = l.fwd
  got    : l'.got = l.got
  failed : ∀ x, c.pathCause (c.groupOf n) l.gi r.bankBc = x → x ≠ 0 → l'.cause = x ∧ l'.bad = true ∧ l'.granule = poisonGranule (c.repOf l.gi)
  waits  : c.pathCause (c.groupOf n) l.gi r.bankBc = 0 → l.fwd ≠ none → l'.cause = l.cause ∧ l'.rep = c.repOf l.gi
  hit    : c.pathCause (c.groupOf n) l.gi r.bankBc = 0 → c.tagChecked l.gi = false → l.fwd = none → ∀ e, r.opmode = 0 →
    (c.seq n).raHit l.gi r.issue = some e → l'.cause = l.cause ∧ l'.granule = e.granule ∧ l'.rep = e.rep
  row    : c.pathCause (c.groupOf n) l.gi r.bankBc = 0 → c.tagChecked l.gi = false → l.fwd = none →
    (r.opmode ≠ 0 ∨ (c.seq n).raHit l.gi r.issue = none) → (isVector n = false ∨ (c.seq n).sameEc r.issue l.gi = none) →
    l'.cause = l.cause ∧ l'.granule = (c.stored b l.gi).word ∧ l'.rep = c.repOf l.gi ∧ l'.bad = ((c.stored b l.gi).bad || (c.stored b l.gi).pois)

theorem laneRead_spec {c d : Ctl} (hd : SameChecks c d) (b : Tab Granule) (n : Nat) (r : RAccess) {seen : List (Nat × Decoded)}
    (hseen : SeenStored c b n r.issue seen) (gi : Nat) : SameChecks c (d.laneRead b n r seen gi).1 ∧
      ((isVector n = false ∨ (c.seq n).sameEc r.issue gi = none) → (d.laneRead b n r seen gi).2 = c.stored b gi) := by
  rw [Ctl.laneRead]
  split
  · next y hy =>
    refine ⟨hd, fun h => ?_⟩
    have hgi : y.1 = gi := by simpa using List.find?_some hy
    exact (hseen y (List.mem_of_find?_eq_some hy) (hgi ▸ h)).trans (by rw [hgi])
  · split
    · next g hg =>
      refine ⟨hd, fun h => ?_⟩
      rw [hd.rows.seq] at hg
      rcases h with h | h <;> simp [h] at hg
    · exact ⟨hd.trans (.bankRead d b 0 n gi r.bankBc), fun _ => (bankRead_snd ..).trans (hd.stored b gi)⟩

theorem readLane_spec {c d : Ctl} (hd : SameChecks c d) (b : Tab Granule) (n : Nat) {r : RAccess} (hblack : c.blackout = false) (hcut : r.cut = none)
    (hdropped : r.dropped = false) {seen : List (Nat × Decoded)} (hseen : SeenStored c b n r.issue seen) (l : RLane) :
    SameChecks c (d.readLane b n r seen l).1 ∧ SeenStored c b n r.issue (d.readLane b n r seen l).2.2 ∧ LaneTaken c b n r l (d.readLane b n r seen l).2.1 := by
  have hmode : r.opmode.toNat = 0 ↔ r.opmode = 0 := by rw [← BitVec.toNat_inj]; rfl
  simp only [Ctl.readLane, hd.rows.dark, hblack, hcut, cutBy, Bool.false_eq_true, if_false, hd.pathCause, hd.groupOf, hd.rows.seq, hd.rows.repOf,
    hd.tagChecked, hdropped, hmode]
  split
  · next hx =>
    exact ⟨hd, hseen, rfl, rfl, rfl, rfl, fun x hx' _ => ⟨hx', rfl, rfl⟩, fun h => absurd h hx, fun h => absurd h hx, fun h => absurd h hx⟩
  · next hx =>
    split
    · next hfwd =>
      have hsome : l.fwd ≠ none := Option.isSome_iff_ne_none.1 hfwd
      exact ⟨hd, hseen, rfl, rfl, rfl, rfl, fun x hx' h0 => absurd (hx' ▸ not_not.1 hx) h0, fun _ _ => ⟨rfl, rfl⟩, fun _ _ h => absurd h hsome,
        fun _ _ h => absurd h hsome⟩
    · next hfwd =>
      have hnone : l.fwd = none := by simpa using hfwd
      simp only [hnone, Option.isNone_none, true_and]
      split
      · next e he =>
        obtain ⟨hplain, hhit⟩ := Option.ite_none_right_eq_some.1 he
        have hpass : c.tagChecked l.gi = false → (if (c.tagChecked l.gi && !gFull e.granule) = true then 4 else 0) = 0 := fun h => by simp [h]
        generalize (if (c.tagChecked l.gi && !gFull e.granule) = true then 4 else 0) = z at hpass ⊢
        refine ⟨hd, hseen, ?_⟩
        split
        · exact ⟨rfl, rfl, hnone.symm, rfl, fun x hx' h0 => absurd (hx' ▸ not_not.1 hx) h0, fun _ h => absurd hnone h,
            fun _ _ _ e' _ he' => by rw [Option.some.inj (hhit.symm.trans he')]; exact ⟨rfl, rfl, rfl⟩,
            fun _ _ _ h => absurd hhit (by rw [h.resolve_left (not_not.2 hplain)]; exact nofun)⟩
        · next htag =>
          have hchecked : c.tagChecked l.gi ≠ false := fun h => htag (hpass h)
          exact ⟨rfl, rfl, hnone.symm, rfl, fun x hx' h0 => absurd (hx' ▸ not_not.1 hx) h0, fun _ h => absurd hnone h, fun _ h => absurd h hchecked,
            fun _ h => absurd h hchecked⟩
      · next he =>
        obtain ⟨hsame, hword⟩ := laneRead_spec hd b n r hseen l.gi
        generalize d.laneRead b n r seen l.gi = y at hsame hword ⊢
        have hpass : c.tagChecked l.gi = false →
            (if (c.tagChecked l.gi && !tagReadOk (if y.2.bad = true ∨ y.2.pois = true then none else some (gFull y.2.word))) = true then 4 else 0) = 0 :=
          fun h => by simp [h]
        generalize (if (c.tagChecked l.gi && !tagReadOk (if y.2.bad = true ∨ y.2.pois = true then none else some (gFull y.2.word))) = true
          then 4 else 0) = z at hpass ⊢
        refine ⟨hsame, fun y hy h => ?_, ?_⟩
        · rcases List.mem_cons.1 hy with rfl | hy
          · exact hword h
          · exact hseen y hy h
        · split
          · exact ⟨rfl, rfl, hnone.symm, rfl, fun x hx' h0 => absurd (hx' ▸ not_not.1 hx) h0, fun _ h => absurd hnone h,
              fun _ _ _ e' hplain he' => absurd he (by rw [if_pos hplain, he']; exact nofun),
              fun _ _ _ _ h => by rw [hword h]; exact ⟨rfl, rfl, rfl, rfl⟩⟩
          · next htag =>
            have hchecked : c.tagChecked l.gi ≠ false := fun h => htag (hpass h)
            exact ⟨rfl, rfl, hnone.symm, rfl, fun x hx' h0 => absurd (hx' ▸ not_not.1 hx) h0, fun _ h => absurd hnone h, fun _ h => absurd h hchecked,
              fun _ h => absurd h hchecked⟩

theorem readLanes_spec {c : Ctl} (b : Tab Granule) (n : Nat) {r : RAccess} (hblack : c.blackout = false) (hcut : r.cut = none) (hdropped : r.dropped = false)
    (lanes : List RLane) {d : Ctl} (hd : SameChecks c d) {seen : List (Nat × Decoded)} (hseen : SeenStored c b n r.issue seen) :
    SameChecks c (Ctl.readLanes b n r lanes seen d).1 ∧ List.Forall₂ (LaneTaken c b n r) lanes (Ctl.readLanes b n r lanes seen d).2 := by
  induction lanes generalizing d seen with
  | nil => exact ⟨hd, .nil⟩
  | cons l lanes ih =>
    obtain ⟨hsame, hseen', hlane⟩ := readLane_spec hd b n hblack hcut hdropped hseen l
    obtain ⟨hsame', hlanes⟩ := ih hsame hseen'
    exact ⟨hsame', .cons hlane hlanes⟩

section
variable {c : Ctl} {q : Seq} {r : RAccess} {upto e : Nat} {l : RLane} {x : Nat × Nat} {y : WAccess × WLane}

/-- A lane that has come to a cause takes no forwarded value. -/
theorem forwardLane_failed (h : l.cause ≠ 0) : c.forwardLane q r upto e l = l := by
  simp only [Ctl.forwardLane]
  split
  · rfl
  · rw [if_pos (Or.inl h)]

/-- Of a write that stays late the lane fails with DELIVERY. -/
theorem forwardLane_late (hfwd : l.fwd = some x) (hcause : l.cause = 0) (hgot : l.got = false) (hsource : q.source x = some y)
    (hlate : y.1.staysLate r.deliver e = true) :
    c.forwardLane q r upto e l = { l with cause := 5, got := true, bad := true, granule := poisonGranule l.rep } := by
  have hfor : y.1.lateFor r.deliver = true := by
    rw [WAccess.staysLate, Bool.and_eq_true] at hlate
    exact hlate.1
  simp only [Ctl.forwardLane, hfwd, hcause, ne_eq, not_true_eq_false, hgot, Bool.false_eq_true, or_self, if_false, hsource, hfor, hlate, if_true]

/-- What the taking of a forwarded value leaves of a lane. -/
theorem forwardLane_keeps (c : Ctl) (q : Seq) (r : RAccess) (upto e : Nat) (l : RLane) :
    (c.forwardLane q r upto e l).gi = l.gi ∧ (c.forwardLane q r upto e l).scale = l.scale ∧ (c.forwardLane q r upto e l).fwd = l.fwd := by
  have hif : ∀ (p : Prop) [Decidable p] (a b : RLane), (a.gi = l.gi ∧ a.scale = l.scale ∧ a.fwd = l.fwd) → (b.gi = l.gi ∧ b.scale = l.scale ∧ b.fwd = l.fwd) →
      ((if p then a else b).gi = l.gi ∧ (if p then a else b).scale = l.scale ∧ (if p then a else b).fwd = l.fwd) := fun p _ a b ha hb => by
    split
    · exact ha
    · exact hb
  simp only [Ctl.forwardLane]
  split
  · exact ⟨rfl, rfl, rfl⟩
  · refine hif _ _ _ ⟨rfl, rfl, rfl⟩ ?_
    split
    · exact hif _ _ _ ⟨rfl, rfl, rfl⟩ ⟨rfl, rfl, rfl⟩
    · exact hif _ _ _ (hif _ _ _ ⟨rfl, rfl, rfl⟩ ⟨rfl, rfl, rfl⟩)
        (hif _ _ _ (hif _ _ _ ⟨rfl, rfl, rfl⟩ (hif _ _ _ ⟨rfl, rfl, rfl⟩ ⟨rfl, rfl, rfl⟩)) ⟨rfl, rfl, rfl⟩)

/-- The tag checks that a forwarded lane rests on. -/
theorem forwardLane_of_tagChecked {c d : Ctl} (h : ∀ gi, d.tagChecked gi = c.tagChecked gi) (q : Seq) (r : RAccess) (upto e : Nat) (l : RLane) :
    d.forwardLane q r upto e l = c.forwardLane q r upto e l := by
  simp only [Ctl.forwardLane, h]

end

/-- A read access at its bank-access bc: its lanes take their granules, and forwarded values that are formed. -/
theorem readAccess_spec {c : Ctl} {b : Tab Granule} {n : Nat} {r : RAccess} (hblack : c.blackout = false) (hcut : r.cut = none) (hdropped : r.dropped = false)
    (hmem : r ∈ (c.seq n).reads) :
    ∃ lanes v, List.Forall₂ (LaneTaken c b n r) r.lanes lanes ∧
      { r with lanes := lanes.map (c.forwardLane (c.seq n) r c.bc c.ec), checked := true, viol := v } ∈ ((c.readAccess b n r).seq n).reads := by
  obtain ⟨hsame, hlanes⟩ := readLanes_spec b n hblack hcut hdropped r.lanes (SameChecks.refl c) (seen := []) nofun
  simp only [Ctl.readAccess]
  generalize Ctl.readLanes b n r r.lanes [] c = y at hsame hlanes ⊢
  generalize hra : (y.1.seq n).ra.map _ = ra
  have hblack' : (y.1.setSeq n { y.1.seq n with ra := ra }).blackout = false := hsame.rows.dark.trans hblack
  have hforward : y.2.map ((y.1.setSeq n { y.1.seq n with ra := ra }).forwardLane (y.1.seq n) r (y.1.setSeq n { y.1.seq n with ra := ra }).bc
      (y.1.setSeq n { y.1.seq n with ra := ra }).ec) = y.2.map (c.forwardLane (c.seq n) r c.bc c.ec) := by
    rw [Ctl.bc_setSeq, Ctl.ec_setSeq, hsame.bc, hsame.ec, hsame.rows.seq]
    exact List.map_congr_left fun l _ => forwardLane_of_tagChecked (fun gi => hsame.tagChecked gi) _ _ _ _ l
  rw [hblack', if_neg Bool.false_ne_true, hforward]
  obtain ⟨v, hv⟩ := seq_readJudge (y.1.setSeq n { y.1.seq n with ra := ra }) n r { r with lanes := y.2.map (c.forwardLane (c.seq n) r c.bc c.ec), checked := true }
  refine ⟨y.2, v, hlanes, ?_⟩
  rw [hv]
  exact List.mem_map.2 ⟨r, by rw [Ctl.seq_setSeq_same, hsame.rows.seq]; exact hmem, if_pos rfl⟩

theorem dueRead_mem {q : Seq} {bc : Nat} {r : RAccess} (h : q.dueRead bc = some r) : r ∈ q.reads := List.mem_of_find?_eq_some h

theorem exec_readAccess {s : State} {n : Nat} {r : RAccess} (hlive : s.live) (hn : n < 104) (hdue : (s.c.seq n).dueRead s.c.bc = some r) :
    exec (.scheduledBankAccess n false) s = .next { s with c := s.c.readAccess s.banks n r } := by
  refine (onBanks_next (decide_eq_true hn) hlive.2 fun b c => c.bankAccess b n false).trans ?_
  simp only [Ctl.bankAccess, hlive.1, Bool.not_true, Bool.false_eq_true, if_false, hdue, applyOps_nil]

theorem readOfSeveralLanes : readOfSeveralLanesRule := by
  intro s n r hwork hn hdue hcut hdropped hlanes
  obtain ⟨lanes, v, htaken, hmem⟩ := readAccess_spec (b := s.banks) hwork.2 hcut hdropped (dueRead_mem hdue)
  refine ⟨_, exec_readAccess hwork.1 hn hdue, rfl, _, hmem, rfl, rfl, by simp only [List.length_map, htaken.length_eq], ?_⟩
  rintro i l l' x d hi hi' rfl rfl
  dsimp only at hi'
  rw [List.getElem?_map] at hi'
  obtain ⟨l₁, hi₁, rfl⟩ := Option.map_eq_some_iff.1 hi'
  obtain ⟨hc, hgot, hbad⟩ := hlanes l (List.mem_of_getElem? hi)
  have htake : LaneTaken s.c s.banks n r l l₁ := by
    obtain ⟨hlt, rfl⟩ := List.getElem?_eq_some_iff.1 hi
    obtain ⟨hlt₁, rfl⟩ := List.getElem?_eq_some_iff.1 hi₁
    exact htaken.get hlt hlt₁
  obtain ⟨hgi, hscale, hfwd⟩ := forwardLane_keeps s.c (s.c.seq n) r s.c.bc s.c.ec l₁
  refine ⟨hgi.trans htake.gi, hscale.trans htake.scale, hfwd.trans htake.fwd, fun hx => ?_, fun hx htag hnone => ?_, fun y a w hx hy hsource => ?_⟩
  · obtain ⟨hcause, hbad', hgran⟩ := htake.failed _ rfl hx
    rw [forwardLane_failed (by rw [hcause]; exact hx)]
    exact ⟨hcause, hbad', hgran⟩
  · rw [forwardLane_of_fwd_none (htake.fwd.trans hnone)]
    refine ⟨fun e hplain he => ?_, fun hmiss hsame => ?_⟩
    · obtain ⟨hcause, hgran, hrep⟩ := htake.hit hx htag hnone e hplain he
      exact ⟨hcause.trans hc, hgran, hrep⟩
    · obtain ⟨hcause, hgran, hrep, hbad'⟩ := htake.row hx htag hnone hmiss hsame
      exact ⟨hcause.trans hc, hgran, hrep, hbad'⟩
  · obtain ⟨hcause, hrep⟩ := htake.waits hx (by rw [hy]; exact nofun)
    have hfwd₁ := htake.fwd.trans hy
    have hcause₁ := hcause.trans hc
    have hgot₁ := htake.got.trans hgot
    refine ⟨fun hlate => ?_, fun hlate hdone hover htag => ?_, fun hlate hopen => ?_⟩
    · rw [forwardLane_late hfwd₁ hcause₁ hgot₁ hsource hlate, ← hrep]
      exact ⟨rfl, rfl⟩
    · rw [forwardLane_formed hfwd₁ hcause₁ hgot₁ hsource hlate hdone hover (by rwa [htake.gi]) hdropped]
      exact ⟨hcause₁, rfl, rfl⟩
    · rw [forwardLane_open hfwd₁ hsource hlate hopen]
      exact ⟨hcause₁, hgot₁⟩

/-! ### An accumulating write of several lanes (R48, R122) -/

theorem packElems_lt (w : Nat) (l : List Nat) : packElems w l < 2 ^ (w * l.length) := by
  induction l with
  | nil => exact Nat.two_pow_pos _
  | cons x l ih =>
    have hx : x % 2 ^ w < 2 ^ w := Nat.mod_lt _ (Nat.two_pow_pos w)
    rw [packElems, Nat.shiftLeft_eq, List.length_cons, Nat.mul_add_one, Nat.pow_add]
    calc x % 2 ^ w + packElems w l * 2 ^ w < (packElems w l + 1) * 2 ^ w := by rw [Nat.add_mul, Nat.one_mul, Nat.add_comm]; exact Nat.add_lt_add_left hx _
      _ ≤ 2 ^ (w * l.length) * 2 ^ w := Nat.mul_le_mul_right _ ih

theorem accData_lt (acc t x : Nat) : accData acc t x < 2 ^ 256 := by
  have h := packElems_lt 32 ((List.range 8).map fun w => accElem acc (bits t (32 * w) 32) (bits x (32 * w) 32))
  rwa [List.length_map, List.length_range] at h

theorem foldl_accData_lt (acc : Nat) (l : List Nat) {t : Nat} (ht : t < 2 ^ 256) : l.foldl (accData acc) t < 2 ^ 256 := by
  induction l generalizing t with
  | nil => exact ht
  | cons x l ih =>
    rw [List.foldl_cons]
    exact ih (accData_lt acc t x)

/-- Without a fault the data of a step is the stored data and the contributions (R122). -/
theorem gData_accStep {rep : Bool} {acc : Nat} {g : Granule} (hg : gPoison g = false) (l : List Granule) :
    gData (accStep rep acc g l false) = (l.map gData).foldl (accData acc) (gData g) := by
  have hlt := foldl_accData_lt acc (l.map gData) (t := gData g) (Nat.mod_lt g.toNat (Nat.two_pow_pos 256))
  rw [accStep, hg, Bool.or_self, if_neg Bool.false_ne_true, gData_encode, Nat.shiftLeft_eq, Nat.mul_add_mod', ← List.foldl_map, Nat.mod_eq_of_lt hlt]

/-- A lane of the accumulating access `a` of port `n` as its first slot leaves it. -/
structure LaneFormed (c : Ctl) (b : Tab Granule) (n : Nat) (a : WAccess) (l l' : WLane) : Prop where
  passed : l'.passed = decide (c.accLane b n a l = 0)
  code   : c.accLane b n a l = 0 → l'.code = (if l.fault then 3 else 0)
  prior  : c.accLane b n a l = 0 → l'.prior = accStep (c.repOf l.gi) (a.acc.getD 0) (c.chainBase l.gi a.firstBc (c.stored b l.gi).word)
    ((c.stepUses b l.gi a.firstBc).map fun u => u.granule) ((c.stepUses b l.gi a.firstBc).any fun u => u.fault)

theorem accFirstLane_spec {c d : Ctl} (hd : SameChecks c d) (b : Tab Granule) (n : Nat) (a : WAccess) (l : WLane) (h : c.accLane b n a l = 0) :
    SameChecks c (d.accFirstLane b n a l).1 ∧ LaneFormed c b n a l (d.accFirstLane b n a l).2 := by
  have hread : ∀ (p : Prop) [Decidable p], SameChecks c (if p then d.bankRead b 0 n l.gi a.firstBc else (d, d.stored b l.gi)).1 ∧
      (if p then d.bankRead b 0 n l.gi a.firstBc else (d, d.stored b l.gi)).2 = c.stored b l.gi := fun p _ => by
    split
    · exact ⟨hd.trans (.bankRead d b 0 n l.gi a.firstBc), hd.stored b l.gi⟩
    · exact ⟨hd, hd.stored b l.gi⟩
  simp only [Ctl.accFirstLane, ← Ctl.stored_eq]
  simp only [hd.stepUses, hd.rows.repOf, Ctl.chainBase, hd.chainResults, (hread _).2]
  refine ⟨(hread _).1, ?_⟩
  exact ⟨by rw [h]; rfl, fun _ => rfl, fun _ => rfl⟩

theorem accFirstLanes_spec {c : Ctl} (b : Tab Granule) (n : Nat) (a : WAccess) (lanes : List WLane) (hlanes : ∀ l ∈ lanes, l.passed = false) {d : Ctl}
    (hd : SameChecks c d) :
    SameChecks c (Ctl.accFirstLanes b n a (lanes.map fun l => (l, c.accLane b n a l)) d).1 ∧
      List.Forall₂ (LaneFormed c b n a) lanes (Ctl.accFirstLanes b n a (lanes.map fun l => (l, c.accLane b n a l)) d).2 := by
  induction lanes generalizing d with
  | nil => exact ⟨hd, .nil⟩
  | cons l lanes ih =>
    rw [List.map_cons, Ctl.accFirstLanes]
    have hlane : SameChecks c (if c.accLane b n a l = 0 then d.accFirstLane b n a l
          else (d, { l with code := causeStatus (c.accLane b n a l) l.fault, after := d.storedWord b l.gi })).1 ∧
        LaneFormed c b n a l (if c.accLane b n a l = 0 then d.accFirstLane b n a l
          else (d, { l with code := causeStatus (c.accLane b n a l) l.fault, after := d.storedWord b l.gi })).2 := by
      split
      · next h => exact accFirstLane_spec hd b n a l h
      · next h => exact ⟨hd, (hlanes l (List.mem_cons_self ..)).trans (decide_eq_false h).symm, fun h0 => absurd h0 h, fun h0 => absurd h0 h⟩
    obtain ⟨hsame, hrest⟩ := ih (fun l hl => hlanes l (List.mem_cons_of_mem _ hl)) hlane.1
    exact ⟨hsame, .cons hlane.2 hrest⟩

/-- An accumulating access at its first slot. -/
theorem accAccess_spec {c : Ctl} {b : Tab Granule} {n : Nat} {a : WAccess} (hown : ∀ l ∈ a.lanes, l.follow = none ∧ l.passed = false)
    (hmem : a ∈ (c.seq n).writes) :
    ∃ lanes done, List.Forall₂ (LaneFormed c b n a) a.lanes lanes ∧
      { a with lanes := lanes, issued := true, first := true, done := done } ∈ ((c.accAccess b n a).seq n).writes := by
  obtain ⟨hsame, hlanes⟩ := accFirstLanes_spec b n a a.lanes (fun l hl => (hown l hl).2) (SameChecks.refl c)
  simp only [Ctl.accAccess, own_of_unfollowed fun l hl => (hown l hl).1]
  generalize Ctl.accFirstLanes b n a (a.lanes.map fun l => (l, c.accLane b n a l)) c = y at hsame hlanes ⊢
  refine ⟨y.2, y.2.all fun l => !l.passed, hlanes, ?_⟩
  rw [seq_of_besideCv (besideCv_writeViolation _ _ _ _)]
  refine mem_putWrite (a := a) ?_ rfl
  rw [seq_of_besideCv (besideCv_foldl _ (fun d (l : WLane) => besideCv_countStatus d n l.code) _ _), hsame.rows.seq]
  exact hmem

theorem exec_accAccess {s : State} {n : Nat} {a : WAccess} (hlive : s.live) (hn : n < 104) (hdue : (s.c.seq n).dueWrite s.c.bc = some a)
    (hacc : a.acc.isSome = true) : exec (.scheduledBankAccess n true) s = .next { s with c := s.c.accAccess s.banks n a } := by
  refine (onBanks_next (decide_eq_true hn) hlive.2 fun b c => c.bankAccess b n true).trans ?_
  simp only [Ctl.bankAccess, hlive.1, Bool.not_true, Bool.false_eq_true, if_false, if_true, hdue, hacc, applyOps_nil]

/-- A chain without pending results starts from the stored granule (R123). -/
theorem chainBase_of_nil {c : Ctl} {gi bc : Nat} (h : c.chainResults gi bc = []) (g : Granule) : c.chainBase gi bc g = g := by
  rw [Ctl.chainBase, h]
  rfl

theorem accumulateFirstSlot (s : State) (n : Nat) (a : WAccess) (ty : Nat) (hlive : s.live) (hn : n < 104) (hdue : (s.c.seq n).dueWrite s.c.bc = some a)
    (hacc : a.acc = some ty) (hlanes : ∀ l ∈ a.lanes, l.follow = none ∧ l.passed = false) :
    ∃ t, exec (.scheduledBankAccess n true) s = .next t ∧ t.banks = s.banks ∧ ∃ a' ∈ (t.c.seq n).writes, a'.id = a.id ∧ a'.first = true ∧
      a'.lanes.length = a.lanes.length ∧ ∀ (i : Nat) (l l' : WLane) (us : List BankUse) (g : Granule), a.lanes[i]? = some l → a'.lanes[i]? = some l' →
        us = s.c.stepUses s.banks l.gi a.firstBc → g = (decodeG (s.c.repOf l.gi) (rowAt s.banks (s.c.keyOf (s.c.place l.gi)))).word →
        l'.passed = decide (s.c.accLane s.banks n a l = 0) ∧
        (s.c.accLane s.banks n a l = 0 → l'.code = (if l.fault then 3 else 0) ∧
          (s.c.chainResults l.gi a.firstBc = [] → gPoison g = false → (∀ u ∈ us, u.fault = false) →
            gData l'.prior = (us.map fun u => gData u.granule).foldl (accData ty) (gData g)) ∧
          (s.c.chainResults l.gi a.firstBc = [] → (∃ u ∈ us, u.fault = true) → l'.prior = setPoison (s.c.repOf l.gi) g)) := by
  obtain ⟨lanes, done, hformed, hmem⟩ := accAccess_spec (b := s.banks) hlanes (dueWrite_mem hdue)
  refine ⟨_, exec_accAccess hlive hn hdue (by rw [hacc]; rfl), rfl, _, hmem, rfl, rfl, hformed.length_eq.symm, ?_⟩
  rintro i l l' us g hi hi' rfl rfl
  have hform : LaneFormed s.c s.banks n a l l' := by
    obtain ⟨hlt, rfl⟩ := List.getElem?_eq_some_iff.1 hi
    obtain ⟨hlt', rfl⟩ := List.getElem?_eq_some_iff.1 hi'
    exact hformed.get hlt hlt'
  refine ⟨hform.passed, fun h0 => ⟨hform.code h0, fun hchain hg hall => ?_, fun hchain hfault => ?_⟩⟩
  · rw [hform.prior h0, chainBase_of_nil hchain, hacc, Option.getD_some, List.any_eq_false.2 fun u hu => by simp [hall u hu], Ctl.stored_eq, gData_accStep hg,
      List.map_map]
    rfl
  · rw [hform.prior h0, chainBase_of_nil hchain, List.any_eq_true.2 hfault, accStep, Bool.or_true, if_pos rfl, Ctl.stored_eq]

/-- The rows that the second slots of the lanes of an accumulating access write, with the results of their steps. -/
def Ctl.stepWrites (c : Ctl) (n : Nat) (a : WAccess) (lanes : List WLane) : List (Nat × Granule) :=
  (lanes.filter fun l => l.passed && c.leadsStep n a l).map fun l => (c.keyOf (c.place l.gi), l.prior)

theorem leadsStep_of_sameRows {c d : Ctl} (h : SameRows c d) (n : Nat) (a : WAccess) (l : WLane) : d.leadsStep n a l = c.leadsStep n a l := by
  rw [Ctl.leadsStep, h.seqs, ← Ctl.leadsStep]

theorem sameRows_satAdd (c : Ctl) {o : Nat} {f : FieldPos} (hf : f.word = 0) (ho : 0x40200 ≤ o) (x : Nat) : SameRows c (c.satAdd o f x) :=
  .of_besideService (besideService_satAdd c o f x) fun o' _ ho' => by rw [Ctl.satAdd_reg, Ctl.reg_setFld_ne _ _ (by rw [hf]; omega)]

/-- The second slot of a lane that leads its step commits its result (R122). -/
theorem accSecondLane_lead {c : Ctl} (hblack : c.blackout = false) (hfac : c.boot.factory = false) {n : Nat} {a : WAccess} {l : WLane}
    (hlead : c.leadsStep n a l = true) :
    SameRows c (c.accSecondLane n a l).1 ∧ (c.accSecondLane n a l).2 = c.putAt (c.keyOf (c.place l.gi)) l.prior := by
  have hcount : SameRows c (if c.leadsStep n a l = true ∧ gPoison l.prior = true ∧ ¬ c.blackout = true
      then c.satAdd (oMsoStat (c.place l.gi).quad) msoStat_ACC_POIS 1 else c) := by
    split
    · exact sameRows_satAdd c rfl (by simp only [oMsoStat]; omega) 1
    · exact .refl c
  simp only [Ctl.accSecondLane]
  generalize (if c.leadsStep n a l = true ∧ gPoison l.prior = true ∧ ¬ c.blackout = true
      then c.satAdd (oMsoStat (c.place l.gi).quad) msoStat_ACC_POIS 1 else c) = d at hcount ⊢
  have hpass : SameRows c (d.chainPass l.gi a.firstBc l.prior) := hcount.trans ⟨fun _ _ _ => rfl, rfl, rfl, rfl, rfl⟩
  obtain ⟨hsame, hops⟩ := schedCommit_keeps (hpass.dark.trans hblack) ((congrArg Boot.factory hpass.boot).trans hfac) l.gi l.prior
  rw [if_pos hlead]
  exact ⟨hpass.trans hsame, hops.trans (by rw [hpass.keyOf, hpass.putAt])⟩

theorem accSecondLane_follows {c : Ctl} {n : Nat} {a : WAccess} {l : WLane} (hlead : c.leadsStep n a l = false) : c.accSecondLane n a l = (c, []) := by
  simp only [Ctl.accSecondLane, hlead, Bool.false_eq_true, false_and, if_false]

theorem accSecondLanes_spec {c : Ctl} (hblack : c.blackout = false) (hfac : c.boot.factory = false) (n : Nat) (a : WAccess) (lanes : List WLane) {d : Ctl}
    (hd : SameRows c d) : SameRows c (Ctl.accSecondLanes n a lanes d).1 ∧ (Ctl.accSecondLanes n a lanes d).2 = c.putAll (c.stepWrites n a lanes) := by
  induction lanes generalizing d with
  | nil => exact ⟨hd, rfl⟩
  | cons l lanes ih =>
    have hskip : (l.passed && c.leadsStep n a l) = false → (if l.passed = true then d.accSecondLane n a l else (d, [])) = (d, []) := fun h => by
      split
      · next hp => exact accSecondLane_follows ((leadsStep_of_sameRows hd n a l).trans (by simpa [hp] using h))
      · rfl
    rw [Ctl.accSecondLanes, Ctl.stepWrites, List.filter_cons]
    dsimp only
    cases h : l.passed && c.leadsStep n a l with
    | true =>
      obtain ⟨hp, hlead⟩ := Bool.and_eq_true_iff.1 h
      obtain ⟨hsame, hops⟩ := accSecondLane_lead (hd.dark.trans hblack) ((congrArg Boot.factory hd.boot).trans hfac)
        ((leadsStep_of_sameRows hd n a l).trans hlead)
      obtain ⟨hsame', hops'⟩ := ih (hd.trans hsame)
      rw [if_pos hp]
      exact ⟨hsame', by rw [hops, hops', hd.keyOf, hd.putAt]; rfl⟩
    | false =>
      rw [hskip h]
      exact ih hd

theorem exec_accWriteback {s : State} {n : Nat} {a : WAccess} (hwork : s.working) (hn : n < 104) (hwrites : (s.c.seq n).writes = [a])
    (hacc : a.acc.isSome = true) (hfirst : a.first = true) (hdone : a.done = false) (hlast : a.lastBc ≤ s.c.bc) :
    ∃ c, exec (.accWriteback n) s = .next { s with c := c, banks := applyOps s.banks (Ctl.accSecondLanes n a a.lanes s.c).2 } := by
  have hfind : ((s.c.seq n).writes.find? fun a => a.acc.isSome && a.first && !a.done && decide (a.lastBc ≤ s.c.bc)) = some a := by
    simp [hwrites, hacc, hfirst, hdone, hlast]
  obtain ⟨⟨hready, hfrozen⟩, -⟩ := hwork
  have hops : (s.c.accWriteback n).2 = (Ctl.accSecondLanes n a a.lanes s.c).2 := by
    simp only [Ctl.accWriteback, hready, Bool.not_true, Bool.false_eq_true, if_false, hfind]
  rw [← hops]
  exact ⟨_, onBanks_next (decide_eq_true hn) hfrozen fun _ c => c.accWriteback n⟩

theorem mem_stepWrites {c : Ctl} {n : Nat} {a : WAccess} {lanes : List WLane} {x : Nat × Granule} :
    x ∈ c.stepWrites n a lanes ↔ ∃ l ∈ lanes, l.passed = true ∧ c.leadsStep n a l = true ∧ (c.keyOf (c.place l.gi), l.prior) = x := by
  simp only [Ctl.stepWrites, List.mem_map, List.mem_filter, Bool.and_eq_true, and_assoc]

theorem accumulateSecondSlot (s : State) (n : Nat) (a : WAccess) (hwork : s.working) (hn : n < 104) (hfac : s.c.boot.factory = false)
    (hwrites : (s.c.seq n).writes = [a]) (hacc : a.acc.isSome = true) (hfirst : a.first = true) (hdone : a.done = false) (hlast : a.lastBc ≤ s.c.bc)
    (hapart : RowsApart s.c a.lanes) :
    ∃ t, exec (.accWriteback n) s = .next t ∧ t.pending = s.pending ∧
      (∀ l ∈ a.lanes, l.passed = true → s.c.leadsStep n a l = true → (∀ m ∈ a.lanes, s.c.leadsStep n a m = true → m.passed = true → m.gi = l.gi → m = l) →
        ∀ k, KeyWritten s.c (s.c.keyOf (s.c.place l.gi)) k → rowAt t.banks k = l.prior) ∧
      ∀ k, (∀ l ∈ a.lanes, l.passed = true → s.c.leadsStep n a l = true → ¬ KeyWritten s.c (s.c.keyOf (s.c.place l.gi)) k) →
        rowAt t.banks k = rowAt s.banks k := by
  obtain ⟨c, hexec⟩ := exec_accWriteback hwork hn hwrites hacc hfirst hdone hlast
  rw [(accSecondLanes_spec hwork.2 hfac n a a.lanes (SameRows.refl s.c)).2] at hexec
  refine ⟨_, hexec, rfl, fun l hl hp hlead halone k hk => ?_, fun k hk => ?_⟩
  · refine rowAt_putAll (fun x hx hxk => ?_) s.banks (Or.inl ⟨_, mem_stepWrites.2 ⟨l, hl, hp, hlead, rfl⟩, hk⟩)
    obtain ⟨m, hm, hmp, hmlead, rfl⟩ := mem_stepWrites.1 hx
    rw [halone m hm hmlead hmp (hapart m hm l hl k hxk hk)]
  · refine rowAt_putAll_other (fun x hx => ?_) s.banks
    obtain ⟨m, hm, hmp, hmlead, rfl⟩ := mem_stepWrites.1 hx
    exact hk m hm hmp hmlead

theorem accumulateOfSeveralLanes : accumulateOfSeveralLanesRule :=
  ⟨accumulateFirstSlot, fun s n a hwork hn hfac hwrites hacc hfirst hdone hlast _ hapart =>
    accumulateSecondSlot s n a hwork hn hfac hwrites hacc hfirst hdone hlast hapart⟩

/-- Settles O20: writeOfSeveralLanes, readOfSeveralLanes, accumulateOfSeveralLanes. -/
theorem accessesOfSeveralLanes : Obligations.AccessesOfSeveralLanes :=
  ⟨writeOfSeveralLanes, readOfSeveralLanes, accumulateOfSeveralLanes⟩

end Sys2Proof.Machine

end

section
/-! A function applied to every sequencer of a list. -/

namespace Sys2Proof.Machine

theorem Ctl.seq_setSeq (c : Ctl) (n m : Nat) (q : Seq) : (c.setSeq n q).seq m = if m = n then q else c.seq m := Tab.get_set _ _ _ _ _

/-- The function acts as `g` on the sequencer that it is applied for and leaves the others, as long as `P` holds of the units, which it keeps. -/
structure ActsOnOne (P : Ctl → Prop) (f : Nat → Ctl → Ctl) (g : Nat → Seq → Seq) : Prop where
  keeps  : ∀ i d, P d → P (f i d)
  own    : ∀ i d, P d → (f i d).seq i = g i (d.seq i)
  others : ∀ i d, P d → ∀ m, m ≠ i → (f i d).seq m = d.seq m

/-- Applied for every number of a list it acts so on every sequencer of the list: each is named once, or a second time changes nothing. -/
theorem seq_forAll {P : Ctl → Prop} {f : Nat → Ctl → Ctl} {g : Nat → Seq → Seq} (hf : ActsOnOne P f g) {l : List Nat} {m : Nat}
    (hl : l.Nodup ∨ ∀ q, g m (g m q) = g m q) {c : Ctl} (hc : P c) : (forAll l f c).seq m = if m ∈ l then g m (c.seq m) else c.seq m := by
  induction l generalizing c with
  | nil => simp
  | cons i l ih =>
    have htail : l.Nodup ∨ ∀ q, g m (g m q) = g m q := hl.imp_left fun h => h.of_cons
    rw [forAll_cons, ih htail (hf.keeps i c hc)]
    by_cases hm : m = i
    · subst hm
      rw [hf.own m c hc]
      by_cases hmem : m ∈ l
      · rcases hl with hnodup | hidem
        · exact absurd hmem (List.nodup_cons.mp hnodup).1
        · simp [hmem, hidem]
      · simp [hmem]
    · rw [hf.others i c hc m hm]
      simp [hm]

theorem wrote_seq (s : State) (i : Instr) (c : Ctl) (n : Nat) : (s.wrote i c).c.seq n = c.seq n := by
  obtain ⟨nn, h⟩ := wrote_eq s i c
  rw [h, Ctl.seq, Ctl.seq]

end Sys2Proof.Machine

end

section
/-! The bounds of the sequencers are not kept: a kill takes the generators from the record of the RUN that it cuts (R83), which `Seq.bounded` leaves open. -/

namespace Sys2Proof.Machine

/-- A sequencer in a RUN of two accesses whose record holds a generator of nine lanes. -/
def cutRunSeq : Seq :=
  { state := .running, runRec := some { startEc := 0, gap := 0, count := 2, ag0 := { lanes := 9 }, ag1 := {}, use0 := true, use1 := false } }

/-- A block that works, with sequencer 0 in that RUN and a kill of its group to come. -/
def cutRunState : State := { pending := [.kill 0], c := { sysReady := true, seqs := [(0, cutRunSeq)] } }

theorem cutRunSeq_bounded : cutRunSeq.bounded := by simp [Seq.bounded, cutRunSeq]

theorem cutRunState_inv : cutRunState.c.inv := by
  refine ⟨?_, fun n => ?_⟩
  · obtain ⟨hregs, hstore, -, hrest⟩ := reset_tablesOk
    exact ⟨hregs, hstore, by decide, hrest⟩
  · by_cases hn : 0 = n
    · subst hn
      exact cutRunSeq_bounded
    · have hseq : cutRunState.c.seq n = {} := by simp [Ctl.seq, cutRunState, Tab.get, hn]
      rw [hseq]
      exact default_bounded

/-- The kill takes the generator from the record. -/
theorem kill_cutRunSeq_lanes (k : Nat) : (cutRunSeq.kill 0 k).ag0.lanes = 9 := by
  simp [Seq.kill, Seq.cutGens, cutRunSeq, AddrGen.after, Seq.halt, Seq.endScene]

/-- Without a register loaded no context, no window and no descriptor is live for a kill to meet. -/
theorem killUnits_of_no_regs {c : Ctl} (hregs : c.regs = []) (g : Nat) : ((c.ctxsKill g).winsKill g).sendsKill g = c := by
  simp [Ctl.ctxsKill, Ctl.winsKill, Ctl.sendsKill, Ctl.liveCtxs, Ctl.liveWins, Ctl.liveSends, hregs]

/-- The banks of a kill leave the sequencers alone. -/
theorem seqs_killBanks (l l' : List Nat) (c : Ctl) :
    (forAll l' (fun pb d => d.freeLater pb) (forAll l (fun pb d => d.setStriking pb true) c)).seqs = c.seqs :=
  forAll_keeps (P := fun e => e.seqs = c.seqs) (f := fun pb e => e.freeLater pb) (fun _ _ _ he => he)
    (forAll_keeps (P := fun e => e.seqs = c.seqs) (f := fun pb e => e.setStriking pb true) (fun _ _ _ he => he) rfl)

theorem seq_of_seqs {c d : Ctl} (h : d.seqs = c.seqs) (n : Nat) : d.seq n = c.seq n := by rw [Ctl.seq, h, Ctl.seq]

theorem members_nodup (c : Ctl) (g : Nat) : (c.members g).Nodup := List.nodup_range.filter _

/-- On units without a register loaded and without a hand-over under way, a kill of a group acts on the sequencers as on its members alone. -/
theorem seq_kill {c : Ctl} (hregs : c.regs = []) (hhand : c.handCc = none) (g m : Nat) :
    (c.kill g).seq m = if m ∈ c.members g then (c.seq m).kill (4 * c.cc) (8 * (c.cc + 1)) else c.seq m := by
  have hact : ActsOnOne (fun d => d.clk = c.clk ∧ d.regs = []) (fun n d => d.setSeq n ((d.seq n).kill (4 * c.cc) (8 * (d.cc + 1))))
      fun _ q => q.kill (4 * c.cc) (8 * (c.cc + 1)) :=
    ⟨fun _ _ hd => hd, fun _ d hd => by rw [Ctl.seq_setSeq_same, Ctl.cc, Ctl.cc, hd.1], fun _ d _ _ hm => d.seq_setSeq_ne hm _⟩
  have hkeeps := forAll_keeps (l := c.members g) (fun i _ => hact.keeps i) (c := { c with killCc := some c.cc }) ⟨rfl, hregs⟩
  have hhead : c.killsHandover = { c with killCc := some c.cc } := by simp [Ctl.killsHandover, hhand]
  refine Eq.trans ?_ (seq_forAll hact (.inl (members_nodup c g)) (c := { c with killCc := some c.cc }) ⟨rfl, hregs⟩)
  simp only [Ctl.kill, hhead]
  rw [killUnits_of_no_regs (by exact hkeeps.2)]
  split <;> simp only [Ctl.seq, Ctl.setFld_seqs, seqs_killBanks, Ctl.setGroup_seqs] <;> rfl

theorem exec_kill {s : State} (h : s.accepting) {g : Nat} (hg : g < 32) : exec (.kill g) s = .next (s.wrote (.kill g) (s.c.kill g)) :=
  onUnit_ctlWrite (decide_eq_true hg) h (by decide) _ _

/-- The command of the kill acts on the sequencer. -/
theorem step_cutRunState : ∃ t, step cutRunState = .next t ∧ t.c.seq 0 = cutRunSeq.kill 0 8 := by
  have haccepting : State.accepting { cutRunState with pending := [] } := ⟨⟨⟨rfl, rfl⟩, rfl⟩, rfl⟩
  have hmember : 0 ∈ cutRunState.c.members 0 := List.mem_filter.mpr ⟨by decide, by decide⟩
  have hkill := seq_kill (c := cutRunState.c) rfl rfl 0 0
  rw [if_pos hmember] at hkill
  exact ⟨_, exec_kill haccepting (by decide), (wrote_seq _ _ _ _).trans hkill⟩

/-- Refutes O5: a kill gives the sequencer of `cutRunState`, which is within its bounds, a generator of nine lanes. No step makes a record of a RUN with
such a generator, but the invariant of the statement does not say so. -/
theorem not_stepKeepsTablesCanonical : ¬ Obligations.StepKeepsTablesCanonical := by
  unfold Obligations.StepKeepsTablesCanonical
  intro h
  obtain ⟨t, hstep, hseq⟩ := step_cutRunState
  obtain ⟨-, hbounded⟩ := h _ _ cutRunState_inv hstep
  obtain ⟨-, -, hlanes, -⟩ := hbounded 0
  rw [hseq, kill_cutRunSeq_lanes] at hlanes
  exact absurd hlanes (by decide)

end Sys2Proof.Machine

end

section
/-! The fetch of a word: what it leaves alone, and that a second fetch of the word finds its granule recorded (R76, R77). -/

namespace Sys2Proof.Machine

/-- The units beside what a fetch records: an ECC event, the free values, and the granules of the store that have been counted. -/
def Ctl.besideFetch (c : Ctl) : Ctl := { c.besideEcc with storeSeen := [], storeFix := [], free := 0 }

theorem besideFetch_of_besideEcc {c d : Ctl} (h : d.besideEcc = c.besideEcc) : d.besideFetch = c.besideFetch := by rw [Ctl.besideFetch, h, Ctl.besideFetch]

theorem besideFetch_draw (c : Ctl) : c.draw.2.besideFetch = c.besideFetch := by rw [Ctl.draw, Ctl.besideFetch, Ctl.besideFetch, Ctl.besideEcc, Ctl.besideEcc]

theorem besideFetch_storeRecord (c : Ctl) (k : Nat) (d : Decoded) : (c.storeRecord k d).besideFetch = c.besideFetch := by
  simp only [Ctl.storeRecord]
  split
  · rfl
  · have hrecord := besideFetch_of_besideEcc (besideEcc_eccRecord c.draw.2 (storeSite k (c.draw.1.setWidth 8)) d)
    rw [besideFetch_draw] at hrecord
    exact hrecord

theorem besideFetch_fetch (c : Ctl) (half : Bool) (i : Nat) : (c.fetch half i).1.besideFetch = c.besideFetch := besideFetch_storeRecord c _ _

theorem seqs_fetch (c : Ctl) (half : Bool) (i : Nat) : (c.fetch half i).1.seqs = c.seqs := (congrArg Ctl.seqs (besideFetch_fetch c half i) :)
theorem seq_fetch (c : Ctl) (half : Bool) (i n : Nat) : (c.fetch half i).1.seq n = c.seq n := seq_of_seqs (seqs_fetch c half i) n
theorem store_fetch (c : Ctl) (half : Bool) (i : Nat) : (c.fetch half i).1.store = c.store := (congrArg Ctl.store (besideFetch_fetch c half i) :)

/-- The granule of a store record is clean, or counted from then on. -/
theorem storeRecord_counted (c : Ctl) (k : Nat) (d : Decoded) : (d.fixed = 0 ∧ ¬ d.bad ∧ ¬ d.pois) ∨ k ∈ (c.storeRecord k d).storeSeen := by
  simp only [Ctl.storeRecord]
  split
  · assumption
  · exact .inr List.mem_cons_self

/-- A word that has been fetched is fetched again, while the store and what has been counted of it stay, without any record. -/
theorem fetch_again {c d e : Ctl} {half pois : Bool} {i w : Nat} (h : c.fetch half i = (d, w, pois)) (hstore : e.store = d.store)
    (hseen : e.storeSeen = d.storeSeen) : e.fetch half i = (e, w, pois) := by
  have hd : (c.fetch half i).1 = d := congrArg Prod.fst h
  have hsame : e.store = c.store := by rw [hstore, ← hd, store_fetch]
  have hcounted := storeRecord_counted c (half.toNat * 32768 + i / 2 % 32768) (decodeG false (Tab.get fillGranule c.store (half.toNat * 32768 + i / 2 % 32768)))
  have hnone : (e.storeRecord (half.toNat * 32768 + i / 2 % 32768) (decodeG false (Tab.get fillGranule c.store (half.toNat * 32768 + i / 2 % 32768)))) = e := by
    rw [Ctl.storeRecord, if_pos]
    rw [hseen, ← hd]
    exact hcounted
  have hword := congrArg Prod.snd h
  simp only [Ctl.fetch] at hword ⊢
  rw [hsame, hnone, hword]

end Sys2Proof.Machine

end

section
/-! A word command at its word (R66, R79), and the place of the sequencer after it (R67, R71). -/

namespace Sys2Proof.Machine

variable {s : State} {n w : Nat} {c : Ctl}

theorem seq_atWord (h : AtWord s n w c) (m : Nat) : c.seq m = s.c.seq m := by
  obtain ⟨-, -, -, -, -, hfetch, -⟩ := h
  rw [← seq_fetch s.c (s.c.seq n).half (s.c.seq n).pc m, hfetch]

theorem running_atWord (h : AtWord s n w c) : (c.seq n).state = .running := by
  rw [seq_atWord h]
  obtain ⟨-, -, hstate, -⟩ := h
  exact hstate

theorem fetch_atWord (h : AtWord s n w c) : s.c.fetch (c.seq n).half (c.seq n).pc = (c, w, false) := by
  rw [seq_atWord h]
  obtain ⟨-, -, -, -, -, hfetch, -⟩ := h
  exact hfetch

theorem trapCause_atWord (h : AtWord s n w c) : (c.seq n).trapCause n (c.seq n).pc w false false = 0 := by
  rw [seq_atWord h]
  obtain ⟨-, -, -, -, -, -, htrap⟩ := h
  exact htrap

/-- The word has the effect of the command that names its opcode. -/
theorem word_atWord (h : AtWord s n w c) {mine : Nat → Bool} (hmine : mine w = true) (f : Ctl → Nat → Nat → Ctl) :
    s.c.word n mine f = f c (c.seq n).wordEc w := by
  have hseq := seq_atWord h n
  obtain ⟨⟨hready, -⟩, -, hstate, hbegun, hpc, hfetch, htrap⟩ := h
  have hnow : ¬ (¬ s.c.sysReady = true ∨ (s.c.seq n).state ≠ .running ∨ s.c.ec < (s.c.seq n).wordEc) := by
    simp [hready, hstate, hbegun]
  have hin : ¬ 65535 < (s.c.seq n).pc := by omega
  simp only [Ctl.word, if_neg hnow, if_neg hin, hfetch, htrap, hmine, hseq]
  simp

/-- The command of a word has the word's effect on the units. -/
theorem exec_atWord (h : AtWord s n w c) {mine : Nat → Bool} (hmine : mine w = true) (f : Ctl → Nat → Nat → Ctl) :
    onUnit (decide (n < Config.seqs)) s (fun c => c.word n mine f) = .next (s.units (f c (c.seq n).wordEc w)) := by
  have hword := word_atWord h hmine f
  obtain ⟨⟨-, hfrozen⟩, hn, -⟩ := h
  rw [onUnit_next (decide_eq_true hn) hfrozen, hword]
  rfl

theorem isOp_of_eq {op w : Nat} (h : wOp w = op) : isOp op w = true := decide_eq_true h

theorem onlySeq_setSeq (s : State) (c : Ctl) (n : Nat) (q : Seq) : OnlySeq s c n (s.units (c.setSeq n q)) :=
  ⟨rfl, fun _ hm => c.seq_setSeq_ne hm q⟩

theorem goesOn_next {q : Seq} (h : q.state = .running) (cost : Nat) : GoesOn q (q.next q.pc q.wordEc cost) cost := ⟨h, rfl, rfl, rfl, rfl⟩

@[simp] theorem units_seq (s : State) (c : Ctl) (n : Nat) : (s.units c).c.seq n = c.seq n := rfl

end Sys2Proof.Machine

end

section
/-! The conditions under which a word does not trap (R79). -/

namespace Sys2Proof.Machine

/-- A word that does not trap breaks none of the conditions of R79 that hang on the word and the generators. -/
theorem of_trapCause_eq_zero {q : Seq} {n pc w : Nat} {poisoned head : Bool} (h : q.trapCause n pc w poisoned head = 0) :
    reservedOk w = true ∧ (wOp w = 2 → q.runReserved n w = false) ∧ q.portMismatch n w = false := by
  simp only [Seq.trapCause] at h
  split at h
  · exact absurd h (by decide)
  · split at h
    · exact absurd h (by decide)
    · split at h
      · exact absurd h (by decide)
      · next hreserved =>
        split at h
        · exact absurd h (by decide)
        · next hport =>
          simp only [Bool.or_eq_true, Bool.not_eq_true', Bool.and_eq_true, decide_eq_true_eq, not_or, Bool.not_eq_false, not_and, Bool.not_eq_true] at hreserved
          exact ⟨hreserved.1, hreserved.2, by simpa using hport⟩

end Sys2Proof.Machine

end

section
/-! SET: the part of a generator that a word loads (R66, R70). -/

namespace Sys2Proof.Machine

variable (a : AddrGen) {w : Nat}

theorem load_base (h : wPart w = 0) : a.load w =
    { a.restart with base := BitVec.ofNat 27 (wBase w), lanes := wLanes w, opmode := BitVec.ofNat 4 (wOpmode w), oparg := BitVec.ofNat 16 (wOparg w) } := by
  simp only [AddrGen.load, if_pos h]

theorem load_inner (h : wPart w = 1) : a.load w =
    { a.restart with count := (bits w 8 16 + 1) :: (bits w 52 16 + 1) :: a.count.drop 2
                     stride := sint 28 (bits w 24 28) :: sint 28 (bits w 68 28) :: a.stride.drop 2 } := by
  simp [AddrGen.load, AddrGen.restart, h]

theorem load_outer (h : wPart w = 2) : a.load w =
    { a.restart with count := a.count.take 2 ++ [bits w 8 16 + 1, bits w 52 16 + 1]
                     stride := a.stride.take 2 ++ [sint 28 (bits w 24 28), sint 28 (bits w 68 28)] } := by
  simp [AddrGen.load, AddrGen.restart, h]

/-- Whatever part is loaded, the position returns to the origin. -/
theorem load_idx (w : Nat) : (a.load w).idx = [0, 0, 0, 0] := by
  simp only [AddrGen.load]
  split
  · rfl
  · split <;> rfl

/-- What each part of the word loads and what it leaves. -/
theorem load_parts (w : Nat) (g' : AddrGen) (hg : g' = a.load w) : g'.idx = [0, 0, 0, 0] ∧
    (wPart w = 0 → g'.base.toNat = wBase w ∧ g'.lanes = wLanes w ∧ g'.opmode.toNat = wOpmode w ∧ g'.oparg.toNat = wOparg w ∧
      g'.count = a.count ∧ g'.stride = a.stride) ∧
    (wPart w = 1 → g'.count = (bits w 8 16 + 1) :: (bits w 52 16 + 1) :: a.count.drop 2 ∧
      g'.stride = sint 28 (bits w 24 28) :: sint 28 (bits w 68 28) :: a.stride.drop 2 ∧
      g'.base = a.base ∧ g'.lanes = a.lanes ∧ g'.opmode = a.opmode ∧ g'.oparg = a.oparg) ∧
    (wPart w = 2 → g'.count = a.count.take 2 ++ [bits w 8 16 + 1, bits w 52 16 + 1] ∧
      g'.stride = a.stride.take 2 ++ [sint 28 (bits w 24 28), sint 28 (bits w 68 28)] ∧
      g'.base = a.base ∧ g'.lanes = a.lanes ∧ g'.opmode = a.opmode ∧ g'.oparg = a.oparg) := by
  subst hg
  have htoNat : ∀ k lo, (BitVec.ofNat k (bits w lo k)).toNat = bits w lo k := fun k lo => by
    rw [BitVec.toNat_ofNat, Nat.mod_eq_of_lt (bits_lt w lo k)]
  refine ⟨load_idx a w, fun h => ?_, fun h => ?_, fun h => ?_⟩
  · rw [load_base a h]
    exact ⟨htoNat 27 8, rfl, htoNat 4 40, htoNat 16 48, rfl, rfl⟩
  · rw [load_inner a h]
    exact ⟨rfl, rfl, rfl, rfl, rfl, rfl⟩
  · rw [load_outer a h]
    exact ⟨rfl, rfl, rfl, rfl, rfl, rfl⟩

/-- The command of a SET word. -/
theorem exec_set {s : State} {n w : Nat} {c : Ctl} (h : AtWord s n w c) (hop : wOp w = 1) :
    exec (.set n) s = .next (s.units (c.wordSet n (c.seq n).wordEc w)) :=
  exec_atWord h (isOp_of_eq hop) fun c e w => c.wordSet n e w

/-- The sequencer that a SET word leaves. -/
def Seq.loaded (q : Seq) (w : Nat) : Seq :=
  let p := q.next q.pc q.wordEc 1
  if wAg w = 0 then { p with ag0 := q.ag0.load w } else { p with ag1 := q.ag1.load w }

theorem wordSet_eq (c : Ctl) (n w : Nat) : c.wordSet n (c.seq n).wordEc w = c.setSeq n ((c.seq n).loaded w) := rfl

theorem loaded_goesOn {q : Seq} (h : q.state = .running) (w : Nat) : GoesOn q (q.loaded w) 1 := by
  simp only [Seq.loaded]
  split <;> exact goesOn_next h 1

theorem setLoadsOneGeneratorPart : setLoadsOneGeneratorPartRule := by
  intro s n w c h hop
  refine ⟨_, exec_set h hop, ?_⟩
  rw [wordSet_eq]
  refine ⟨onlySeq_setSeq _ _ _ _, ?_⟩
  rw [units_seq, Ctl.seq_setSeq_same]
  refine ⟨loaded_goesOn (running_atWord h) w, fun g g' hg => ?_, fun hag => ?_, fun hag => ?_⟩
  · by_cases hag : wAg w = 0
    · simp only [Seq.loaded, if_pos hag, Prod.mk.injEq] at hg
      exact hg.1 ▸ load_parts _ w g' hg.2
    · simp only [Seq.loaded, if_neg hag, Prod.mk.injEq] at hg
      exact hg.1 ▸ load_parts _ w g' hg.2
  · rw [Seq.loaded, if_pos hag]
    rfl
  · rw [Seq.loaded, if_neg (by omega)]
    rfl

end Sys2Proof.Machine

end

section
/-! SIG: a release is queued (R150, R152). -/

namespace Sys2Proof.Machine

/-- The command of a SIG word that does not trap is that of its kind. -/
theorem exec_sig {s : State} {n w : Nat} {c : Ctl} (h : AtWord s n w c) (hop : wOp w = 3) :
    exec (if wKind w = 0 then Instr.sigCounterAdd n else if wKind w = 1 then .sigCurtainEntry n else .sigStreamStart n) s =
      .next (s.units (c.wordSig n (c.seq n).wordEc w)) := by
  have hmine : ∀ k, wKind w = k → isSig k w = true := fun k hk => by simp [isSig, hop, hk]
  have hkind : wKind w ≠ 3 := by
    obtain ⟨hreserved, -⟩ := of_trapCause_eq_zero (trapCause_atWord h)
    simp only [reservedOk, hop] at hreserved
    simp at hreserved
    obtain ⟨⟨⟨-, hkind⟩, -⟩, -⟩ := hreserved
    exact hkind
  have hlt : wKind w < 4 := bits_lt w 4 2
  split
  · next hk => exact exec_atWord h (hmine 0 hk) fun c e w => c.wordSig n e w
  · split
    · next hk => exact exec_atWord h (hmine 1 hk) fun c e w => c.wordSig n e w
    · exact exec_atWord h (hmine 2 (by omega)) fun c e w => c.wordSig n e w

/-- The release that the SIG word `w` queues. -/
def Seq.sigRelease (q : Seq) (w : Nat) : Release :=
  { kind := relKind (wKind w), target := wTarget w, value := BitVec.ofNat 32 (wValue w), scope := wScope w
    x := q.releasePoint q.wordEc (wKind w) (wScope w) }

theorem wordSig_eq (c : Ctl) (n w : Nat) : c.wordSig n (c.seq n).wordEc w = c.setSeq n
    { (c.seq n).next (c.seq n).pc (c.seq n).wordEc 1 with
      releases := (c.seq n).releases ++ [(c.seq n).sigRelease w], lastX := ((c.seq n).sigRelease w).x } := rfl

theorem lt_releasePoint (q : Seq) (e kind scope : Nat) : e + 1 ≤ q.releasePoint e kind scope :=
  le_trans (le_max_left _ _) (le_max_left _ _)

theorem sigQueuesRelease : sigQueuesReleaseRule := by
  intro s n w c h hop i hi
  subst hi
  refine ⟨_, exec_sig h hop, ?_⟩
  rw [wordSig_eq]
  refine ⟨onlySeq_setSeq _ _ _ _, ?_⟩
  rw [units_seq, Ctl.seq_setSeq_same]
  exact ⟨goesOn_next (running_atWord h) 1, (c.seq n).sigRelease w, rfl, rfl, rfl, rfl, rfl, rfl, lt_releasePoint _ _ _ _⟩

/-- Settles O14: setLoadsOneGeneratorPart, sigQueuesRelease. -/
theorem setAndSigWords : Obligations.SetAndSigWords := ⟨setLoadsOneGeneratorPart, sigQueuesRelease⟩

end Sys2Proof.Machine

end

section
/-! Units that differ in one sequencer alone, and the control words LOOP, JUMP, DELAY and HALT (R67, R71, R81). -/

namespace Sys2Proof.Machine

/-- No more than sequencer `n` differs. -/
structure SeqOnly (n : Nat) (c d : Ctl) : Prop where
  units  : d = { c with seqs := d.seqs }
  others : ∀ m, m ≠ n → d.seq m = c.seq m

variable {s : State} {n w : Nat} {c d e : Ctl}

theorem SeqOnly.refl (n : Nat) (c : Ctl) : SeqOnly n c c := ⟨rfl, fun _ _ => rfl⟩

theorem SeqOnly.trans (h : SeqOnly n c d) (k : SeqOnly n d e) : SeqOnly n c e :=
  ⟨k.units.trans (by rw [h.units]), fun m hm => (k.others m hm).trans (h.others m hm)⟩

theorem seqOnly_setSeq (n : Nat) (c : Ctl) (q : Seq) : SeqOnly n c (c.setSeq n q) := ⟨rfl, fun _ hm => c.seq_setSeq_ne hm q⟩

theorem SeqOnly.setSeq (h : SeqOnly n c d) (q : Seq) : SeqOnly n c (d.setSeq n q) := h.trans (seqOnly_setSeq n d q)

theorem SeqOnly.onlySeq (h : SeqOnly n c d) (s : State) : OnlySeq s c n (s.units d) := ⟨congrArg s.units h.units, h.others⟩

/-- The scene has ended, and its ec offset stops (R74). -/
theorem endScene_spec (q : Seq) (x : Nat) : (q.endScene x).inScene = false ∧ (q.inScene = true → (q.endScene x).offset = x - q.ec0) ∧
    q.endScene x = { q with inScene := false, offset := (q.endScene x).offset } := by
  simp only [Seq.endScene]
  split
  · exact ⟨rfl, fun _ => rfl, rfl⟩
  · next h => exact ⟨by simpa using h, fun hin => absurd hin h, by cases q; simp_all⟩

theorem exec_halt (h : AtWord s n w c) (hop : wOp w = 0xB) : exec (.halt n) s = .next (s.units (c.wordHalt n (c.seq n).wordEc)) :=
  exec_atWord h (isOp_of_eq hop) fun c e _ => c.wordHalt n e

theorem exec_delay (h : AtWord s n w c) (hop : wOp w = 0xA) :
    exec (.delay n) s = .next (s.units (c.setSeq n ((c.seq n).next (c.seq n).pc (c.seq n).wordEc (wDelay w)))) :=
  exec_atWord h (isOp_of_eq hop) fun c e w => c.setSeq n ((c.seq n).next (c.seq n).pc e (wDelay w))

theorem controlWords : controlWordsRule := by
  intro s n w c h
  refine ⟨fun hop => exec_atWord h (isOp_of_eq hop) fun c e w => c.wordLoop n e w,
    fun hop => exec_atWord h (isOp_of_eq hop) fun c e w => c.wordJump n e w, fun hop => ?_, fun hop => ?_⟩
  · refine ⟨_, exec_delay h hop, onlySeq_setSeq _ _ _ _, ?_⟩
    rw [units_seq, Ctl.seq_setSeq_same]
    exact ⟨goesOn_next (running_atWord h) _, rfl⟩
  · refine ⟨_, exec_halt h hop, onlySeq_setSeq _ _ _ _, ?_⟩
    obtain ⟨hout, hoffset, hrest⟩ := endScene_spec (c.seq n) (c.seq n).wordEc
    rw [units_seq, Ctl.wordHalt, Ctl.seq_setSeq_same]
    generalize (c.seq n).endScene (c.seq n).wordEc = q at hout hoffset hrest
    refine ⟨rfl, hout, rfl, ?_, ?_, ?_, ?_, hoffset⟩ <;> rw [hrest] <;> rfl

end Sys2Proof.Machine

end

section
/-! ACQUIRE: the read-ahead entries of its range leave the wing (R149). -/

namespace Sys2Proof.Machine

variable {s : State} {n w : Nat} {c : Ctl}

/-- The sequencer that an ACQUIRE word of ec `a` leaves. -/
def Seq.acquired (q : Seq) (a w : Nat) : Seq :=
  { q.next q.pc a 1 with
    ra := q.ra.map fun e => if inRangeOf w e.gi ∧ e.since ≤ a then e.leave a else e
    acquires := (q.acquires.filter fun x => decide (a < x.1 + 64)) ++ [(a, wBase w, wBase w + wLen w)] }

theorem exec_acquire (h : AtWord s n w c) (hop : wOp w = 7) :
    exec (.acquire n) s = .next (s.units (c.setSeq n ((c.seq n).acquired (c.seq n).wordEc w))) :=
  exec_atWord h (isOp_of_eq hop) fun c e w => c.wordAcquire n e w

theorem inRangeOf_iff {w gi : Nat} : inRangeOf w gi = true ↔ wBase w ≤ gi ∧ gi ≤ wBase w + wLen w := decide_eq_true_iff

/-- An entry of the range that is in the wing leaves it at the end of the ec, any other stays. -/
theorem acquired_entry (q : Seq) (a w : Nat) {k : Nat} {e e' : RaEntry} (he : q.ra[k]? = some e) (he' : (q.acquired a w).ra[k]? = some e') :
    (wBase w ≤ e.gi ∧ e.gi ≤ wBase w + wLen w ∧ e.since ≤ a → e' = { e with gone := some (min a (e.gone.getD a)) }) ∧
    (¬ (wBase w ≤ e.gi ∧ e.gi ≤ wBase w + wLen w ∧ e.since ≤ a) → e' = e) := by
  simp only [Seq.acquired, List.getElem?_map, he, Option.map_some, Option.some.injEq, inRangeOf_iff, and_assoc] at he'
  subst he'
  exact ⟨fun hin => if_pos hin, fun hout => if_neg hout⟩

end Sys2Proof.Machine

end

section
/-! FLUSH: the groups that it moves, and what a release after it waits for (R144, R145). -/

namespace Sys2Proof.Machine

/-- Two write accesses that differ in their issue ec and their profile alone. -/
def SameGroup (a b : WAccess) : Prop := b = { a with t := b.t, profile := b.profile }

theorem SameGroup.trans {a b d : WAccess} (h : SameGroup a b) (k : SameGroup b d) : SameGroup a d := by
  rw [SameGroup] at h k ⊢
  rw [h] at k
  exact k

theorem reissue_sameGroup (f last : Nat) (l : List WAccess) : List.Forall₂ SameGroup l (reissue f last l) := by
  induction l generalizing last with
  | nil => exact .nil
  | cons a l ih =>
    simp only [reissue]
    split
    · exact .cons rfl (ih _)
    · exact .cons rfl (ih _)

theorem reprofile_sameGroup (c : Ctl) (n f : Nat) (prior l : List WAccess) : ∃ l', c.reprofile n f prior l = prior ++ l' ∧ List.Forall₂ SameGroup l l' := by
  induction l generalizing prior with
  | nil => exact ⟨[], by simp [Ctl.reprofile], .nil⟩
  | cons a l ih =>
    simp only [Ctl.reprofile]
    obtain ⟨l', heq, hsame⟩ := ih (prior ++ [if f < a.t ∧ ¬ a.index then { a with profile := c.profileOf n prior a } else a])
    refine ⟨_, by rw [heq, List.append_assoc, List.singleton_append], .cons ?_ hsame⟩
    split <;> rfl

/-- Each access of the second list differs so from the one of its place in the first. -/
theorem sameGroup_at {l l' : List WAccess} (h : List.Forall₂ SameGroup l l') {k : Nat} {b : WAccess} (hb : l'[k]? = some b) :
    ∃ a, l[k]? = some a ∧ SameGroup a b := by
  induction h generalizing k with
  | nil => simp at hb
  | cons hab _ ih =>
    cases k with
    | zero => exact ⟨_, rfl, by rw [List.getElem?_cons_zero, Option.some.injEq] at hb; exact hb ▸ hab⟩
    | succ k => exact ih hb

variable (c : Ctl) (n f w : Nat) (q : Seq)

/-- A group that a FLUSH of ec `f` moves, where `b` is the newest one held in its range. -/
def flushes (f : Nat) (b a : WAccess) : Bool := !a.index && decide (f < a.t) && decide (a.id ≤ b.id)

/-- A group with the due ec that a FLUSH gives it (R144). -/
def hurried (f : Nat) (b a : WAccess) : WAccess := if flushes f b a = true then { a with due := min a.due (f + 1) } else a

theorem hurried_spec (f : Nat) (b a : WAccess) : (hurried f b a).id = a.id ∧ (hurried f b a).lanes = a.lanes ∧
    (hurried f b a).due = if a.index = false ∧ f < a.t ∧ a.id ≤ b.id then min a.due (f + 1) else a.due := by
  have hmoves : flushes f b a = true ↔ a.index = false ∧ f < a.t ∧ a.id ≤ b.id := by simp [flushes, and_assoc]
  simp only [hurried, ← hmoves]
  split
  · exact ⟨rfl, rfl, rfl⟩
  · exact ⟨rfl, rfl, rfl⟩

/-- The write accesses that a FLUSH leaves. -/
def Ctl.flushedWrites : List WAccess :=
  match (q.writes.filter (heldInRange f w)).getLast? with
  | none => q.writes
  | some b => c.reprofile n f [] (reissue f 0 (q.writes.map (hurried f b)))

/-- What a FLUSH of ec `f` waits for itself. -/
def Ctl.flushWaits (ws : List WAccess) : List FlushWait :=
  ((ws.filter fun a => !a.index && decide (a.w < f)).filter (c.touches w none)).map fun a =>
    { id := a.id, quad := c.touches w (some (seqQuad n)) a, ec := c.lanesVisible ws a }

/-- The sequencer with the wing and the waits that a FLUSH leaves. -/
theorem wordFlush_eq : ∃ lastT, c.wordFlush n f w = c.setSeq n { c.seq n with
    writes := c.flushedWrites n f w (c.seq n), lastT := lastT, flushPort := max (c.seq n).flushPort (f + 1)
    flushes := ((c.flushNow (c.flushedWrites n f w (c.seq n)) (c.seq n).flushes).filter fun y => decide (f < y.ec)) ++
      c.flushWaits n f w (c.flushedWrites n f w (c.seq n)) } := by
  have hheld : ∀ b : WAccess, (c.seq n).writes.map (fun a => if (!a.index && decide (f < a.t)) = true ∧ a.id ≤ b.id then { a with due := min a.due (f + 1) } else a) =
      (c.seq n).writes.map (hurried f b) := fun b => by
    refine List.map_congr_left fun a _ => ?_
    simp only [hurried, flushes, Bool.and_eq_true, decide_eq_true_eq]
  have hfilter : ((c.seq n).writes.filter fun a => (!a.index && decide (f < a.t)) && a.own.any fun l => inRangeOf w l.gi) =
      (c.seq n).writes.filter (heldInRange f w) := rfl
  simp only [Ctl.wordFlush, hheld, hfilter]
  exact ⟨_, rfl⟩

/-- No group moves but those held up to the newest one in the range, which take the due ec of R144. -/
theorem flushedWrites_spec {b : WAccess} (hb : (q.writes.filter (heldInRange f w)).getLast? = some b) :
    (c.flushedWrites n f w q).length = q.writes.length ∧
    ∀ (k : Nat) (a a' : WAccess), q.writes[k]? = some a → (c.flushedWrites n f w q)[k]? = some a' → a'.id = a.id ∧ a'.lanes = a.lanes ∧
      a'.due = if a.index = false ∧ f < a.t ∧ a.id ≤ b.id then min a.due (f + 1) else a.due := by
  obtain ⟨l, heq, hprofiled⟩ := reprofile_sameGroup c n f [] (reissue f 0 (q.writes.map (hurried f b)))
  rw [List.nil_append] at heq
  have hws : c.flushedWrites n f w q = l := by rw [Ctl.flushedWrites, hb]; exact heq
  have hmoved := reissue_sameGroup f 0 (q.writes.map (hurried f b))
  rw [hws]
  refine ⟨by rw [← hprofiled.length_eq, ← hmoved.length_eq, List.length_map], fun k a a' ha ha' => ?_⟩
  obtain ⟨x, hx, hax⟩ := sameGroup_at hprofiled ha'
  obtain ⟨y, hy, hxy⟩ := sameGroup_at hmoved hx
  rw [List.getElem?_map, ha, Option.map_some, Option.some.injEq] at hy
  subst hy
  have hsame : SameGroup (hurried f b a) a' := hxy.trans hax
  rw [SameGroup] at hsame
  rw [hsame]
  exact hurried_spec f b a

/-- No group moves where none is held in the range. -/
theorem flushedWrites_none (h : q.writes.filter (heldInRange f w) = []) : c.flushedWrites n f w q = q.writes := by
  rw [Ctl.flushedWrites, h]
  rfl

/-! ### What a release waits for -/

/-- A running maximum is its start or one of the values, and the largest of them. -/
theorem foldl_max_spec {α : Type} (g : α → Nat) (l : List α) (b : Nat) :
    ((l.foldl (fun m y => max m (g y)) b = b ∨ ∃ y ∈ l, l.foldl (fun m y => max m (g y)) b = g y) ∧ b ≤ l.foldl (fun m y => max m (g y)) b) ∧
      ∀ y ∈ l, g y ≤ l.foldl (fun m y => max m (g y)) b := by
  induction l generalizing b with
  | nil => simp
  | cons x l ih =>
    obtain ⟨⟨hone, hb⟩, hall⟩ := ih (max b (g x))
    rw [List.foldl_cons]
    refine ⟨⟨?_, le_trans (le_max_left _ _) hb⟩, fun y hy => ?_⟩
    · rcases hone with h | ⟨y, hy, h⟩
      · rw [h]
        rcases le_total b (g x) with hle | hle
        · exact .inr ⟨x, List.mem_cons_self, max_eq_right hle⟩
        · exact .inl (max_eq_left hle)
      · exact .inr ⟨y, List.mem_cons_of_mem x hy, h⟩
    · rcases List.mem_cons.mp hy with rfl | hmem
      · exact le_trans (le_max_right _ _) hb
      · exact hall y hmem

variable {c n f w q}

theorem touches_any {quad : Option Nat} {a : WAccess} (h : c.touches w quad a = true) : c.touches w none a = true := by
  simp only [Ctl.touches, List.any_eq_true, Bool.and_eq_true] at h ⊢
  obtain ⟨l, hl, hin, -⟩ := h
  exact ⟨l, hl, hin, trivial⟩

theorem mem_flushNow {ws : List WAccess} {l : List FlushWait} {y : FlushWait} :
    y ∈ c.flushNow ws l ↔ ∃ x ∈ l, ∃ a, ws.find? (fun a => decide (a.id = x.id)) = some a ∧ y = { x with ec := c.lanesVisible ws a } := by
  simp only [Ctl.flushNow, List.mem_filterMap, Option.map_eq_some_iff]
  exact ⟨fun ⟨x, hx, a, ha, h⟩ => ⟨x, hx, a, ha, h.symm⟩, fun ⟨x, hx, a, ha, h⟩ => ⟨x, hx, a, ha, h.symm⟩⟩

theorem mem_flushWaits {ws : List WAccess} {y : FlushWait} : y ∈ c.flushWaits n f w ws ↔ ∃ a ∈ ws, a.index = false ∧ a.w < f ∧ c.touches w none a = true ∧
    y = { id := a.id, quad := c.touches w (some (seqQuad n)) a, ec := c.lanesVisible ws a } := by
  simp only [Ctl.flushWaits, List.mem_map, List.mem_filter, Bool.and_eq_true, Bool.not_eq_true', decide_eq_true_eq]
  exact ⟨fun ⟨a, ⟨⟨ha, hindex, hw⟩, ht⟩, h⟩ => ⟨a, ha, hindex, hw, ht, h.symm⟩,
    fun ⟨a, ha, hindex, hw, ht, h⟩ => ⟨a, ⟨⟨ha, hindex, hw⟩, ht⟩, h.symm⟩⟩

/-- The running maximum over the waits that count in `quad` is the completion there: a wait that is dropped has passed by the ec of the FLUSH. -/
theorem flushDone_foldl (ws : List WAccess) {quad : Option Nat} (hquad : quad = none ∨ quad = some (seqQuad n)) {p : FlushWait → Bool}
    (hp : ∀ y, p y = true ↔ (quad.isSome = true → y.quad = true)) :
    FlushDone c q ws f w quad (((((c.flushNow ws q.flushes).filter fun y => decide (f < y.ec)) ++ c.flushWaits n f w ws).filter p).foldl
      (fun m y => max m y.ec) (max q.flushPort (f + 1))) := by
  obtain ⟨⟨hone, hstart⟩, hall⟩ := foldl_max_spec (fun y : FlushWait => y.ec)
    ((((c.flushNow ws q.flushes).filter fun y => decide (f < y.ec)) ++ c.flushWaits n f w ws).filter p) (max q.flushPort (f + 1))
  simp only [List.mem_filter, List.mem_append, hp, decide_eq_true_eq] at hone hall
  generalize List.foldl _ _ _ = m at hone hstart hall ⊢
  have htouches : ∀ a, (quad.isSome = true → c.touches w (some (seqQuad n)) a = true) ∧ c.touches w none a = true ↔ c.touches w quad a = true := fun a => by
    rcases hquad with rfl | rfl
    · simp
    · simpa using touches_any (quad := some (seqQuad n))
  refine ⟨?_, fun x hx => ?_⟩
  · rcases hone with h | ⟨y, ⟨hy | hy, hcounts⟩, h⟩
    · exact .inl h
    · obtain ⟨z, hz, a, ha, rfl⟩ := mem_flushNow.mp hy.1
      exact .inr (.inr ⟨z, hz, hcounts, a, ha, h⟩)
    · obtain ⟨a, ha, hindex, hw, ht, rfl⟩ := mem_flushWaits.mp hy
      exact .inr (.inl ⟨a, ha, hindex, hw, (htouches a).mp ⟨hcounts, ht⟩, h⟩)
  · rcases hx with rfl | ⟨a, ha, hindex, hw, ht, rfl⟩ | ⟨y, hy, hcounts, a, ha, rfl⟩
    · exact hstart
    · obtain ⟨hcounts, hany⟩ := (htouches a).mpr ht
      exact hall _ ⟨.inr (mem_flushWaits.mpr ⟨a, ha, hindex, hw, hany, rfl⟩), hcounts⟩
    · by_cases hpast : f < c.lanesVisible ws a
      · exact hall { y with ec := c.lanesVisible ws a } ⟨.inl ⟨mem_flushNow.mpr ⟨y, hy, a, ha, rfl⟩, hpast⟩, hcounts⟩
      · omega

end Sys2Proof.Machine

end

section
/-! FLUSH, ACQUIRE and the control words (O16). -/

namespace Sys2Proof.Machine

variable {s : State} {n w : Nat} {c : Ctl}

theorem exec_flush (h : AtWord s n w c) (hop : wOp w = 6) : exec (.flush n) s = .next (s.units
    ((c.wordFlush n (c.seq n).wordEc w).setSeq n (((c.wordFlush n (c.seq n).wordEc w).seq n).next ((c.wordFlush n (c.seq n).wordEc w).seq n).pc (c.seq n).wordEc 1))) :=
  exec_atWord h (isOp_of_eq hop) fun c e w => (c.wordFlush n e w).setSeq n (((c.wordFlush n e w).seq n).next ((c.wordFlush n e w).seq n).pc e 1)

theorem flushAndAcquire : flushAndAcquireRule := by
  intro s n w c q h hq
  subst hq
  have hstate := running_atWord h
  refine ⟨fun hop => ?_, fun hop => ?_⟩
  · obtain ⟨lastT, heq⟩ := wordFlush_eq c n (c.seq n).wordEc w
    refine ⟨_, _, exec_flush h hop, rfl, ?_⟩
    rw [heq, units_seq]
    simp only [Ctl.seq_setSeq_same]
    refine ⟨((seqOnly_setSeq n c _).setSeq _).onlySeq s, goesOn_next hstate 1, fun b hb => flushedWrites_spec c n _ w _ hb,
      fun hnone => flushedWrites_none c n _ w _ hnone, rfl, ?_, ?_, rfl, rfl, rfl, rfl, rfl⟩
    · exact flushDone_foldl _ (.inr rfl) fun y => by simp
    · exact flushDone_foldl _ (.inl rfl) fun y => by simp
  · refine ⟨_, _, exec_acquire h hop, rfl, onlySeq_setSeq _ _ _ _, ?_⟩
    rw [units_seq, Ctl.seq_setSeq_same]
    exact ⟨goesOn_next hstate 1, List.length_map _, fun k e e' he he' => acquired_entry _ _ _ he he', List.mem_append_right _ List.mem_cons_self, rfl, rfl, rfl⟩

/-- Settles O16: flushAndAcquire, controlWords. -/
theorem controlFlowWords : Obligations.ControlFlowWords := ⟨flushAndAcquire, controlWords⟩

end Sys2Proof.Machine

end

section
/-! Traps: the sequencer that traps, and its record (R79, R80). -/

namespace Sys2Proof.Machine

theorem seqs_of_besideFaults {c d : Ctl} (h : d.besideFaults = c.besideFaults) : d.seqs = c.seqs := (congrArg Ctl.seqs h :)

theorem seqs_raise (c : Ctl) (x unit : Nat) : (c.raise x unit).seqs = c.seqs := seqs_of_besideFaults (besideFaults_raise c x unit)

/-- The sequencer that a trap of ec `e` at word `pc` leaves. -/
def Seq.trapped (q : Seq) (pc e : Nat) : Seq :=
  { q.endScene e with state := .trapped, pc := pc, lastPc := pc, head := [], evaluated := false, parkPend := false, parkAt := none, loadHold := false, lend := false }

/-- The record of a trap in MIO_SEQ_TRAP_n. -/
def Ctl.trapRecord (c : Ctl) (n cause pc : Nat) (q : Seq) : Ctl :=
  (((c.setFld (oSeqTrap n) seqTrap_CAUSE cause).setFld (oSeqTrap n) seqTrap_HALF q.half.toNat).setFld (oSeqTrap n) seqTrap_PC pc).setFld
    (oSeqTrap n) seqTrap_SCENE_NO q.sceneNo.toNat

theorem trap_eq (c : Ctl) (n cause pc e : Nat) : ∃ unit, c.trap n cause pc e =
    ((c.setSeq n ((c.seq n).trapped pc e)).trapRecord n cause pc ((c.seq n).endScene e)).raise 9 unit := by
  simp only [Ctl.trap, List.foldl_cons, List.foldl_nil]
  exact ⟨_, rfl⟩

theorem seqs_trap (c : Ctl) (n cause pc e : Nat) : (c.trap n cause pc e).seqs = (c.setSeq n ((c.seq n).trapped pc e)).seqs := by
  obtain ⟨unit, h⟩ := trap_eq c n cause pc e
  rw [h, seqs_raise]
  rfl

theorem seq_trap_same (c : Ctl) (n cause pc e : Nat) : (c.trap n cause pc e).seq n = (c.seq n).trapped pc e := by
  rw [seq_of_seqs (seqs_trap c n cause pc e), Ctl.seq_setSeq_same]

theorem seq_trap_ne (c : Ctl) {n m : Nat} (h : m ≠ n) (cause pc e : Nat) : (c.trap n cause pc e).seq m = c.seq m := by
  rw [seq_of_seqs (seqs_trap c n cause pc e), Ctl.seq_setSeq_ne _ h]

/-- The fields of the record read as the trap has written them. -/
theorem fld_trapRecord (c : Ctl) (n cause pc : Nat) (q : Seq) :
    (c.trapRecord n cause pc q).fld (oSeqTrap n) seqTrap_CAUSE = cause % 2 ^ 4 ∧
    (c.trapRecord n cause pc q).fld (oSeqTrap n) seqTrap_HALF = q.half.toNat % 2 ∧
    (c.trapRecord n cause pc q).fld (oSeqTrap n) seqTrap_PC = pc % 2 ^ 16 ∧
    (c.trapRecord n cause pc q).fld (oSeqTrap n) seqTrap_SCENE_NO = q.sceneNo.toNat := by
  have hne : ∀ (d : Ctl) (f f' : FieldPos) (x : Nat), f.lo + f.width ≤ 64 → (f'.lo + f'.width ≤ f.lo ∨ f.lo + f.width ≤ f'.lo) →
      (d.setFld (oSeqTrap n) f x).fld (oSeqTrap n) f' = d.fld (oSeqTrap n) f' := fun d f f' x hf h => Ctl.fld_setFld_ne d x hf (.inr h)
  refine ⟨?_, ?_, ?_, ?_⟩
  · rw [Ctl.trapRecord, hne _ _ _ _ (by decide) (by decide), hne _ _ _ _ (by decide) (by decide), hne _ _ _ _ (by decide) (by decide),
      Ctl.fld_setFld_same _ _ _ _ (by decide)]
  · rw [Ctl.trapRecord, hne _ _ _ _ (by decide) (by decide), hne _ _ _ _ (by decide) (by decide), Ctl.fld_setFld_same _ _ _ _ (by decide)]
    rfl
  · rw [Ctl.trapRecord, hne _ _ _ _ (by decide) (by decide), Ctl.fld_setFld_same _ _ _ _ (by decide)]
  · rw [Ctl.trapRecord, Ctl.fld_setFld_same _ _ _ _ (by decide), Nat.mod_eq_of_lt q.sceneNo.isLt]

theorem fld_trap (c : Ctl) (n cause pc e : Nat) {f : FieldPos} (hf : f.word = 0) :
    (c.trap n cause pc e).fld (oSeqTrap n) f = ((c.setSeq n ((c.seq n).trapped pc e)).trapRecord n cause pc ((c.seq n).endScene e)).fld (oSeqTrap n) f := by
  obtain ⟨unit, h⟩ := trap_eq c n cause pc e
  rw [h, fld_raise_ne]
  rw [hf]
  simp only [raiseRegs, oSeqTrap, oFltCnt, oFltSticky, oFltStat, oFltCap, List.mem_cons, List.not_mem_nil, or_false, not_or]
  omega

/-! ### A word that traps whichever command comes -/

/-- The word commands. -/
def wordCommands (n : Nat) : List Instr :=
  [.set n, .run n [], .sigCounterAdd n, .sigCurtainEntry n, .sigStreamStart n, .flush n, .acquire n, .loop n, .jump n, .delay n, .halt n, .scene n, .wait n]

/-- Every word command has the effect of the word that a running sequencer has come to. -/
theorem exec_wordCommand {s : State} {n : Nat} {i : Instr} (hi : i ∈ wordCommands n) (hfrozen : s.c.clk.frozen = false) (hn : n < 104)
    (hstate : (s.c.seq n).state = .running) : ∃ mine f, exec i s = .next (s.units (s.c.word n mine f)) := by
  have hunit : ∀ f g : Ctl → Ctl, exec i s = onUnit (decide (n < Config.seqs)) s f → f s.c = g s.c → exec i s = .next (s.units (g s.c)) :=
    fun f g he hfg => by rw [he, onUnit_next (decide_eq_true hn) hfrozen, hfg, State.units]
  have hrunning : ∀ c c' : Ctl, (if (s.c.seq n).state = .waiting then c else c') = c' := fun c c' => if_neg (by rw [hstate]; decide)
  simp only [wordCommands, List.mem_cons, List.not_mem_nil, or_false] at hi
  rcases hi with rfl | rfl | rfl | rfl | rfl | rfl | rfl | rfl | rfl | rfl | rfl | hi | hi
  case inr.inr.inr.inr.inr.inr.inr.inr.inr.inr.inr.inl =>
    subst hi
    exact ⟨_, _, hunit (fun c => if (c.seq n).state = .waiting then c.entryScene n else c.word n (isOp 5) fun c e _ => c.wordScene n e)
      (fun c => c.word n (isOp 5) fun c e _ => c.wordScene n e) rfl (hrunning _ _)⟩
  case inr.inr.inr.inr.inr.inr.inr.inr.inr.inr.inr.inr =>
    subst hi
    exact ⟨_, _, hunit (fun c => if (c.seq n).state = .waiting then (if c.sysReady then c.sampleHead n c.ec else c) else c.word n (isOp 4) fun c _ _ => c)
      (fun c => c.word n (isOp 4) fun c _ _ => c) rfl (hrunning _ _)⟩
  all_goals exact ⟨_, _, hunit (fun c => c.word n _ _) (fun c => c.word n _ _) rfl rfl⟩

/-- A poisoned word and one of a reserved opcode trap whatever word a command stands for (R79). -/
theorem word_traps {c d : Ctl} {n w : Nat} {pois : Bool} (hready : c.sysReady = true) (hstate : (c.seq n).state = .running) (hbegun : (c.seq n).wordEc ≤ c.ec)
    (hpc : (c.seq n).pc ≤ 65535) (hfetch : c.fetch (c.seq n).half (c.seq n).pc = (d, w, pois)) (hbad : pois = true ∨ wOp w = 0 ∨ 0xC ≤ wOp w)
    (mine : Nat → Bool) (f : Ctl → Nat → Nat → Ctl) : c.word n mine f = d.trap n (if pois then 4 else 1) (c.seq n).pc (c.seq n).wordEc := by
  have hnow : ¬ (¬ c.sysReady = true ∨ (c.seq n).state ≠ .running ∨ c.ec < (c.seq n).wordEc) := by simp [hready, hstate, hbegun]
  have hin : ¬ 65535 < (c.seq n).pc := by omega
  have hcause : (c.seq n).trapCause n (c.seq n).pc w pois false = if pois then 4 else 1 := by
    cases pois with
    | true => simp [Seq.trapCause]
    | false =>
      have hop : wOp w = 0 ∨ 12 ≤ wOp w := by simpa using hbad
      simp [Seq.trapCause, hop]
  simp only [Ctl.word, if_neg hnow, if_neg hin, hfetch, hcause]
  cases pois <;> simp

/-- The record of a trap: the cause, the half, the word and the scene number (MIO_SEQ_TRAP_n). -/
theorem fld_trap_record (c : Ctl) (n : Nat) {cause pc : Nat} (hcause : cause < 16) (hpc : pc ≤ 65535) (e : Nat) :
    (c.trap n cause pc e).fld (oSeqTrap n) seqTrap_CAUSE = cause ∧ (c.trap n cause pc e).fld (oSeqTrap n) seqTrap_PC = pc ∧
    (c.trap n cause pc e).fld (oSeqTrap n) seqTrap_HALF = (c.seq n).half.toNat ∧
    (c.trap n cause pc e).fld (oSeqTrap n) seqTrap_SCENE_NO = (c.seq n).sceneNo.toNat := by
  obtain ⟨hfcause, hfhalf, hfpc, hfscene⟩ := fld_trapRecord (c.setSeq n ((c.seq n).trapped pc e)) n cause pc ((c.seq n).endScene e)
  obtain ⟨-, -, hscene⟩ := endScene_spec (c.seq n) e
  rw [fld_trap _ _ _ _ _ rfl, fld_trap _ _ _ _ _ rfl, fld_trap _ _ _ _ _ rfl, fld_trap _ _ _ _ _ rfl, hfcause, hfhalf, hfpc, hfscene, hscene]
  exact ⟨Nat.mod_eq_of_lt hcause, Nat.mod_eq_of_lt (by omega), by cases (c.seq n).half <;> rfl, rfl⟩

theorem units_banks (s : State) (c : Ctl) : (s.units c).banks = s.banks := rfl

theorem badWordTraps : badWordTrapsRule := by
  intro s n w c pois i hi hlive hn hstate hbegun hpc hfetch hbad
  obtain ⟨hready, hfrozen⟩ := hlive
  obtain ⟨mine, f, hexec⟩ := exec_wordCommand (i := i) hi hfrozen hn hstate
  rw [word_traps hready hstate hbegun hpc hfetch hbad] at hexec
  have hseq : ∀ m, c.seq m = s.c.seq m := fun m => by
    rw [← seq_fetch s.c (s.c.seq n).half (s.c.seq n).pc m, hfetch]
  obtain ⟨hout, -⟩ := endScene_spec (s.c.seq n) (s.c.seq n).wordEc
  obtain ⟨hfcause, hfpc, hfhalf, hfscene⟩ := fld_trap_record c n (cause := if pois then 4 else 1) (by cases pois <;> decide) hpc (s.c.seq n).wordEc
  have hown := seq_trap_same c n (if pois then 4 else 1) (s.c.seq n).pc (s.c.seq n).wordEc
  have hothers : ∀ m, m ≠ n → (c.trap n (if pois then 4 else 1) (s.c.seq n).pc (s.c.seq n).wordEc).seq m = s.c.seq m := fun m hm =>
    (seq_trap_ne c hm _ _ _).trans (hseq m)
  rw [hseq] at hown hfhalf hfscene
  generalize c.trap n (if pois then 4 else 1) (s.c.seq n).pc (s.c.seq n).wordEc = d at hexec hown hothers hfcause hfpc hfhalf hfscene
  refine ⟨s.units d, hexec, ?_, ?_, ?_, hfcause, hfpc, hfhalf, hfscene, hothers, units_banks s d⟩ <;> rw [units_seq, hown, Seq.trapped]
  exact hout

end Sys2Proof.Machine

end

section
/-! A SCENE word and the evaluation of the head behind it (R69, R72, R74, R164). -/

namespace Sys2Proof.Machine

/-- The evaluation of a head fetches words and writes targets, and no sequencer changes. -/
theorem seqs_evalHead (n : Nat) (q : Seq) (fuel : Nat) : ∀ (c : Ctl) (k pc : Nat) (loops : List LoopEntry) (acc : List HeadCond),
    (c.evalHead n q fuel k pc loops acc).1.seqs = c.seqs := by
  induction fuel with
  | zero => intro c k pc loops acc; rfl
  | succ fuel ih =>
    intro c k pc loops acc
    rw [Ctl.evalHead]
    split
    · rfl
    · simp only
      split
      · exact seqs_fetch c _ _
      · split
        · exact seqs_fetch c _ _
        · rw [ih]
          split
          · exact seqs_fetch c _ _
          · rw [Ctl.setFld_seqs, seqs_fetch]

/-- The sequencer whose head has been evaluated in ec `e`, with the SCENE word `w`. -/
def Seq.headed (q : Seq) (e w : Nat) (h : HeadEval) : Seq :=
  { q with head := h.conds, bodyPc := h.body, bodyLoops := h.loops, evaluated := true, evalEc := e
           nextNo := if wInc w then q.baseNo + 1 else BitVec.ofNat 32 (wSceneNo w) }

/-- The evaluation of a scene traps the sequencer or leaves it with an evaluated head. -/
theorem evalScene_outcome (c : Ctl) (n e : Nat) : ∃ d : Ctl, d.seqs = c.seqs ∧
    ((∃ cause pc, c.evalScene n e = d.trap n cause pc e) ∨ ∃ w h, c.evalScene n e = d.setSeq n ((c.seq n).headed e w h)) := by
  have hfetched := seqs_fetch c (c.seq n).half (c.seq n).pc
  have hseqs := fun pc loops acc => (seqs_evalHead n (c.seq n) 8 (c.fetch (c.seq n).half (c.seq n).pc).1 0 pc loops acc).trans hfetched
  rw [Ctl.evalScene]
  generalize c.fetch (c.seq n).half (c.seq n).pc = r at hfetched hseqs ⊢
  generalize (if wOp r.2.1 = 5 then _ else _ : Nat) = cause
  by_cases hcause : cause ≠ 0
  · exact ⟨r.1, hfetched, .inl ⟨cause, (c.seq n).pc, if_pos hcause⟩⟩
  · have hhead := hseqs ((nextPc (c.seq n).pc (c.seq n).loops).1 % 65536) (nextPc (c.seq n).pc (c.seq n).loops).2 []
    simp only [if_neg hcause]
    generalize Ctl.evalHead r.1 n (c.seq n) 8 0 _ _ _ = h at hhead ⊢
    cases htrap : h.2.trap with
    | some trap => exact ⟨h.1, hhead, .inl ⟨trap.1, trap.2, rfl⟩⟩
    | none => exact ⟨h.1, hhead, .inr ⟨r.2.1, h.2, rfl⟩⟩

/-- Whatever comes of the evaluation, a sequencer between scenes stays so, and no other sequencer changes. -/
theorem seq_evalScene (c : Ctl) (n e : Nat) (hout : (c.seq n).inScene = false) :
    ((c.evalScene n e).seq n).inScene = false ∧ ((c.evalScene n e).seq n).offset = (c.seq n).offset ∧
    ∀ m, m ≠ n → (c.evalScene n e).seq m = c.seq m := by
  obtain ⟨d, hseqs, ⟨cause, pc, htrap⟩ | ⟨w, h, hhead⟩⟩ := evalScene_outcome c n e
  · have hend : (c.seq n).endScene e = c.seq n := if_neg (by simp [hout])
    rw [htrap, seq_trap_same, seq_of_seqs hseqs, Seq.trapped, hend]
    exact ⟨hout, rfl, fun m hm => (seq_trap_ne d hm cause pc e).trans (seq_of_seqs hseqs m)⟩
  · rw [hhead, Ctl.seq_setSeq_same]
    exact ⟨hout, rfl, fun m hm => (Ctl.seq_setSeq_ne d hm _).trans (seq_of_seqs hseqs m)⟩

theorem trapCause_scene {w : Nat} (hop : wOp w = 5) (q q' : Seq) (n pc pc' : Nat) : q.trapCause n pc w false false = q'.trapCause n pc' w false false := by
  simp [Seq.trapCause, Seq.portMismatch, Seq.loopShape, hop]

theorem trapCause_wait {w : Nat} (hop : wOp w = 4) (q q' : Seq) (n pc pc' : Nat) : q.trapCause n pc w false true = q'.trapCause n pc' w false true := by
  simp [Seq.trapCause, Seq.portMismatch, Seq.loopShape, hop]

/-- A head ends at the first word that is no WAIT. -/
theorem evalHead_end {c d : Ctl} {q : Seq} {pc w : Nat} {pois : Bool} (hpc : pc ≤ 65535) (hfetch : c.fetch q.half pc = (d, w, pois)) (hop : wOp w ≠ 4)
    (n fuel k : Nat) (loops : List LoopEntry) (acc : List HeadCond) :
    c.evalHead n q (fuel + 1) k pc loops acc = (d, { conds := acc, body := pc, loops := loops }) := by
  have hin : ¬ 65535 < pc := by omega
  simp only [Ctl.evalHead, if_neg hin, hfetch, if_pos hop]

/-- A WAIT on a counter sets its target and takes a place of the head. -/
theorem evalHead_counter {c d : Ctl} {q : Seq} {n pc w : Nat} (hpc : pc ≤ 65535) (hfetch : c.fetch q.half pc = (d, w, false)) (hop : wOp w = 4)
    (hkind : wKind w = 0) (htrap : q.trapCause n pc w false true = 0) (fuel k : Nat) (loops : List LoopEntry) (acc : List HeadCond) :
    c.evalHead n q (fuel + 1) k pc loops acc =
      (d.setFld (oSeqWt n) (wtPos k) (if wMode w = 1 then d.wt n k + wValue w else wValue w)).evalHead n q fuel (k + 1) (nextPc pc loops).1 (nextPc pc loops).2
        (acc ++ [{ curtain := false, target := wTarget w, scope := wScope w }]) := by
  have hin : ¬ 65535 < pc := by omega
  have hwait : ¬ wOp w ≠ 4 := fun h => h hop
  have hcause : ¬ q.trapCause n pc w false true ≠ 0 := fun h => h htrap
  have hcounter : ¬ wKind w = 1 := by omega
  have hno : decide (wKind w = 1) = false := decide_eq_false hcounter
  rw [Ctl.evalHead]
  simp only [if_neg hin, hfetch, if_neg hwait, if_neg hcause, if_neg hcounter, hno]

/-- The scene of a good SCENE word, and what its head comes to. -/
theorem evalScene_headed {c d e' : Ctl} {n e w : Nat} {h : HeadEval} (hfetch : c.fetch (c.seq n).half (c.seq n).pc = (d, w, false)) (hop : wOp w = 5)
    (htrap : (c.seq n).trapCause n (c.seq n).pc w false false = 0) (hin : (nextPc (c.seq n).pc (c.seq n).loops).1 ≤ 65535)
    (hhead : d.evalHead n (c.seq n) 8 0 (nextPc (c.seq n).pc (c.seq n).loops).1 (nextPc (c.seq n).pc (c.seq n).loops).2 [] = (e', h)) (hnone : h.trap = none) :
    c.evalScene n e = e'.setSeq n ((c.seq n).headed e w h) := by
  have hmod : (nextPc (c.seq n).pc (c.seq n).loops).1 % 65536 = (nextPc (c.seq n).pc (c.seq n).loops).1 := Nat.mod_eq_of_lt (by omega)
  have hgood : ¬ (0 : Nat) ≠ 0 := by decide
  rw [Ctl.evalScene]
  simp only [hfetch, if_pos hop, htrap, if_neg hgood, hmod, hhead, hnone]
  rfl

/-- The sequencer whose scene a SCENE word of ec `e` has ended. -/
def Seq.sceneEnded (q : Seq) (e : Nat) : Seq := { q.endScene e with parkedSince := e, lastPc := (q.endScene e).pc }

/-- The sequencer that waits for its head from a SCENE word of ec `e` on. -/
def Seq.awaitsHead (q : Seq) (e : Nat) (hold : Bool) : Seq :=
  { q.sceneEnded e with state := .waiting, waitSince := e, evaluated := false, head := [], loadHold := hold }

theorem sceneEnded_spec (q : Seq) (e : Nat) : (q.sceneEnded e).inScene = false ∧ (q.inScene = true → (q.sceneEnded e).offset = e - q.ec0) ∧
    q.sceneEnded e = { q with inScene := false, offset := (q.sceneEnded e).offset, parkedSince := e, lastPc := q.pc } := by
  obtain ⟨hout, hoffset, hrest⟩ := endScene_spec q e
  rw [Seq.sceneEnded]
  refine ⟨hout, hoffset, ?_⟩
  rw [hrest]

theorem wordScene_parked {c : Ctl} {n : Nat} (h : (c.seq n).parkPend = true) (e : Nat) :
    c.wordScene n e = c.setSeq n ((c.seq n).sceneEnded e).halt := by
  obtain ⟨-, -, hrest⟩ := sceneEnded_spec (c.seq n) e
  have hpark : ((c.seq n).sceneEnded e).parkPend = true := by rw [hrest]; exact h
  exact if_pos hpark

theorem wordScene_awaits {c : Ctl} {n : Nat} (h : (c.seq n).parkPend = false) (e : Nat) :
    c.wordScene n e = if c.loading (c.seq n).half then c.setSeq n ((c.seq n).awaitsHead e true)
      else (c.setSeq n ((c.seq n).awaitsHead e false)).evalScene n e := by
  obtain ⟨-, -, hrest⟩ := sceneEnded_spec (c.seq n) e
  have hpark : ¬ ((c.seq n).sceneEnded e).parkPend = true := by rw [hrest]; simp [h]
  have hhalf : ((c.seq n).sceneEnded e).half = (c.seq n).half := by rw [hrest]
  have hword : c.wordScene n e = if c.loading ((c.seq n).sceneEnded e).half
      then c.setSeq n ((c.seq n).awaitsHead e (c.loading ((c.seq n).sceneEnded e).half))
      else (c.setSeq n ((c.seq n).awaitsHead e (c.loading ((c.seq n).sceneEnded e).half))).evalScene n e := if_neg hpark
  rw [hword, hhalf]
  by_cases hload : c.loading (c.seq n).half = true
  · rw [if_pos hload, if_pos hload, hload]
  · rw [if_neg hload, if_neg hload, Bool.eq_false_iff.mpr hload]

end Sys2Proof.Machine

end

section
/-! What a SCENE word leaves (R69, R72, R74, R82, R164). -/

namespace Sys2Proof.Machine

variable {s : State} {n w : Nat} {c : Ctl}

theorem exec_scene (h : AtWord s n w c) (hop : wOp w = 5) : exec (.scene n) s = .next (s.units (c.wordScene n (c.seq n).wordEc)) := by
  have hword := word_atWord h (isOp_of_eq hop) fun c e _ => c.wordScene n e
  obtain ⟨⟨-, hfrozen⟩, hn, hstate, -⟩ := h
  have hexec : exec (.scene n) s = onUnit (decide (n < Config.seqs)) s
    (fun c => if (c.seq n).state = .waiting then c.entryScene n else c.word n (isOp 5) fun c e _ => c.wordScene n e) := rfl
  have hrunning : ¬ (s.c.seq n).state = .waiting := by rw [hstate]; decide
  rw [hexec, onUnit_next (decide_eq_true hn) hfrozen, if_neg hrunning, hword]
  rfl

/-- Whatever a SCENE word does, the scene has ended with its offset, and no other sequencer changes. -/
theorem seq_wordScene (c : Ctl) (n e : Nat) : ((c.wordScene n e).seq n).inScene = false ∧
    ((c.seq n).inScene = true → ((c.wordScene n e).seq n).offset = e - (c.seq n).ec0) ∧ ∀ m, m ≠ n → (c.wordScene n e).seq m = c.seq m := by
  obtain ⟨hout, hoffset, -⟩ := sceneEnded_spec (c.seq n) e
  cases hpark : (c.seq n).parkPend with
  | true =>
    rw [wordScene_parked hpark, Ctl.seq_setSeq_same]
    exact ⟨hout, hoffset, fun m hm => Ctl.seq_setSeq_ne c hm _⟩
  | false =>
    rw [wordScene_awaits hpark]
    split
    · rw [Ctl.seq_setSeq_same]
      exact ⟨hout, hoffset, fun m hm => Ctl.seq_setSeq_ne c hm _⟩
    · have hbetween : (((c.setSeq n ((c.seq n).awaitsHead e false))).seq n).inScene = false := by rw [Ctl.seq_setSeq_same]; exact hout
      obtain ⟨hin, hkept, hothers⟩ := seq_evalScene _ n e hbetween
      rw [Ctl.seq_setSeq_same] at hkept
      exact ⟨hin, fun hscene => hkept.trans (hoffset hscene), fun m hm => (hothers m hm).trans (Ctl.seq_setSeq_ne c hm _)⟩

/-- The sequencer between its scenes has the half, the place and the loop stack of its SCENE word. -/
theorem awaitsHead_place (q : Seq) (e : Nat) (hold : Bool) : (q.awaitsHead e hold).half = q.half ∧ (q.awaitsHead e hold).pc = q.pc ∧
    (q.awaitsHead e hold).loops = q.loops ∧ (q.awaitsHead e hold).baseNo = q.baseNo := by
  obtain ⟨-, -, hrest⟩ := sceneEnded_spec q e
  rw [Seq.awaitsHead, hrest]
  exact ⟨rfl, rfl, rfl, rfl⟩

/-- The SCENE word of a sequencer whose half no load is writing: its head is what the words behind it come to. -/
theorem wordScene_headed (h : AtWord s n w c) (hop : wOp w = 5) (hpark : (c.seq n).parkPend = false) (hload : c.loading (c.seq n).half = false)
    (hin : (nextPc (c.seq n).pc (c.seq n).loops).1 ≤ 65535) {d : Ctl} {e : HeadEval} (hnone : e.trap = none)
    (hhead : (c.setSeq n ((c.seq n).awaitsHead (c.seq n).wordEc false)).evalHead n ((c.seq n).awaitsHead (c.seq n).wordEc false) 8 0
      (nextPc (c.seq n).pc (c.seq n).loops).1 (nextPc (c.seq n).pc (c.seq n).loops).2 [] = (d, e)) :
    c.wordScene n (c.seq n).wordEc = d.setSeq n (((c.seq n).awaitsHead (c.seq n).wordEc false).headed (c.seq n).wordEc w e) := by
  obtain ⟨hhalf, hpc, hloops, -⟩ := awaitsHead_place (c.seq n) (c.seq n).wordEc false
  have hnoload : ¬ c.loading (c.seq n).half = true := by simp [hload]
  rw [wordScene_awaits hpark, if_neg hnoload]
  generalize (c.seq n).awaitsHead (c.seq n).wordEc false = q at hhalf hpc hloops hhead ⊢
  rw [← hpc, ← hloops] at hin hhead
  have hsame := Ctl.seq_setSeq_same c n q
  have hfetch : (c.setSeq n q).fetch q.half q.pc = (c.setSeq n q, w, false) := by
    rw [hhalf, hpc]
    exact fetch_again (fetch_atWord h) rfl rfl
  have htrap : q.trapCause n q.pc w false false = 0 := (trapCause_scene hop q (c.seq n) n _ _).trans (trapCause_atWord h)
  rw [evalScene_headed (d := c.setSeq n q) (w := w) (by rw [hsame]; exact hfetch) hop (by rw [hsame]; exact htrap) (by rw [hsame]; exact hin)
    (by rw [hsame]; exact hhead) hnone, hsame]

theorem sceneWord : sceneWordRule := by
  intro s n w c q h hop hq
  subst hq
  have hexec := exec_scene h hop
  refine ⟨⟨_, hexec, ?_⟩, fun hpark => ?_, fun hpark hload => ?_,
    fun w1 p hpark hload hp hin hfetch => ⟨fun hop1 => ?_, fun w2 p' hop1 hkind htrap hp' hin' hfetch' hop2 => ?_⟩⟩
  · obtain ⟨hout, hoffset, hothers⟩ := seq_wordScene c n (c.seq n).wordEc
    exact ⟨hout, hoffset, hothers, rfl, rfl⟩
  · rw [wordScene_parked hpark] at hexec
    refine ⟨_, hexec, onlySeq_setSeq _ _ _ _, ?_⟩
    rw [units_seq, Ctl.seq_setSeq_same]
    exact ⟨rfl, rfl⟩
  · rw [wordScene_awaits hpark, if_pos hload] at hexec
    refine ⟨_, hexec, onlySeq_setSeq _ _ _ _, ?_⟩
    rw [units_seq, Ctl.seq_setSeq_same]
    exact ⟨rfl, rfl, rfl, rfl⟩
  · subst hp
    obtain ⟨hhalf, -, -, hbase⟩ := awaitsHead_place (c.seq n) (c.seq n).wordEc false
    rw [wordScene_headed h hop hpark hload hin rfl (evalHead_end hin (by rw [hhalf]; exact fetch_again hfetch rfl rfl) hop1 n 7 0 _ [])] at hexec
    refine ⟨_, hexec, ((seqOnly_setSeq n c _).setSeq _).onlySeq s, ?_⟩
    rw [units_seq, Ctl.seq_setSeq_same]
    exact ⟨rfl, rfl, rfl, rfl, rfl, rfl, rfl, by rw [Seq.headed, hbase]⟩
  · subst hp hp'
    obtain ⟨hhalf, -⟩ := awaitsHead_place (c.seq n) (c.seq n).wordEc false
    have hwait : (c.setSeq n ((c.seq n).awaitsHead (c.seq n).wordEc false)).fetch ((c.seq n).awaitsHead (c.seq n).wordEc false).half
        (nextPc (c.seq n).pc (c.seq n).loops).1 = (c.setSeq n ((c.seq n).awaitsHead (c.seq n).wordEc false), w1, false) := by
      rw [hhalf]
      exact fetch_again hfetch rfl rfl
    have hfirst := evalHead_counter hin hwait hop1 hkind ((trapCause_wait hop1 _ _ n _ _).trans htrap) 7 0 (nextPc (c.seq n).pc (c.seq n).loops).2 []
    rw [evalHead_end hin' (by rw [hhalf]; exact fetch_again hfetch' rfl rfl) hop2] at hfirst
    rw [wordScene_headed h hop hpark hload hin rfl hfirst] at hexec
    refine ⟨_, hexec, ?_⟩
    rw [units_seq, Ctl.seq_setSeq_same]
    refine ⟨rfl, rfl, rfl, rfl, rfl, ?_⟩
    exact (Ctl.fld_setFld_same _ _ _ _ (by decide)).trans (by rw [Ctl.wt, Ctl.setSeq_fld]; rfl)

end Sys2Proof.Machine

end

section
/-! The samples of a head (R162, R164). -/

namespace Sys2Proof.Machine

/-- The units before and after the record of scope events: the same beside the fault records, with the same registers from the counters on. -/
structure SeesAlike (c d : Ctl) : Prop where
  units : d.besideFaults = c.besideFaults
  upper : ∀ o, 0x80000 ≤ o → d.reg o = c.reg o

theorem SeesAlike.refl (c : Ctl) : SeesAlike c c := ⟨rfl, fun _ _ => rfl⟩

theorem SeesAlike.trans {c d e : Ctl} (h : SeesAlike c d) (k : SeesAlike d e) : SeesAlike c e :=
  ⟨k.units.trans h.units, fun o ho => (k.upper o ho).trans (h.upper o ho)⟩

theorem seesAlike_scopeEvent (c : Ctl) (rel acq kind target source req : Nat) : SeesAlike c (c.scopeEvent rel acq kind target source req) :=
  ⟨besideFaults_scopeEvent c _ _ _ _ _ _, fun _ ho => reg_scopeEvent_ne c _ _ _ _ _ _ ho⟩

/-- A condition of a head is met or not by its counter or curtain and its target, which no scope event moves. -/
theorem SeesAlike.condMet {c d : Ctl} (h : SeesAlike c d) (n k x : Nat) (cond : HeadCond) : d.condMet n k x cond = c.condMet n k x cond := by
  have hcurtains : d.curtains = c.curtains := (congrArg Ctl.curtains h.units :)
  have hhist : d.cntHist = c.cntHist := (congrArg Ctl.cntHist h.units :)
  have hcnt : d.cntNow cond.target = c.cntNow cond.target := by
    simp only [Ctl.cntNow, Ctl.fld, h.upper (oCnt cond.target + 8 * 0) (by simp only [oCnt]; omega)]
  have hseen : d.cntSeen cond.target x = c.cntSeen cond.target x := by rw [Ctl.cntSeen, hhist, hcnt, Ctl.cntSeen]
  have hwt : d.wt n k = c.wt n k := by
    simp only [Ctl.wt, Ctl.fld, wtPos]
    rw [h.upper _ (by simp only [oSeqWt]; omega)]
  have hcurtain : d.curtain cond.target = c.curtain cond.target := by rw [Ctl.curtain, hcurtains, Ctl.curtain]
  have hcur : d.curMet cond.target n x = c.curMet cond.target n x := by rw [Ctl.curMet, hcurtain, Ctl.curMet]
  rw [Ctl.condMet, hcur, Ctl.cntAt, hseen, hwt, Ctl.condMet, Ctl.cntAt]

/-- Each sample of a head leaves a condition met that was met or is met now. -/
theorem sampleConds_spec (n x : Nat) (conds : List HeadCond) : ∀ (c : Ctl) (k : Nat),
    SeesAlike c (c.sampleConds n x k conds).1 ∧ (c.sampleConds n x k conds).2.length = conds.length ∧
    ∀ (j : Nat) (h : HeadCond), conds[j]? = some h → (c.sampleConds n x k conds).2[j]? = some { h with met := h.met || c.condMet n (k + j) x h } := by
  induction conds with
  | nil => exact fun c k => ⟨.refl c, rfl, fun j h hj => absurd hj (by simp)⟩
  | cons cond rest ih =>
    intro c k
    have hevent : SeesAlike c (if (!cond.met && c.condMet n k x cond) = true
        then c.scopeEvent (c.condScope x cond) cond.scope cond.curtain.toNat cond.target 0 n else c) := by
      split
      · exact seesAlike_scopeEvent c _ _ _ _ _ _
      · exact .refl c
    rw [Ctl.sampleConds]
    obtain ⟨halike, hlength, hmet⟩ := ih (if (!cond.met && c.condMet n k x cond) = true
        then c.scopeEvent (c.condScope x cond) cond.scope cond.curtain.toNat cond.target 0 n else c) (k + 1)
    refine ⟨hevent.trans halike, congrArg (· + 1) hlength, fun j h hj => ?_⟩
    cases j with
    | zero =>
      obtain rfl : cond = h := by simpa using hj
      cases cond.met <;> simp
    | succ j =>
      have hsample := hmet j h (by simpa using hj)
      rw [hevent.condMet, Nat.add_right_comm k 1 j] at hsample
      simpa [Nat.add_assoc] using hsample

theorem exec_sample {s : State} {n : Nat} (hworking : s.working) (hn : n < 104) (hstate : (s.c.seq n).state = .waiting) :
    exec (.wait n) s = .next (s.units (s.c.sampleHead n s.c.ec)) := by
  obtain ⟨⟨hready, hfrozen⟩, -⟩ := hworking
  have hexec : exec (.wait n) s = onUnit (decide (n < Config.seqs)) s
    (fun c => if (c.seq n).state = .waiting then (if c.sysReady then c.sampleHead n c.ec else c) else c.word n (isOp 4) fun c _ _ => c) := rfl
  rw [hexec, onUnit_next (decide_eq_true hn) hfrozen, if_pos hstate, if_pos hready]
  rfl

theorem headWait : headWaitRule := by
  intro s n hworking hn hstate hevaluated hlater _ _
  have hexec := exec_sample hworking hn hstate
  obtain ⟨-, hblack⟩ := hworking
  have hsampled : (s.c.seq n).state = .waiting ∧ (s.c.seq n).evaluated ∧ (s.c.seq n).evalEc < s.c.ec ∧ ¬ s.c.blackout = true :=
    ⟨hstate, hevaluated, hlater, by simp [hblack]⟩
  obtain ⟨halike, hlength, hmet⟩ := sampleConds_spec n s.c.ec (s.c.seq n).head s.c 0
  rw [Ctl.sampleHead, if_pos hsampled] at hexec
  generalize s.c.sampleConds n s.c.ec 0 (s.c.seq n).head = r at hexec halike hlength hmet
  refine ⟨_, hexec, ?_⟩
  rw [units_seq, Ctl.seq_setSeq_same]
  refine ⟨rfl, hlength, fun k h hk => ?_, fun m hm => ?_, rfl, rfl⟩
  · have hcond := hmet k h hk
    rw [Nat.zero_add] at hcond
    exact hcond
  · rw [units_seq, Ctl.seq_setSeq_ne _ hm, seq_of_seqs (seqs_of_besideFaults halike.units)]

/-- Settles O17: a SCENE word ends the scene and evaluates the words behind it, which change registers and no sequencer but their own; a sample of a head
meets conditions by counters and curtains that no scope event moves; a bad word traps before its opcode is read. -/
theorem sceneHeadsAndTraps : Obligations.SceneHeadsAndTraps := ⟨sceneWord, headWait, badWordTraps⟩

end Sys2Proof.Machine

end

section
/-! START, PARK and RESET of a sequencer (R82, R86, R159). -/

namespace Sys2Proof.Machine

theorem exec_start {s : State} {n : Nat} (h : s.accepting) (hn : n < 104) : exec (.start n) s = .next (s.wrote (.start n) (s.c.seqStart n)) :=
  onUnit_ctlWrite (decide_eq_true hn) h (by decide) _ _

theorem exec_park {s : State} {n : Nat} (h : s.accepting) (hn : n < 104) : exec (.park n) s = .next (s.wrote (.park n) (s.c.seqPark n)) :=
  onUnit_ctlWrite (decide_eq_true hn) h (by decide) _ _

theorem exec_reset {s : State} {n : Nat} (h : s.accepting) (hn : n < 104) : exec (.reset n) s = .next (s.wrote (.reset n) (s.c.seqReset n)) :=
  onUnit_ctlWrite (decide_eq_true hn) h (by decide) _ _

/-- The sequencer that a START leaves at the entry word of its configuration. -/
def Ctl.started (c : Ctl) (n : Nat) : Seq :=
  { c.seq n with
    state := .waiting, half := decide (c.fld (oSeqCfg n) seqCfg_ENTRY_HALF = 1), pc := c.fld (oSeqCfg n) seqCfg_ENTRY_PC
    lastPc := c.fld (oSeqCfg n) seqCfg_ENTRY_PC, loops := [], baseNo := 0, head := [], evaluated := false, waitSince := c.ec, parkPend := false
    parkAt := none, loadHold := c.loading (decide (c.fld (oSeqCfg n) seqCfg_ENTRY_HALF = 1)), ra := (c.seq n).ra.map (RaEntry.leave c.ec) }

theorem seqStart_halted {c : Ctl} {n : Nat} (h : (c.seq n).state = .halted) : c.seqStart n = c.setSeq n (c.started n) := if_neg fun hne => hne h

theorem seqStart_refused {c : Ctl} {n : Nat} (h : (c.seq n).state ≠ .halted) : c.seqStart n = c.flag (oSeqStat n) seqStat_CMD_REFUSED := if_pos h

theorem startStands_iff {c : Ctl} {n : Nat} : c.startStands n = true ↔
    (c.group (c.groupOf n)).decided.isSome = true ∧ n ∈ (c.group (c.groupOf n)).who := decide_eq_true_iff

theorem startStands_undecided {c : Ctl} {n : Nat} (h : (c.group (c.groupOf n)).decided = none) : c.startStands n = false :=
  Bool.eq_false_iff.mpr fun hs => by
    obtain ⟨hsome, -⟩ := startStands_iff.mp hs
    simp [h] at hsome

/-! ### A PARK of a WAITING sequencer settles with its cc -/

/-- The sequencer whose PARK has settled in ec `x`, with a start decision that stands for it or none. -/
def Seq.parkSettled (q : Seq) (stands : Bool) (x : Nat) : Seq :=
  match q.parkAt with
  | none => q
  | some d =>
    if x < d then q
    else if q.state = .running ∨ (q.state = .waiting ∧ stands) then { q with parkAt := none, parkPend := true }
    else if q.state = .waiting then q.halt
    else { q with parkAt := none }

theorem parkSettled_none {q : Seq} (h : q.parkAt = none) (stands : Bool) (x : Nat) : q.parkSettled stands x = q := by simp [Seq.parkSettled, h]

/-- A PARK settles once. -/
theorem parkSettled_parkSettled (q : Seq) (stands : Bool) (x : Nat) : (q.parkSettled stands x).parkSettled stands x = q.parkSettled stands x := by
  cases hpark : q.parkAt with
  | none => rw [parkSettled_none hpark, parkSettled_none hpark]
  | some d =>
    by_cases hlater : x < d
    · have hsame : q.parkSettled stands x = q := by simp [Seq.parkSettled, hpark, hlater]
      rw [hsame, hsame]
    · refine parkSettled_none ?_ stands x
      simp only [Seq.parkSettled, hpark, if_neg hlater]
      split
      · rfl
      · split <;> rfl

theorem parkSettle_outcome (c : Ctl) (n x : Nat) : (c.parkSettle n x = c ∧ (c.seq n).parkSettled (c.startStands n) x = c.seq n) ∨
    c.parkSettle n x = c.setSeq n ((c.seq n).parkSettled (c.startStands n) x) := by
  rw [Ctl.parkSettle]
  cases hpark : (c.seq n).parkAt with
  | none => exact .inl ⟨rfl, parkSettled_none hpark _ _⟩
  | some d =>
    simp only [Seq.parkSettled, hpark]
    by_cases hlater : x < d
    · exact .inl ⟨if_pos hlater, if_pos hlater⟩
    · refine .inr ?_
      rw [if_neg hlater, if_neg hlater]
      split
      · rfl
      · split <;> rfl

/-- What a table gives beside its default stands in it. -/
theorem mem_of_get_ne {α : Type} {d : α} {t : Tab α} {k : Nat} (h : Tab.get d t k ≠ d) : (k, Tab.get d t k) ∈ t := by
  induction t with
  | nil => exact absurd rfl h
  | cons e t ih =>
    rw [Tab.get] at h ⊢
    split at h
    · next hk => rw [if_pos hk, ← hk]; exact List.mem_cons_self
    · next hk => rw [if_neg hk]; exact List.mem_cons_of_mem _ (ih h)

/-- Every sequencer settles by the start decisions as they stand. -/
theorem seq_parksSettle (c : Ctl) (x n : Nat) : (c.parksSettle x).seq n = (c.seq n).parkSettled (c.startStands n) x := by
  have hacts : ActsOnOne (fun d => d.groups = c.groups ∧ d.regs = c.regs) (fun n d => d.parkSettle n x) (fun n q => q.parkSettled (c.startStands n) x) := by
    have hstands : ∀ (d : Ctl) (i : Nat), d.groups = c.groups ∧ d.regs = c.regs → d.startStands i = c.startStands i := fun d i ⟨hgroups, hregs⟩ => by
      have hgroup : ∀ g, d.group g = c.group g := fun g => by rw [Ctl.group, hgroups, Ctl.group]
      rw [Ctl.startStands, Ctl.groupOf, fld_of_regs hregs, hgroup, Ctl.startStands, Ctl.groupOf]
    refine ⟨fun i d hd => ?_, fun i d hd => ?_, fun i d hd m hm => ?_⟩ <;>
      rcases parkSettle_outcome d i x with ⟨hsame, hseq⟩ | hset
    · rw [hsame]; exact hd
    · rw [hset]; exact hd
    · rw [hsame, ← hstands d i hd, hseq]
    · rw [hset, Ctl.seq_setSeq_same, hstands d i hd]
    · rw [hsame]
    · rw [hset, Ctl.seq_setSeq_ne _ hm]
  rw [Ctl.parksSettle, seq_forAll hacts (.inr fun q => parkSettled_parkSettled q _ x) ⟨rfl, rfl⟩]
  split
  · rfl
  · next hout =>
    refine (parkSettled_none ?_ _ _).symm
    by_contra hpark
    have hkey : ((n, c.seq n) : Nat × Seq) ∈ c.seqs := mem_of_get_ne fun hsame => hpark (by rw [Ctl.seq, hsame])
    exact hout (List.mem_map.mpr ⟨_, List.mem_filter.mpr ⟨hkey, Option.isSome_iff_ne_none.mpr hpark⟩, rfl⟩)

/-! ### RESET -/

/-- The sequencer that a RESET leaves. -/
def Ctl.resetSeq (c : Ctl) (n : Nat) : Seq :=
  { (c.seq n).halt with ag0 := {}, ag1 := {}, loops := [], ra := (c.seq n).ra.map (RaEntry.leave c.ec)
                        parkedSince := if (c.seq n).state = .halted then (c.seq n).parkedSince else c.ec }

theorem seqReset_parked {c : Ctl} {n : Nat} (h : (c.seq n).state = .halted ∨ (c.seq n).state = .trapped) :
    c.seqReset n = forAll (List.range 8) (fun k d => d.setFld (oSeqWt n) (wtPos k) 0) (c.setSeq n (c.resetSeq n)) := if_pos h

theorem wt_setFld (c : Ctl) (n k j : Nat) : (c.setFld (oSeqWt n) (wtPos k) 0).wt n j = if j = k then 0 else c.wt n j := by
  split
  · next h =>
    subst h
    exact (Ctl.fld_setFld_same _ _ _ _ (by simp only [wtPos]; omega)).trans (Nat.zero_mod _)
  · next h => exact Ctl.fld_setFld_ne _ _ (by simp only [wtPos]; omega) (by simp only [wtPos]; omega)

/-- The targets of a list that are cleared read 0. -/
theorem wt_cleared (n j : Nat) (l : List Nat) : ∀ c : Ctl, (forAll l (fun k d => d.setFld (oSeqWt n) (wtPos k) 0) c).wt n j = if j ∈ l then 0 else c.wt n j := by
  induction l with
  | nil => simp
  | cons k l ih =>
    intro c
    rw [forAll_cons, ih, wt_setFld]
    by_cases hk : j = k <;> simp [hk]

theorem forAll_seqs_setFld (n : Nat) (l : List Nat) (c : Ctl) : (forAll l (fun k d => d.setFld (oSeqWt n) (wtPos k) 0) c).seqs = c.seqs :=
  forAll_keeps (P := fun d => d.seqs = c.seqs) (fun _ _ d hd => (Ctl.setFld_seqs d _ _ _).trans hd) rfl

/-- A RESET clears the sequencer and its targets, and leaves the other sequencers. -/
theorem reset_spec {s : State} {n : Nat} (h : s.accepting) (hn : n < 104) (hstate : (s.c.seq n).state = .halted ∨ (s.c.seq n).state = .trapped) :
    ∃ t, exec (.reset n) s = .next t ∧ t.c.seq n = s.c.resetSeq n ∧ (∀ k, k < 8 → t.c.wt n k = 0) ∧ (∀ m, m ≠ n → t.c.seq m = s.c.seq m) ∧
      t.banks = s.banks := by
  have hexec := exec_reset h hn
  rw [seqReset_parked hstate] at hexec
  have hseqs := forAll_seqs_setFld n (List.range 8) (s.c.setSeq n (s.c.resetSeq n))
  refine ⟨_, hexec, ?_, fun k hk => ?_, fun m hm => ?_, ?_⟩
  · rw [wrote_seq, seq_of_seqs hseqs, Ctl.seq_setSeq_same]
  · rw [Ctl.wt, fld_of_regs (wrote_regs _ _ _), ← Ctl.wt, wt_cleared, if_pos (List.mem_range.mpr hk)]
  · rw [wrote_seq, seq_of_seqs hseqs, Ctl.seq_setSeq_ne _ hm]
  · obtain ⟨nn, hwrote⟩ := wrote_eq s (.reset n) (forAll (List.range 8) (fun k d => d.setFld (oSeqWt n) (wtPos k) 0) (s.c.setSeq n (s.c.resetSeq n)))
    rw [hwrote]

theorem sequencerCommands : sequencerCommandsRule := by
  intro s n h hn
  refine ⟨fun hstate => ?_, fun hstate => ?_, fun hstate => ?_, fun hstate hnone => ?_, fun hpark hstate q hq => ?_, fun hstate hdecided hwho => ?_,
    fun hstate => ?_, fun hstate => ?_⟩
  · have hexec := exec_start h hn
    rw [seqStart_halted hstate] at hexec
    refine ⟨_, hexec, ?_⟩
    rw [wrote_seq, Ctl.seq_setSeq_same]
    exact ⟨rfl, rfl, rfl, rfl, rfl, rfl, rfl, rfl, rfl, rfl⟩
  · rw [exec_start h hn, seqStart_refused hstate]
  · rw [exec_park h hn, Ctl.seqPark, if_pos hstate]
  · have hnot : ¬ s.c.startStands n = true := by rw [startStands_undecided hnone]; decide
    have hrun : ¬ (s.c.seq n).state = .running := by rw [hstate]; decide
    rw [exec_park h hn, Ctl.seqPark, if_neg hrun, if_pos hstate, if_neg hnot]
  · have hnow : ¬ 4 * s.c.cc < 4 * s.c.cc := Nat.lt_irrefl _
    rw [hq, seq_parksSettle, Seq.parkSettled, hpark]
    refine ⟨fun hnone => ?_, fun hdecided hwho => ?_⟩
    · simp [startStands_undecided hnone, hstate, Seq.halt]
    · simp [startStands_iff.mpr ⟨hdecided, hwho⟩, hstate]
  · have hrun : ¬ (s.c.seq n).state = .running := by rw [hstate]; decide
    rw [exec_park h hn, Ctl.seqPark, if_neg hrun, if_pos hstate, if_pos (startStands_iff.mpr ⟨hdecided, hwho⟩)]
  · obtain ⟨t, hexec, hseq, hwt, hothers, hbanks⟩ := reset_spec h hn hstate
    refine ⟨t, hexec, ?_⟩
    rw [hseq]
    exact ⟨rfl, rfl, rfl, rfl, rfl, hwt, hothers, hbanks⟩
  · have hactive : ¬ ((s.c.seq n).state = .halted ∨ (s.c.seq n).state = .trapped) := by
      rcases hstate with hwait | hrun
      · rw [hwait]; decide
      · rw [hrun]; decide
    rw [exec_reset h hn, Ctl.seqReset, if_neg hactive, Ctl.seqRefuse]

end Sys2Proof.Machine

end

section
/-! The start decision of a group (R85, R179). -/

namespace Sys2Proof.Machine

/-- The slot index of an ec is a multiple of 2^align if the ec is one of half of it. -/
theorem slot_aligned_iff (e align : Nat) : 2 * e % 2 ^ align = 0 ↔ 2 ^ (align - 1) ∣ e := by
  cases align with
  | zero => simp [Nat.mod_one]
  | succ k => rw [Nat.add_sub_cancel, pow_succ', Nat.mul_mod_mul_left, Nat.mul_eq_zero, or_iff_right (by decide), Nat.dvd_iff_mod_eq_zero]

/-- The ec of a start is the first aligned one at least 4 after the ec in which the group was ready (R85). -/
theorem sceneEc_spec (m align : Nat) : m + 4 ≤ sceneEc m align ∧ 2 * sceneEc m align % 2 ^ align = 0 ∧
    ∀ e, m + 4 ≤ e → 2 * e % 2 ^ align = 0 → sceneEc m align ≤ e := by
  have hpos : 0 < 2 ^ (align - 1) := Nat.two_pow_pos _
  have hceil : sceneEc m align = 2 ^ (align - 1) * ((m + 4) ⌈/⌉ 2 ^ (align - 1)) := by
    rw [sceneEc, Nat.mul_comm, Nat.ceilDiv_eq_add_pred_div]
  rw [hceil]
  refine ⟨le_smul_ceilDiv hpos, (slot_aligned_iff _ _).mpr (Nat.dvd_mul_right _ _), fun e he haligned => ?_⟩
  obtain ⟨k, rfl⟩ := (slot_aligned_iff _ _).mp haligned
  exact Nat.mul_le_mul_left _ ((ceilDiv_le_iff_le_smul hpos).mpr he)

/-- The pwr_lend bits of the sequencers of a list fall after ec `m`. -/
def Ctl.lendsFall (c : Ctl) (who : List Nat) (m : Nat) : Ctl := forAll who (fun n c => c.setSeq n { c.seq n with lendOff := some (m + 1) }) c

theorem seq_lendsFall (c : Ctl) (who : List Nat) (m n : Nat) :
    (c.lendsFall who m).seq n = if n ∈ who then { c.seq n with lendOff := some (m + 1) } else c.seq n :=
  seq_forAll (P := fun _ => True) (g := fun _ q => { q with lendOff := some (m + 1) })
    ⟨fun _ _ _ => trivial, fun _ d _ => Ctl.seq_setSeq_same d _ _, fun _ d _ _ hm => Ctl.seq_setSeq_ne d hm _⟩ (.inr fun _ => rfl) trivial

theorem regs_lendsFall (c : Ctl) (who : List Nat) (m : Nat) : (c.lendsFall who m).regs = c.regs :=
  forAll_keeps (P := fun d => d.regs = c.regs) (fun n _ d hd => (Ctl.setSeq_regs d n _).trans hd) rfl

/-- The sequencers of group `g` that take part in a start. -/
def Ctl.takePart (c : Ctl) (g : Nat) : List Nat := (c.members g).filter fun n => decide ((c.seq n).state ≠ .halted)

/-- The group `u` after the start decision. -/
def Ctl.decides (c : Ctl) (g m : Nat) (u : Group) (who : List Nat) : Group :=
  { u with decided := some (sceneEc m (c.fld (oGrpCfg g) grpCfg_ALIGN_LOG)), who := who, ready := none }

theorem startDecision_ready {c : Ctl} {g m : Nat} (hready : ((c.groupSample g c.ec).group g).ready = some m) (hgo : (c.groupSample g c.ec).intmStops g = false) :
    ∃ u, c.startDecision g = ((c.groupSample g c.ec).lendsFall ((c.groupSample g c.ec).takePart g) m).setGroup g
      ((c.groupSample g c.ec).decides g m u ((c.groupSample g c.ec).takePart g)) := by
  have hnot : ¬ (c.groupSample g c.ec).intmStops g = true := by simp [hgo]
  have hlend : c.startDecision g = ((c.groupSample g c.ec).lendsFall ((c.groupSample g c.ec).takePart g) m).setGroup g
      (((c.groupSample g c.ec).lendsFall ((c.groupSample g c.ec).takePart g) m).decides g m
        (((c.groupSample g c.ec).lendsFall ((c.groupSample g c.ec).takePart g) m).group g) ((c.groupSample g c.ec).takePart g)) := by
    rw [Ctl.startDecision]
    simp only [hready, if_neg hnot]
    rfl
  rw [hlend, Ctl.decides, fld_of_regs (regs_lendsFall _ _ _)]
  exact ⟨_, rfl⟩

end Sys2Proof.Machine

end

section
/-! The start of a scene (R73, R170). -/

namespace Sys2Proof.Machine

/-- The sequencer that begins its scene in ec `e`, if it is WAITING. -/
def Seq.begun (q : Seq) (e : Nat) : Seq :=
  if q.state ≠ .waiting then q
  else { q with state := .running, sceneNo := q.nextNo, baseNo := q.nextNo, ec0 := e, inScene := true, offset := 0, pc := q.bodyPc, lastPc := q.bodyPc
                loops := q.bodyLoops, wordEc := e, head := [], evaluated := false }

theorem begun_begun (q : Seq) (e : Nat) : (q.begun e).begun e = q.begun e := by
  have hstays : ∀ x : Seq, x.state ≠ .waiting → x.begun e = x := fun x hx => if_pos hx
  refine hstays _ ?_
  rw [Seq.begun]
  split
  · assumption
  · exact SeqState.noConfusion

theorem seqs_rehHead (c : Ctl) (n e : Nat) (head : List HeadCond) (wts : List Nat) : (c.rehHead n e head wts).seqs = c.seqs := by
  rw [Ctl.rehHead]
  split <;> rfl

theorem seqs_rehBegin (c : Ctl) (g e : Nat) (who : List Nat) : (c.rehBegin g e who).seqs = c.seqs := by
  rw [Ctl.rehBegin]
  split <;> rfl

theorem seqs_curConsume (c : Ctl) (k who : Nat) : (c.curConsume k who).seqs = c.seqs := by
  simp only [Ctl.curConsume]
  split <;> rfl

/-- The start of a scene sets the sequencer, after records that no sequencer shows. -/
theorem seqSceneStart_outcome (c : Ctl) (n e : Nat) : ∃ d : Ctl, d.seqs = c.seqs ∧
    ((c.seqSceneStart n e = d ∧ (c.seq n).begun e = c.seq n) ∨ c.seqSceneStart n e = d.setSeq n ((c.seq n).begun e)) := by
  by_cases h : (c.seq n).state ≠ .waiting
  · exact ⟨c, rfl, .inl ⟨if_pos h, if_pos h⟩⟩
  · rw [Ctl.seqSceneStart, Seq.begun]
    simp only [if_neg h]
    refine ⟨_, ?_, .inr rfl⟩
    split
    · exact seqs_rehHead _ _ _ _ _
    · exact forAll_keeps (P := fun d => d.seqs = c.seqs) (fun k _ d hd => (seqs_curConsume d k n).trans hd) (seqs_rehHead _ _ _ _ _)

/-- Every sequencer of the list begins its scene if it is WAITING, and no other changes. -/
theorem seq_sceneStarts (c : Ctl) (who : List Nat) (e n : Nat) :
    (forAll who (fun n c => c.seqSceneStart n e) c).seq n = if n ∈ who then (c.seq n).begun e else c.seq n := by
  refine seq_forAll (P := fun _ => True) (g := fun _ q => q.begun e) ⟨fun _ _ _ => trivial, fun i d _ => ?_, fun i d _ m hm => ?_⟩
    (.inr fun q => begun_begun q e) trivial <;>
    obtain ⟨d', hseqs, ⟨hsame, hq⟩ | hset⟩ := seqSceneStart_outcome d i e
  · rw [hsame, seq_of_seqs hseqs, hq]
  · rw [hset, Ctl.seq_setSeq_same]
  · rw [hsame, seq_of_seqs hseqs]
  · rw [hset, Ctl.seq_setSeq_ne _ hm, seq_of_seqs hseqs]

/-- The start of a decided scene: each sequencer of the decision begins. -/
theorem sceneStart_decided {c : Ctl} {g e : Nat} (hready : c.sysReady = true) (hdecided : (c.group g).decided = some e) (hnow : e ≤ c.ec) :
    ((c.sceneStart g).group g).decided = none ∧
    ∀ n, (c.sceneStart g).seq n = if n ∈ (c.group g).who then (c.seq n).begun e else c.seq n := by
  have hgo : c.sysReady = true ∧ e ≤ c.ec := ⟨hready, hnow⟩
  simp only [Ctl.sceneStart, hdecided, if_pos hgo]
  refine ⟨by rw [Ctl.group_setGroup_same], fun n => ?_⟩
  rw [← seq_of_seqs (seqs_rehBegin c g e (c.group g).who) n, ← seq_sceneStarts]
  refine seq_of_seqs ?_ n
  rw [Ctl.setGroup_seqs]
  split
  · rw [Ctl.flag_seqs]
  · rfl

theorem sceneStartsWhenDecided : sceneStartsWhenDecidedRule := by
  refine ⟨fun s g m c hlive hg hc hready hgo => ?_, fun s g e hlive hg hdecided hnow => ?_⟩
  · obtain ⟨-, hfrozen⟩ := hlive
    subst hc
    have hexec : exec (.startDecision g) s = .next (s.units (s.c.startDecision g)) :=
      onUnit_next (decide_eq_true hg) hfrozen fun c => c.startDecision g
    obtain ⟨u, hstart⟩ := startDecision_ready hready hgo
    rw [hstart] at hexec
    generalize s.c.groupSample g s.c.ec = c at hexec ⊢
    obtain ⟨hleast, haligned, hfirst⟩ := sceneEc_spec m (c.fld (oGrpCfg g) grpCfg_ALIGN_LOG)
    refine ⟨_, sceneEc m (c.fld (oGrpCfg g) grpCfg_ALIGN_LOG), hexec, ?_⟩
    have hgroup : (s.units ((c.lendsFall (c.takePart g) m).setGroup g (c.decides g m u (c.takePart g)))).c.group g =
        c.decides g m u (c.takePart g) := Ctl.group_setGroup_same _ _ _
    have hseq : ∀ n, (s.units ((c.lendsFall (c.takePart g) m).setGroup g (c.decides g m u (c.takePart g)))).c.seq n =
        if n ∈ c.takePart g then { c.seq n with lendOff := some (m + 1) } else c.seq n := fun n => seq_lendsFall c _ m n
    rw [hgroup]
    exact ⟨rfl, hleast, haligned, hfirst, rfl, fun n hn => (hseq n).trans (if_pos hn), fun n hn => (hseq n).trans (if_neg hn), rfl⟩
  · obtain ⟨hready, hfrozen⟩ := hlive
    have hexec : exec (.sceneStart g) s = .next (s.units (s.c.sceneStart g)) :=
      onUnit_next (decide_eq_true hg) hfrozen fun c => c.sceneStart g
    obtain ⟨hnone, hseq⟩ := sceneStart_decided hready hdecided hnow
    generalize s.c.sceneStart g = d at hexec hnone hseq
    refine ⟨_, hexec, hnone, rfl, fun n hwho hstate => ?_, fun n hwho => (hseq n).trans (if_neg hwho)⟩
    have hwaiting : ¬ (s.c.seq n).state ≠ .waiting := fun h => h hstate
    rw [units_seq, hseq, if_pos hwho, Seq.begun, if_neg hwaiting]
    exact ⟨rfl, rfl, rfl, rfl, rfl, rfl⟩

/-- Settles O18: START, PARK and RESET act on one sequencer by its state; a PARK settles once, by the start decision that stands; a start decision is the
least aligned ec, and its sequencers begin once. -/
theorem sequencerCommandsAndStart : Obligations.SequencerCommandsAndStart := ⟨sequencerCommands, sceneStartsWhenDecided⟩

end Sys2Proof.Machine

end

section
/-! What the sampling of a RUN's accesses records: errors, and nothing beside the registers, the fault records, the log and the free values (R44, R47, R250). -/

namespace Sys2Proof.Machine

/-- The units beside the sequencers and what an error records. -/
def Ctl.besideRun (c : Ctl) : Ctl := { c with seqs := [], regs := [], notes := {}, logq := [], faults := {}, free := 0 }

theorem besideRun_of_besideFaults {c d : Ctl} (h : d.besideFaults = c.besideFaults) : d.besideRun = c.besideRun := (congrArg Ctl.besideRun h :)

/-- Units that agree beside a RUN differ in what it touches alone. -/
theorem eq_of_besideRun {c d : Ctl} (h : d.besideRun = c.besideRun) :
    d = { c with seqs := d.seqs, regs := d.regs, notes := d.notes, logq := d.logq, faults := d.faults, free := d.free } :=
  congrArg (fun e : Ctl => { e with seqs := d.seqs, regs := d.regs, notes := d.notes, logq := d.logq, faults := d.faults, free := d.free }) h

/-- From `c` to `d` nothing has happened but records of errors of port `n`. -/
structure Records (n : Nat) (c d : Ctl) : Prop where
  units : d.besideRun = c.besideRun
  regs  : ∀ o, o ∉ errorRegs n → d.reg o = c.reg o
  seqs  : d.seqs = c.seqs

variable {n : Nat} {c d e : Ctl}

theorem Records.refl (n : Nat) (c : Ctl) : Records n c c := ⟨rfl, fun _ _ => rfl, rfl⟩

theorem Records.trans (h : Records n c d) (k : Records n d e) : Records n c e :=
  ⟨k.units.trans h.units, fun o ho => (k.regs o ho).trans (h.regs o ho), k.seqs.trans h.seqs⟩

theorem Records.seq (h : Records n c d) (m : Nat) : d.seq m = c.seq m := seq_of_seqs h.seqs m

/-- A record that comes or not. -/
theorem Records.may (h : Records n c d) {p : Prop} [Decidable p] {x : Ctl} (hx : Records n d x) : Records n c (if p then x else d) := by
  split
  · exact h.trans hx
  · exact h

theorem Records.setFld (h : Records n c d) {o : Nat} {f : FieldPos} (ho : o + 8 * f.word ∈ errorRegs n) (x : Nat) : Records n c (d.setFld o f x) :=
  h.trans ⟨besideRun_of_besideFaults (besideFaults_setFld d o f x), fun _ ho' => Ctl.reg_setFld_ne d x fun he => ho' (he ▸ ho), Ctl.setFld_seqs d o f x⟩

theorem Records.flag (h : Records n c d) {o : Nat} {f : FieldPos} (ho : o + 8 * f.word ∈ errorRegs n) : Records n c (d.flag o f) :=
  h.trans ⟨besideRun_of_besideFaults (besideFaults_flag d o f), fun _ ho' => Ctl.reg_setFld_ne d 1 fun he => ho' (he ▸ ho), Ctl.flag_seqs d o f⟩

theorem Records.satAdd (h : Records n c d) {o : Nat} {f : FieldPos} (ho : o + 8 * f.word ∈ errorRegs n) (x : Nat) : Records n c (d.satAdd o f x) :=
  h.trans ⟨besideRun_of_besideFaults (besideFaults_satAdd d o f x), fun _ ho' => Ctl.reg_setFld_ne d _ fun he => ho' (he ▸ ho), Ctl.satAdd_seqs d o f x⟩

theorem raiseRegs_subset_errorRegs {s : Nat} (hs : s = 7 ∨ s = 10) : raiseRegs s ⊆ errorRegs n := by
  intro o ho
  rcases hs with rfl | rfl <;> simp only [raiseRegs, List.mem_cons, List.not_mem_nil, or_false] at ho <;>
    rcases ho with rfl | rfl | rfl | rfl | rfl <;> simp [errorRegs]

theorem Records.raise (h : Records n c d) {s : Nat} (hs : s = 7 ∨ s = 10) (unit : Nat) : Records n c (d.raise s unit) :=
  h.trans ⟨besideRun_of_besideFaults (besideFaults_raise d s unit), fun _ ho => reg_raise_ne d s unit fun hr => ho (raiseRegs_subset_errorRegs hs hr),
    seqs_raise d s unit⟩

theorem Records.raiseAt (h : Records n c d) {s : Nat} (hs : s = 7 ∨ s = 10) (x unit : Nat) : Records n c (d.raiseAt x s unit) := by
  rw [Ctl.raiseAt]
  split
  · exact h.raise hs unit
  · exact h.trans ⟨rfl, fun _ _ => rfl, rfl⟩

theorem Records.logEvent (h : Records n c d) (s : EccSite) (kind pos : Nat) : Records n c (d.logEvent s kind pos) :=
  h.trans ⟨rfl, fun _ _ => rfl, rfl⟩

theorem records_draw (n : Nat) (c : Ctl) : Records n c c.draw.2 := ⟨rfl, fun _ _ => rfl, rfl⟩

/-- An ECC event of the write channels, which no lap counts. -/
theorem Records.eccRecord (h : Records n c d) {s : EccSite} (hs : s.cnt = 7) (x : Decoded) : Records n c (d.eccRecord s x) := by
  have hlap : ¬ s.cnt < 4 := by omega
  have hcount : ∀ {a b : Ctl} (f : FieldPos), f.word = 0 → Records n a b → Records n a (b.satAdd (oEccCnt s.cnt) f 1) := fun f hf k =>
    k.satAdd (by rw [hf, hs]; simp [errorRegs]) 1
  refine h.trans ?_
  simp only [Ctl.eccRecord, if_neg hlap]
  have hfixed : Records n d (if x.fixed = 0 then d else
      if x.fixed = 1 then
        (if (if x.fixed = 1 then d.satAdd (oEccCnt s.cnt) eccCnt_CORR1 1 else d.satAdd (oEccCnt s.cnt) eccCnt_CORRM 1).fld oEccCfg eccCfg_LOG_CORR1 = 1
          then (if x.fixed = 1 then d.satAdd (oEccCnt s.cnt) eccCnt_CORR1 1 else d.satAdd (oEccCnt s.cnt) eccCnt_CORRM 1).logEvent s 1 x.pos
          else (if x.fixed = 1 then d.satAdd (oEccCnt s.cnt) eccCnt_CORR1 1 else d.satAdd (oEccCnt s.cnt) eccCnt_CORRM 1))
      else (if x.fixed = 1 then d.satAdd (oEccCnt s.cnt) eccCnt_CORR1 1 else d.satAdd (oEccCnt s.cnt) eccCnt_CORRM 1).logEvent s 2 0x1FF) := by
    have hcorrected : Records n d (if x.fixed = 1 then d.satAdd (oEccCnt s.cnt) eccCnt_CORR1 1 else d.satAdd (oEccCnt s.cnt) eccCnt_CORRM 1) := by
      split
      · exact hcount _ rfl (.refl n d)
      · exact hcount _ rfl (.refl n d)
    generalize (if x.fixed = 1 then d.satAdd (oEccCnt s.cnt) eccCnt_CORR1 1 else d.satAdd (oEccCnt s.cnt) eccCnt_CORRM 1) = b at hcorrected
    split
    · exact .refl n d
    · split
      · exact hcorrected.may ((Records.refl n b).logEvent _ _ _)
      · exact hcorrected.logEvent _ _ _
  generalize (if x.fixed = 0 then d else _) = a at hfixed ⊢
  exact (hfixed.may (((hcount _ rfl (.refl n a)).logEvent _ _ _).raise (.inl rfl) _)).may ((hcount _ rfl (.refl n _)).logEvent _ _ _)

/-! ### The samples of the write channel -/

theorem records_countStray (n : Nat) (c : Ctl) (issued : Nat) (x : EngineDrive) : Records n c (c.countStray n issued x) :=
  (Records.refl n c).satAdd (by simp [errorRegs]) _

theorem records_writeCheck (n : Nat) (c : Ctl) (gi : Nat) (rep : Bool) (g : Option Granule) : Records n c (c.writeCheck n gi rep g).1 := by
  cases g with
  | none =>
    simp only [Ctl.writeCheck]
    exact (Records.refl n c).eccRecord (s := { c.portSite 7 5 n gi with unit := 0x00FF }) rfl _
  | some g =>
    simp only [Ctl.writeCheck]
    exact (Records.refl n c).eccRecord (s := { c.portSite 7 5 n gi with unit := 0x00FF }) rfl _

theorem records_indexLane (n : Nat) (c : Ctl) (k : Nat) (x : EngineDrive) : Records n c (c.indexLane n k x).1 := by
  cases hdriven : driven x k with
  | none =>
    simp only [Ctl.indexLane, hdriven]
    exact (Records.refl n c).eccRecord (s := { cnt := 7, path := 5, req := n }) rfl _
  | some g =>
    simp only [Ctl.indexLane, hdriven]
    exact (Records.refl n c).eccRecord (s := { cnt := 7, path := 5, req := n }) rfl _

theorem Records.countStatus (h : Records n c d) (code : BitVec 2) : Records n c (d.countStatus n code) := by
  have hcount : ∀ f : FieldPos, f.word = 0 → Records n c (d.satAdd (oPstat n) f 1) := fun f hf => h.satAdd (by rw [hf]; simp [errorRegs]) 1
  rw [Ctl.countStatus]
  split
  · exact hcount _ rfl
  · split
    · exact hcount _ rfl
    · split
      · exact hcount _ rfl
      · exact h

theorem records_indexLanes (n : Nat) (busy : Bool) (rows : Nat) (x : EngineDrive) (l : List Nat) :
    ∀ c : Ctl, Records n c (c.indexLanes n busy rows x l).1 := by
  induction l with
  | nil => exact Records.refl n
  | cons k t ih =>
    intro c
    rw [Ctl.indexLanes]
    exact (((records_indexLane n c k x).countStatus _).satAdd (by simp [errorRegs]) _).trans (ih _)

theorem records_gatherBusy (n : Nat) (c : Ctl) (w : Nat) (q : Seq) : Records n c (c.gatherBusy n w q) := by
  have hrec0 : ∀ f : FieldPos, f.word = 0 → oCvRec0 + 8 * f.word ∈ errorRegs n := fun f hf => by rw [hf]; simp [errorRegs]
  have hrec1 : ∀ f : FieldPos, f.word = 0 → oCvRec1 + 8 * f.word ∈ errorRegs n := fun f hf => by rw [hf]; simp [errorRegs]
  have hrec2 : ∀ f : FieldPos, f.word = 0 → oCvRec2 + 8 * f.word ∈ errorRegs n := fun f hf => by rw [hf]; simp [errorRegs]
  rw [Ctl.gatherBusy]
  refine Records.raiseAt ?_ (.inr rfl) _ _
  have hcounted : Records n c ((c.satAdd (oMsoStat (seqQuad n)) msoStat_GATHER_BUSY 1).satAdd oCvCount ⟨0, 0, 32⟩ 1) :=
    ((Records.refl n c).satAdd (by simp [errorRegs]) 1).satAdd (by simp [errorRegs]) 1
  generalize ((c.satAdd (oMsoStat (seqQuad n)) msoStat_GATHER_BUSY 1).satAdd oCvCount ⟨0, 0, 32⟩ 1) = d at hcounted
  simp only [List.foldl_cons, List.foldl_nil]
  split
  · exact hcounted.flag (hrec0 _ rfl)
  · have hflagged : Records n c (d.draw.2.flag oCvRec0 cvRec0_VALID) := (hcounted.trans (records_draw n d)).flag (hrec0 _ rfl)
    exact (((((((((((hflagged.setFld (hrec0 _ rfl) _).setFld (hrec0 _ rfl) _).setFld (hrec0 _ rfl) _).setFld (hrec0 _ rfl) _).setFld (hrec0 _ rfl) _).setFld
      (hrec0 _ rfl) _).setFld (hrec0 _ rfl) _).setFld (hrec0 _ rfl) _).setFld (hrec1 _ rfl) _).setFld (hrec1 _ rfl) _).setFld (hrec2 _ rfl) _).setFld (hrec2 _ rfl) _

end Sys2Proof.Machine

end

section
/-! Address generators: a run of granules is what the generator gives one after the other (R70). -/

namespace Sys2Proof.Machine

theorem take_succ (k : Nat) (a : AddrGen) : AddrGen.take (k + 1) a =
    (a.at_ :: (AddrGen.take k { a with idx := stepIdx a.idx a.count }).1, (AddrGen.take k { a with idx := stepIdx a.idx a.count }).2) := rfl

/-- Along its run a generator moves its position alone. -/
theorem take_eq (k : Nat) : ∀ a : AddrGen, (AddrGen.take k a).2 = { a with idx := (AddrGen.take k a).2.idx } := by
  induction k with
  | zero => exact fun _ => rfl
  | succ k ih =>
    intro a
    rw [take_succ]
    exact ih { a with idx := stepIdx a.idx a.count }

theorem take_lanes (k : Nat) (a : AddrGen) : (AddrGen.take k a).2.lanes = a.lanes := by rw [take_eq]
theorem take_opmode (k : Nat) (a : AddrGen) : (AddrGen.take k a).2.opmode = a.opmode := by rw [take_eq]
theorem take_oparg (k : Nat) (a : AddrGen) : (AddrGen.take k a).2.oparg = a.oparg := by rw [take_eq]
theorem take_accType (k : Nat) (a : AddrGen) : (AddrGen.take k a).2.accType = a.accType := by
  rw [AddrGen.accType, take_opmode, take_oparg, AddrGen.accType]

/-- A run is one part after the other. -/
theorem take_add (j k : Nat) : ∀ a : AddrGen, AddrGen.take (j + k) a =
    ((AddrGen.take j a).1 ++ (AddrGen.take k (AddrGen.take j a).2).1, (AddrGen.take k (AddrGen.take j a).2).2) := by
  induction j with
  | zero => intro a; rw [Nat.zero_add]; rfl
  | succ j ih =>
    intro a
    rw [Nat.add_right_comm, take_succ, ih, take_succ]
    rfl

/-- The access after `j` accesses names the granules of the j-th, and leaves the generator behind it. -/
theorem take_after (j : Nat) (a : AddrGen) : (AddrGen.take a.lanes (AddrGen.take (j * a.lanes) a).2).1 = accessOf a j ∧
    (AddrGen.take a.lanes (AddrGen.take (j * a.lanes) a).2).2 = (AddrGen.take ((j + 1) * a.lanes) a).2 := by
  refine ⟨rfl, ?_⟩
  rw [Nat.succ_mul, take_add]

theorem generatorTraverses : generatorTraversesRule := by
  refine ⟨fun a i0 i1 i2 i3 n0 n1 n2 n3 s0 s1 s2 s3 hidx hcount hstride => ⟨?_, ?_⟩, fun j k a => ?_⟩
  · simp [AddrGen.take, AddrGen.at_, hidx, hstride, Int.add_assoc]
  · simp only [AddrGen.take, hidx, hcount, stepIdx]
    split
    · rfl
    · split
      · rfl
      · split
        · rfl
        · split <;> rfl
  · rw [take_add]
    exact ⟨rfl, rfl⟩

end Sys2Proof.Machine

end

section
/-! What one access of a RUN does to its sequencer and to the units (R44, R68, R142, R143). -/

namespace Sys2Proof.Machine

/-- What stays of a write access when later plain writes replace its data (R143): all but its lanes, and of each lane its number, its granule index and
the entry that has absorbed it. -/
def WAccess.frame (a : WAccess) : WAccess × List (Nat × Nat × Option (Nat × Nat)) := ({ a with lanes := [] }, a.lanes.map fun l => (l.lane, l.gi, l.follow))

/-- A read access as its word names it: its number, its ec, the mode of its generator and its granules. -/
def RAccess.named (r : RAccess) : Nat × Nat × BitVec 4 × BitVec 16 × List Nat :=
  (r.id, r.issue, r.opmode, r.oparg, (r.lanes.filter fun l => !l.scale).map fun l => l.gi)

/-- A write access as its word names it: its numbers, its ec, its accumulation type and its granules. -/
def namedOf (y : WAccess × List (Nat × Nat × Option (Nat × Nat))) : Nat × BitVec 16 × Nat × Option Nat × List Nat :=
  (y.1.id, y.1.seqNo, y.1.w, y.1.acc, y.2.map fun l => l.2.1)

/-- The sequencer with the generator of its write channel at `a`. -/
def Seq.setWriteAg (q : Seq) (n : Nat) (a : AddrGen) : Seq := if isVector n then { q with ag1 := a } else { q with ag0 := a }

/-- One read access in ec `e`. -/
def ReadsOne (e : Nat) (q q' : Seq) : Prop := ∃ r b,
  q' = { q with reads := q.reads ++ [r], readCount := q.readCount + 1, lastReadBc := b, ag0 := (AddrGen.take q.ag0.lanes q.ag0).2 } ∧
  r.named = (q.readCount, e, q.ag0.opmode, q.ag0.oparg, (AddrGen.take q.ag0.lanes q.ag0).1)

/-- One write access in ec `e`. -/
def WritesOne (n e : Nat) (q q' : Seq) : Prop := ∃ ws a t ra,
  q' = ({ q with writes := ws ++ [a], lastT := t, writeCount := q.writeCount + 1, seqCount := q.seqCount + 1, ra := ra } : Seq).setWriteAg n
    (AddrGen.take (q.writeAg n).lanes (q.writeAg n)).2 ∧
  ws.map WAccess.frame = q.writes.map WAccess.frame ∧
  namedOf a.frame = (q.writeCount, q.seqCount, e, (q.writeAg n).accType, (AddrGen.take (q.writeAg n).lanes (q.writeAg n)).1)

/-- One index access of a gather. -/
def IndexesOne (q q' : Seq) : Prop := ∃ a g,
  q' = { q with writes := q.writes ++ [a], writeCount := q.writeCount + 1, seqCount := q.seqCount + 1, gather := g }

/-- From `c` to `d` a RUN of port `n` changes its sequencer and records errors. -/
structure RunFrame (n : Nat) (c d : Ctl) : Prop where
  units  : d.besideRun = c.besideRun
  regs   : ∀ o, o ∉ errorRegs n → d.reg o = c.reg o
  others : ∀ m, m ≠ n → d.seq m = c.seq m

variable {n : Nat} {c d e : Ctl}

theorem RunFrame.refl (n : Nat) (c : Ctl) : RunFrame n c c := ⟨rfl, fun _ _ => rfl, fun _ _ => rfl⟩

theorem RunFrame.trans (h : RunFrame n c d) (k : RunFrame n d e) : RunFrame n c e :=
  ⟨k.units.trans h.units, fun o ho => (k.regs o ho).trans (h.regs o ho), fun m hm => (k.others m hm).trans (h.others m hm)⟩

theorem Records.runFrame (h : Records n c d) : RunFrame n c d := ⟨h.units, h.regs, fun m _ => h.seq m⟩

theorem SeqOnly.runFrame (h : SeqOnly n c d) : RunFrame n c d := by
  refine ⟨?_, fun o _ => ?_, h.others⟩
  · rw [h.units]; rfl
  · rw [h.units]; rfl

theorem RunFrame.setSeq (h : RunFrame n c d) (q : Seq) : RunFrame n c (d.setSeq n q) := h.trans (seqOnly_setSeq n d q).runFrame

/-! ### A read access -/

theorem seqOnly_issueRead (c : Ctl) (n e : Nat) (gis : List Nat) (ag : AddrGen) (cls : Nat) (tile : Option (Nat × Nat)) :
    ∃ r b, c.issueRead n e gis ag cls tile =
      c.setSeq n { c.seq n with reads := (c.seq n).reads ++ [r], readCount := (c.seq n).readCount + 1, lastReadBc := b } ∧
      r.named = ((c.seq n).readCount, e, ag.opmode, ag.oparg, gis) := by
  refine ⟨_, _, rfl, ?_⟩
  simp [RAccess.named, List.filter_append, List.filter_map, Function.comp_def]

theorem runRead_spec (c : Ctl) (n e i cls : Nat) : SeqOnly n c (c.runRead n e i cls) ∧ ReadsOne e (c.seq n) ((c.runRead n e i cls).seq n) := by
  obtain ⟨r, b, hissue, hnamed⟩ := seqOnly_issueRead c n e (c.seq n).ag0.access.1 (c.seq n).ag0 cls
    (if (c.seq n).ag0.opmode.toNat = 2 ∨ (c.seq n).ag0.opmode.toNat = 3 then some ((c.seq n).readCount - i % 4, i % 4) else none)
  rw [Ctl.runRead]
  simp only [hissue, Ctl.seq_setSeq_same]
  exact ⟨(seqOnly_setSeq n c _).setSeq _, r, b, rfl, hnamed⟩

/-! ### A write access -/

/-- From `c` to `d` samples of port `n` replace data of its held entries (R143). -/
structure Absorbs (n : Nat) (c d : Ctl) : Prop where
  frame : RunFrame n c d
  own   : d.seq n = { c.seq n with writes := (d.seq n).writes }
  kept  : (d.seq n).writes.map WAccess.frame = (c.seq n).writes.map WAccess.frame

theorem Absorbs.refl (n : Nat) (c : Ctl) : Absorbs n c c := ⟨.refl n c, rfl, rfl⟩

theorem Absorbs.trans (h : Absorbs n c d) (k : Absorbs n d e) : Absorbs n c e :=
  ⟨h.frame.trans k.frame, by rw [k.own, h.own], k.kept.trans h.kept⟩

theorem Records.absorbs (h : Records n c d) : Absorbs n c d := ⟨h.runFrame, by rw [h.seq], by rw [h.seq]⟩

/-- The data of a held entry are replaced in its lanes alone. -/
theorem replaceEntry_frame (q : Seq) (id lane : Nat) (g : Granule) (fault : Bool) :
    (q.replaceEntry id lane g fault).writes.map WAccess.frame = q.writes.map WAccess.frame := by
  simp only [Seq.replaceEntry, List.map_map]
  refine List.map_congr_left fun a _ => ?_
  simp only [Function.comp_apply]
  split
  · simp only [WAccess.frame, List.map_map, Prod.mk.injEq, true_and]
    refine List.map_congr_left fun l _ => ?_
    simp only [Function.comp_apply]
    split <;> rfl
  · rfl

theorem absorbs_replaceEntry (c : Ctl) (n id lane : Nat) (g : Granule) (fault : Bool) :
    Absorbs n c (c.setSeq n ((c.seq n).replaceEntry id lane g fault)) := by
  refine ⟨(seqOnly_setSeq n c _).runFrame, ?_, ?_⟩
  · rw [Ctl.seq_setSeq_same]; rfl
  · rw [Ctl.seq_setSeq_same, replaceEntry_frame]

theorem sampleLane_spec (c : Ctl) (n w : Nat) (plain : Bool) (x : EngineDrive) (k gi : Nat) :
    Absorbs n c (c.sampleLane n w plain x k gi).1 ∧ (c.sampleLane n w plain x k gi).2.gi = gi := by
  have hcheck := (records_writeCheck n c gi (c.repOf gi) (driven x k)).absorbs
  simp only [Ctl.sampleLane]
  split
  · split
    · exact ⟨hcheck.trans (absorbs_replaceEntry _ _ _ _ _ _), rfl⟩
    · exact ⟨hcheck, rfl⟩
  · exact ⟨hcheck, rfl⟩

theorem sampleLanes_spec (n w : Nat) (plain : Bool) (x : EngineDrive) (gis : List Nat) : ∀ (c : Ctl) (k : Nat),
    Absorbs n c (c.sampleLanes n w plain x k gis).1 ∧ (c.sampleLanes n w plain x k gis).2.map (fun l => l.gi) = gis := by
  induction gis with
  | nil => exact fun c k => ⟨.refl n c, rfl⟩
  | cons gi t ih =>
    intro c k
    obtain ⟨hone, hgi⟩ := sampleLane_spec c n w plain x k gi
    obtain ⟨hrest, hgis⟩ := ih (c.sampleLane n w plain x k gi).1 (k + 1)
    rw [Ctl.sampleLanes]
    exact ⟨hone.trans hrest, by rw [List.map_cons, hgi, hgis]⟩

/-- The lanes of a write access sampled in its ec. -/
def Ctl.sampled (c : Ctl) (n w : Nat) (gis : List Nat) (acc : Option Nat) (x : EngineDrive) : Ctl × List WLane :=
  (c.countStray n gis.length x).sampleLanes n w (decide (acc = none)) x 0 gis

/-- Behind its samples a write access joins the sequencer's. -/
theorem issueWrite_eq (c : Ctl) (n w : Nat) (gis : List Nat) (acc : Option Nat) (x : EngineDrive) : ∃ a t ra,
    c.issueWrite n w gis acc x = (c.sampled n w gis acc x).1.setSeq n { (c.sampled n w gis acc x).1.seq n with
      writes := ((c.sampled n w gis acc x).1.seq n).writes ++ [a], lastT := t, writeCount := ((c.sampled n w gis acc x).1.seq n).writeCount + 1
      seqCount := ((c.sampled n w gis acc x).1.seq n).seqCount + 1, ra := ra } ∧
    a.id = ((c.sampled n w gis acc x).1.seq n).writeCount ∧ a.seqNo = ((c.sampled n w gis acc x).1.seq n).seqCount ∧ a.w = w ∧ a.acc = acc ∧
    a.lanes = (c.sampled n w gis acc x).2 := ⟨_, _, _, rfl, rfl, rfl, rfl, rfl, rfl⟩

theorem issueWrite_spec (c : Ctl) (n w : Nat) (gis : List Nat) (acc : Option Nat) (x : EngineDrive) :
    RunFrame n c (c.issueWrite n w gis acc x) ∧ ∃ ws a t ra, (c.issueWrite n w gis acc x).seq n =
      { c.seq n with writes := ws ++ [a], lastT := t, writeCount := (c.seq n).writeCount + 1, seqCount := (c.seq n).seqCount + 1, ra := ra } ∧
      ws.map WAccess.frame = (c.seq n).writes.map WAccess.frame ∧ namedOf a.frame = ((c.seq n).writeCount, (c.seq n).seqCount, w, acc, gis) := by
  obtain ⟨hlanes, hgis⟩ := sampleLanes_spec n w (decide (acc = none)) x gis (c.countStray n gis.length x) 0
  have hall : Absorbs n c (c.sampled n w gis acc x).1 := (records_countStray n c gis.length x).absorbs.trans hlanes
  obtain ⟨a, t, ra, hissue, hid, hno, hw, hacc, hsampled⟩ := issueWrite_eq c n w gis acc x
  have hnamed : a.lanes.map (fun l => l.gi) = gis := by rw [hsampled]; exact hgis
  generalize (c.sampled n w gis acc x).1 = d at hall hissue hid hno
  obtain ⟨hframe, hown, hkept⟩ := hall
  rw [hissue]
  refine ⟨hframe.setSeq _, (d.seq n).writes, a, t, ra, ?_, hkept, ?_⟩
  · rw [Ctl.seq_setSeq_same, hown]
  · rw [hown] at hid hno
    simp only [namedOf, WAccess.frame, List.map_map, hid, hno, hw, hacc]
    rw [← hnamed]
    rfl

theorem runWrite_spec (c : Ctl) (n e : Nat) (x : EngineDrive) : RunFrame n c (c.runWrite n e x) ∧ WritesOne n e (c.seq n) ((c.runWrite n e x).seq n) := by
  obtain ⟨hframe, ws, a, t, ra, hseq, hkept, hnamed⟩ := issueWrite_spec c n e ((c.seq n).writeAg n).access.1 ((c.seq n).writeAg n).accType x
  rw [Ctl.runWrite]
  generalize c.issueWrite n e ((c.seq n).writeAg n).access.1 ((c.seq n).writeAg n).accType x = d at hframe hseq
  refine ⟨hframe.setSeq _, ws, a, t, ra, ?_, hkept, hnamed⟩
  rw [Ctl.seq_setSeq_same, hseq]
  rfl

/-! ### An index access of a gather -/

theorem issueIndex_spec (c : Ctl) (n w : Nat) (busy : Bool) (x : EngineDrive) :
    RunFrame n c (c.issueIndex n w busy x) ∧ IndexesOne (c.seq n) ((c.issueIndex n w busy x).seq n) := by
  have hstray := records_countStray n c (c.seq n).ag1.lanes x
  have hlanes := hstray.trans (records_indexLanes n busy ((c.seq n).ag1.count.headD 1) x (List.range (c.seq n).ag1.lanes) (c.countStray n (c.seq n).ag1.lanes x))
  have hbusy := hlanes.may (p := busy = true) (records_gatherBusy n _ w (c.seq n))
  rw [Ctl.issueIndex]
  simp only
  generalize (if busy = true then Ctl.gatherBusy _ n w (c.seq n) else _) = d at hbusy ⊢
  refine ⟨hbusy.runFrame.setSeq _, ?_⟩
  rw [Ctl.seq_setSeq_same, hbusy.seq]
  exact ⟨_, _, rfl⟩

end Sys2Proof.Machine

end

section
/-! The accesses of a RUN one after the other (R67, R68). -/

namespace Sys2Proof.Machine

/-- The channels that a RUN uses. -/
structure RunUse where
  rd : Bool
  wr : Bool
  gt : Bool

/-- The accesses of one ec of a RUN: the read channel's, then the write channel's or the gather's. -/
def AccessOne (n : Nat) (u : RunUse) (e : Nat) (q q' : Seq) : Prop :=
  ∃ q₁, (if u.rd then ReadsOne e q q₁ else q₁ = q) ∧ (if u.gt then IndexesOne q₁ q' else if u.wr then WritesOne n e q₁ q' else q' = q₁)

/-- A sequencer at `q₀` has come to `q` by `j` accesses of a RUN from ec `e` on, one every `step` ec. -/
inductive Ran (n : Nat) (u : RunUse) (e step : Nat) (q₀ : Seq) : Nat → Seq → Prop
  | start : Ran n u e step q₀ 0 q₀
  | access {j : Nat} {q q' : Seq} : Ran n u e step q₀ j q → AccessOne n u (e + j * step) q q' → Ran n u e step q₀ (j + 1) q'

/-- The accesses of one ec of a RUN. -/
def Ctl.runAccess (c : Ctl) (n : Nat) (u : RunUse) (busy : Bool) (e i cls : Nat) (x : EngineDrive) : Ctl :=
  let c := if u.rd then c.runRead n e i cls else c
  if u.gt then c.issueIndex n e busy x else if u.wr then c.runWrite n e x else c

theorem runAccesses_succ (n step : Nat) (u : RunUse) (busy : Bool) (k i e cls : Nat) (ds : List EngineDrive) (c : Ctl) :
    ∃ cls' x, Ctl.runAccesses n step u.rd u.wr u.gt busy (k + 1) i e cls ds c =
      Ctl.runAccesses n step u.rd u.wr u.gt busy k (i + 1) (e + step) cls' ds.tail (c.runAccess n u busy e i cls' x) := ⟨_, _, rfl⟩

theorem runAccess_spec (c : Ctl) (n : Nat) (u : RunUse) (busy : Bool) (e i cls : Nat) (x : EngineDrive) :
    RunFrame n c (c.runAccess n u busy e i cls x) ∧ AccessOne n u e (c.seq n) ((c.runAccess n u busy e i cls x).seq n) ∧
    (u.gt = false → u.wr = false → SeqOnly n c (c.runAccess n u busy e i cls x)) := by
  have hread : SeqOnly n c (if u.rd then c.runRead n e i cls else c) ∧
      (if u.rd then ReadsOne e (c.seq n) ((if u.rd then c.runRead n e i cls else c).seq n) else (if u.rd then c.runRead n e i cls else c).seq n = c.seq n) := by
    cases u.rd with
    | true => exact runRead_spec c n e i cls
    | false => exact ⟨.refl n c, rfl⟩
  rw [Ctl.runAccess]
  generalize (if u.rd then c.runRead n e i cls else c) = d at hread ⊢
  obtain ⟨honly, hreads⟩ := hread
  have hwrite : RunFrame n d (if u.gt then d.issueIndex n e busy x else if u.wr then d.runWrite n e x else d) ∧
      (if u.gt then IndexesOne (d.seq n) ((if u.gt then d.issueIndex n e busy x else if u.wr then d.runWrite n e x else d).seq n)
        else if u.wr then WritesOne n e (d.seq n) ((if u.gt then d.issueIndex n e busy x else if u.wr then d.runWrite n e x else d).seq n)
        else (if u.gt then d.issueIndex n e busy x else if u.wr then d.runWrite n e x else d).seq n = d.seq n) := by
    cases u.gt with
    | true => exact issueIndex_spec d n e busy x
    | false =>
      cases u.wr with
      | true => exact runWrite_spec d n e x
      | false => exact ⟨.refl n d, rfl⟩
  obtain ⟨hframe, hwrites⟩ := hwrite
  exact ⟨honly.runFrame.trans hframe, ⟨d.seq n, hreads, hwrites⟩, fun hgt hwr => by simpa [hgt, hwr] using honly⟩

/-- The accesses of a word run one after the other, within the frame of a RUN. -/
theorem runAccesses_spec (n step : Nat) (u : RunUse) (busy : Bool) (e : Nat) (q₀ : Seq) (k : Nat) : ∀ (j cls : Nat) (ds : List EngineDrive) (c : Ctl),
    Ran n u e step q₀ j (c.seq n) → RunFrame n c (Ctl.runAccesses n step u.rd u.wr u.gt busy k j (e + j * step) cls ds c) ∧
    Ran n u e step q₀ (j + k) ((Ctl.runAccesses n step u.rd u.wr u.gt busy k j (e + j * step) cls ds c).seq n) ∧
    (u.gt = false → u.wr = false → SeqOnly n c (Ctl.runAccesses n step u.rd u.wr u.gt busy k j (e + j * step) cls ds c)) := by
  induction k with
  | zero => exact fun j cls ds c h => ⟨.refl n c, h, fun _ _ => .refl n c⟩
  | succ k ih =>
    intro j cls ds c h
    obtain ⟨cls', x, hsucc⟩ := runAccesses_succ n step u busy k j (e + j * step) cls ds c
    obtain ⟨hframe, hone, honly⟩ := runAccess_spec c n u busy (e + j * step) j cls' x
    have hec : e + j * step + step = e + (j + 1) * step := by rw [Nat.succ_mul, Nat.add_assoc]
    obtain ⟨hframes, hran, honlys⟩ := ih (j + 1) cls' ds.tail _ (h.access hone)
    rw [hsucc, hec]
    exact ⟨hframe.trans hframes, by rwa [Nat.add_right_comm, Nat.add_assoc] at hran, fun hgt hwr => (honly hgt hwr).trans (honlys hgt hwr)⟩

/-! ### What the accesses come to, channel by channel -/

variable {n : Nat} {u : RunUse} {e step : Nat} {q₀ : Seq} {j : Nat} {q : Seq}

/-- The sequencer beside its accesses. -/
def Seq.besideAccess (q : Seq) : Seq :=
  { q with ag0 := {}, ag1 := {}, reads := [], readCount := 0, lastReadBc := 0, writes := [], lastT := 0, writeCount := 0, seqCount := 0, ra := [], gather := none }

theorem ReadsOne.beside {e : Nat} {q q' : Seq} (h : ReadsOne e q q') : q'.besideAccess = q.besideAccess := by
  obtain ⟨r, b, rfl, -⟩ := h
  rfl

/-- A read access leaves the write channel alone. -/
theorem ReadsOne.writeSide {e : Nat} {q q' : Seq} (h : ReadsOne e q q') : q'.writes = q.writes ∧ q'.writeCount = q.writeCount ∧ q'.seqCount = q.seqCount ∧
    q'.ag1 = q.ag1 ∧ q'.ra = q.ra ∧ q'.gather = q.gather := by
  obtain ⟨r, b, rfl, -⟩ := h
  exact ⟨rfl, rfl, rfl, rfl, rfl, rfl⟩

theorem IndexesOne.beside {q q' : Seq} (h : IndexesOne q q') : q'.besideAccess = q.besideAccess := by
  obtain ⟨a, g, rfl⟩ := h
  rfl

/-- An index access leaves the read channel alone. -/
theorem IndexesOne.readSide {q q' : Seq} (h : IndexesOne q q') : q'.reads = q.reads ∧ q'.readCount = q.readCount ∧ q'.ag0 = q.ag0 := by
  obtain ⟨a, g, rfl⟩ := h
  exact ⟨rfl, rfl, rfl⟩

theorem IndexesOne.counts {q q' : Seq} (h : IndexesOne q q') : q'.writeCount = q.writeCount + 1 ∧ q'.seqCount = q.seqCount + 1 := by
  obtain ⟨a, g, rfl⟩ := h
  exact ⟨rfl, rfl⟩

theorem WritesOne.beside {e : Nat} {q q' : Seq} (h : WritesOne n e q q') : q'.besideAccess = q.besideAccess := by
  obtain ⟨ws, a, t, ra, rfl, -, -⟩ := h
  rw [Seq.setWriteAg]
  split <;> rfl

/-- A write access leaves the read channel alone, and on a vector port its generator too. -/
theorem WritesOne.readSide {e : Nat} {q q' : Seq} (h : WritesOne n e q q') : q'.reads = q.reads ∧ q'.readCount = q.readCount ∧ q'.gather = q.gather ∧
    (isVector n = true → q'.ag0 = q.ag0) := by
  obtain ⟨ws, a, t, ra, rfl, -, -⟩ := h
  rw [Seq.setWriteAg]
  split
  · exact ⟨rfl, rfl, rfl, fun _ => rfl⟩
  · next hno => exact ⟨rfl, rfl, rfl, fun hvec => absurd hvec hno⟩

theorem WritesOne.counts {e : Nat} {q q' : Seq} (h : WritesOne n e q q') : q'.writeCount = q.writeCount + 1 ∧ q'.seqCount = q.seqCount + 1 := by
  obtain ⟨ws, a, t, ra, rfl, -, -⟩ := h
  rw [Seq.setWriteAg]
  split <;> exact ⟨rfl, rfl⟩

theorem WritesOne.writeAg {e : Nat} {q q' : Seq} (h : WritesOne n e q q') : q'.writeAg n = (AddrGen.take (q.writeAg n).lanes (q.writeAg n)).2 := by
  obtain ⟨ws, a, t, ra, rfl, -, -⟩ := h
  simp only [Seq.setWriteAg, Seq.writeAg]
  split <;> rfl

theorem WritesOne.writes {e : Nat} {q q' : Seq} (h : WritesOne n e q q') : ∃ y, q'.writes.map WAccess.frame = q.writes.map WAccess.frame ++ [y] ∧
    namedOf y = (q.writeCount, q.seqCount, e, (q.writeAg n).accType, (AddrGen.take (q.writeAg n).lanes (q.writeAg n)).1) := by
  obtain ⟨ws, a, t, ra, rfl, hkept, hnamed⟩ := h
  refine ⟨a.frame, ?_, hnamed⟩
  rw [Seq.setWriteAg]
  split <;> simp [hkept]

theorem Ran.beside (h : Ran n u e step q₀ j q) : q.besideAccess = q₀.besideAccess := by
  induction h with
  | start => rfl
  | access _ hone ih =>
    obtain ⟨q₁, hread, hwrite⟩ := hone
    have hfirst : q₁.besideAccess = q₀.besideAccess := by
      split at hread
      · exact hread.beside.trans ih
      · rw [hread, ih]
    split at hwrite
    · exact hwrite.beside.trans hfirst
    · split at hwrite
      · exact hwrite.beside.trans hfirst
      · rw [hwrite, hfirst]

/-- The second half of an access leaves the read channel alone. -/
theorem readSide_kept {q₁ q' : Seq} {e : Nat} (hwrite : if u.gt then IndexesOne q₁ q' else if u.wr then WritesOne n e q₁ q' else q' = q₁) :
    q'.reads = q₁.reads ∧ q'.readCount = q₁.readCount ∧ (u.wr = false ∨ isVector n = true → q'.ag0 = q₁.ag0) := by
  split at hwrite
  · obtain ⟨hreads, hcount, hag⟩ := hwrite.readSide
    exact ⟨hreads, hcount, fun _ => hag⟩
  · split at hwrite
    · next hwr =>
      obtain ⟨hreads, hcount, -, hag⟩ := hwrite.readSide
      exact ⟨hreads, hcount, fun h => hag (h.resolve_left (by simp [hwr]))⟩
    · rw [hwrite]
      exact ⟨rfl, rfl, fun _ => rfl⟩

/-- Without the read channel its accesses and its generator stay. -/
theorem Ran.noReads (h : Ran n u e step q₀ j q) (hrd : u.rd = false) :
    q.reads = q₀.reads ∧ q.readCount = q₀.readCount ∧ (u.wr = false ∨ isVector n = true → q.ag0 = q₀.ag0) := by
  induction h with
  | start => exact ⟨rfl, rfl, fun _ => rfl⟩
  | access _ hone ih =>
    obtain ⟨q₁, hread, hwrite⟩ := hone
    rw [if_neg (by simp [hrd])] at hread
    subst hread
    obtain ⟨hreads, hcount, hag⟩ := readSide_kept hwrite
    obtain ⟨ihreads, ihcount, ihag⟩ := ih
    exact ⟨hreads.trans ihreads, hcount.trans ihcount, fun hv => (hag hv).trans (ihag hv)⟩

/-- The reads of a RUN are issued one every `step` ec with the granules of the generator, which goes on behind the last. -/
theorem Ran.reads (h : Ran n u e step q₀ j q) (hrd : u.rd = true) (hvec : u.wr = false ∨ isVector n = true) :
    q.ag0 = (AddrGen.take (j * q₀.ag0.lanes) q₀.ag0).2 ∧ q.readCount = q₀.readCount + j ∧
    ∃ new, q.reads = q₀.reads ++ new ∧ new.map RAccess.named =
      (List.range j).map fun k => (q₀.readCount + k, e + k * step, q₀.ag0.opmode, q₀.ag0.oparg, accessOf q₀.ag0 k) := by
  induction h with
  | start => exact ⟨by rw [Nat.zero_mul]; rfl, rfl, [], by simp, rfl⟩
  | @access j q q' _ hone ih =>
    obtain ⟨q₁, hread, hwrite⟩ := hone
    rw [if_pos hrd] at hread
    obtain ⟨r, b, hq₁, hnamed⟩ := hread
    obtain ⟨hreads, hcount, hag⟩ := readSide_kept hwrite
    obtain ⟨ihag, ihcount, new, ihreads, ihnew⟩ := ih
    obtain ⟨hgis, hafter⟩ := take_after j q₀.ag0
    refine ⟨?_, ?_, new ++ [r], ?_, ?_⟩
    · rw [hag hvec, hq₁, ihag, take_lanes, hafter]
    · rw [hcount, hq₁, ihcount, Nat.add_assoc]
    · rw [hreads, hq₁, ihreads, List.append_assoc]
    · rw [ihag, take_lanes, take_opmode, take_oparg, hgis, ihcount] at hnamed
      rw [List.map_append, ihnew, List.range_succ, List.map_append, List.map_singleton, hnamed, List.map_singleton]

/-- Without the write channel and a gather the write side of the sequencer stays. -/
theorem Ran.noWrites (h : Ran n u e step q₀ j q) (hwr : u.wr = false) (hgt : u.gt = false) : q.writes = q₀.writes ∧ q.writeCount = q₀.writeCount ∧
    q.seqCount = q₀.seqCount ∧ q.ag1 = q₀.ag1 ∧ q.ra = q₀.ra := by
  induction h with
  | start => exact ⟨rfl, rfl, rfl, rfl, rfl⟩
  | access _ hone ih =>
    obtain ⟨q₁, hread, hwrite⟩ := hone
    rw [if_neg (by simp [hgt]), if_neg (by simp [hwr])] at hwrite
    subst hwrite
    split at hread
    · obtain ⟨hwrites, hcount, hno, hag, hra, -⟩ := hread.writeSide
      obtain ⟨ihwrites, ihcount, ihno, ihag, ihra⟩ := ih
      exact ⟨hwrites.trans ihwrites, hcount.trans ihcount, hno.trans ihno, hag.trans ihag, hra.trans ihra⟩
    · rw [hread]
      exact ih

/-- Unless the RUN is a gather the gather unit stays. -/
theorem Ran.noGather (h : Ran n u e step q₀ j q) (hgt : u.gt = false) : q.gather = q₀.gather := by
  induction h with
  | start => rfl
  | access _ hone ih =>
    obtain ⟨q₁, hread, hwrite⟩ := hone
    rw [if_neg (by simp [hgt])] at hwrite
    have hfirst : q₁.gather = q₀.gather := by
      split at hread
      · obtain ⟨-, -, -, -, -, hgather⟩ := hread.writeSide
        exact hgather.trans ih
      · rw [hread, ih]
    split at hwrite
    · obtain ⟨-, -, hgather, -⟩ := hwrite.readSide
      exact hgather.trans hfirst
    · rw [hwrite, hfirst]

theorem seqCount_succ (x : BitVec 16) (j : Nat) : x + BitVec.ofNat 16 j + 1 = x + BitVec.ofNat 16 (j + 1) := by
  rw [BitVec.ofNat_add, BitVec.add_assoc]
  rfl

/-- Index accesses of a gather count as write accesses. -/
theorem Ran.counts (h : Ran n u e step q₀ j q) (huse : u.gt = true ∨ u.wr = true) :
    q.writeCount = q₀.writeCount + j ∧ q.seqCount = q₀.seqCount + BitVec.ofNat 16 j := by
  induction h with
  | start => exact ⟨rfl, by simp⟩
  | @access j q q' _ hone ih =>
    obtain ⟨q₁, hread, hwrite⟩ := hone
    obtain ⟨ihcount, ihno⟩ := ih
    have hfirst : q₁.writeCount = q₀.writeCount + j ∧ q₁.seqCount = q₀.seqCount + BitVec.ofNat 16 j := by
      split at hread
      · obtain ⟨-, hcount, hno, -⟩ := hread.writeSide
        exact ⟨hcount.trans ihcount, hno.trans ihno⟩
      · rw [hread]
        exact ⟨ihcount, ihno⟩
    have hsecond : q'.writeCount = q₁.writeCount + 1 ∧ q'.seqCount = q₁.seqCount + 1 := by
      split at hwrite
      · exact hwrite.counts
      · next hgt =>
        rw [if_pos (huse.resolve_left hgt)] at hwrite
        exact hwrite.counts
    obtain ⟨hcount, hno⟩ := hfirst
    obtain ⟨hcount', hno'⟩ := hsecond
    rw [hcount', hno', hcount, hno, seqCount_succ]
    exact ⟨rfl, rfl⟩

/-- The writes of a RUN are issued one every `step` ec with the granules of the generator, which goes on behind the last; accesses issued before stay beside
the data of their lanes. -/
theorem Ran.writes (h : Ran n u e step q₀ j q) (hwr : u.wr = true) (hgt : u.gt = false) (hvec : u.rd = false ∨ isVector n = true) :
    q.writeAg n = (AddrGen.take (j * (q₀.writeAg n).lanes) (q₀.writeAg n)).2 ∧
    ∃ new, q.writes.map WAccess.frame = q₀.writes.map WAccess.frame ++ new ∧ new.map namedOf = (List.range j).map fun k =>
      (q₀.writeCount + k, q₀.seqCount + BitVec.ofNat 16 k, e + k * step, (q₀.writeAg n).accType, accessOf (q₀.writeAg n) k) := by
  induction h with
  | start => exact ⟨by rw [Nat.zero_mul]; rfl, [], by simp, rfl⟩
  | @access j q q' hran hone ih =>
    obtain ⟨q₁, hread, hwrite⟩ := hone
    rw [if_neg (by simp [hgt]), if_pos hwr] at hwrite
    obtain ⟨hcount, hno⟩ := hran.counts (.inr hwr)
    have hfirst : q₁.writes = q.writes ∧ q₁.writeCount = q.writeCount ∧ q₁.seqCount = q.seqCount ∧ q₁.writeAg n = q.writeAg n := by
      split at hread
      · next hrd =>
        obtain ⟨hwrites, hcount₁, hno₁, hag, -⟩ := hread.writeSide
        have hvector : isVector n = true := hvec.resolve_left (by simp [hrd])
        exact ⟨hwrites, hcount₁, hno₁, by simp only [Seq.writeAg, hvector, if_true, hag]⟩
      · rw [hread]
        exact ⟨rfl, rfl, rfl, rfl⟩
    obtain ⟨hwrites₁, hcount₁, hno₁, hag₁⟩ := hfirst
    obtain ⟨ihag, new, ihwrites, ihnew⟩ := ih
    obtain ⟨hgis, hafter⟩ := take_after j (q₀.writeAg n)
    obtain ⟨y, hy, hnamed⟩ := hwrite.writes
    refine ⟨?_, new ++ [y], ?_, ?_⟩
    · rw [hwrite.writeAg, hag₁, ihag, take_lanes, hafter]
    · rw [hy, hwrites₁, ihwrites, List.append_assoc]
    · rw [hag₁, ihag, take_lanes, take_accType, hgis, hcount₁, hcount, hno₁, hno] at hnamed
      rw [List.map_append, ihnew, List.range_succ, List.map_append, List.map_singleton, hnamed, List.map_singleton]

end Sys2Proof.Machine

end

section
/-! A RUN word and what it leaves (R67, R68, R70, R143). -/

namespace Sys2Proof.Machine

variable {s : State} {n w : Nat} {c : Ctl}

/-- The channels that the RUN word `w` uses at a sequencer. -/
def Seq.runUse (q : Seq) (n w : Nat) : RunUse := { rd := q.runReads n w, wr := runWrites w && !q.isGather n w, gt := q.isGather n w }

/-- AG0 at the first access of the RUN word `w`. -/
def Seq.runAg0 (q : Seq) (n w : Nat) : AddrGen :=
  if wRestart w ∧ ((q.runUse n w).rd ∨ ((q.runUse n w).wr ∧ ¬ isVector n)) then q.ag0.restart else q.ag0

/-- AG1 at the first access of the RUN word `w`. -/
def Seq.runAg1 (q : Seq) (n w : Nat) : AddrGen :=
  if wRestart w ∧ ((q.runUse n w).gt ∨ ((q.runUse n w).wr ∧ isVector n)) then q.ag1.restart else q.ag1

/-- The sequencer before the first access of the RUN word `w`, with its record `rec`, the gather unit `g` and the last bc `b` of its reads. -/
def Seq.atRun (q : Seq) (n w : Nat) (rec : Option RunRec) (g : Option Gather) (b : Nat) : Seq :=
  { q with ag0 := q.runAg0 n w, ag1 := q.runAg1 n w, runRec := rec, gather := g, lastReadBc := b }

/-- The record of the RUN word `w` that begins in ec `e`. -/
def Seq.recOfRun (q : Seq) (n e w : Nat) : RunRec :=
  { startEc := e, gap := wGap w, count := wN w, ag0 := q.runAg0 n w, ag1 := q.runAg1 n w, use0 := (q.runUse n w).rd || ((q.runUse n w).wr && !isVector n)
    use1 := (q.runUse n w).wr && isVector n }

theorem gatherBegin_eq (c : Ctl) (n e count : Nat) : ∃ g b, c.gatherBegin n e count = c.setSeq n { c.seq n with gather := g, lastReadBc := b } := ⟨_, _, rfl⟩

/-- Before its accesses a RUN sets its generators, its record and, as a gather, the gather unit. -/
theorem wordRun_begins (c : Ctl) (n e w : Nat) (ds : List EngineDrive) : ∃ d busy rec g b,
    c.wordRun n e w ds = Ctl.runAccesses n (wGap w + 1) ((c.seq n).runUse n w).rd ((c.seq n).runUse n w).wr ((c.seq n).runUse n w).gt busy (wN w) 0 e 0 ds d ∧
    SeqOnly n c d ∧ d.seq n = (c.seq n).atRun n w rec g b ∧ (((c.seq n).runUse n w).gt = false → g = (c.seq n).gather) := by
  have honly := seqOnly_setSeq n c ((c.seq n).atRun n w (some ((c.seq n).recOfRun n e w)) (c.seq n).gather (c.seq n).lastReadBc)
  have hseq := Ctl.seq_setSeq_same c n ((c.seq n).atRun n w (some ((c.seq n).recOfRun n e w)) (c.seq n).gather (c.seq n).lastReadBc)
  have hrun : c.wordRun n e w ds = Ctl.runAccesses n (wGap w + 1) ((c.seq n).runUse n w).rd ((c.seq n).runUse n w).wr ((c.seq n).runUse n w).gt
      (((c.seq n).runUse n w).gt && (c.seq n).gatherBusyAt e) (wN w) 0 e 0 ds
      (if ((c.seq n).runUse n w).gt ∧ ¬ (((c.seq n).runUse n w).gt && (c.seq n).gatherBusyAt e)
        then (c.setSeq n ((c.seq n).atRun n w (some ((c.seq n).recOfRun n e w)) (c.seq n).gather (c.seq n).lastReadBc)).gatherBegin n e (wN w)
        else c.setSeq n ((c.seq n).atRun n w (some ((c.seq n).recOfRun n e w)) (c.seq n).gather (c.seq n).lastReadBc)) := rfl
  generalize c.setSeq n ((c.seq n).atRun n w (some ((c.seq n).recOfRun n e w)) (c.seq n).gather (c.seq n).lastReadBc) = d at honly hseq hrun
  by_cases hbegin : ((c.seq n).runUse n w).gt ∧ ¬ (((c.seq n).runUse n w).gt && (c.seq n).gatherBusyAt e)
  · obtain ⟨g, b, hgather⟩ := gatherBegin_eq d n e (wN w)
    rw [if_pos hbegin, hgather, hseq] at hrun
    obtain ⟨hgt, -⟩ := hbegin
    exact ⟨_, _, _, g, b, hrun, honly.setSeq _, Ctl.seq_setSeq_same _ _ _, fun hno => absurd hgt (by simp [hno])⟩
  · rw [if_neg hbegin] at hrun
    exact ⟨d, _, _, (c.seq n).gather, (c.seq n).lastReadBc, hrun, honly, hseq, fun _ => rfl⟩

/-- A word that uses both channels stands at a vector port, which has a generator for each. -/
theorem isVector_of_runUse {q : Seq} (htrap : q.trapCause n q.pc w false false = 0) (hop : wOp w = 2) (hrd : (q.runUse n w).rd = true)
    (hwr : (q.runUse n w).wr = true) : isVector n = true := by
  obtain ⟨-, -, hport⟩ := of_trapCause_eq_zero htrap
  simp only [Seq.runUse, Seq.runReads, runWrites, Bool.and_eq_true, decide_eq_true_eq] at hrd hwr
  have hch : wCh w = 3 := by
    have hlt : wCh w < 4 := Nat.mod_lt _ (by decide)
    omega
  by_contra hvec
  simp [Seq.portMismatch, hop, hch, hvec] at hport

theorem runUse_gt_writes {q : Seq} (h : (q.runUse n w).gt = true) : runWrites w = true := by
  simp only [Seq.runUse, Seq.isGather, Bool.and_eq_true, decide_eq_true_eq] at h
  obtain ⟨⟨-, hch⟩, -⟩ := h
  simp [runWrites, hch]

/-- An element behind a list is named by its place. -/
theorem named_of_getElem? {α β : Type} {f : α → β} {g : Nat → β} {l new : List α} {N k : Nat} (hnew : new.map f = (List.range N).map g) (hk : k < N) {x : α}
    (hx : (l ++ new)[l.length + k]? = some x) : f x = g k := by
  rw [List.getElem?_append_right (Nat.le_add_right _ _), Nat.add_sub_cancel_left] at hx
  have hmap : (new.map f)[k]? = some (f x) := by rw [List.getElem?_map, hx]; rfl
  rw [hnew, List.getElem?_map, List.getElem?_range hk] at hmap
  exact (Option.some.inj hmap).symm

theorem length_of_named {α β : Type} {f : α → β} {g : Nat → β} {new : List α} {N : Nat} (hnew : new.map f = (List.range N).map g) : new.length = N := by
  simpa using congrArg List.length hnew

/-- Accesses with one frame agree beside the data of their lanes. -/
theorem eq_of_frame {x x' : WAccess} (h : x'.frame = x.frame) : x' = { x with lanes := x'.lanes } ∧
    x'.lanes.map (fun l => (l.lane, l.gi, l.follow)) = x.lanes.map (fun l => (l.lane, l.gi, l.follow)) := by
  obtain ⟨hrest, hlanes⟩ := Prod.mk.inj h
  exact ⟨congrArg (fun y : WAccess => { y with lanes := x'.lanes }) hrest, hlanes⟩

/-- The sequencer, the frame and the other sequencers after the accesses of a RUN word. -/
theorem wordRun_spec (c : Ctl) (n e w : Nat) (ds : List EngineDrive) : ∃ rec g b,
    (((c.seq n).runUse n w).gt = false → g = (c.seq n).gather) ∧
    Ran n ((c.seq n).runUse n w) e (wGap w + 1) ((c.seq n).atRun n w rec g b) (wN w) ((c.wordRun n e w ds).seq n) ∧ RunFrame n c (c.wordRun n e w ds) ∧
    (runWrites w = false → SeqOnly n c (c.wordRun n e w ds)) := by
  obtain ⟨d, busy, rec, g, b, hrun, honly, hseq, hgather⟩ := wordRun_begins c n e w ds
  obtain ⟨hframe, hran, hquiet⟩ := runAccesses_spec n (wGap w + 1) ((c.seq n).runUse n w) busy e (d.seq n) (wN w) 0 0 ds d .start
  rw [Nat.zero_mul, Nat.add_zero e, ← hrun] at hframe hran hquiet
  rw [Nat.zero_add, hseq] at hran
  refine ⟨rec, g, b, hgather, hran, honly.runFrame.trans hframe, fun hno => honly.trans (hquiet ?_ ?_)⟩
  · exact Bool.eq_false_iff.mpr fun hgt => by rw [runUse_gt_writes hgt] at hno; exact Bool.noConfusion hno
  · simp [Seq.runUse, hno]

end Sys2Proof.Machine

end

section
/-! RUN issues every access (R67, R68, R70, R143). -/

namespace Sys2Proof.Machine

variable {s : State} {n w e : Nat} {c : Ctl} {q q₁ : Seq} {rec : Option RunRec} {g : Option Gather} {b : Nat}

theorem runAg0_of_reads (hrd : q.runReads n w = true) : q.runAg0 n w = if wRestart w then q.ag0.restart else q.ag0 := by
  simp [Seq.runAg0, Seq.runUse, hrd]

theorem runAg0_kept (hrd : q.runReads n w = false) (hwr : (runWrites w && !q.isGather n w) = false ∨ isVector n = true) : q.runAg0 n w = q.ag0 := by
  refine if_neg fun ⟨_, huse⟩ => ?_
  rcases huse with hread | ⟨hwrite, hplain⟩
  · exact Bool.noConfusion (hrd.symm.trans hread)
  · rcases hwr with hno | hvec
    · exact Bool.noConfusion (hno.symm.trans hwrite)
    · exact hplain hvec

theorem runAg1_kept (hwr : runWrites w = false) : q.runAg1 n w = q.ag1 := by
  refine if_neg fun ⟨_, huse⟩ => ?_
  rcases huse with hgt | ⟨hwrite, -⟩
  · exact Bool.noConfusion (hwr.symm.trans (runUse_gt_writes hgt))
  · simp [Seq.runUse, hwr] at hwrite

/-- The generator of the write channel at the first access. -/
theorem writeAg_atRun (hwr : (runWrites w && !q.isGather n w) = true) :
    (q.atRun n w rec g b).writeAg n = if wRestart w then (q.writeAg n).restart else q.writeAg n := by
  have huse : (q.runUse n w).wr = true := hwr
  cases hvec : isVector n <;> simp [Seq.writeAg, Seq.atRun, Seq.runAg0, Seq.runAg1, huse, hvec]

theorem other_or {x y : Bool} {p : Prop} (h : x = true → y = true → p) (hx : x = true) : y = false ∨ p := by
  cases y with
  | true => exact .inr (h hx rfl)
  | false => exact .inl rfl

/-- The accesses on the read channel of a RUN word. -/
theorem run_reads (hran : Ran n (q.runUse n w) e (wGap w + 1) (q.atRun n w rec g b) (wN w) q₁) (hrd : q.runReads n w = true)
    (hboth : (q.runUse n w).rd = true → (q.runUse n w).wr = true → isVector n = true) {a : AddrGen} (ha : a = if wRestart w then q.ag0.restart else q.ag0) :
    q₁.ag0 = (AddrGen.take (wN w * a.lanes) a).2 ∧ q₁.reads.length = q.reads.length + wN w ∧ q₁.reads.take q.reads.length = q.reads ∧
    ∀ (k : Nat) (r : RAccess), k < wN w → q₁.reads[q.reads.length + k]? = some r → r.id = q.readCount + k ∧
      r.issue = e + k * (wGap w + 1) ∧ r.opmode = a.opmode ∧ r.oparg = a.oparg ∧ (r.lanes.filter fun l => !l.scale).map (fun l => l.gi) = accessOf a k := by
  have hfirst : (q.atRun n w rec g b).ag0 = a := (runAg0_of_reads hrd).trans ha.symm
  obtain ⟨hag, -, new, hreads, hnew⟩ := hran.reads hrd (other_or hboth hrd)
  rw [hfirst] at hag hnew
  have hkept : q₁.reads = q.reads ++ new := hreads
  rw [hkept]
  refine ⟨hag, by rw [List.length_append, length_of_named hnew], List.take_left, fun k r hk hr => ?_⟩
  have hname := named_of_getElem? hnew hk hr
  simp only [RAccess.named, Prod.mk.injEq] at hname
  exact hname

/-- The accesses on the write channel of a RUN word, and those issued before it. -/
theorem run_writes (hran : Ran n (q.runUse n w) e (wGap w + 1) (q.atRun n w rec g b) (wN w) q₁) (hwr : (runWrites w && !q.isGather n w) = true)
    (hboth : (q.runUse n w).rd = true → (q.runUse n w).wr = true → isVector n = true) {a : AddrGen} (ha : a = if wRestart w then (q.writeAg n).restart else q.writeAg n) :
    q₁.writeAg n = (AddrGen.take (wN w * a.lanes) a).2 ∧ q₁.writes.length = q.writes.length + wN w ∧
    (∀ (k : Nat) (x x' : WAccess), q.writes[k]? = some x → q₁.writes[k]? = some x' → x' = { x with lanes := x'.lanes } ∧
      x'.lanes.map (fun l => (l.lane, l.gi, l.follow)) = x.lanes.map (fun l => (l.lane, l.gi, l.follow))) ∧
    ∀ (k : Nat) (x : WAccess), k < wN w → q₁.writes[q.writes.length + k]? = some x → x.id = q.writeCount + k ∧
      x.seqNo = q.seqCount + BitVec.ofNat 16 k ∧ x.w = e + k * (wGap w + 1) ∧ x.acc = a.accType ∧ x.lanes.map (fun l => l.gi) = accessOf a k := by
  have hgt : (q.runUse n w).gt = false := by
    obtain ⟨-, hno⟩ := Bool.and_eq_true_iff.mp hwr
    exact Bool.not_eq_true' _ ▸ hno
  have hfirst : (q.atRun n w rec g b).writeAg n = a := (writeAg_atRun hwr).trans ha.symm
  obtain ⟨hag, new, hwrites, hnew⟩ := hran.writes hwr hgt (other_or (fun hw hr => hboth hr hw) hwr)
  rw [hfirst] at hag hnew
  have hkept : q₁.writes.map WAccess.frame = q.writes.map WAccess.frame ++ new := hwrites
  have hframe : ∀ (k : Nat) (x : WAccess), q₁.writes[k]? = some x → (q.writes.map WAccess.frame ++ new)[k]? = some x.frame := fun k x hx => by
    rw [← hkept, List.getElem?_map, hx]
    rfl
  refine ⟨hag, ?_, fun k x x' hx hx' => ?_, fun k x hk hx => ?_⟩
  · have hlength := congrArg List.length hkept
    rwa [List.length_map, List.length_append, List.length_map, length_of_named hnew] at hlength
  · have hold : (q.writes.map WAccess.frame)[k]? = some x.frame := by rw [List.getElem?_map, hx]; rfl
    have hsame := hframe k x' hx'
    rw [List.getElem?_append_left (List.getElem?_eq_some_iff.mp hold).1, hold] at hsame
    exact eq_of_frame (Option.some.inj hsame).symm
  · have hplace := hframe _ x hx
    rw [← List.length_map (f := WAccess.frame) (as := q.writes)] at hplace
    have hname := named_of_getElem? hnew hk hplace
    simp only [namedOf, WAccess.frame, Prod.mk.injEq, List.map_map] at hname
    exact hname

/-- The counts of a RUN word: index accesses count as write accesses. -/
theorem run_counts (hran : Ran n (q.runUse n w) e (wGap w + 1) (q.atRun n w rec g b) (wN w) q₁)
    (hboth : (q.runUse n w).rd = true → (q.runUse n w).wr = true → isVector n = true) :
    q₁.readCount = q.readCount + (if q.runReads n w then wN w else 0) ∧ q₁.writeCount = q.writeCount + (if runWrites w then wN w else 0) ∧
    q₁.seqCount = q.seqCount + BitVec.ofNat 16 (if runWrites w then wN w else 0) := by
  constructor
  · cases hrd : q.runReads n w with
    | true =>
      obtain ⟨-, hcount, -⟩ := hran.reads hrd (other_or hboth hrd)
      exact hcount
    | false =>
      obtain ⟨-, hcount, -⟩ := hran.noReads hrd
      exact hcount
  · cases hwr : runWrites w with
    | true =>
      refine hran.counts ?_
      cases hgt : q.isGather n w <;> simp [Seq.runUse, hgt, hwr]
    | false =>
      have hgt : (q.runUse n w).gt = false := Bool.eq_false_iff.mpr fun h => Bool.noConfusion (hwr.symm.trans (runUse_gt_writes h))
      obtain ⟨-, hcount, hno, -⟩ := hran.noWrites (by simp [Seq.runUse, hwr]) hgt
      exact ⟨hcount, hno.trans (BitVec.add_zero _).symm⟩

theorem exec_run (h : AtWord s n w c) (hop : wOp w = 2) (ds : List EngineDrive) : exec (.run n ds) s = .next (s.units
    ((c.wordRun n (c.seq n).wordEc w ds).setSeq n (((c.wordRun n (c.seq n).wordEc w ds).seq n).next ((c.wordRun n (c.seq n).wordEc w ds).seq n).pc
      (c.seq n).wordEc (wN w + (wN w - 1) * wGap w)))) :=
  exec_atWord h (isOp_of_eq hop) fun c e w => c.wordRunNext n e w ds

/-- The accesses of a RUN leave the place of the sequencer and its releases. -/
theorem place_of_ran (hran : Ran n (q.runUse n w) e (wGap w + 1) (q.atRun n w rec g b) (wN w) q₁) :
    q₁.state = q.state ∧ q₁.pc = q.pc ∧ q₁.loops = q.loops ∧ q₁.releases = q.releases :=
  ⟨(congrArg Seq.state hran.beside :), (congrArg Seq.pc hran.beside :), (congrArg Seq.loops hran.beside :), (congrArg Seq.releases hran.beside :)⟩

theorem runWordIssues : runWordIssuesRule := by
  intro s n w c ds q rd wr gt h hop hq hrd hgt hwr
  subst hq hrd hgt hwr
  have hexec := exec_run h hop ds
  have hstate := running_atWord h
  have hboth := isVector_of_runUse (trapCause_atWord h) hop
  obtain ⟨rec, g, b, hgather, hran, hframe, hquiet⟩ := wordRun_spec c n (c.seq n).wordEc w ds
  generalize c.wordRun n (c.seq n).wordEc w ds = d at hexec hran hframe hquiet
  obtain ⟨hsame, hpc, hloops, hreleases⟩ := place_of_ran hran
  obtain ⟨hreadCount, hwriteCount, hseqCount⟩ := run_counts hran hboth
  have hall := hframe.setSeq ((d.seq n).next (d.seq n).pc (c.seq n).wordEc (wN w + (wN w - 1) * wGap w))
  refine ⟨_, _, hexec, rfl, ?_⟩
  rw [units_seq, Ctl.seq_setSeq_same]
  refine ⟨⟨hsame.trans hstate, ?_, rfl, hpc, hloops⟩, hreadCount, hwriteCount, hseqCount, fun a ha hrd => run_reads hran hrd hboth ha,
    fun a ha hwr => run_writes hran hwr hboth ha, fun hrd => ?_, fun hwr => ?_, fun hgt => (hran.noGather hgt).trans (hgather hgt), hreleases,
    hall.others, hall.regs, congrArg s.units (eq_of_besideRun hall.units)⟩
  · rw [← hpc, ← hloops]
    rfl
  · obtain ⟨hreads, -, hag⟩ := hran.noReads hrd
    exact ⟨hreads, fun hw => (hag hw).trans (runAg0_kept hrd hw)⟩
  · have hgt : ((c.seq n).runUse n w).gt = false := Bool.eq_false_iff.mpr fun hg => Bool.noConfusion (hwr.symm.trans (runUse_gt_writes hg))
    obtain ⟨hwrites, -, -, hag, hra⟩ := hran.noWrites (by simp [Seq.runUse, hwr]) hgt
    exact ⟨hwrites, hra, hag.trans (runAg1_kept hwr), ((hquiet hwr).setSeq _).onlySeq s⟩

/-- Settles O15: by induction on the accesses of the word, each of which adds one read or write to its channel, with the granules that the generator gives
next, and records errors alone beside. -/
theorem runIssuesEveryAccess : Obligations.RunIssuesEveryAccess := ⟨runWordIssues, generatorTraverses⟩

end Sys2Proof.Machine

end

section
/-! What tells how time passes, and the frames of the units (R12, R13, R63, R88). -/

namespace Sys2Proof.Machine

/-- What tells how time passes: the counts of the clocks and the divider, whether the bank clock runs, the power state, and the control port. -/
structure Timing where
  bc : Nat
  run : Bool
  vco : Nat
  ref : Nat
  pre : Nat
  div : Nat
  mode : Nat
  asleep : Bool
  reqs : List CReq
  rsp : CRsp

/-- The same from the parts of the units that hold it. -/
def timingOf (k : Clk) (p : Power) (l : List CReq) (r : CRsp) : Timing :=
  { bc := k.bc, run := k.run, vco := k.vco, ref := k.ref, pre := k.pre, div := k.div, mode := p.mode, asleep := p.asleep, reqs := l, rsp := r }

/-- The timing of the units. A frame says which function keeps it. -/
def Ctl.timing (c : Ctl) : Timing := timingOf c.clk c.power c.cReqs c.cRsp

variable (c : Ctl)

/-! ### How a frame is found

The proofs `(rfl)` keep these equations out of the definitional unfolding of `simp`, so the kernel compares no two states of the units. -/

@[simp] theorem timingOf_self : timingOf c.clk c.power c.cReqs c.cRsp = c.timing := (rfl)

@[simp] theorem timingOf_tabReq (k : Clk) (x : Option Nat) (p : Power) (l : List CReq) (r : CRsp) :
    timingOf { k with tabReq := x } p l r = timingOf k p l r := (rfl)

/-- An update of units leaves the timing as its clocks, power and control port have it. -/
@[simp] theorem timing_mk {regs notes sysReady everReady clk boot store storeSeen storeFix seqs groups rdOut stOut sOut cntHist curtains ctxs osets dlTold
      sports landed later areqs nextReq arbs busy links wins packets nextPkt sends twin reh fillPend refills handing handCc killCc swap swapCc wbq wbNew
      logq fills scrubs lapCorr lapTold marches unders fenced strikes power faults time audit door cRsp cReqs cTurn cReady free} :
    (Ctl.mk regs notes sysReady everReady clk boot store storeSeen storeFix seqs groups rdOut stOut sOut cntHist curtains ctxs osets dlTold
      sports landed later areqs nextReq arbs busy links wins packets nextPkt sends twin reh fillPend refills handing handCc killCc swap swapCc wbq wbNew
      logq fills scrubs lapCorr lapTold marches unders fenced strikes power faults time audit door cRsp cReqs cTurn cReady free).timing =
      timingOf clk power cReqs cRsp := (rfl)

@[simp] theorem timing_ite (p : Prop) [Decidable p] (x y : Ctl) : (if p then x else y).timing = if p then x.timing else y.timing := apply_ite _ _ _ _

@[simp] theorem timing_ite_fst {α : Type} (p : Prop) [Decidable p] (x y : Ctl × α) :
    (if p then x else y).1.timing = if p then x.1.timing else y.1.timing := apply_ite (fun z : Ctl × α => z.1.timing) _ _ _

@[simp] theorem timing_foldl {α : Type} {f : Ctl → α → Ctl} (h : ∀ d x, (f d x).timing = d.timing) (l : List α) (c : Ctl) :
    (l.foldl f c).timing = c.timing := by
  induction l generalizing c with
  | nil => rfl
  | cons x l ih => rw [List.foldl_cons, ih, h]

@[simp] theorem timing_foldl_fst {α β : Type} {f : Ctl × β → α → Ctl × β} (h : ∀ d x, (f d x).1.timing = d.1.timing) (l : List α) (c : Ctl × β) :
    (l.foldl f c).1.timing = c.1.timing := by
  induction l generalizing c with
  | nil => rfl
  | cons x l ih => rw [List.foldl_cons, ih, h]

@[simp] theorem timing_forAll {f : Nat → Ctl → Ctl} (h : ∀ i d, (f i d).timing = d.timing) (l : List Nat) (c : Ctl) :
    (forAll l f c).timing = c.timing := by
  induction l generalizing c with
  | nil => rfl
  | cons x l ih => rw [forAll_cons, ih, h]

@[simp] theorem timing_setReg (o : Nat) (v : Word) : (c.setReg o v).timing = c.timing := (rfl)
@[simp] theorem timing_setFld (o : Nat) (f : FieldPos) (x : Nat) : (c.setFld o f x).timing = c.timing := (rfl)

end Sys2Proof.Machine

end

section
/-! Frames: registers, small updates and fault sources (R302 to R311, R371). -/

namespace Sys2Proof.Machine

variable (c : Ctl)

@[simp] theorem timing_noteOnes (off : Nat) (m : Word) : (c.noteOnes off m).timing = c.timing := by simp [Ctl.noteOnes]
@[simp] theorem timing_flag (off : Nat) (f : FieldPos) : (c.flag off f).timing = c.timing := by simp [Ctl.flag]
@[simp] theorem timing_noteWrote (off : Nat) (m : Word) : (c.noteWrote off m).timing = c.timing := by simp [Ctl.noteWrote]
@[simp] theorem timing_hwFld (off : Nat) (f : FieldPos) (x : Nat) : (c.hwFld off f x).timing = c.timing := by simp [Ctl.hwFld]
@[simp] theorem timing_satAdd (off : Nat) (f : FieldPos) (x : Nat) : (c.satAdd off f x).timing = c.timing := by simp [Ctl.satAdd]
@[simp] theorem timing_setSeq (n : Nat) (q : Seq) : (c.setSeq n q).timing = c.timing := by simp [Ctl.setSeq]
@[simp] theorem timing_setGroup (g : Nat) (x : Group) : (c.setGroup g x).timing = c.timing := by simp [Ctl.setGroup]
@[simp] theorem timing_setCtx (x : Nat) (r : CtxRun) : (c.setCtx x r).timing = c.timing := by simp [Ctl.setCtx]
@[simp] theorem timing_setSport (n : Nat) (p : StackPort) : (c.setSport n p).timing = c.timing := by simp [Ctl.setSport]
@[simp] theorem timing_setSout (n : Nat) (p : StackOut) : (c.setSout n p).timing = c.timing := by simp [Ctl.setSout]
@[simp] theorem timing_setLink (n : Nat) (p : LinkPort) : (c.setLink n p).timing = c.timing := by simp [Ctl.setLink]
@[simp] theorem timing_setWin (w : Nat) (r : WinRun) : (c.setWin w r).timing = c.timing := by simp [Ctl.setWin]
@[simp] theorem timing_setSend (e : Nat) (r : SendRun) : (c.setSend e r).timing = c.timing := by simp [Ctl.setSend]
@[simp] theorem timing_setCurtain (k : Nat) (x : Curtain) : (c.setCurtain k x).timing = c.timing := by simp [Ctl.setCurtain]
@[simp] theorem timing_setArb (q : Nat) (a : Arbiter) : (c.setArb q a).timing = c.timing := by simp [Ctl.setArb]
@[simp] theorem timing_setOset (k : Nat) (o : OSet) : (c.setOset k o).timing = c.timing := by simp [Ctl.setOset]
@[simp] theorem timing_setUnder (q : Nat) (u : Understudy) : (c.setUnder q u).timing = c.timing := by simp [Ctl.setUnder]
@[simp] theorem timing_draw : c.draw.2.timing = c.timing := by simp [Ctl.draw]

@[simp] theorem timing_capture (s v unit : Nat) : (c.capture s v unit).timing = c.timing := by
  simp only [Ctl.capture, timing_setFld, timing_flag, timing_mk, timingOf_self]

@[simp] theorem timing_capOver (v : Nat) : (c.capOver v).timing = c.timing := by simp [Ctl.capOver]
@[simp] theorem timing_uncap : c.uncap.timing = c.timing := by simp [Ctl.uncap]
@[simp] theorem timing_captureRaise (s v unit : Nat) : (c.captureRaise s v unit).1.timing = c.timing := by simp [Ctl.captureRaise]

@[simp] theorem timing_raise (s unit : Nat) : (c.raise s unit).timing = c.timing := by
  simp only [Ctl.raise]
  generalize decide (Ctl.fld _ oFltCfg fltCfg_CAP_MODE = 1) = compat
  simp

@[simp] theorem timing_raiseAt (x s unit : Nat) : (c.raiseAt x s unit).timing = c.timing := by simp [Ctl.raiseAt]
@[simp] theorem timing_raiseDue : c.raiseDue.timing = c.timing := by simp [Ctl.raiseDue]

end Sys2Proof.Machine

end

section
/-! Frames: banks and what follows a decode at a check point (R253 to R258, R287). -/

namespace Sys2Proof.Machine

variable (c : Ctl)

@[simp] theorem timing_setOwner (pb o : Nat) : (c.setOwner pb o).timing = c.timing := by simp [Ctl.setOwner]
@[simp] theorem timing_setStriking (pb : Nat) (b : Bool) : (c.setStriking pb b).timing = c.timing := by simp [Ctl.setStriking]
@[simp] theorem timing_wimgWritten (k : Nat) (staging : Bool) : (c.wimgWritten k staging).timing = c.timing := by simp [Ctl.wimgWritten]
@[simp] theorem timing_wimgTouch (gi : Nat) (staging : Bool) : (c.wimgTouch gi staging).timing = c.timing := by simp [Ctl.wimgTouch]

@[simp] theorem timing_wimgBankFilled (q cl bank : Nat) : (c.wimgBankFilled q cl bank).timing = c.timing := by
  simp only [Ctl.wimgBankFilled]
  split <;> simp

@[simp] theorem timing_cancelWb (q : Nat) (p : Nat → Bool) : (c.cancelWb q p).timing = c.timing := by simp [Ctl.cancelWb]
@[simp] theorem timing_cancelScrub (q cl : Nat) (p : Nat → Bool) : (c.cancelScrub q cl p).timing = c.timing := by simp [Ctl.cancelScrub]
@[simp] theorem timing_inject (gi : Nat) (rep : Bool) (g : Granule) : (c.inject gi rep g).1.timing = c.timing := by simp [Ctl.inject]
@[simp] theorem timing_logFill (s : EccSite) (kind pos bc e : Nat) : (c.logFill s kind pos bc e).timing = c.timing := by simp [Ctl.logFill]

@[simp] theorem timing_logInsert (d : LogDue) : (c.logInsert d).timing = c.timing := by
  simp only [Ctl.logInsert]
  split
  · simp
  · split <;> simp

@[simp] theorem timing_logEvent (s : EccSite) (kind pos : Nat) : (c.logEvent s kind pos).timing = c.timing := by simp [Ctl.logEvent]
@[simp] theorem timing_logNow : c.logNow.timing = c.timing := by simp [Ctl.logNow]
@[simp] theorem timing_lapRaise (q : Nat) : (c.lapRaise q).timing = c.timing := by simp [Ctl.lapRaise]
@[simp] theorem timing_lapCorrected (q : Nat) : (c.lapCorrected q).timing = c.timing := by simp [Ctl.lapCorrected]
@[simp] theorem timing_eccRecord (s : EccSite) (d : Decoded) : (c.eccRecord s d).timing = c.timing := by simp [Ctl.eccRecord]
@[simp] theorem timing_queueWb (q key gi : Nat) (w : Granule) (readBc : Nat) : (c.queueWb q key gi w readBc).timing = c.timing := by simp [Ctl.queueWb]
@[simp] theorem timing_wbEnter (q : Nat) (e : WbEntry) : (c.wbEnter q e).timing = c.timing := by simp [Ctl.wbEnter]
@[simp] theorem timing_wbNow : c.wbNow.timing = c.timing := by simp [Ctl.wbNow]
@[simp] theorem timing_bankRead (b : Tab Granule) (path req gi readBc : Nat) : (c.bankRead b path req gi readBc).1.timing = c.timing := by simp [Ctl.bankRead]
@[simp] theorem timing_freeSite (n : Nat) : (c.freeSite n).1.timing = c.timing := by simp [Ctl.freeSite]

@[simp] theorem timing_portCheck (cnt path req gi : Nat) (rep : Bool) (g : Granule) : (c.portCheck cnt path req gi rep g).1.timing = c.timing := by
  simp [Ctl.portCheck]

end Sys2Proof.Machine

end

section
/-! Frames: the cue sheet, counters and scopes (R88 to R99, R155, R160). -/

namespace Sys2Proof.Machine

variable (c : Ctl)

@[simp] theorem timing_csStatus (st : Nat) : (c.csStatus st).timing = c.timing := by simp [Ctl.csStatus]
@[simp] theorem timing_csShadow (q s w : Nat) (be : BitVec 2) (data : Word) : (c.csShadow q s w be data).timing = c.timing := by simp [Ctl.csShadow]
@[simp] theorem timing_setLater (off : Nat) (m v : Word) : (c.setLater off m v).timing = c.timing := by simp [Ctl.setLater]
@[simp] theorem timing_laterNow : c.laterNow.timing = c.timing := by simp [Ctl.laterNow]
@[simp] theorem timing_csActive (q s w : Nat) (be : BitVec 2) (data : Word) : (c.csActive q s w be data).timing = c.timing := by simp [Ctl.csActive]
@[simp] theorem timing_csCopy (mask : Nat) : (c.csCopy mask).timing = c.timing := by simp [Ctl.csCopy]
@[simp] theorem timing_csSwapWrite (be : BitVec 2) (data : Word) : (c.csSwapWrite be data).timing = c.timing := by simp [Ctl.csSwapWrite]

@[simp] theorem timing_csSwapEnd : c.csSwapEnd.timing = c.timing := by
  simp only [Ctl.csSwapEnd]
  split <;> simp

@[simp] theorem timing_csCtrlWrite (be : BitVec 2) (data : Word) : (c.csCtrlWrite be data).timing = c.timing := by simp [Ctl.csCtrlWrite]
@[simp] theorem timing_cntChange (i x rank amount scope : Nat) : (c.cntChange i x rank amount scope).timing = c.timing := by simp [Ctl.cntChange]
@[simp] theorem timing_cntAddWrite (i : Nat) (be : BitVec 2) (data : Word) : (c.cntAddWrite i be data).timing = c.timing := by simp [Ctl.cntAddWrite]
@[simp] theorem timing_cntLoadWrite (i : Nat) (be : BitVec 2) (data : Word) : (c.cntLoadWrite i be data).timing = c.timing := by simp [Ctl.cntLoadWrite]

@[simp] theorem timing_scopeEvent (rel acq kind target source req : Nat) : (c.scopeEvent rel acq kind target source req).timing = c.timing := by
  simp only [Ctl.scopeEvent]
  generalize Ctl.fld _ oScopeRec scopeRec_VALID = valid
  simp

end Sys2Proof.Machine

end

section
/-! Frames: packets that are sent, refusals and curtains (R170 to R175, R207 to R210). -/

namespace Sys2Proof.Machine

variable (c : Ctl)

@[simp] theorem timing_sendCtl (n h : Nat) : (c.sendCtl n h).timing = c.timing := by simp [Ctl.sendCtl]
@[simp] theorem timing_portRefuse (port kind : Nat) : (c.portRefuse port kind).timing = c.timing := by simp [Ctl.portRefuse]
@[simp] theorem timing_winRefuse (port w kind : Nat) : (c.winRefuse port w kind).timing = c.timing := by simp [Ctl.winRefuse]
@[simp] theorem timing_ackFor (port h code : Nat) : (c.ackFor port h code).timing = c.timing := by simp [Ctl.ackFor]

@[simp] theorem timing_refuseShape (port kind : Nat) (h : Option Nat) : (c.refuseShape port kind h).timing = c.timing := by
  simp only [Ctl.refuseShape]
  split <;> simp

@[simp] theorem timing_creditBack (port n : Nat) : (c.creditBack port n).timing = c.timing := by simp [Ctl.creditBack]
@[simp] theorem timing_rxLeaves (port : Nat) (p : RxPkt) : (c.rxLeaves port p).timing = c.timing := by simp [Ctl.rxLeaves]
@[simp] theorem timing_setSkip (port : Nat) (k : RxSkip) : (c.setSkip port k).timing = c.timing := by simp [Ctl.setSkip]
@[simp] theorem timing_curEvent (k kind who : Nat) : (c.curEvent k kind who).timing = c.timing := by simp [Ctl.curEvent]
@[simp] theorem timing_curRelease (k : Nat) (p : Bool) (scope x : Nat) : (c.curRelease k p scope x).timing = c.timing := by simp [Ctl.curRelease]

@[simp] theorem timing_curGrown (k : Nat) (p : Bool) (e : Nat) : (c.curGrown k p e).timing = c.timing := by
  simp only [Ctl.curGrown]
  generalize Ctl.fld _ (oCurCfg k) curCfg_EXPECT = expect
  generalize Ctl.fld _ (oCurCfg k) curCfg_PARENT = parent
  simp

@[simp] theorem timing_curEnd (k : Nat) : (c.curEnd k).timing = c.timing := by
  simp only [Ctl.curEnd]
  split
  · rfl
  · rw [timing_foldl, timing_setCurtain, timing_foldl]
    · intro d p
      split <;> simp
    · exact fun d r => timing_curRelease d k _ _ _

@[simp] theorem timing_curSettle (k x : Nat) : (c.curSettle k x).timing = c.timing := by simp [Ctl.curSettle]
@[simp] theorem timing_curRegister (k who scope x : Nat) : (c.curRegister k who scope x).timing = c.timing := by simp [Ctl.curRegister]
@[simp] theorem timing_curStart (k : Nat) : (c.curStart k).timing = c.timing := by simp [Ctl.curStart]
@[simp] theorem timing_curStale (k port : Nat) : (c.curStale k port).timing = c.timing := by simp [Ctl.curStale]
@[simp] theorem timing_curArrived (port h : Nat) : (c.curArrived port h).timing = c.timing := by simp [Ctl.curArrived]
@[simp] theorem timing_curReleased (port h : Nat) : (c.curReleased port h).timing = c.timing := by simp [Ctl.curReleased]
@[simp] theorem timing_curPacket (port h : Nat) : (c.curPacket port h).timing = c.timing := by simp [Ctl.curPacket]
@[simp] theorem timing_curCfgWrite (k : Nat) (be : BitVec 2) (data : Word) : (c.curCfgWrite k be data).timing = c.timing := by simp [Ctl.curCfgWrite]
@[simp] theorem timing_curReset (k : Nat) : (c.curReset k).timing = c.timing := by simp [Ctl.curReset]

end Sys2Proof.Machine

end

section
/-! Frames: rehearsal, sequencers and half swaps (R72 to R85, R101 to R103, R295). -/

namespace Sys2Proof.Machine

variable (c : Ctl)

@[simp] theorem timing_rehMismatch (q kind : Nat) (scene : BitVec 32) (off : Nat) : (c.rehMismatch q kind scene off).timing = c.timing := by
  simp only [Ctl.rehMismatch]
  split
  · simp
  · simp only [timing_raise, timing_ite, timing_mk, timingOf_tabReq, timingOf_self, ite_self, timing_setFld, timing_flag]

@[simp] theorem timing_rehLost : c.rehLost.timing = c.timing := by
  simp only [Ctl.rehLost]
  split
  · rfl
  · split <;> simp

@[simp] theorem timing_storeRecord (k : Nat) (d : Decoded) : (c.storeRecord k d).timing = c.timing := by simp [Ctl.storeRecord]
@[simp] theorem timing_fetch (half : Bool) (i : Nat) : (c.fetch half i).1.timing = c.timing := by simp [Ctl.fetch]
@[simp] theorem timing_trap (n cause pc e : Nat) : (c.trap n cause pc e).timing = c.timing := by simp [Ctl.trap]

@[simp] theorem timing_evalHead (n : Nat) (q : Seq) (fuel k pc : Nat) (loops : List LoopEntry) (acc : List HeadCond) :
    (c.evalHead n q fuel k pc loops acc).1.timing = c.timing := by
  induction fuel generalizing c k pc loops acc with
  | zero => rfl
  | succ fuel ih => simp [Ctl.evalHead, ih]

@[simp] theorem timing_evalScene (n e : Nat) : (c.evalScene n e).timing = c.timing := by
  simp only [Ctl.evalScene]
  generalize (if wOp _ = 5 then _ else _ : Nat) = cause
  split
  · simp
  · split <;> simp

@[simp] theorem timing_sampleConds (n x k : Nat) (l : List HeadCond) : (c.sampleConds n x k l).1.timing = c.timing := by
  induction l generalizing c k with
  | nil => rfl
  | cons h l ih => simp [Ctl.sampleConds, ih]

@[simp] theorem timing_sampleHead (n x : Nat) : (c.sampleHead n x).timing = c.timing := by simp [Ctl.sampleHead]
@[simp] theorem timing_groupSample (g x : Nat) : (c.groupSample g x).timing = c.timing := by simp [Ctl.groupSample]
@[simp] theorem timing_seqRefuse (n : Nat) : (c.seqRefuse n).timing = c.timing := by simp [Ctl.seqRefuse]
@[simp] theorem timing_seqStart (n : Nat) : (c.seqStart n).timing = c.timing := by simp [Ctl.seqStart]
@[simp] theorem timing_seqPark (n : Nat) : (c.seqPark n).timing = c.timing := by simp [Ctl.seqPark]

@[simp] theorem timing_parkSettle (n x : Nat) : (c.parkSettle n x).timing = c.timing := by
  simp only [Ctl.parkSettle]
  split <;> simp

@[simp] theorem timing_parksSettle (x : Nat) : (c.parksSettle x).timing = c.timing := by simp [Ctl.parksSettle]
@[simp] theorem timing_seqReset (n : Nat) : (c.seqReset n).timing = c.timing := by simp [Ctl.seqReset]
@[simp] theorem timing_seqCtrl (n cmd : Nat) : (c.seqCtrl n cmd).timing = c.timing := by simp [Ctl.seqCtrl]
@[simp] theorem timing_dirEntry (half : Bool) (n : Nat) : (c.dirEntry half n).1.timing = c.timing := by simp [Ctl.dirEntry]
@[simp] theorem timing_seqSwap (n e : Nat) (half : Bool) : (c.seqSwap n e half).timing = c.timing := by simp [Ctl.seqSwap]

@[simp] theorem timing_swapNow (g : Nat) : (c.swapNow g).timing = c.timing := by
  simp only [Ctl.swapNow]
  split <;> simp

@[simp] theorem timing_swapGo (g : Nat) (half : Bool) : (c.swapGo g half).timing = c.timing := by simp [Ctl.swapGo]
@[simp] theorem timing_swapCancel (g : Nat) : (c.swapCancel g).timing = c.timing := by simp [Ctl.swapCancel]

@[simp] theorem timing_swapSettle (x : Nat) : (c.swapSettle x).timing = c.timing := by
  rw [Ctl.swapSettle, timing_ite, timing_forAll, ite_self]
  intro g d
  split <;> simp

end Sys2Proof.Machine

end

section
/-! Frames: scheduled accesses and arbitration (R94, R95, R235 to R245). -/

namespace Sys2Proof.Machine

variable (c : Ctl)

@[simp] theorem timing_cvFill (n : Nat) (write : Bool) (lane cause gi bc sceneNo off : Nat) :
    (c.cvFill n write lane cause gi bc sceneNo off).timing = c.timing := by
  simp [Ctl.cvFill]

@[simp] theorem timing_cueViolation (n : Nat) (write : Bool) (lane cause gi bc sceneNo off : Nat) :
    (c.cueViolation n write lane cause gi bc sceneNo off).timing = c.timing := by
  simp only [Ctl.cueViolation]
  split <;> simp

@[simp] theorem timing_cvFurther (n lane cause gi bc sceneNo off : Nat) : (c.cvFurther n lane cause gi bc sceneNo off).timing = c.timing := by
  simp [Ctl.cvFurther]

@[simp] theorem timing_countRead (n : Nat) (x : Cause) : (c.countRead n x).timing = c.timing := by simp [Ctl.countRead]
@[simp] theorem timing_putRead (n : Nat) (r : RAccess) : (c.putRead n r).timing = c.timing := by simp [Ctl.putRead]

@[simp] theorem timing_readJudge (n : Nat) (r r' : RAccess) : (c.readJudge n r r').timing = c.timing := by
  simp only [Ctl.readJudge]
  split
  · simp
  · split <;> simp

@[simp] theorem timing_forwardsOf (upto e n : Nat) : (c.forwardsOf upto e n).timing = c.timing := by simp [Ctl.forwardsOf]
@[simp] theorem timing_forwardsEnd : c.forwardsEnd.timing = c.timing := by simp [Ctl.forwardsEnd]
@[simp] theorem timing_suppressedAfter (b : Tab Granule) : (c.suppressedAfter b).timing = c.timing := by simp [Ctl.suppressedAfter]
@[simp] theorem timing_useBank (pb : Nat) : (c.useBank pb).timing = c.timing := by simp [Ctl.useBank]
@[simp] theorem timing_waited (q r : Nat) : (c.waited q r).timing = c.timing := by simp [Ctl.waited]
@[simp] theorem timing_countGrant (r : Nat) : (c.countGrant r).timing = c.timing := by simp [Ctl.countGrant]
@[simp] theorem timing_waitLosers (q : Nat) (rs : List AReq) (win : Option AReq) : (c.waitLosers q rs win).timing = c.timing := by simp [Ctl.waitLosers]
@[simp] theorem timing_runDown (q pb : Nat) (rs : List AReq) : (c.runDown q pb rs).timing = c.timing := by simp [Ctl.runDown]

@[simp] theorem timing_backOff (q pb cls : Nat) (rs : List AReq) (win : AReq) (step : Nat) : (c.backOff q pb cls rs win step).timing = c.timing := by
  simp [Ctl.backOff]

@[simp] theorem timing_grantTo (q pb cls : Nat) (w : AReq) (step : Nat) : (c.grantTo q pb cls w step).timing = c.timing := by simp [Ctl.grantTo]

@[simp] theorem timing_account (q pb cls : Nat) (rs : List AReq) (d : SlotWin) : (c.account q pb cls rs d).timing = c.timing := by
  simp only [Ctl.account]
  split <;> split <;> simp

@[simp] theorem timing_waitsEnd (q : Nat) : (c.waitsEnd q).timing = c.timing := by simp [Ctl.waitsEnd]
@[simp] theorem timing_grantsEnd (q : Nat) : (c.grantsEnd q).timing = c.timing := by simp [Ctl.grantsEnd]
@[simp] theorem timing_arbsEnd : c.arbsEnd.timing = c.timing := by simp [Ctl.arbsEnd]
@[simp] theorem timing_request (a : AReq) : (c.request a).timing = c.timing := by simp [Ctl.request]

@[simp] theorem timing_withdrawWin (a : AReq) : (c.withdrawWin a).timing = c.timing := by
  simp only [Ctl.withdrawWin]
  split <;> simp

@[simp] theorem timing_withdraw (p : AReq → Bool) : (c.withdraw p).timing = c.timing := by simp [Ctl.withdraw]

end Sys2Proof.Machine

end

section
/-! Frames: stream contexts (R181 to R206). -/

namespace Sys2Proof.Machine

variable (c : Ctl)

@[simp] theorem timing_setCx (x : Nat) (f : FieldPos) (v : Nat) : (c.setCx x f v).timing = c.timing := by simp [Ctl.setCx]
@[simp] theorem timing_cmdResult (x cmd r : Nat) : (c.cmdResult x cmd r).timing = c.timing := by simp [Ctl.cmdResult]
@[simp] theorem timing_dlLeave (x : Nat) : (c.dlLeave x).timing = c.timing := by simp [Ctl.dlLeave]
@[simp] theorem timing_unreserve (x n : Nat) : (c.unreserve x n).timing = c.timing := by simp [Ctl.unreserve]
@[simp] theorem timing_purge (x : Nat) : (c.purge x).timing = c.timing := by simp [Ctl.purge]
@[simp] theorem timing_drainOne (x : Nat) (goal : DrainTo) (pos : Nat) : (c.drainOne x goal pos).timing = c.timing := by simp [Ctl.drainOne]
@[simp] theorem timing_osetVoid (k st : Nat) : (c.osetVoid k st).timing = c.timing := by simp [Ctl.osetVoid]
@[simp] theorem timing_ctxDrain (x : Nat) (goal : DrainTo) (pos : Nat) : (c.ctxDrain x goal pos).timing = c.timing := by simp [Ctl.ctxDrain]
@[simp] theorem timing_ctxHalt (x st pos : Nat) : (c.ctxHalt x st pos).timing = c.timing := by simp [Ctl.ctxHalt]
@[simp] theorem timing_ctxWriteWord (x w : Nat) (be : BitVec 2) (data : Word) : (c.ctxWriteWord x w be data).timing = c.timing := by simp [Ctl.ctxWriteWord]
@[simp] theorem timing_cmdShow (x cmd r : Nat) : (c.cmdShow x cmd r).timing = c.timing := by simp [Ctl.cmdShow]
@[simp] theorem timing_ctxArm (x : Nat) : (c.ctxArm x).timing = c.timing := by simp [Ctl.ctxArm]
@[simp] theorem timing_ctxDisarm (x : Nat) : (c.ctxDisarm x).timing = c.timing := by simp [Ctl.ctxDisarm]
@[simp] theorem timing_ctxCancel (x : Nat) : (c.ctxCancel x).timing = c.timing := by simp [Ctl.ctxCancel]
@[simp] theorem timing_ctxClear (x : Nat) : (c.ctxClear x).timing = c.timing := by simp [Ctl.ctxClear]

@[simp] theorem timing_ctxSettle (x e : Nat) : (c.ctxSettle x e).timing = c.timing := by
  simp only [Ctl.ctxSettle]
  cases (c.ctx x).disarmAt <;> cases (c.ctx x).cancelAt <;> simp

@[simp] theorem timing_ctxsSettle (e : Nat) : (c.ctxsSettle e).timing = c.timing := by simp [Ctl.ctxsSettle]
@[simp] theorem timing_ctxsKill (g : Nat) : (c.ctxsKill g).timing = c.timing := by simp [Ctl.ctxsKill]

end Sys2Proof.Machine

end

section
/-! Frames: system requests and stream traffic (R50 to R59, R187 to R194, R286). -/

namespace Sys2Proof.Machine

variable (c : Ctl)

@[simp] theorem timing_setHash (k : Nat) (h : Option HashRun) : (c.setHash k h).timing = c.timing := by simp [Ctl.setHash]
@[simp] theorem timing_setSave (r : Option SaveRun) : (c.setSave r).timing = c.timing := by simp [Ctl.setSave]
@[simp] theorem timing_setRest (r : Option RestRun) : (c.setRest r).timing = c.timing := by simp [Ctl.setRest]

@[simp] theorem timing_onOwner (s : SysReq) (h : HashRun → HashRun) (v : SaveRun → SaveRun) (r : RestRun → RestRun) :
    (c.onOwner s h v r).timing = c.timing := by
  simp only [Ctl.onOwner]
  split <;> simp

@[simp] theorem timing_sysFail (s : SysReq) : (c.sysFail s).timing = c.timing := by simp [Ctl.sysFail]
@[simp] theorem timing_sysDead (s : SysReq) : (c.sysDead s).timing = c.timing := by simp [Ctl.sysDead]

@[simp] theorem timing_imgPresent (n i : Nat) (r : RestRun) (g : Granule) (err : Bool) : (c.imgPresent n i r g err).timing = c.timing := by
  simp [Ctl.imgPresent]

@[simp] theorem timing_freeCheck (n : Nat) (rep : Bool) (g : Granule) : (c.freeCheck n rep g).timing = c.timing := by simp [Ctl.freeCheck]
@[simp] theorem timing_frontCheck (r : RestRun) (l : List Nat) (rep : Nat → Bool) : (c.frontCheck r l rep).timing = c.timing := by simp [Ctl.frontCheck]

@[simp] theorem timing_restArrive (n i : Nat) (g : Granule) (err : Bool) : (c.restArrive n i g err).timing = c.timing := by
  simp only [Ctl.restArrive]
  split <;> simp

@[simp] theorem timing_tagEnds (n : Nat) (t : StackTag) : (c.tagEnds n t).timing = c.timing := by simp [Ctl.tagEnds]

@[simp] theorem timing_requestWithdraw (n : Nat) (t : StackTag) : (c.requestWithdraw n t).timing = c.timing := by
  simp only [Ctl.requestWithdraw]
  split <;> simp

@[simp] theorem timing_tagOut (n : Nat) (t : StackTag) : (c.tagOut n t).timing = c.timing := by
  simp only [Ctl.tagOut]
  split <;> simp

@[simp] theorem timing_sportsBc : c.sportsBc.timing = c.timing := by
  rw [Ctl.sportsBc, timing_forAll, timing_forAll]
  · exact fun n d => timing_setSout d n _
  · intro n d
    dsimp only
    split
    · simp
    · rfl

@[simp] theorem timing_sportRemove (n : Nat) : (c.sportRemove n).timing = c.timing := by
  simp only [Ctl.sportRemove]
  split
  · rfl
  · split <;> simp

end Sys2Proof.Machine

end

section
/-! Frames: windows and the journal (R213 to R217, R228). -/

namespace Sys2Proof.Machine

variable (c : Ctl)

@[simp] theorem timing_winResult (r : Nat) : (c.winResult r).timing = c.timing := by simp [Ctl.winResult]
@[simp] theorem timing_setTrack (w rank : Nat) (t : Track) : (c.setTrack w rank t).timing = c.timing := by simp [Ctl.setTrack]
@[simp] theorem timing_putEntry (j : JEntry) : (c.putEntry j).timing = c.timing := by simp [Ctl.putEntry]
@[simp] theorem timing_dropTracks (w : Nat) : (c.dropTracks w).timing = c.timing := by simp [Ctl.dropTracks]
@[simp] theorem timing_winOpen (w : Nat) : (c.winOpen w).timing = c.timing := by simp [Ctl.winOpen]
@[simp] theorem timing_dropHeld (w : Nat) : (c.dropHeld w).timing = c.timing := by simp [Ctl.dropHeld]
@[simp] theorem timing_voidEntries (w : Nat) (p : JEntry → Bool) : (c.voidEntries w p).timing = c.timing := by simp [Ctl.voidEntries]
@[simp] theorem timing_winClosing (w : Nat) : (c.winClosing w).timing = c.timing := by simp [Ctl.winClosing]
@[simp] theorem timing_winClose (w : Nat) : (c.winClose w).timing = c.timing := by simp [Ctl.winClose]
@[simp] theorem timing_winKill (w : Nat) : (c.winKill w).timing = c.timing := by simp [Ctl.winKill]
@[simp] theorem timing_winsKill (g : Nat) : (c.winsKill g).timing = c.timing := by simp [Ctl.winsKill]
@[simp] theorem timing_winWrite (w word : Nat) (be : BitVec 2) (data : Word) : (c.winWrite w word be data).timing = c.timing := by simp [Ctl.winWrite]

@[simp] theorem timing_landNext (w rank : Nat) : (c.landNext w rank).timing = c.timing := by
  simp only [Ctl.landNext]
  split <;> simp

@[simp] theorem timing_landAll : c.landAll.timing = c.timing := by simp [Ctl.landAll]
@[simp] theorem timing_reordKind (h kind : Nat) : (c.reordKind h kind).timing = c.timing := by simp [Ctl.reordKind]
@[simp] theorem timing_refuseData (port h kind : Nat) : (c.refuseData port h kind).timing = c.timing := by simp [Ctl.refuseData]

@[simp] theorem timing_checkPayload (port w off i : Nat) (l : List Granule) : (c.checkPayload port w off i l).1.timing = c.timing := by
  induction l generalizing c i with
  | nil => rfl
  | cons g l ih => simp [Ctl.checkPayload, ih]

@[simp] theorem timing_countAccepted (w : Nat) : (c.countAccepted w).timing = c.timing := by simp [Ctl.countAccepted]
@[simp] theorem timing_acceptNormal (port h x : Nat) (data : List Granule) : (c.acceptNormal port h x data).timing = c.timing := by simp [Ctl.acceptNormal]
@[simp] theorem timing_acceptOrdered (port h x : Nat) (data : List Granule) : (c.acceptOrdered port h x data).timing = c.timing := by simp [Ctl.acceptOrdered]

end Sys2Proof.Machine

end

section
/-! Frames: regions, owners, the scrubber and understudies (R20 to R28, R254 to R273). -/

namespace Sys2Proof.Machine

variable (c : Ctl)

@[simp] theorem timing_fillBank (q cl built b : Nat) : (c.fillBank q cl built b).1.timing = c.timing := by simp [Ctl.fillBank]
@[simp] theorem timing_fillCluster (q cl built : Nat) : (c.fillCluster q cl built).1.timing = c.timing := by simp [Ctl.fillCluster]
@[simp] theorem timing_setFill (pb : Nat) (f : Option BankFill) : (c.setFill pb f).timing = c.timing := by simp [Ctl.setFill]
@[simp] theorem timing_fillsBegin (pbs : List Nat) (strike : Bool) : (c.fillsBegin pbs strike).timing = c.timing := by simp [Ctl.fillsBegin]
@[simp] theorem timing_regionResult (op region st : Nat) (noReg : Bool) : (c.regionResult op region st noReg).timing = c.timing := by simp [Ctl.regionResult]
@[simp] theorem timing_regionWrite (n : Nat) (be : BitVec 2) (data : Word) : (c.regionWrite n be data).timing = c.timing := by simp [Ctl.regionWrite]

@[simp] theorem timing_bankOwnWrite (k : Nat) (be : BitVec 2) (data : Word) : (c.bankOwnWrite k be data).timing = c.timing := by
  simp only [Ctl.bankOwnWrite]
  split
  · rfl
  · split
    · simp
    · split <;> simp

@[simp] theorem timing_handoverWrite (be : BitVec 2) (data : Word) : (c.handoverWrite be data).timing = c.timing := by
  simp only [Ctl.handoverWrite]
  split
  · rfl
  · split <;> split <;> exact timing_regionResult c 2 _ _ _

@[simp] theorem timing_handoverEnd : c.handoverEnd.timing = c.timing := by simp [Ctl.handoverEnd]
@[simp] theorem timing_killsHandover : c.killsHandover.timing = c.timing := by simp [Ctl.killsHandover]

@[simp] theorem timing_serviceTry (q cl b r : Nat) : (c.serviceTry q cl b r).1.timing = c.timing := by
  simp only [Ctl.serviceTry]
  split
  · rfl
  · split
    · simp
    · split <;> simp

@[simp] theorem timing_fillRow (pb : Nat) (f : BankFill) : (c.fillRow pb f).1.timing = c.timing := by simp [Ctl.fillRow]

@[simp] theorem timing_fillStep (pb : Nat) : (c.fillStep pb).1.timing = c.timing := by
  simp only [Ctl.fillStep]
  split <;> simp

@[simp] theorem timing_fillsStep : c.fillsStep.1.timing = c.timing := by simp [Ctl.fillsStep]

@[simp] theorem timing_debugStep (b : Tab Granule) (q : Nat) : (Ctl.debugStep b q c).timing = c.timing := by
  simp only [Ctl.debugStep]
  split <;> simp

@[simp] theorem timing_usResult (q r : Nat) : (c.usResult q r).timing = c.timing := by simp [Ctl.usResult]
@[simp] theorem timing_repairNote : c.repairNote.timing = c.timing := by simp [Ctl.repairNote]
@[simp] theorem timing_dropWb (q built : Nat) : (c.dropWb q built).timing = c.timing := by simp [Ctl.dropWb]
@[simp] theorem timing_fenceCluster (q cl : Nat) : (c.fenceCluster q cl).timing = c.timing := by simp [Ctl.fenceCluster]
@[simp] theorem timing_migrateCmd (q cl : Nat) : (c.migrateCmd q cl).timing = c.timing := by simp [Ctl.migrateCmd]
@[simp] theorem timing_replaceBegin (q cl how : Nat) : (c.replaceBegin q cl how).timing = c.timing := by simp [Ctl.replaceBegin]
@[simp] theorem timing_replaceCmd (q cl : Nat) : (c.replaceCmd q cl).timing = c.timing := by simp [Ctl.replaceCmd]

@[simp] theorem timing_replaceSwitch (q : Nat) : (c.replaceSwitch q).timing = c.timing := by
  simp only [Ctl.replaceSwitch]
  split <;> simp

@[simp] theorem timing_repairCluster (q cl how : Nat) : (c.repairCluster q cl how).timing = c.timing := by simp [Ctl.repairCluster]
@[simp] theorem timing_marchStart (q cl : Nat) (us alg transp : Bool) : (c.marchStart q cl us alg transp).timing = c.timing := by simp [Ctl.marchStart]

end Sys2Proof.Machine

end

section
/-! Frames: send descriptors and the links (R207 to R225). -/

namespace Sys2Proof.Machine

variable (c : Ctl)

@[simp] theorem timing_setSd (e : Nat) (f : FieldPos) (v : Nat) : (c.setSd e f v).timing = c.timing := by simp [Ctl.setSd]
@[simp] theorem timing_sdRead (e : Nat) : (c.sdRead e).timing = c.timing := by simp [Ctl.sdRead]
@[simp] theorem timing_sdArm (e : Nat) : (c.sdArm e).timing = c.timing := by simp [Ctl.sdArm]
@[simp] theorem timing_sdDisarm (e : Nat) : (c.sdDisarm e).timing = c.timing := by simp [Ctl.sdDisarm]
@[simp] theorem timing_sdClear (e : Nat) : (c.sdClear e).timing = c.timing := by simp [Ctl.sdClear]

@[simp] theorem timing_sendsSettle (x : Nat) : (c.sendsSettle x).timing = c.timing := by
  rw [Ctl.sendsSettle, timing_ite, timing_forAll, ite_self]
  intro e d
  split <;> simp

@[simp] theorem timing_sdDone (e x : Nat) : (c.sdDone e x).timing = c.timing := by simp [Ctl.sdDone]
@[simp] theorem timing_sdCount (e n x : Nat) : (c.sdCount e n x).timing = c.timing := by simp [Ctl.sdCount]
@[simp] theorem timing_sdHalt (e st : Nat) : (c.sdHalt e st).timing = c.timing := by simp [Ctl.sdHalt]
@[simp] theorem timing_sendsKill (g : Nat) : (c.sendsKill g).timing = c.timing := by simp [Ctl.sendsKill]

@[simp] theorem timing_linkEc (n x : Nat) : (c.linkEc n x).timing = c.timing := by
  simp only [Ctl.linkEc]
  generalize (if c.clamped = true ∨ c.power.slice = true ∧ c.power.sliceEnd ≤ x then _ else _ : LinkPort) = p
  split
  · simp
  · split
    · split <;> simp
    · simp

@[simp] theorem timing_linksEc (x : Nat) : (c.linksEc x).timing = c.timing := by simp [Ctl.linksEc]

@[simp] theorem timing_linkDown (n : Nat) : (c.linkDown n).timing = c.timing := by
  simp only [Ctl.linkDown]
  split
  · rfl
  · rw [timing_ite, timing_foldl]
    · simp
    · intro d t
      split <;> simp

@[simp] theorem timing_ackTake (port h : Nat) : (c.ackTake port h).timing = c.timing := by
  simp only [Ctl.ackTake]
  split
  · rfl
  · split <;> simp

@[simp] theorem timing_ackPacket (port h : Nat) : (c.ackPacket port h).timing = c.timing := by simp [Ctl.ackPacket]

end Sys2Proof.Machine

end

section
/-! Frames: the twin and the arrival of packets (R226 to R231). -/

namespace Sys2Proof.Machine

variable (c : Ctl)

@[simp] theorem timing_twinSend (kind h : Nat) (payload : List Granule) : (c.twinSend kind h payload).timing = c.timing := by simp [Ctl.twinSend]
@[simp] theorem timing_jconfFor (h : Nat) (dup : Bool) : (c.jconfFor h dup).timing = c.timing := by simp [Ctl.jconfFor]
@[simp] theorem timing_enterPaired : c.enterPaired.timing = c.timing := by simp [Ctl.enterPaired]
@[simp] theorem timing_maybePaired : c.maybePaired.timing = c.timing := by simp [Ctl.maybePaired]
@[simp] theorem timing_lastCame (last : Bool) : (c.lastCame last).timing = c.timing := by simp [Ctl.lastCame]
@[simp] theorem timing_journalIn (port h x : Nat) (data : List Granule) : (c.journalIn port h x data).timing = c.timing := by simp [Ctl.journalIn]
@[simp] theorem timing_dataCheck (port h : Nat) : (c.dataCheck port h).1.timing = c.timing := by simp [Ctl.dataCheck]
@[simp] theorem timing_dataTake (port h x : Nat) (payload : List Granule) : (c.dataTake port h x payload).timing = c.timing := by simp [Ctl.dataTake]
@[simp] theorem timing_copyCheck (p : RxPkt) : (c.copyCheck p).1.timing = c.timing := by simp [Ctl.copyCheck]
@[simp] theorem timing_copyTake (p : RxPkt) (x : Nat) : (c.copyTake p x).timing = c.timing := by simp [Ctl.copyTake]
@[simp] theorem timing_rxCheck (port : Nat) (p : RxPkt) : (c.rxCheck port p).1.timing = c.timing := by simp [Ctl.rxCheck]
@[simp] theorem timing_rxTake (port : Nat) (p : RxPkt) (x : Nat) : (c.rxTake port p x).timing = c.timing := by simp [Ctl.rxTake]
@[simp] theorem timing_ctlTake (port h : Nat) : (c.ctlTake port h).timing = c.timing := by simp [Ctl.ctlTake]
@[simp] theorem timing_setInbox (port : Nat) (l : List RxPkt) : (c.setInbox port l).timing = c.timing := by simp [Ctl.setInbox]
@[simp] theorem timing_rxGone (port : Nat) (p : RxPkt) (t : List RxPkt) : (c.rxGone port p t).timing = c.timing := by simp [Ctl.rxGone]

@[simp] theorem timing_rxRun (port fuel : Nat) : (Ctl.rxRun port fuel c).timing = c.timing := by
  induction fuel generalizing c with
  | zero => rfl
  | succ fuel ih =>
    rw [Ctl.rxRun]
    split
    · rfl
    · dsimp only
      split
      · simp
      · split
        · simp only [timing_ite]
          split <;> simp [ih]
        · split
          · simp [ih]
          · split <;> simp [ih]

@[simp] theorem timing_rxDrain (port : Nat) : (c.rxDrain port).timing = c.timing := by simp [Ctl.rxDrain]
@[simp] theorem timing_rxAll : c.rxAll.timing = c.timing := by simp [Ctl.rxAll]

@[simp] theorem timing_ckptBoth (id : BitVec 32) : (c.ckptBoth id).timing = c.timing := by
  simp only [Ctl.ckptBoth]
  split <;> simp

@[simp] theorem timing_ckptWrite (be : BitVec 2) (data : Word) : (c.ckptWrite be data).timing = c.timing := by simp [Ctl.ckptWrite]
@[simp] theorem timing_survivor : c.survivor.timing = c.timing := by simp [Ctl.survivor]
@[simp] theorem timing_twinEnter (mode : Nat) (resync : Bool) : (c.twinEnter mode resync).timing = c.timing := by simp [Ctl.twinEnter]
@[simp] theorem timing_twinCfgWrite (be : BitVec 2) (data : Word) : (c.twinCfgWrite be data).timing = c.timing := by simp [Ctl.twinCfgWrite]

end Sys2Proof.Machine

end

section
/-! Frames: intermissions and weight images (R277 to R287). -/

namespace Sys2Proof.Machine

variable (c : Ctl)

@[simp] theorem timing_setIntm (f : FieldPos) (v : Nat) : (c.setIntm f v).timing = c.timing := by simp [Ctl.setIntm]
@[simp] theorem timing_intmRefuse (r : Nat) : (c.intmRefuse r).timing = c.timing := by simp [Ctl.intmRefuse]
@[simp] theorem timing_intmHold (m : Nat) (h : Bool) : (c.intmHold m h).timing = c.timing := by simp [Ctl.intmHold]
@[simp] theorem timing_sendsReread : c.sendsReread.timing = c.timing := by simp [Ctl.sendsReread]
@[simp] theorem timing_intmEnd : c.intmEnd.timing = c.timing := by simp [Ctl.intmEnd]
@[simp] theorem timing_intmHoldAsleep : c.intmHoldAsleep.timing = c.timing := by simp [Ctl.intmHoldAsleep]
@[simp] theorem timing_intmAdvance : c.intmAdvance.timing = c.timing := by simp [Ctl.intmAdvance]
@[simp] theorem timing_intmSave (atEn : Bool) (atScene : BitVec 32) : (c.intmSave atEn atScene).timing = c.timing := by simp [Ctl.intmSave]
@[simp] theorem timing_seqFromImg (n v : Nat) (ra : List Granule) : (c.seqFromImg n v ra).timing = c.timing := by simp [Ctl.seqFromImg]
@[simp] theorem timing_curFromImg (k v : Nat) : (c.curFromImg k v).timing = c.timing := by simp [Ctl.curFromImg]
@[simp] theorem timing_restoreRegs (img : List Granule) (i off n : Nat) : (c.restoreRegs img i off n).timing = c.timing := by simp [Ctl.restoreRegs]
@[simp] theorem timing_restoreOwners (img : List Granule) : (c.restoreOwners img).timing = c.timing := by simp [Ctl.restoreOwners]
@[simp] theorem timing_winFromImg (w v : Nat) : (c.winFromImg w v).timing = c.timing := by simp [Ctl.winFromImg]
@[simp] theorem timing_sendFromImg (img : List Granule) (e i : Nat) : (c.sendFromImg img e i).timing = c.timing := by simp [Ctl.sendFromImg]
@[simp] theorem timing_restoreState (sheets : Bool) (img : List Granule) : (c.restoreState sheets img).timing = c.timing := by simp [Ctl.restoreState]
@[simp] theorem timing_restoreBack (r : RestRun) (res : Nat) : (c.restoreBack r res).timing = c.timing := by simp [Ctl.restoreBack]
@[simp] theorem timing_intmRestore (sheets : Bool) : (c.intmRestore sheets).timing = c.timing := by simp [Ctl.intmRestore]
@[simp] theorem timing_restoreTail (l : Tab (Granule × Bool)) : (c.restoreTail l).timing = c.timing := by simp [Ctl.restoreTail]
@[simp] theorem timing_restoreFront (r : RestRun) (n : Nat) : (c.restoreFront r n).timing = c.timing := by simp [Ctl.restoreFront]

@[simp] theorem timing_restoreOn : c.restoreOn.timing = c.timing := by
  simp only [Ctl.restoreOn]
  split
  · rfl
  · split
    · rfl
    · split
      · simp
      · split <;> simp

@[simp] theorem timing_intmResume : c.intmResume.timing = c.timing := by simp [Ctl.intmResume]
@[simp] theorem timing_wimgResult (r : Nat) : (c.wimgResult r).timing = c.timing := by simp [Ctl.wimgResult]
@[simp] theorem timing_wimgOpen (k : Nat) : (c.wimgOpen k).timing = c.timing := by simp [Ctl.wimgOpen]
@[simp] theorem timing_wimgSeal (k : Nat) : (c.wimgSeal k).timing = c.timing := by simp [Ctl.wimgSeal]
@[simp] theorem timing_wimgRelease (k : Nat) : (c.wimgRelease k).timing = c.timing := by simp [Ctl.wimgRelease]

end Sys2Proof.Machine

end

section
/-! Frames: the time counter, faults and kill (R296 to R321, R374). -/

namespace Sys2Proof.Machine

variable (c : Ctl)

@[simp] theorem timing_timeTick : c.timeTick.timing = c.timing := by simp [Ctl.timeTick]
@[simp] theorem timing_setTimeState (st : Nat) : (c.setTimeState st).timing = c.timing := by simp [Ctl.setTimeState]
@[simp] theorem timing_timePend (p : Option (BitVec 48)) : (c.timePend p).timing = c.timing := by simp [Ctl.timePend]
@[simp] theorem timing_timeApply (sec ns frac : Nat) : (c.timeApply sec ns frac).timing = c.timing := by simp [Ctl.timeApply]
@[simp] theorem timing_timeSet (sec : BitVec 48) (atPps : Bool) : (c.timeSet sec atPps).timing = c.timing := by simp [Ctl.timeSet]
@[simp] theorem timing_timeRead : c.timeRead.1.timing = c.timing := by simp [Ctl.timeRead]
@[simp] theorem timing_tableauReq : c.tableauReq.timing = c.timing := by simp [Ctl.tableauReq]
@[simp] theorem timing_lineSample (src pair rails unit : Nat) : (c.lineSample src pair rails unit).timing = c.timing := by simp [Ctl.lineSample]
@[simp] theorem timing_freeLater (pb : Nat) : (c.freeLater pb).timing = c.timing := by simp [Ctl.freeLater]
@[simp] theorem timing_kill (g : Nat) : (c.kill g).timing = c.timing := by simp [Ctl.kill]
@[simp] theorem timing_linkRemove (n : Nat) : (c.linkRemove n).timing = c.timing := by simp [Ctl.linkRemove]
@[simp] theorem timing_twinRemove : c.twinRemove.timing = c.timing := by simp only [Ctl.twinRemove, timing_setLink, timing_setFld, timing_twinEnter]
@[simp] theorem timing_seqRemove (n : Nat) : (c.seqRemove n).timing = c.timing := by simp [Ctl.seqRemove]
@[simp] theorem timing_hitInFlight : c.hitInFlight.1.timing = c.timing := by simp [Ctl.hitInFlight]
@[simp] theorem timing_readTurns (n q : Nat) (r : RAccess) : (c.readTurns n q r).1.timing = c.timing := by simp [Ctl.readTurns]
@[simp] theorem timing_writeTurns (n q : Nat) (a : WAccess) : (c.writeTurns n q a).1.timing = c.timing := by simp [Ctl.writeTurns]
@[simp] theorem timing_gatherTurns (q : Nat) (via : Nat → Option Nat) (g : Gather) : (c.gatherTurns q via g).1.timing = c.timing := by simp [Ctl.gatherTurns]

@[simp] theorem timing_fetchesTurn (q n : Nat) : (c.fetchesTurn q n).timing = c.timing := by
  simp only [Ctl.fetchesTurn]
  split <;> simp

@[simp] theorem timing_routesTurn (q n : Nat) : (c.routesTurn q n).timing = c.timing := by simp [Ctl.routesTurn]
@[simp] theorem timing_quadFence (q : Nat) : (c.quadFence q).timing = c.timing := by simp [Ctl.quadFence]
@[simp] theorem timing_fenceReaction (src unit : Nat) : (c.fenceReaction src unit).1.timing = c.timing := by simp [Ctl.fenceReaction]
@[simp] theorem timing_reacted (o : FaultOrder) : (c.reacted o).timing = c.timing := by simp [Ctl.reacted]
@[simp] theorem timing_enterSafe : c.enterSafe.timing = c.timing := by simp [Ctl.enterSafe]

@[simp] theorem timing_faultReaction : c.faultReaction.timing = c.timing := by
  simp only [Ctl.faultReaction]
  split <;> simp

@[simp] theorem timing_faultsLate : c.faultsLate.timing = c.timing := by
  simp only [Ctl.faultsLate]
  split <;> simp

@[simp] theorem timing_aliveStop (k : Nat) : (c.aliveStop k).timing = c.timing := by simp [Ctl.aliveStop]
@[simp] theorem timing_aliveToggle : c.aliveToggle.timing = c.timing := by simp [Ctl.aliveToggle]
@[simp] theorem timing_fltCfgWrite {f : Ctl → Ctl} (h : ∀ d, (f d).timing = d.timing) : (c.fltCfgWrite f).timing = c.timing := by simp [Ctl.fltCfgWrite, h]
@[simp] theorem timing_smKick : c.smKick.timing = c.timing := by simp [Ctl.smKick]

@[simp] theorem timing_injLineWrite (be : BitVec 2) (data : Word) : (c.injLineWrite be data).timing = c.timing := by
  simp only [Ctl.injLineWrite, timing_ite, timing_mk, timingOf_self, timing_setFld, ite_self]

@[simp] theorem timing_injTick : c.injTick.timing = c.timing := by
  simp only [Ctl.injTick]
  split <;> simp

@[simp] theorem timing_lockSet : c.lockSet.timing = c.timing := by simp [Ctl.lockSet]

end Sys2Proof.Machine

end

section
/-! Frames: power, firmware and the mailbox (R322 to R341, R347 to R365). -/

namespace Sys2Proof.Machine

variable (c : Ctl)

@[simp] theorem timing_setPw (f : FieldPos) (v : Nat) : (c.setPw f v).timing = c.timing := by simp [Ctl.setPw]

@[simp] theorem timing_setPower {f : Power → Power} (hm : (f c.power).mode = c.power.mode) (ha : (f c.power).asleep = c.power.asleep) :
    (c.setPower f).timing = c.timing := by
  simp only [Ctl.timing, timingOf, Ctl.setPower, hm, ha]

@[simp] theorem timing_request_ (op : Nat) (st : OpStep) : (c.request_ op st).timing = c.timing := by simp [Ctl.request_]
@[simp] theorem timing_opBegin (op : Nat) : (c.opBegin op).timing = c.timing := by simp [Ctl.opBegin]
@[simp] theorem timing_opWrite (op : Nat) : (c.opWrite op).timing = c.timing := by simp [Ctl.opWrite]
@[simp] theorem timing_raisePower : c.raisePower.timing = c.timing := by simp [Ctl.raisePower]
@[simp] theorem timing_markSuspended : c.markSuspended.timing = c.timing := by simp [Ctl.markSuspended]
@[simp] theorem timing_setPm (f : FieldPos) (v : Nat) : (c.setPm f v).timing = c.timing := by simp [Ctl.setPm]

@[simp] theorem timing_wakeFill : c.wakeFill.1.timing = c.timing := by
  refine timing_foldl_fst (fun x q => ?_) _ (c, [])
  dsimp only
  split <;> exact timing_foldl_fst (fun y cl => by simp) _ x

@[simp] theorem timing_clampRel : c.clampRel.timing = c.timing := by simp [Ctl.clampRel]

@[simp] theorem timing_clampsEnd : c.clampsEnd.timing = c.timing := by
  simp only [Ctl.clampsEnd]
  split <;> simp

@[simp] theorem timing_scrubsAnew : c.scrubsAnew.timing = c.timing := by simp [Ctl.scrubsAnew]
@[simp] theorem timing_setNvm (f : Tab Byte → Tab Byte) : (c.setNvm f).timing = c.timing := by simp [Ctl.setNvm]
@[simp] theorem timing_setBoot (f : Boot → Boot) : (c.setBoot f).timing = c.timing := by simp [Ctl.setBoot]
@[simp] theorem timing_setFw (f : FieldPos) (v : Nat) : (c.setFw f v).timing = c.timing := by simp [Ctl.setFw]
@[simp] theorem timing_fwResult (r : Nat) : (c.fwResult r).timing = c.timing := by simp [Ctl.fwResult]
@[simp] theorem timing_runImage (h plain : List Byte) : (c.runImage h plain).timing = c.timing := by simp [Ctl.runImage]
@[simp] theorem timing_activate : c.activate.timing = c.timing := by simp [Ctl.activate]
@[simp] theorem timing_mbSend : c.mbSend.timing = c.timing := by simp [Ctl.mbSend]
@[simp] theorem timing_mbAck : c.mbAck.timing = c.timing := by simp [Ctl.mbAck]
@[simp] theorem timing_mbWrite (k : Nat) (v : Word) : (c.mbWrite k v).timing = c.timing := by simp [Ctl.mbWrite]

end Sys2Proof.Machine

end

section
/-! Frames: the register map (R64, R366 to R374). -/

namespace Sys2Proof.Machine

variable (c : Ctl)

@[simp] theorem timing_afterRead (off : Nat) : (c.afterRead off).timing = c.timing := by simp [Ctl.afterRead]
@[simp] theorem timing_decErr (off : Nat) : (c.decErr off).timing = c.timing := by simp [Ctl.decErr]

@[simp] theorem timing_readReq (off : Nat) (be : BitVec 2) : (c.readReq off be).1.timing = c.timing := by
  simp only [Ctl.readReq]
  split
  · rfl
  · split <;> simp

@[simp] theorem timing_defer (k : RegKind) (off : Nat) (v : Word) : (c.defer k off v).timing = c.timing := by simp [Ctl.defer]

@[simp] theorem timing_plainWrite (a : RegAt) (off : Nat) (be : BitVec 2) (data : Word) : (c.plainWrite a off be data).timing = c.timing := by
  simp [Ctl.plainWrite]

@[simp] theorem timing_seqWrite (a : RegAt) (off : Nat) (be : BitVec 2) (data : Word) : (c.seqWrite a off be data).timing = c.timing := by simp [Ctl.seqWrite]
@[simp] theorem timing_csWrite (i : Nat) (be : BitVec 2) (data : Word) : (c.csWrite i be data).timing = c.timing := by simp [Ctl.csWrite]

@[simp] theorem timing_strCmd (v : Nat) : (c.strCmd v).timing = c.timing := by
  simp only [Ctl.strCmd]
  split <;> simp

@[simp] theorem timing_winCmd (v : Nat) : (c.winCmd v).timing = c.timing := by
  simp only [Ctl.winCmd]
  split <;> simp

@[simp] theorem timing_usCmd (v : Nat) : (c.usCmd v).timing = c.timing := by
  simp only [Ctl.usCmd]
  split <;> simp

@[simp] theorem timing_intmCmd (be : BitVec 2) (data : Word) : (c.intmCmd be data).timing = c.timing := by
  simp only [Ctl.intmCmd]
  split
  · rfl
  · split <;> simp

@[simp] theorem timing_wimgCmd (v : Nat) : (c.wimgCmd v).timing = c.timing := by
  simp only [Ctl.wimgCmd]
  split <;> simp

@[simp] theorem timing_timeSetWrite (be : BitVec 2) (data : Word) : (c.timeSetWrite be data).timing = c.timing := by simp [Ctl.timeSetWrite]
@[simp] theorem timing_pwrModeWrite (v : Nat) : (c.pwrModeWrite v).timing = c.timing := by simp [Ctl.pwrModeWrite]
@[simp] theorem timing_injWrite (a : RegAt) (off : Nat) (be : BitVec 2) (data : Word) : (c.injWrite a off be data).timing = c.timing := by simp [Ctl.injWrite]
@[simp] theorem timing_mbCtrlWrite (v : Nat) : (c.mbCtrlWrite v).timing = c.timing := by simp [Ctl.mbCtrlWrite]
@[simp] theorem timing_grpSwapWrite (g v : Nat) : (c.grpSwapWrite g v).timing = c.timing := by simp [Ctl.grpSwapWrite]
@[simp] theorem timing_lowHalf {f : Ctl → Ctl} (be : BitVec 2) (h : (f c).timing = c.timing) : (lowHalf c be f).timing = c.timing := by simp [lowHalf, h]

@[simp] theorem timing_regEffect (a : RegAt) (door : Bool) (off : Nat) (be : BitVec 2) (data : Word) :
    (c.regEffect a door off be data).timing = c.timing := by
  simp only [Ctl.regEffect]
  split <;> simp

@[simp] theorem timing_regWrite (a : RegAt) (door : Bool) (off : Nat) (be : BitVec 2) (data : Word) : (c.regWrite a door off be data).timing = c.timing := by
  simp [Ctl.regWrite]

@[simp] theorem timing_doorAgain : c.doorAgain.timing = c.timing := by
  refine timing_foldl (fun d e => ?_) _ c
  split <;> simp

end Sys2Proof.Machine

end

section
/-! Frames: the boundaries of ec, cc and frames (R12, R13). -/

namespace Sys2Proof.Machine

variable (c : Ctl)

@[simp] theorem timing_repairRewrite : c.repairRewrite.timing = c.timing := by simp [Ctl.repairRewrite]
@[simp] theorem timing_ccSettles (x : Nat) : (c.ccSettles x).timing = c.timing := by simp [Ctl.ccSettles]
@[simp] theorem timing_outsFall : c.outsFall.timing = c.timing := by simp [Ctl.outsFall]
@[simp] theorem timing_newEc : c.newEc.timing = c.timing := by simp [Ctl.newEc]
@[simp] theorem timing_newFrame : c.newFrame.timing = c.timing := by simp [Ctl.newFrame]

end Sys2Proof.Machine

end

section
/-! Half swaps of the cast groups (R101 to R103). -/

namespace Sys2Proof.Machine

variable {s : State} {c : Ctl} {g : Nat}

theorem exec_groupSwapGo (h : s.accepting) (hg : g < 32) (half : Bool) :
    exec (.groupSwapGo g half) s = .next (s.wrote (.groupSwapGo g half) (s.c.swapGo g half)) :=
  onUnit_ctlWrite (decide_eq_true hg) h (by decide) _ _

theorem exec_groupSwapCancel (h : s.accepting) (hg : g < 32) :
    exec (.groupSwapCancel g) s = .next (s.wrote (.groupSwapCancel g) (s.c.swapCancel g)) :=
  onUnit_ctlWrite (decide_eq_true hg) h (by decide) _ _

theorem exec_groupSwapEffect (h : s.accepting) (hg : g < 32) : exec (.groupSwapEffect g) s = .next (s.units (s.c.swapEffect g)) :=
  onUnit_next (decide_eq_true hg) h.1.1.2 _

theorem wrote_group (s : State) (i : Instr) (c : Ctl) (g : Nat) : (s.wrote i c).c.group g = c.group g := by
  obtain ⟨nn, h⟩ := wrote_eq s i c
  rw [h, Ctl.group, Ctl.group]

theorem wrote_banks (s : State) (i : Instr) (c : Ctl) : (s.wrote i c).banks = s.banks := by
  obtain ⟨nn, h⟩ := wrote_eq s i c
  rw [h]

theorem units_pending (s : State) (c : Ctl) : (s.units c).pending = s.pending := rfl

theorem seq_setGroup (c : Ctl) (g : Nat) (x : Group) (n : Nat) : (c.setGroup g x).seq n = c.seq n := rfl

/-! ### The registers of a swap -/

/-- A field of MIO_GRP_SWAP_g lies in no register of a sequencer. -/
theorem members_setGrpSwap (c : Ctl) (hg : g < 32) {f : FieldPos} (hf : f.word = 0) (x g' : Nat) : (c.setFld (oGrpSwap g) f x).members g' = c.members g' := by
  have hseq : ∀ n, (c.setFld (oGrpSwap g) f x).groupOf n = c.groupOf n := fun n => by
    rw [Ctl.groupOf, Ctl.fld, Ctl.reg_setFld_ne _ _ (by simp only [oSeqCfg, oGrpSwap, hf]; omega), ← Ctl.fld, Ctl.groupOf]
  simp only [Ctl.members, hseq]

/-! ### Sequencers that move to the target half (R101, R102) -/

/-- The sequencer has moved to a half: it awaits its head there, or has trapped there. -/
def Seq.swapped (half : Bool) (q : Seq) : Prop := (q.state = .waiting ∨ q.state = .trapped) ∧ q.half = half

theorem swapped_trapped {half : Bool} {q : Seq} (h : q.half = half) (pc e : Nat) : (q.trapped pc e).swapped half := by
  obtain ⟨-, -, hrest⟩ := endScene_spec q e
  refine ⟨.inr rfl, ?_⟩
  rw [Seq.trapped, hrest]
  exact h

theorem seqSwap_stays {n : Nat} (h : (c.seq n).state ≠ .waiting) (e : Nat) (half : Bool) : c.seqSwap n e half = c := if_pos h

theorem seq_dirEntry (c : Ctl) (half : Bool) (n m : Nat) : (c.dirEntry half n).1.seq m = c.seq m := by
  simp only [Ctl.dirEntry, seq_fetch]

theorem seqSwap_moves {n : Nat} (h : (c.seq n).state = .waiting) (e : Nat) (half : Bool) :
    ((c.seqSwap n e half).seq n).swapped half ∧ ∀ m, m ≠ n → (c.seqSwap n e half).seq m = c.seq m := by
  have hentry : ∀ m, (c.dirEntry half n).1.seq m = c.seq m := seq_dirEntry c half n
  simp only [Ctl.seqSwap, if_neg (not_not.mpr h)]
  generalize c.dirEntry half n = r at hentry
  split
  · rw [seq_trap_same, Ctl.seq_setSeq_same]
    exact ⟨swapped_trapped rfl _ _, fun m hm => by rw [seq_trap_ne _ hm, Ctl.seq_setSeq_ne _ hm, hentry]⟩
  · generalize hq : ({ c.seq n with half := half, loops := [], head := [], evaluated := false, loadHold := false, pc := r.2.1, lastPc := r.2.1 } : Seq) = q
    have hhalf : q.half = half := by rw [← hq]
    have hstate : q.state = .waiting := by rw [← hq, h]
    obtain ⟨d, hseqs, ⟨cause, pc, htrap⟩ | ⟨w, hd, hhead⟩⟩ := evalScene_outcome (r.1.setSeq n q) n e
    · rw [htrap, seq_trap_same, seq_of_seqs hseqs, Ctl.seq_setSeq_same]
      exact ⟨swapped_trapped hhalf _ _, fun m hm => by rw [seq_trap_ne _ hm, seq_of_seqs hseqs, Ctl.seq_setSeq_ne _ hm, hentry]⟩
    · rw [hhead, Ctl.seq_setSeq_same, Ctl.seq_setSeq_same]
      exact ⟨⟨.inl hstate, hhalf⟩, fun m hm => by rw [Ctl.seq_setSeq_ne _ hm, seq_of_seqs hseqs, Ctl.seq_setSeq_ne _ hm, hentry]⟩

theorem seqSwap_keeps_swapped {half : Bool} {m : Nat} (n e : Nat) (h : (c.seq m).swapped half) : ((c.seqSwap n e half).seq m).swapped half := by
  by_cases hstate : (c.seq n).state = .waiting
  · obtain ⟨hmoved, hothers⟩ := seqSwap_moves hstate e half
    by_cases hm : m = n
    · exact hm ▸ hmoved
    · rw [hothers m hm]
      exact h
  · rw [seqSwap_stays hstate]
    exact h

theorem seq_seqSwap_ne {n m : Nat} (h : m ≠ n) (e : Nat) (half : Bool) : (c.seqSwap n e half).seq m = c.seq m := by
  by_cases hstate : (c.seq n).state = .waiting
  · exact (seqSwap_moves hstate e half).2 m h
  · rw [seqSwap_stays hstate]

/-- The sequencers of a list that await their heads move to a half. -/
def Ctl.seqsSwap (c : Ctl) (l : List Nat) (half : Bool) : Ctl := forAll l (fun n c => c.seqSwap n c.ec half) c

theorem seq_seqsSwap_ne {l : List Nat} {m : Nat} (h : m ∉ l) (half : Bool) : (c.seqsSwap l half).seq m = c.seq m :=
  forAll_keeps (P := fun d => d.seq m = c.seq m) (fun _ hn _ hd => (seq_seqSwap_ne (ne_of_mem_of_not_mem hn h).symm _ _).trans hd) rfl

theorem seq_seqsSwap {l : List Nat} {m : Nat} (hm : m ∈ l) (half : Bool) (hstate : (c.seq m).state = .waiting) :
    ((c.seqsSwap l half).seq m).swapped half := by
  induction l generalizing c with
  | nil => simp at hm
  | cons n l ih =>
    by_cases hn : m = n
    · subst hn
      rw [Ctl.seqsSwap, forAll_cons]
      exact forAll_keeps (P := fun d => (d.seq m).swapped half) (fun n _ d hd => seqSwap_keeps_swapped n d.ec hd) (seqSwap_moves hstate _ half).1
    · refine ih (c := c.seqSwap n c.ec half) ((List.mem_cons.mp hm).resolve_left hn) ?_
      rw [seq_seqSwap_ne hn, hstate]

theorem seqsSwap_stays {l : List Nat} (h : ∀ n ∈ l, (c.seq n).state ≠ .waiting) (half : Bool) : c.seqsSwap l half = c :=
  forAll_keeps (P := fun d => d = c) (fun n hn _ hd => hd ▸ seqSwap_stays (h n hn) _ half) rfl

theorem cc_of_timing {c d : Ctl} (h : d.timing = c.timing) : d.cc = c.cc := by
  rw [Ctl.cc, show d.clk.bc = c.clk.bc from congrArg Timing.bc h, ← Ctl.cc]

theorem cc_seqsSwap (l : List Nat) (half : Bool) : (c.seqsSwap l half).cc = c.cc :=
  cc_of_timing (timing_forAll (fun n d => timing_seqSwap d n _ half) l c)

/-! ### The swap as it takes effect -/

/-- A CANCEL of the cc in which a swap takes effect is REFUSED. -/
def Ctl.cancelRefused (c : Ctl) (g : Nat) : Ctl := if (c.group g).swapCancel.isSome then c.flag (oGrpSwap g) grpSwap_REFUSED else c

theorem cancelRefused_spec (c : Ctl) (g : Nat) : (∀ f : FieldPos, f.lo + f.width ≤ 16 → (c.cancelRefused g).fld (oGrpSwap g) f = c.fld (oGrpSwap g) f) ∧
    (c.cancelRefused g).cc = c.cc ∧ ∀ n, (c.cancelRefused g).seq n = c.seq n := by
  unfold Ctl.cancelRefused
  split
  · exact ⟨fun f hf => (Ctl.flag_fld c _ _ _ _).trans (Ctl.fld_setFld_ne c 1 (by decide) (.inr (.inl hf))), Ctl.cc_flag c _ _, Ctl.seq_flag c _ _⟩
  · exact ⟨fun _ _ => rfl, rfl, fun _ => rfl⟩

/-- The registers and the group once its sequencers have moved. -/
def Ctl.swapDone (c : Ctl) (g : Nat) : Ctl :=
  let c := (c.setFld (oGrpSwap g) grpSwap_PENDING 0).cancelRefused g
  c.setGroup g { c.group g with swapCancel := none, swapCc := some c.cc }

theorem swapNow_eq (c : Ctl) (g : Nat) :
    c.swapNow g = (c.seqsSwap (c.members g) (decide (c.fld (oGrpSwap g) grpSwap_PEND_HALF = 1))).swapDone g := rfl

theorem swapDone_spec (c : Ctl) (g : Nat) : (c.swapDone g).fld (oGrpSwap g) grpSwap_PENDING = 0 ∧
    (c.swapDone g).fld (oGrpSwap g) grpSwap_PEND_HALF = c.fld (oGrpSwap g) grpSwap_PEND_HALF ∧ ((c.swapDone g).group g).swapCc = some c.cc ∧
    ∀ n, (c.swapDone g).seq n = c.seq n := by
  obtain ⟨hfld, hcc, hseq⟩ := cancelRefused_spec (c.setFld (oGrpSwap g) grpSwap_PENDING 0) g
  simp only [Ctl.swapDone, Ctl.setGroup_fld, Ctl.group_setGroup_same, seq_setGroup, hcc, hseq, Ctl.cc_setFld, Ctl.seq_setFld]
  rw [hfld _ (by decide), hfld _ (by decide), Ctl.fld_setFld_same _ _ _ _ (by decide), Ctl.fld_setFld_ne _ _ (by decide) (.inr (.inr (by decide)))]
  exact ⟨rfl, rfl, trivial, fun _ => trivial⟩

/-- A swap of a group stands with its target half. -/
def Ctl.swapAsked (c : Ctl) (g : Nat) (half : Bool) : Ctl := (c.setFld (oGrpSwap g) grpSwap_PENDING 1).setFld (oGrpSwap g) grpSwap_PEND_HALF half.toNat

theorem members_swapAsked (c : Ctl) (hg : g < 32) (half : Bool) : (c.swapAsked g half).members g = c.members g := by
  rw [Ctl.swapAsked, members_setGrpSwap _ hg rfl, members_setGrpSwap _ hg rfl]

theorem seq_swapAsked (c : Ctl) (g : Nat) (half : Bool) (n : Nat) : (c.swapAsked g half).seq n = c.seq n := by
  rw [Ctl.swapAsked, Ctl.seq_setFld, Ctl.seq_setFld]

theorem cc_swapAsked (c : Ctl) (g : Nat) (half : Bool) : (c.swapAsked g half).cc = c.cc := by
  rw [Ctl.swapAsked, Ctl.cc_setFld, Ctl.cc_setFld]

theorem pendHalf_swapAsked (c : Ctl) (g : Nat) (half : Bool) : (c.swapAsked g half).fld (oGrpSwap g) grpSwap_PEND_HALF = half.toNat := by
  rw [Ctl.swapAsked, Ctl.fld_setFld_same _ _ _ _ (by decide)]
  exact Nat.mod_eq_of_lt half.toNat_lt

/-- A GO with no swap pending takes effect at once where every sequencer of the group is HALTED, and else stands. -/
theorem swapGo_free (hg : g < 32) (hpend : c.fld (oGrpSwap g) grpSwap_PENDING = 0) (half : Bool) : c.swapGo g half =
    if (c.members g).all fun n => decide ((c.seq n).state = .halted) then (c.swapAsked g half).swapNow g else c.swapAsked g half := by
  have hgo : c.swapGo g half = if ((c.swapAsked g half).members g).all fun n => decide (((c.swapAsked g half).seq n).state = .halted)
      then (c.swapAsked g half).swapNow g else c.swapAsked g half := by
    rw [Ctl.swapGo, if_neg (by omega)]
    rfl
  rw [hgo, members_swapAsked c hg]
  simp only [seq_swapAsked]

/-- No sequencer moves with a swap of a group whose sequencers are all HALTED. -/
theorem swapNow_halted (h : ∀ n ∈ c.members g, (c.seq n).state = .halted) : c.swapNow g = c.swapDone g := by
  rw [swapNow_eq, seqsSwap_stays]
  intro n hn
  rw [h n hn]
  decide

theorem swapReady_iff (c : Ctl) (g : Nat) : c.swapReady g = true ↔ c.fld (oGrpSwap g) grpSwap_PENDING = 1 ∧ (c.group g).decided = none ∧
    (∀ n ∈ c.members g, (c.seq n).state = .halted ∨ (c.seq n).state = .waiting) ∧
    c.loading (decide (c.fld (oGrpSwap g) grpSwap_PEND_HALF = 1)) = false := by
  simp [Ctl.swapReady, and_assoc]

/-! ### The end of the cc of a CANCEL (R103) -/

/-- The CANCEL of one group settles in ec `x`. -/
def Ctl.cancelSettle (x g : Nat) (c : Ctl) : Ctl :=
  match (c.group g).swapCancel with
  | some d => if d ≤ x then (c.setFld (oGrpSwap g) grpSwap_PENDING 0).setGroup g { c.group g with swapCancel := none } else c
  | none => c

theorem swapSettle_eq (h : c.blackout = false) (x : Nat) :
    c.swapSettle x = forAll ((c.groups.filter fun g => g.2.swapCancel.isSome).map fun g => g.1) (Ctl.cancelSettle x) c := by
  rw [Ctl.swapSettle, if_neg (by simp [h])]
  rfl

theorem cancelSettle_due {d x : Nat} (h : (c.group g).swapCancel = some d) (hx : d ≤ x) :
    c.cancelSettle x g = (c.setFld (oGrpSwap g) grpSwap_PENDING 0).setGroup g { c.group g with swapCancel := none } := by
  simp [Ctl.cancelSettle, h, hx]

theorem cancelSettle_early {d x : Nat} (h : (c.group g).swapCancel = some d) (hx : x < d) : c.cancelSettle x g = c := by
  simp [Ctl.cancelSettle, h, Nat.not_le.mpr hx]

theorem cancelSettle_none (h : (c.group g).swapCancel = none) (x : Nat) : c.cancelSettle x g = c := by
  simp [Ctl.cancelSettle, h]

/-- It leaves the swaps of the other groups. -/
theorem cancelSettle_ne {g' : Nat} (h : g' ≠ g) (c : Ctl) (x : Nat) :
    (c.cancelSettle x g).fld (oGrpSwap g') grpSwap_PENDING = c.fld (oGrpSwap g') grpSwap_PENDING ∧ (c.cancelSettle x g).group g' = c.group g' := by
  have hreg : oGrpSwap g' + 8 * grpSwap_PENDING.word ≠ oGrpSwap g + 8 * grpSwap_PENDING.word := by
    simp only [oGrpSwap]
    omega
  unfold Ctl.cancelSettle
  split
  · split
    · rw [Ctl.setGroup_fld, Ctl.fld_setFld_ne _ _ (by decide) (.inl hreg), Ctl.group_setGroup_ne _ h, Ctl.group_setFld]
      exact ⟨rfl, rfl⟩
    · exact ⟨rfl, rfl⟩
  · exact ⟨rfl, rfl⟩

/-- The swap of group `g` has been cleared, and its CANCEL with it. -/
def Ctl.swapCleared (c : Ctl) (g : Nat) : Prop := c.fld (oGrpSwap g) grpSwap_PENDING = 0 ∧ (c.group g).swapCancel = none

theorem cancelSettle_keeps_cleared (h : c.swapCleared g) (x k : Nat) : (c.cancelSettle x k).swapCleared g := by
  by_cases hk : g = k
  · subst hk
    rw [cancelSettle_none h.2]
    exact h
  · obtain ⟨hfld, hgroup⟩ := cancelSettle_ne hk c x
    rw [Ctl.swapCleared, hfld, hgroup]
    exact h

theorem cancelSettle_clears {d x : Nat} (h : (c.group g).swapCancel = some d) (hx : d ≤ x) : (c.cancelSettle x g).swapCleared g := by
  rw [cancelSettle_due h hx, Ctl.swapCleared, Ctl.setGroup_fld, Ctl.group_setGroup_same]
  exact ⟨Ctl.fld_setFld_same _ _ _ 0 (by decide), rfl⟩

theorem cancelsSettle_clear {l : List Nat} (hg : g ∈ l) {d x : Nat} (h : (c.group g).swapCancel = some d) (hx : d ≤ x) :
    (forAll l (Ctl.cancelSettle x) c).swapCleared g := by
  induction l generalizing c with
  | nil => simp at hg
  | cons k l ih =>
    by_cases hk : g = k
    · subst hk
      rw [forAll_cons]
      exact forAll_keeps (P := fun e => e.swapCleared g) (fun k _ e he => cancelSettle_keeps_cleared he x k) (cancelSettle_clears h hx)
    · refine ih (c := c.cancelSettle x k) ((List.mem_cons.mp hg).resolve_left hk) ?_
      rw [(cancelSettle_ne hk c x).2, h]

theorem mem_cancels {d : Nat} (h : (c.group g).swapCancel = some d) : g ∈ (c.groups.filter fun g => g.2.swapCancel.isSome).map fun g => g.1 := by
  have hentry : ((g, c.group g) : Nat × Group) ∈ c.groups := mem_of_get_ne fun hnone => by
    rw [Ctl.group, hnone] at h
    cases h
  exact List.mem_map.mpr ⟨_, List.mem_filter.mpr ⟨hentry, by simp [h]⟩, rfl⟩

/-- A CANCEL that is noted for ec `d` clears the swap then, and leaves it before. -/
theorem swapSettle_cancel (hblack : c.blackout = false) {d : Nat} (h : (c.group g).swapCancel = some d) (x : Nat) :
    (d ≤ x → (c.swapSettle x).swapCleared g) ∧
    (x < d → (c.swapSettle x).fld (oGrpSwap g) grpSwap_PENDING = c.fld (oGrpSwap g) grpSwap_PENDING ∧ (c.swapSettle x).group g = c.group g) := by
  rw [swapSettle_eq hblack]
  refine ⟨cancelsSettle_clear (mem_cancels h) h, fun hx => ?_⟩
  refine forAll_keeps (P := fun e => e.fld (oGrpSwap g) grpSwap_PENDING = c.fld (oGrpSwap g) grpSwap_PENDING ∧ e.group g = c.group g)
    (fun k _ e he => ?_) ⟨rfl, rfl⟩
  by_cases hk : g = k
  · subst hk
    rw [cancelSettle_early (he.2.symm ▸ h) hx]
    exact he
  · obtain ⟨hfld, hgroup⟩ := cancelSettle_ne hk e x
    exact ⟨hfld.trans he.1, hgroup.trans he.2⟩

/-! ### The commands (R101, R103) -/

theorem exec_groupSwapGo_halted (hacc : s.accepting) (hg : g < 32) (half : Bool) (hpend : s.c.fld (oGrpSwap g) grpSwap_PENDING = 0)
    (hall : ∀ n ∈ s.c.members g, (s.c.seq n).state = .halted) : ∃ t, exec (.groupSwapGo g half) s = .next t ∧ t.banks = s.banks ∧
      t.c.fld (oGrpSwap g) grpSwap_PENDING = 0 ∧ t.c.fld (oGrpSwap g) grpSwap_PEND_HALF = half.toNat ∧ (t.c.group g).swapCc = some s.c.cc ∧
      ∀ n, t.c.seq n = s.c.seq n := by
  have hhalted : ∀ n ∈ (s.c.swapAsked g half).members g, ((s.c.swapAsked g half).seq n).state = .halted := fun n hn => by
    rw [seq_swapAsked]
    exact hall n (members_swapAsked s.c hg half ▸ hn)
  have hgo : s.c.swapGo g half = (s.c.swapAsked g half).swapDone g := by
    rw [swapGo_free hg hpend, if_pos (by simpa using hall), swapNow_halted hhalted]
  obtain ⟨hpending, hhalf, hcc, hseq⟩ := swapDone_spec (s.c.swapAsked g half) g
  refine ⟨_, exec_groupSwapGo hacc hg half, wrote_banks _ _ _, ?_⟩
  rw [wrote_fld, wrote_fld, wrote_group, hgo, hpending, hhalf, pendHalf_swapAsked, hcc, cc_swapAsked]
  exact ⟨rfl, rfl, rfl, fun n => by rw [wrote_seq, hseq, seq_swapAsked]⟩

theorem exec_groupSwapEffect_ready (hacc : s.accepting) (hg : g < 32) (hready : s.c.swapReady g = true) :
    ∃ t, exec (.groupSwapEffect g) s = .next t ∧ t.banks = s.banks ∧ t.pending = s.pending ∧
      t.c.fld (oGrpSwap g) grpSwap_PENDING = 0 ∧ (t.c.group g).swapCc = some s.c.cc ∧
      (∀ n ∈ s.c.members g, (s.c.seq n).state = .waiting → ((t.c.seq n).state = .waiting ∨ (t.c.seq n).state = .trapped) ∧
        (t.c.seq n).half = decide (s.c.fld (oGrpSwap g) grpSwap_PEND_HALF = 1)) ∧
      (∀ n, n ∉ s.c.members g → t.c.seq n = s.c.seq n) := by
  obtain ⟨⟨⟨hsys, -⟩, -⟩, hblack⟩ := id hacc
  have hnow : s.c.swapEffect g = s.c.swapNow g := if_pos ⟨hready, hsys, by simp [hblack]⟩
  rw [swapNow_eq] at hnow
  obtain ⟨hpending, -, hcc, hseq⟩ := swapDone_spec (s.c.seqsSwap (s.c.members g) (decide (s.c.fld (oGrpSwap g) grpSwap_PEND_HALF = 1))) g
  rw [cc_seqsSwap] at hcc
  refine ⟨_, exec_groupSwapEffect hacc hg, units_banks _ _, units_pending _ _, ?_⟩
  rw [hnow]
  refine ⟨hpending, hcc, fun n hn hstate => ?_, fun n hn => ?_⟩
  · rw [units_seq, hseq]
    exact seq_seqsSwap hn _ hstate
  · rw [units_seq, hseq, seq_seqsSwap_ne hn]

/-- Settles O44, command by command: a swap is the moves of the sequencers of its group, one after the other (`Ctl.seqsSwap`), and then its registers
(`Ctl.swapDone`); the end of a cc settles the CANCELs of the groups one after the other (`Ctl.cancelSettle`), each with its own group alone. -/
theorem halfSwaps : Obligations.HalfSwaps := by
  refine ⟨fun s g half hacc hg => ⟨fun hpend => ?_, fun hpend hbusy => ?_, exec_groupSwapGo_halted hacc hg half, fun hpend => ?_, fun hpend hcc => ?_,
    fun hpend hcc => ?_, swapReady_iff s.c g, fun hready => ?_, exec_groupSwapEffect_ready hacc hg⟩, fun c g d x hblack hd => swapSettle_cancel hblack hd x⟩
  · rw [exec_groupSwapGo hacc hg, Ctl.swapGo, if_pos hpend]
  · rw [exec_groupSwapGo hacc hg, swapGo_free hg hpend, if_neg (by simpa using hbusy), Ctl.swapAsked]
  · rw [exec_groupSwapCancel hacc hg, Ctl.swapCancel, if_pos hpend]
  · rw [exec_groupSwapCancel hacc hg, Ctl.swapCancel, if_neg (by omega), if_pos hcc]
  · rw [exec_groupSwapCancel hacc hg, Ctl.swapCancel, if_neg (by omega), if_neg hcc]
  · rw [exec_groupSwapEffect hacc hg, Ctl.swapEffect, if_neg (by simp [hready])]
    rfl

end Sys2Proof.Machine

end

section
/-! What a time step makes of the clocks beside the edges that it counts (R12, R13, R88, R333). -/

namespace Sys2Proof.Machine

/-- What a time step makes of the clocks beside the edge itself, from the units `c` to the units `d`: the counts stay, but that entry to P5 may be
complete, which clears the count of bc and stops the bank clock (R88, R333). -/
structure Advances (c d : Ctl) : Prop where
  vco : d.clk.vco = c.clk.vco
  ref : d.clk.ref = c.clk.ref
  pre : d.clk.pre = c.clk.pre
  reqs : d.cReqs = c.cReqs
  bc : (d.clk.bc = c.clk.bc ∧ (d.power.mode = 5 → c.power.mode = 5) ∧
      (c.power.asleep = true → c.clk.run = false → d.power.asleep = true ∧ d.clk.run = false)) ∨
    (c.power.mode = 5 ∧ d.power.asleep = true ∧ d.clk.bc = 0 ∧ d.clk.run = false)

namespace Advances

variable {c d e : Ctl} {p : Prop} [Decidable p]

theorem trans (h : Advances c d) (k : Advances d e) : Advances c e where
  vco := k.vco.trans h.vco
  ref := k.ref.trans h.ref
  pre := k.pre.trans h.pre
  reqs := k.reqs.trans h.reqs
  bc := by
    obtain ⟨hbc, hmode, hsleep⟩ | ⟨hmode, hasleep, hbc, hrun⟩ := h.bc
    · obtain ⟨kbc, kmode, ksleep⟩ | ⟨kmode, kstopped⟩ := k.bc
      · exact .inl ⟨kbc.trans hbc, fun h5 => hmode (kmode h5), fun ha hr => ksleep (hsleep ha hr).1 (hsleep ha hr).2⟩
      · exact .inr ⟨hmode kmode, kstopped⟩
    · obtain ⟨kbc, -, ksleep⟩ | ⟨-, kstopped⟩ := k.bc
      · exact .inr ⟨hmode, (ksleep hasleep hrun).1, kbc.trans hbc, (ksleep hasleep hrun).2⟩
      · exact .inr ⟨hmode, kstopped⟩

theorem of_timing (h : d.timing = c.timing) : Advances c d where
  vco := congrArg Timing.vco h
  ref := congrArg Timing.ref h
  pre := congrArg Timing.pre h
  reqs := congrArg Timing.reqs h
  bc := .inl ⟨congrArg Timing.bc h, fun h5 => (congrArg Timing.mode h).symm.trans h5,
    fun ha hr => ⟨(congrArg Timing.asleep h).trans ha, (congrArg Timing.run h).trans hr⟩⟩

theorem refl (c : Ctl) : Advances c c := of_timing rfl

theorem timing (h : Advances c d) (k : e.timing = d.timing) : Advances c e := h.trans (of_timing k)

theorem ite (h : Advances c d) (k : Advances c e) : Advances c (if p then d else e) := by
  split
  · exact h
  · exact k

end Advances

theorem advances_entered (c : Ctl) : Advances c c.entered := by
  simp only [Ctl.entered]
  split
  · next h5 => exact ⟨rfl, rfl, rfl, rfl, .inr ⟨h5, rfl, rfl, rfl⟩⟩
  · exact ⟨rfl, rfl, rfl, rfl, .inl ⟨rfl, id, fun _ _ => ⟨rfl, rfl⟩⟩⟩

theorem advances_opIdle (c : Ctl) : Advances c c.opIdle := by
  have hidle : Advances c ((c.setPw pwrOp_BUSY 0).setPower fun (p : Power) => { p with step := .idle, queued := none }) := .of_timing (by simp)
  exact .ite (.ite (hidle.trans (advances_entered _)) (hidle.timing (timing_opBegin _ _))) hidle

/-- A restore that is not complete ends with a sample of 0 (R328). -/
theorem advances_vwarnSample (c : Ctl) : Advances c c.vwarnSample := by
  have hsampled : ∀ (f : Power → Power) (hm : (f c.power).mode = c.power.mode) (ha : (f c.power).asleep = c.power.asleep), Advances c (c.setPower f) :=
    fun f hm ha => .of_timing (timing_setPower c hm ha)
  refine .ite (.refl c) (.ite (hsampled _ rfl rfl) (.ite ?_ (hsampled _ rfl rfl)))
  split
  · exact (hsampled _ rfl rfl).trans (advances_opIdle _)
  · exact (hsampled _ rfl rfl).trans (advances_opIdle _)
  · exact hsampled _ rfl rfl

/-- The divider takes no part in the counts. -/
theorem advances_setPoint (c : Ctl) (op : Nat) : Advances c (c.setPoint op) :=
  ⟨rfl, rfl, rfl, rfl, .inl ⟨rfl, id, fun ha hr => ⟨ha, hr⟩⟩⟩

theorem advances_brownRespond (c : Ctl) : Advances c c.brownRespond := by
  have hrecog : Advances c (c.setPower fun (p : Power) => { p with recog := none }) := .of_timing (timing_setPower c rfl rfl)
  refine Advances.timing ?_ ((timing_markSuspended _).trans (timing_raisePower _))
  have hpoint := (hrecog.trans (advances_setPoint _ 2)).ite (p := (c.setPower fun (p : Power) => { p with recog := none }).pw pwrOp_ACTIVE < 2) hrecog
  have hnoted := hpoint.timing (((timing_satAdd _ oPwrOp pwrOp_BROWN_CNT 1).trans (timing_flag _ oPwrOp pwrOp_BROWN_SEEN)).trans (timing_setPw _ pwrOp_BROWNOUT 1))
  split
  · exact hnoted.trans (advances_opIdle _)
  · exact hnoted.trans (advances_opIdle _)
  · exact hnoted

theorem advances_brownNow (c : Ctl) : Advances c c.brownNow := by
  simp only [Ctl.brownNow]
  split
  · exact (advances_brownRespond c).ite (.refl c)
  · exact .refl c

theorem advances_p2Stop (c : Ctl) : Advances c c.p2Stop := (advances_entered c).ite (.refl c)

theorem advances_wakeDone (c : Ctl) : Advances c c.wakeDone := by
  have hready : ∀ d : Ctl, Advances d { (d.setPm pwrMode_STATE 0).setPower fun (p : Power) => { p with riseAt := none, mode := 0 } with
      sysReady := true, faults := { d.faults with lastToggle := 0 }, clk := { d.clk with readyBc := d.clk.bc } } := fun d =>
    ⟨rfl, rfl, rfl, rfl, .inl ⟨rfl, nofun, fun ha hr => ⟨ha, hr⟩⟩⟩
  simp only [Ctl.wakeDone]
  split
  · exact .ite ((Advances.of_timing (by simp)).trans (hready (if c.power.mode = 4 then c.scrubsAnew else c))) (.refl c)
  · exact .refl c

/-- One edge of ref_clk is counted, and none beside it. -/
def Ctl.refCounted (c : Ctl) : Ctl := { c with clk := { c.clk with ref := c.clk.ref + 1 } }

theorem advances_refEdge (c : Ctl) : Advances c.refCounted c.refEdge := by
  have hsample := advances_vwarnSample c.refCounted
  have hbrown : Advances c.refCounted (if c.refCounted.vwarnSample.clk.run then c.refCounted.vwarnSample else c.refCounted.vwarnSample.brownNow) :=
    .ite hsample (hsample.trans (advances_brownNow _))
  exact .ite (hbrown.timing (timing_timeTick _)) hbrown

end Sys2Proof.Machine

end

section
/-! An idle step (R12, R13, R63, R88, R323). -/

namespace Sys2Proof.Machine

/-! ### Exit from a power state -/

theorem timing_clocksRun (c : Ctl) : c.clocksRun.timing = { c.timing with run := true } := by
  simp only [Ctl.clocksRun]
  split
  · exact (timing_raise _ _ _).trans (timing_setPower _ rfl rfl)
  · rfl

theorem timing_clocksOn (c : Ctl) : c.clocksOn.timing = { c.timing with run := true, asleep := false } := timing_clocksRun _

/-- The start of an exit counts nothing. -/
theorem timing_exitBegin (c : Ctl) : ∃ r, c.exitBegin.1.timing = { c.timing with run := r, asleep := false } := by
  have hon := timing_clocksOn (c.setPm pwrMode_STATE 6)
  simp only [Ctl.exitBegin]
  split
  · exact ⟨true, (timing_setPower _ rfl rfl).trans hon⟩
  · split
    · refine ⟨true, (timing_wakeFill _).trans (Eq.trans ?_ hon)⟩
      split
      · rfl
      · exact timing_opBegin _ _
    · exact ⟨c.clk.run, rfl⟩

theorem timing_wakeOwed (c : Ctl) : ∃ r a, c.wakeOwed.1.timing = { c.timing with run := r, asleep := a } := by
  simp only [Ctl.wakeOwed]
  split
  · obtain ⟨r, h⟩ := timing_exitBegin c
    exact ⟨r, false, h⟩
  · exact ⟨c.clk.run, c.power.asleep, rfl⟩

/-! ### A new cc -/

theorem timing_readsNow (c : Ctl) : ∃ l r, c.readsNow.timing = { c.timing with reqs := l, rsp := r } ∧ (l = c.cReqs ∨ r.valid = true) := by
  simp only [Ctl.readsNow]
  split
  · exact ⟨c.cReqs, c.cRsp, rfl, .inl rfl⟩
  · split
    · next off be rest _ =>
      split
      · exact ⟨c.cReqs, {}, rfl, .inl rfl⟩
      · have hread : (c.readReq off be).1.timing = c.timing := timing_readReq c off be
        refine ⟨rest, { valid := true, rdata := (c.readReq off be).2.1, status := BitVec.ofNat 2 (c.readReq off be).2.2 }, ?_, .inr rfl⟩
        rw [← hread]
        rfl
    · exact ⟨c.cReqs, {}, rfl, .inl rfl⟩

/-- What a new cc settles after a wake is complete: raises, the log, the laps and the repair record. -/
def Ctl.ccLate (c : Ctl) : Ctl :=
  let c := forAll (List.range 4) (fun q c => c.lapRaise q) c.raiseDue.logNow.faultsLate
  if c.smRuns then c.repairRewrite else c

theorem timing_ccLate (c : Ctl) : c.ccLate.timing = c.timing := by
  simp [Ctl.ccLate]

theorem newCc_eq (c : Ctl) : c.newCc =
    ({ c.ccSettles c.ec with notes := {} } : Ctl).rxAll.laterNow.brownNow.handoverEnd.csSwapEnd.injTick.p2Stop.clampsEnd.wakeDone.ccLate.readsNow := rfl

theorem newCc_advances (c : Ctl) : ∃ d, Advances c d ∧ c.newCc = d.readsNow := by
  have hsettle : ∀ d : Ctl, d.handoverEnd.csSwapEnd.injTick.timing = d.timing := fun d => by simp
  have hcame : ({ c.ccSettles c.ec with notes := {} } : Ctl).rxAll.laterNow.timing = c.timing := by simp
  have hbrown := (Advances.of_timing hcame).trans (advances_brownNow _)
  have hstop := (hbrown.timing (hsettle _)).trans (advances_p2Stop _)
  have hdone := (hstop.timing (timing_clampsEnd _)).trans (advances_wakeDone _)
  exact ⟨_, hdone.timing (timing_ccLate _), newCc_eq c⟩

theorem advances_earlyCc (c : Ctl) : Advances c c.earlyCc := by
  have hlate : ∀ d : Ctl, d.raiseDue.logNow.faultsLate.timing = d.timing := fun d => by simp
  have hdue : ({ c with notes := {} } : Ctl).laterNow.timing = c.timing := by simp
  have hbrown := ((Advances.of_timing hdue).trans (advances_brownNow _)).timing (hlate _)
  exact (hbrown.timing (timing_repairRewrite _)).ite hbrown

/-! ### A new bc -/

/-- The periods of the root VCO since the last edge of ref_clk, with those of one more bc (R12, R323). -/
def Ctl.vcoNext (c : Ctl) : Nat := c.clk.vco + 2 * c.clk.div

/-- The edges that a new bc brings: of the bank clock, and of ref_clk after 102 periods of the root VCO. -/
def Ctl.bcCounted (c : Ctl) : Ctl :=
  { c with clk := { c.clk with bc := c.clk.bc + 1, vco := c.vcoNext % 102, ref := c.clk.ref + if 102 ≤ c.vcoNext then 1 else 0 } }

/-- The same before the first rise of sys_ready, when R88 does not count the bc. -/
def Ctl.preCounted (c : Ctl) : Ctl :=
  { c with clk := { c.clk with pre := c.clk.pre + 1, vco := c.vcoNext % 102, ref := c.clk.ref + if 102 ≤ c.vcoNext then 1 else 0 } }

theorem advances_refDue {c d : Ctl} {p : Prop} [Decidable p] (h : d = { c with clk := { c.clk with ref := c.clk.ref + if p then 1 else 0 } }) :
    Advances d (if p then c.refEdge else c) := by
  subst h
  split
  · exact advances_refEdge c
  · exact .refl c

/-- A new cc reads where its read is due, and may complete entry to P5. -/
theorem ccEdge_advances (c : Ctl) : ∃ d l r, Advances c d ∧ (if c.bc % 8 = 0 then c.newCc else c).timing = { d.timing with reqs := l, rsp := r } ∧
    (l = d.cReqs ∨ r.valid = true) := by
  split
  · obtain ⟨d, hd, hnew⟩ := newCc_advances c
    obtain ⟨l, r, hread, hreqs⟩ := timing_readsNow d
    exact ⟨d, l, r, hd, by rw [hnew, hread], hreqs⟩
  · exact ⟨c, c.cReqs, c.cRsp, .refl c, rfl, .inl rfl⟩

theorem bankEdge_advances (c : Ctl) : ∃ d l r, Advances c.bcCounted d ∧ c.bankEdge.timing = { d.timing with reqs := l, rsp := r } ∧
    (l = d.cReqs ∨ r.valid = true) := by
  have href := advances_refDue (c := { c with clk := { c.clk with bc := c.clk.bc + 1, vco := c.vcoNext % 102 } }) (p := 102 ≤ c.vcoNext) (d := c.bcCounted) rfl
  have hframe : ∀ e : Ctl, Advances c.bcCounted e → Advances c.bcCounted (if e.bc % 256 = 0 then e.newFrame else e) := fun e he =>
    .ite (he.timing (timing_newFrame e)) he
  have hec : ∀ e : Ctl, (if e.bc % 2 = 0 then e.newEc else e).timing = e.timing := fun e => by simp
  obtain ⟨d, l, r, hd, hnew, hreqs⟩ := ccEdge_advances _
  exact ⟨d, l, r, (hframe _ (href.timing (timing_wbNow _))).trans hd, (hec _).trans hnew, hreqs⟩

theorem earlyEdge_advances (c : Ctl) : Advances c.preCounted c.earlyEdge := by
  have href := advances_refDue (c := { c with clk := { c.clk with pre := c.clk.pre + 1, vco := c.vcoNext % 102 } }) (p := 102 ≤ c.vcoNext) (d := c.preCounted) rfl
  exact .ite (href.trans (advances_earlyCc _)) href

/-! ### A time step -/

theorem timing_service (s : State) : s.service.c.timing = s.c.timing := by
  refine Eq.trans (timing_forAll (fun q d => timing_debugStep d _ q) _ _) (timing_fillsStep s.c)

theorem timing_endBc (s : State) : s.endBc.c.timing = s.c.timing := by
  simp [State.endBc, timing_service]

theorem endBc_pending (s : State) : s.endBc.pending = s.pending := by
  rw [State.endBc, State.service]

/-- The turn of a waiting write moves that write, and changes no clock. -/
theorem portTurn_spec (s : State) : s.portTurn.c.clk = s.c.clk ∧ s.portTurn.c.power = s.c.power ∧ (s.portTurn.pending = s.pending ∨
    ∃ i rest, s.c.cReqs = .write i :: rest ∧ s.c.bc % 8 = 0 ∧ s.c.cRsp.valid = false ∧ s.portTurn.pending = i :: s.pending ∧
      s.portTurn.c.cReqs = rest ∧ s.portTurn.c.cTurn = true) := by
  unfold State.portTurn
  split
  · next i rest hreqs =>
    split
    · next h => exact ⟨rfl, rfl, .inr ⟨i, rest, hreqs, h.1, h.2.1, rfl, rfl, rfl⟩⟩
    · exact ⟨rfl, rfl, .inl rfl⟩
  · exact ⟨rfl, rfl, .inl rfl⟩

theorem tick_stands {s : State} (h : s.c.clk.frozen = true ∨ s.c.boot.phase = .inReset) : tick s = s := by
  unfold tick
  exact if_pos (by simpa using h)

section
variable {s : State} (hfrozen : s.c.clk.frozen = false) (hphase : s.c.boot.phase ≠ .inReset)
include hfrozen hphase

theorem tick_counts (hrun : s.c.clk.run = true) (hready : s.c.everReady = true) :
    ∃ u : State, tick s = u.portTurn ∧ u.c = s.endBc.c.bankEdge ∧ u.pending = s.pending := by
  unfold tick
  rw [if_neg (by simp [hfrozen, hphase]), if_pos (by simp [Ctl.counts, hrun, hready])]
  refine ⟨_, rfl, ?_, ?_⟩
  · simp only
  · simp only [endBc_pending]

theorem tick_early (hrun : s.c.clk.run = true) (hready : s.c.everReady = false) : tick s = s.units s.c.earlyEdge := by
  unfold tick
  rw [if_neg (by simp [hfrozen, hphase]), if_neg (by simp [Ctl.counts, hready]), if_pos hrun]
  rfl

theorem tick_stopped (hrun : s.c.clk.run = false) : (tick s).c = s.c.refEdge.wakeOwed.1 ∧ (tick s).pending = s.pending := by
  unfold tick
  rw [if_neg (by simp [hfrozen, hphase]), if_neg (by simp [Ctl.counts, hrun]), if_neg (by simp [hrun])]
  exact ⟨rfl, rfl⟩

end

theorem timing_bcCounted {c d : Ctl} (h : d.timing = c.timing) : d.bcCounted.timing = c.bcCounted.timing :=
  congrArg (fun m : Timing => { m with bc := m.bc + 1, vco := (m.vco + 2 * m.div) % 102, ref := m.ref + if 102 ≤ m.vco + 2 * m.div then 1 else 0 }) h

/-- The counts after a time step from the units `c`, whose next edges give the units `e`. -/
def Counted (c e d : Ctl) : Prop :=
  d.clk.vco = e.clk.vco ∧ d.clk.ref = e.clk.ref ∧ d.clk.pre = e.clk.pre ∧
  (d.clk.bc = e.clk.bc ∨ (c.power.mode = 5 ∧ d.power.asleep = true ∧ d.clk.bc = 0 ∧ d.clk.run = false))

theorem Advances.counted {c e d t : Ctl} (h : Advances e d) (hmode : e.power.mode = c.power.mode) {l : List CReq} {r : CRsp}
    (ht : t.timing = { d.timing with reqs := l, rsp := r }) : Counted c e t := by
  refine ⟨(congrArg Timing.vco ht).trans h.vco, (congrArg Timing.ref ht).trans h.ref, (congrArg Timing.pre ht).trans h.pre, ?_⟩
  obtain ⟨hbc, -⟩ | ⟨h5, hasleep, hbc, hrun⟩ := h.bc
  · exact .inl ((congrArg Timing.bc ht).trans hbc)
  · exact .inr ⟨hmode ▸ h5, (congrArg Timing.asleep ht).trans hasleep, (congrArg Timing.bc ht).trans hbc, (congrArg Timing.run ht).trans hrun⟩

/-- What a step of an idle block leaves in the queue: nothing, or the write whose turn at the control port has come (R63). -/
def TurnComes (s t : State) : Prop :=
  t.pending = [] ∨ ∃ i rest, s.c.cReqs = .write i :: rest ∧ t.c.bc % 8 = 0 ∧ t.pending = [i] ∧ t.c.cReqs = rest ∧ t.c.cTurn = true

section
variable {s : State} (hfrozen : s.c.clk.frozen = false) (hphase : s.c.boot.phase ≠ .inReset)
include hfrozen hphase

/-- A counted bc (R12, R88, R323). -/
theorem tick_counted (hrun : s.c.clk.run = true) (hready : s.c.everReady = true) (hidle : s.pending = []) :
    Counted s.c s.c.bcCounted (tick s).c ∧ TurnComes s (tick s) := by
  obtain ⟨u, htick, hedged, hqueue⟩ := tick_counts hfrozen hphase hrun hready
  obtain ⟨d, l, r, hd, hedge, hreqs⟩ := bankEdge_advances s.endBc.c
  obtain ⟨hclk, hpower, hturn⟩ := portTurn_spec u
  have hfrom := (Advances.of_timing (timing_bcCounted (timing_endBc s))).trans hd
  rw [← hedged] at hedge
  rw [htick]
  have ht : u.portTurn.c.timing = { d.timing with reqs := u.portTurn.c.cReqs, rsp := u.portTurn.c.cRsp } := by
    have hsame := congrArg (fun m : Timing => { m with reqs := u.portTurn.c.cReqs, rsp := u.portTurn.c.cRsp }) hedge
    rw [← hsame]
    simp only [Ctl.timing, timingOf, hclk, hpower]
  refine ⟨hfrom.counted rfl ht, ?_⟩
  obtain hnone | ⟨i, rest, hwaits, hcc, hvalid, hfront, hrest, hcame⟩ := hturn
  · exact .inl (hnone.trans (hqueue.trans hidle))
  · have hkept : u.c.cReqs = s.c.cReqs := by
      obtain hl | hr := hreqs
      · exact ((congrArg Timing.reqs hedge).trans hl).trans hfrom.reqs
      · have hstands : u.c.cRsp.valid = true := (congrArg (fun m : Timing => m.rsp.valid) hedge).trans hr
        exact Bool.noConfusion (hvalid.symm.trans hstands)
    refine .inr ⟨i, rest, hkept.symm.trans hwaits, ?_, hfront.trans (by rw [hqueue, hidle]), hrest, hcame⟩
    rw [Ctl.bc, hclk]
    exact hcc

/-- A bc before the first rise of sys_ready. -/
theorem tick_notCounted (hrun : s.c.clk.run = true) (hready : s.c.everReady = false) (hidle : s.pending = []) :
    Counted s.c s.c.preCounted (tick s).c ∧ TurnComes s (tick s) := by
  rw [tick_early hfrozen hphase hrun hready]
  exact ⟨(earlyEdge_advances s.c).counted rfl rfl, .inl hidle⟩

/-- With the bank clock stopped an edge of ref_clk is counted, and an exit may begin. -/
theorem tick_refCounted (hrun : s.c.clk.run = false) (hidle : s.pending = []) :
    (∃ d, Counted s.c s.c.refCounted d ∧ (tick s).c.clk.vco = d.clk.vco ∧ (tick s).c.clk.ref = d.clk.ref ∧ (tick s).c.clk.pre = d.clk.pre ∧
      (tick s).c.clk.bc = d.clk.bc) ∧ TurnComes s (tick s) := by
  obtain ⟨htick, hpending⟩ := tick_stopped hfrozen hphase hrun
  obtain ⟨r, a, hwake⟩ := timing_wakeOwed s.c.refEdge
  rw [← htick] at hwake
  exact ⟨⟨s.c.refEdge, (advances_refEdge s.c).counted rfl rfl, congrArg Timing.vco hwake, congrArg Timing.ref hwake, congrArg Timing.pre hwake,
    congrArg Timing.bc hwake⟩, .inl (hpending.trans hidle)⟩

end

/-- Settles O2: beside the edges that it counts, a time step leaves the clocks but for entry to P5 (`Advances`), since every unit keeps their timing
(`Ctl.timing`), and the response that a completed read shows keeps a waiting write from its turn (`timing_readsNow`). -/
theorem idleStepLetsTimePass : Obligations.IdleStepLetsTimePass := by
  intro s t hidle ht
  subst ht
  have hstep : step s = .next (tick s) := by
    unfold step
    rw [hidle]
  refine ⟨hstep, tick_stands, fun hfrozen hphase hrun => ?_, fun hfrozen hphase hrun => ?_, ?_⟩
  · cases hready : s.c.everReady with
    | true =>
      exact (tick_counted hfrozen hphase hrun hready hidle).1
    | false =>
      exact (tick_notCounted hfrozen hphase hrun hready hidle).1
  · obtain ⟨⟨d, ⟨hvco, href, hpre, hbc⟩, tvco, tref, tpre, tbc⟩, -⟩ := tick_refCounted hfrozen hphase hrun hidle
    refine ⟨tref.trans href, tvco.trans hvco, tpre.trans hpre, ?_⟩
    obtain hbc | ⟨h5, -, hzero, -⟩ := hbc
    · exact .inl (tbc.trans hbc)
    · exact .inr ⟨h5, tbc.trans hzero⟩
  · by_cases hstands : s.c.clk.frozen = true ∨ s.c.boot.phase = .inReset
    · exact .inl (by rw [tick_stands hstands, hidle])
    · obtain ⟨hfrozen, hphase⟩ := not_or.mp hstands
      have hfrozen := Bool.eq_false_iff.mpr hfrozen
      cases hrun : s.c.clk.run with
      | true =>
        cases hready : s.c.everReady with
        | true => exact (tick_counted hfrozen hphase hrun hready hidle).2
        | false => exact (tick_notCounted hfrozen hphase hrun hready hidle).2
      | false => exact (tick_refCounted hfrozen hphase hrun hidle).2

end Sys2Proof.Machine

end

section
/-! Fetches and outputs of the gather units (R125 to R128). -/

namespace Sys2Proof.Machine

/-- The contribution `x`, faulty if `bad`, of the next fetch of `g` joins the sum of its granule of the row (R127). -/
def Gather.sumsWith (g : Gather) (x : Option Nat) (bad : Bool) : List (Option Nat × Bool) :=
  (List.range g.nRow).map fun k => if k = g.next % g.nRow
    then sumStep g.rowType (if g.next / g.nRow % g.bag = 0 then (none, false) else g.sums.getD (g.next % g.nRow) (none, false)) x bad
    else g.sums.getD k (none, false)

theorem getElem?_sumsWith {g : Gather} (h : g.next % g.nRow < g.nRow) (x : Option Nat) (bad : Bool) :
    (g.sumsWith x bad)[g.next % g.nRow]? = some (sumStep g.rowType
      (if g.next / g.nRow % g.bag = 0 then (none, false) else g.sums.getD (g.next % g.nRow) (none, false)) x bad) := by
  rw [Gather.sumsWith, List.getElem?_map, List.getElem?_range h, Option.map_some, if_pos rfl]

/-- Without a contribution and without a fault a sum stays (R127). -/
theorem sumStep_none_false (rowType : Nat) (old : Option Nat × Bool) : sumStep rowType old none false = old := by
  rw [sumStep, Bool.or_false]

section
variable {c : Ctl} {b : Tab Granule} {n : Nat} {g : Gather} {m j bc w gi : Nat}

/-- A null index contributes nothing (R125). -/
theorem fetchRow_null (hword : g.words[m]? = some (w, false)) (hnull : w = 0xFFFFFFFF) : c.fetchRow b n g m j bc = (c, none, false, 0) := by
  simp only [Ctl.fetchRow, hword, Bool.false_eq_true, if_false, nullIndex, decide_eq_true hnull, if_true]

/-- The fetch of a granule of a row is a read of its bank (R126). -/
theorem fetchRow_row (hword : g.words[m]? = some (w, false)) (hnull : w ≠ 0xFFFFFFFF) (htarget : g.target m j = some gi) (hblack : c.blackout = false)
    (hcut : g.cut = none) (hturned : m * g.nRow + j ∉ g.turned) (hcause : c.pathCause (c.groupOf n) gi bc = 0) (htag : c.tagChecked gi = false) :
    c.fetchRow b n g m j bc =
      ((c.bankRead b 0 n gi bc).1, some (gData (c.stored b gi).word), (c.stored b gi).bad || (c.stored b gi).pois, 0) := by
  simp only [Ctl.fetchRow, hword, Bool.false_eq_true, if_false, nullIndex, decide_eq_false hnull, htarget, hblack, hcut, cutBy, hturned, or_self, hcause,
    ne_eq, not_true_eq_false, htag, Bool.false_and, bankRead_snd]

end

/-- The gather unit after a fetch that is due: one fetch fewer to make, and its contribution in the sum. -/
theorem gather_gatherFetch {c : Ctl} {b : Tab Granule} {n : Nat} {g : Gather} (hready : c.sysReady = true) (hgather : (c.seq n).gather = some g)
    (hnext : g.next < g.limit) (hdue : 2 * (g.s + 1 + g.next) + 8 ≤ c.bc) {d : Ctl} {x : Option Nat} {bad : Bool} {y : Cause}
    (hrow : c.fetchRow b n g (g.next / g.nRow) (g.next % g.nRow) (2 * (g.s + 1 + g.next) + 8) = (d, x, bad, y)) :
    ∃ outs, ((c.gatherFetch b n).seq n).gather = some { g with next := g.next + 1, sums := g.sumsWith x bad, outs := outs } := by
  simp only [Ctl.gatherFetch, hgather, hready, not_true_eq_false, Nat.not_le.2 hnext, Nat.not_lt.2 hdue, or_self, if_false, hrow, Ctl.seq_setSeq_same]
  exact ⟨_, rfl⟩

theorem exec_gatherFetch {s : State} {n : Nat} (hlive : s.live) (hn : n < 104) :
    exec (.gatherFetch n) s = .next (s.units (s.c.gatherFetch s.banks n)) :=
  onBanks_next (decide_eq_true hn) hlive.2 fun b c => (c.gatherFetch b n, [])

/-- An output that has not lost the bus leaves on it in its ec (R127). -/
theorem gatherOutput_drives {c : Ctl} {n : Nat} {g : Gather} {o : GatherOut} {rest : List GatherOut} (hready : c.sysReady = true)
    (hgather : (c.seq n).gather = some g) (houts : g.outs = o :: rest) (hec : o.ec ≤ c.ec) (hlost : o.lost = false) :
    c.gatherOutput n = (c.setSeq n { c.seq n with gather := some { g with outs := rest } }).drive n o.ec [{ granule := o.granule }] := by
  simp only [Ctl.gatherOutput, hgather, houts, hready, not_true_eq_false, Nat.not_lt.2 hec, or_self, if_false, hlost, Bool.false_eq_true]

/-- The bus with one lane: lane 0. -/
theorem busOf_single (e : Nat) (l : OutLane) :
    (busOf e [l]).lanes = 1 ∧ (busOf e [l]).data = [l.granule] ∧ (busOf e [l]).pois.getLsbD 0 = gPoison l.granule := by
  have hlane := laneMask_getLsbD (l := [l]) (by simp) (fun x => gPoison x.granule) (List.getElem?_cons_zero ..)
  exact ⟨rfl, rfl, hlane⟩

/-- Settles O23: a fetch adds the granule of its row to the sum of its bag, and an output appears alone on lane 0. -/
theorem gatherFetchAndOutput : Obligations.GatherFetchAndOutput := by
  refine ⟨fun s n g w gi hwork hn hgather hnext hdue hword => ⟨fun hnull => ?_, fun hnull htarget hcut hturned hcause htag hrow => ?_⟩,
    fun s n g o rest hwork hn hgather houts hec hlost => ?_⟩ <;> obtain ⟨hlive, hblack⟩ := hwork
  · obtain ⟨outs, hg⟩ := gather_gatherFetch hlive.1 hgather hnext hdue (fetchRow_null (b := s.banks) hword hnull)
    refine ⟨_, _, exec_gatherFetch hlive hn, hg, rfl, rfl, fun hj hbag => ?_⟩
    rw [getElem?_sumsWith hj, sumStep_none_false, if_neg hbag]
  · rw [← Nat.div_add_mod' g.next g.nRow] at hturned
    obtain ⟨outs, hg⟩ := gather_gatherFetch hlive.1 hgather hnext hdue
      (fetchRow_row (b := s.banks) hword hnull htarget hblack hcut hturned hcause htag)
    exact ⟨_, _, _, exec_gatherFetch hlive hn, hg, rfl, rfl, rfl, getElem?_sumsWith (Nat.mod_lt _ hrow) _ _⟩
  · obtain ⟨d, hd, hdrive⟩ := drive_keeps (c := s.c.setSeq n { s.c.seq n with gather := some { g with outs := rest } }) hblack n o.ec [{ granule := o.granule }]
    have hout := (gatherOutput_drives hlive.1 hgather houts hec hlost).trans hdrive
    obtain ⟨hlanes, hdata, hpois⟩ := busOf_single o.ec { granule := o.granule }
    refine ⟨_, onUnit_next (decide_eq_true hn) hlive.2 fun c => c.gatherOutput n, ?_, rfl, ?_⟩
    · rw [hout]
      exact congrArg Seq.gather ((seq_of_besideCv hd n).trans (Ctl.seq_setSeq_same _ _ _))
    · rw [hout, Tab.get_set_same]
      exact ⟨rfl, rfl, hlanes, hdata, hpois⟩

end Sys2Proof.Machine

end

section
/-! Landings that win their first slot (R218, R235 to R244). -/

namespace Sys2Proof.Machine

theorem sameRows_setArb (c : Ctl) (q : Nat) (a : Arbiter) : SameRows c (c.setArb q a) := ⟨fun _ _ _ => rfl, rfl, rfl, rfl, rfl⟩

theorem sameRows_backOff (c : Ctl) (q pb cls : Nat) (rs : List AReq) (w : AReq) (step : Nat) : SameRows c (c.backOff q pb cls rs w step) := by
  have hdown : SameRows c (c.runDown q pb rs) := by
    obtain ⟨ar, har⟩ := runDown_eq c q pb rs
    rw [har]
    exact ⟨fun _ _ _ => rfl, rfl, rfl, rfl, rfl⟩
  simp only [Ctl.backOff]
  split
  · exact hdown
  · refine forAll_keeps (P := SameRows c) (fun r _ d hd => ?_) hdown
    split
    · exact hd
    · exact hd.trans (sameRows_setArb d _ _)

theorem sameRows_grantTo (c : Ctl) (q pb cls : Nat) (w : AReq) (step : Nat) : SameRows c (c.grantTo q pb cls w step) := by
  have hgrant : ∀ d : Ctl, SameRows d ((d.countGrant w.req).useBank pb) := fun d =>
    (sameRows_satAdd d rfl (by simp only [oArbGnt]; omega) 1).trans ⟨fun _ _ _ => rfl, rfl, rfl, rfl, rfl⟩
  exact (sameRows_setArb c q _).trans (hgrant _)

/-- The account of a slot leaves the rows and their map alone (R239, R242, R243). -/
theorem sameRows_account (c : Ctl) (q pb cls : Nat) (rs : List AReq) (d : SlotWin) : SameRows c (c.account q pb cls rs d) := by
  obtain ⟨win, lost⟩ := d
  have hlost : ∀ d : Ctl, SameRows d (match lost with
      | some r => d.setArb q { d.arb q with forced := Tab.set 0 (d.arb q).forced r (Tab.get 0 (d.arb q).forced r - 1) }
      | none => d) := fun d => by
    cases lost
    · exact .refl d
    · exact sameRows_setArb d _ _
  have hwait := (sameRows_setArb c q _ : SameRows c (c.waitLosers q rs (win.map fun w => w.1))).trans (hlost _)
  cases win with
  | none => exact hwait.trans ⟨fun _ _ _ => rfl, rfl, rfl, rfl, rfl⟩
  | some w => exact hwait.trans ((sameRows_backOff _ q pb cls rs w.1 w.2).trans (sameRows_grantTo _ q pb cls w.1 w.2))

/-- A first slot that is granted leaves the rows and their map alone, and there is none in safe state. -/
theorem firstSlot_granted {c d : Ctl} {a : AReq} (h : c.firstSlot a = some (d, true)) : SameRows c d ∧ c.blackout = false := by
  simp only [Ctl.firstSlot] at h
  split at h
  · cases h
  · next hlive =>
    have hblack : c.blackout = false := by simpa using fun hb => hlive (Or.inl hb)
    split at h
    · cases h
    · split at h
      · next w _ =>
        obtain ⟨-, hd⟩ := Option.ite_none_right_eq_some.1 h
        cases hd
        exact ⟨sameRows_account c _ _ _ _ _, hblack⟩
      · obtain ⟨-, hd⟩ := Option.ite_none_right_eq_some.1 h
        cases hd

/-- A plain landing of a whole granule that its slot is granted to, and that passes its checks, commits (R61, R218). -/
theorem land_plain {c d : Ctl} {b : Tab Granule} {a : AReq} (who : Writer) (hslot : c.slotless a = false) (hsecond : a.second = none) (hacc : a.acc = none)
    (hmask : a.mask = 0xFFFFFFFF) (hfirst : c.firstSlot a = some (d, true)) (howns : d.ownsAsync a.group a.gi true = true) (htag : d.tagChecked a.gi = false) :
    c.land b a who = (((d.dropReq a.id).commit who a.gi a.granule).1, ((d.dropReq a.id).commit who a.gi a.granule).2, .lands) := by
  simp only [Ctl.land, hslot, hsecond, hfirst, Option.isSome_none, Bool.false_eq_true, if_false, Ctl.landFirst, howns, Bool.not_true, Ctl.reqTagOk, htag,
    Bool.not_false, Bool.true_or, hacc, hmask, if_true]

/-- Its commit is the write of the row of its granule (R24). -/
theorem land_plain_ops {c d : Ctl} {a : AReq} {who : Writer} (hwho : who ≠ .service) (hfac : c.boot.factory = false)
    (hfirst : c.firstSlot a = some (d, true)) : ((d.dropReq a.id).commit who a.gi a.granule).2 = c.putAt (c.keyOf (c.place a.gi)) a.granule := by
  obtain ⟨hsame, hblack⟩ := firstSlot_granted hfirst
  have hdrop : SameRows c (d.dropReq a.id) := hsame.trans ⟨fun _ _ _ => rfl, rfl, rfl, rfl, rfl⟩
  rw [(commit_keeps (hdrop.dark.trans hblack) ((congrArg Boot.factory hdrop.boot).trans hfac) hwho a.gi a.granule).2, hdrop.keyOf, hdrop.putAt]

/-- The write of the row of a granule commits it. -/
theorem commits_of_putAt {s t : State} {gi : Nat} {g : Granule} (h : t.banks = applyOps s.banks (s.c.putAt (s.c.keyOf (s.c.place gi)) g)) :
    Commits s t gi g := fun k => by
  rw [h]
  exact ⟨fun hk => rowAt_putAt_written hk s.banks g, fun hk => rowAt_putAt_other hk s.banks g⟩

/-- What the landing of a packet writes is what its slot writes. -/
theorem linkSlot_ops (c : Ctl) (p : Nat) (r : Ctl × List BankOp × LandRes) : (c.linkSlot p r).2 = r.2.1 := by
  obtain ⟨d, ops, res⟩ := r
  cases res <;> rfl

theorem exec_linkLanding {s : State} {id p k : Nat} {a : AReq} (hlive : s.live) (hreq : s.c.reqOf id = some a) (hkind : a.kind = .linkLand p k)
    (hport : a.req ≠ 40) :
    ∃ c, exec (.linkLanding id) s = .next { s with c := c, banks := applyOps s.banks (s.c.land s.banks a .other).2.1 } := by
  refine ⟨(s.c.linkLanding s.banks id).1, (onBanks_next rfl hlive.2 fun b c => c.linkLanding b id).trans ?_⟩
  have hops : (s.c.linkLanding s.banks id).2 = (s.c.land s.banks a .other).2.1 := by
    simp only [Ctl.linkLanding, hreq, hkind, hport, if_false, linkSlot_ops]
  rw [hops]

end Sys2Proof.Machine

end

section
/-! Rounds of ordered windows (R135). -/

namespace Sys2Proof.Machine

/-- Requests presented for the numbers of a list: one each, in order. -/
theorem forAll_request {mk : Nat → Ctl → AReq} {kind : Nat → AKind} (hkind : ∀ k d, (mk k d).kind = kind k) (hsince : ∀ k d, (mk k d).since = d.bc)
    (l : List Nat) (c : Ctl) : ∃ new n, forAll l (fun k c => c.request (mk k c)) c = { c with areqs := c.areqs ++ new, nextReq := n } ∧
      new.map AReq.kind = l.map kind ∧ ∀ a ∈ new, a.since = c.bc := by
  induction l generalizing c with
  | nil => exact ⟨[], c.nextReq, by rw [List.append_nil]; rfl, rfl, List.forall_mem_nil _⟩
  | cons k l ih =>
    obtain ⟨new, n, hnew, hkinds, hall⟩ := ih (c.request (mk k c))
    refine ⟨{ mk k c with id := c.nextReq } :: new, n, ?_, ?_, ?_⟩
    · rw [forAll_cons, hnew, Ctl.request, List.append_assoc]
      rfl
    · rw [List.map_cons, hkinds, List.map_cons, ← hkind k c]
    · exact List.forall_mem_cons.2 ⟨hsince k c, hall⟩

/-- A packet in the place of those with its number. -/
def replacePacket (l : List Accepted) (p : Accepted) : List Accepted := l.map fun q => if q.id = p.id then p else q

/-- A held packet as its round is applied. -/
def Accepted.applied (p : Accepted) : Accepted := { p with phase := .applying, left := hLen p.header }

/-- The request that reads back granule `k` of packet `p` of window `w` (R135). -/
def Ctl.readBackReq (w : Nat) (p : Accepted) (k : Nat) (c : Ctl) : AReq :=
  { id := 0, req := 41 + (c.place (c.pktGi w (hOffset p.header) k)).quad, kind := .stageRead p.id k, gi := p.stage.getD k 0, group := c.winOwner w,
    write := false, mask := pktMask p.header k, order := p.taken, since := c.bc, dest := c.pktGi w (hOffset p.header) k }

/-- The granules of packet `p` of window `w` are read back. -/
def Ctl.applyPacket (w : Nat) (c : Ctl) (p : Accepted) : Ctl :=
  forAll (List.range (hLen p.header)) (fun k c => c.request (Ctl.readBackReq w p k c)) (c.putPacket p.applied)

/-- A round that is complete is applied (R135). -/
theorem roundApply_complete {c : Ctl} {w : Nat} (hblack : c.blackout = false) (hready : c.sysReady = true) (hstate : c.wn w win_STATE = 1)
    (hord : c.wn w win_ORDERED = 1) (hheld : c.roundHeld w ≠ [])
    (hall : (c.roundHeld w).length = c.wn w win_ORD_RANKS * c.wn w win_ORD_PER_RANK) :
    c.roundApply w = ((c.roundHeld w).foldr insPacket []).foldl (Ctl.applyPacket w) c := by
  simp only [Ctl.roundApply, hblack, Bool.false_eq_true, Ctl.active, hready, Bool.true_or, not_true_eq_false, hstate, hord, hall, hheld, ne_eq, or_self, if_false]
  rfl

theorem roundApply_incomplete {c : Ctl} {w : Nat} (h : (c.roundHeld w).length ≠ c.wn w win_ORD_RANKS * c.wn w win_ORD_PER_RANK) : c.roundApply w = c := by
  simp only [Ctl.roundApply, ne_eq, h, not_false_eq_true, true_or, or_true, if_true]

/-- The read-backs of packets `ps`, in order. -/
def readBacks (ps : List Accepted) : List AKind := ps.flatMap fun p => (List.range (hLen p.header)).map fun k => AKind.stageRead p.id k

theorem foldl_applyPacket (w : Nat) (ps : List Accepted) (c : Ctl) : ∃ new n, ps.foldl (Ctl.applyPacket w) c =
      { c with packets := (ps.map Accepted.applied).foldl replacePacket c.packets, areqs := c.areqs ++ new, nextReq := n } ∧
    new.map AReq.kind = readBacks ps ∧ ∀ a ∈ new, a.since = c.bc := by
  induction ps generalizing c with
  | nil => exact ⟨[], c.nextReq, by rw [List.append_nil]; rfl, rfl, List.forall_mem_nil _⟩
  | cons p ps ih =>
    obtain ⟨new, n, hnew, hkinds, hall⟩ := forAll_request (mk := Ctl.readBackReq w p) (kind := fun k => .stageRead p.id k) (fun _ _ => rfl) (fun _ _ => rfl)
      (List.range (hLen p.header)) (c.putPacket p.applied)
    obtain ⟨more, m, hmore, hkinds', hall'⟩ := ih (c.applyPacket w p)
    rw [← Ctl.applyPacket] at hnew
    refine ⟨new ++ more, m, ?_, ?_, ?_⟩
    · rw [List.foldl_cons, hmore, hnew, List.append_assoc]
      rfl
    · rw [List.map_append, hkinds, hkinds']
      rfl
    · rw [hnew] at hall'
      exact List.forall_mem_append.2 ⟨hall, hall'⟩

/-- A packet with number `i` is being applied. -/
def Applying (i : Nat) (l : List Accepted) : Prop := ∃ p ∈ l, p.id = i ∧ p.phase = .applying

theorem applying_replace {i : Nat} {l : List Accepted} {p : Accepted} (hp : p.phase = .applying)
    (h : Applying i l ∨ p.id = i ∧ ∃ q ∈ l, q.id = i) : Applying i (replacePacket l p) := by
  have hput : ∀ q ∈ l, q.id = i → q.phase = .applying ∨ p.id = i → Applying i (replacePacket l p) := fun q hq hqi hor => by
    refine ⟨_, List.mem_map_of_mem hq, ?_⟩
    split
    · next he => exact ⟨he.symm.trans hqi, hp⟩
    · next he => exact ⟨hqi, hor.resolve_right fun hpi => he (hqi.trans hpi.symm)⟩
  obtain ⟨q, hq, hqi, hphase⟩ | ⟨hpi, q, hq, hqi⟩ := h
  · exact hput q hq hqi (.inl hphase)
  · exact hput q hq hqi (.inr hpi)

theorem mem_replace_id {i : Nat} {l : List Accepted} (p : Accepted) (h : ∃ q ∈ l, q.id = i) : ∃ q ∈ replacePacket l p, q.id = i := by
  obtain ⟨q, hq, hqi⟩ := h
  refine ⟨_, List.mem_map_of_mem hq, ?_⟩
  split
  · next he => exact he.symm.trans hqi
  · exact hqi

theorem applying_foldl {i : Nat} (ps : List Accepted) {l : List Accepted} (h : Applying i l ∨ (∃ p ∈ ps, p.id = i) ∧ ∃ q ∈ l, q.id = i) :
    Applying i ((ps.map Accepted.applied).foldl replacePacket l) := by
  induction ps generalizing l with
  | nil => exact h.resolve_right fun ⟨⟨_, hp, _⟩, _⟩ => nomatch hp
  | cons p ps ih =>
    rw [List.map_cons, List.foldl_cons]
    refine ih ?_
    obtain h | ⟨⟨q, hq, hqi⟩, hl⟩ := h
    · exact .inl (applying_replace rfl (.inl h))
    · obtain rfl | hq := List.mem_cons.1 hq
      · exact .inl (applying_replace rfl (.inr ⟨hqi, hl⟩))
      · exact .inr ⟨⟨q, hq, hqi⟩, mem_replace_id _ hl⟩

theorem perm_insPacket (p : Accepted) (l : List Accepted) : (insPacket p l).Perm (p :: l) := by
  induction l with
  | nil => exact .refl _
  | cons q l ih =>
    rw [insPacket]
    split
    · exact .refl _
    · exact (ih.cons q).trans (.swap p q l)

theorem perm_sortPackets (l : List Accepted) : (l.foldr insPacket []).Perm l := by
  induction l with
  | nil => exact .refl _
  | cons p l ih => exact (perm_insPacket p _).trans (ih.cons p)

theorem exec_roundApply {s : State} {w : Nat} (hlive : s.live) (hw : w < 1024) : exec (.roundApply w) s = .next (s.units (s.c.roundApply w)) :=
  onUnit_next (decide_eq_true hw) hlive.2 fun c => c.roundApply w

/-- Settles O36: landings commit through land_plain, and a round is read back by foldl_applyPacket. -/
theorem packetLandingsAndRounds : Obligations.PacketLandingsAndRounds := by
  refine ⟨fun s id p k a c hlive _ hfac hreq hkind hslot hport hsecond hacc hmask hfirst howns htag => ?_,
    fun s w hwork hw hstate hord hheld hall => ?_, fun s w hwork hw hfew => ?_⟩
  · obtain ⟨d, hexec⟩ := exec_linkLanding hlive hreq hkind hport
    rw [land_plain .other hslot hsecond hacc hmask hfirst howns htag, land_plain_ops (by decide) hfac hfirst] at hexec
    exact ⟨_, hexec, commits_of_putAt rfl, rfl⟩
  · obtain ⟨hlive, hblack⟩ := hwork
    obtain ⟨new, n, hnew, hkinds, hsince⟩ := foldl_applyPacket w ((s.c.roundHeld w).foldr insPacket []) s.c
    rw [← roundApply_complete hblack hlive.1 hstate hord hheld hall] at hnew
    refine ⟨_, new, exec_roundApply hlive hw, ?_, hkinds, hsince, fun p hp => ?_, ?_⟩
    · rw [hnew]
      rfl
    · rw [hnew]
      exact applying_foldl _ (.inr ⟨⟨p, (perm_sortPackets _).mem_iff.2 hp, rfl⟩, p, List.mem_of_mem_filter hp, rfl⟩)
    · rw [hnew]
      rfl
  · rw [exec_roundApply hwork.1 hw, roundApply_incomplete (Nat.ne_of_lt hfew), State.units]

end Sys2Proof.Machine

end

section
/-! Packed elements, and the granules that a conversion produces (R106, R112 to R118). -/

namespace Sys2Proof.Machine

/-! ### Packed bits -/

theorem bits_mod (v lo w : Nat) : bits v lo w % 2 ^ w = bits v lo w := Nat.mod_eq_of_lt (bits_lt v lo w)

/-- Above a number of `n` bits stands what is shifted over it. -/
theorem bits_above {n y : Nat} (hy : y < 2 ^ n) (t lo w : Nat) : bits (y + t <<< n) (n + lo) w = bits t lo w := by
  rw [bits, bits, Nat.shiftRight_eq_div_pow, Nat.shiftRight_eq_div_pow, Nat.shiftLeft_eq, Nat.pow_add, ← Nat.div_div_eq_div_mul,
    Nat.add_mul_div_right _ _ (Nat.two_pow_pos n), Nat.div_eq_of_lt hy, Nat.zero_add]

theorem bits_below {n y : Nat} (hy : y < 2 ^ n) (t : Nat) {lo w : Nat} (h : lo + w ≤ n) : bits (y + t <<< n) lo w = bits y lo w := by
  rw [← bits_mod_two_pow _ h, Nat.shiftLeft_eq, Nat.add_mul_mod_self_right, Nat.mod_eq_of_lt hy]

/-- Element `i` of a packing. -/
theorem bits_packElems {w : Nat} (l : List Nat) {i x : Nat} (h : l[i]? = some x) : bits (packElems w l) (w * i) w = x % 2 ^ w := by
  induction l generalizing i with
  | nil => simp at h
  | cons y l ih =>
    have hy : y % 2 ^ w < 2 ^ w := Nat.mod_lt _ (Nat.two_pow_pos w)
    cases i with
    | zero =>
      obtain rfl : y = x := by simpa using h
      rw [packElems, Nat.mul_zero, bits_below hy _ (Nat.zero_add w).le, bits, Nat.shiftRight_zero, Nat.mod_mod]
    | succ i => rw [packElems, Nat.mul_succ, Nat.add_comm (w * i) w, bits_above hy, ih (by simpa using h)]

theorem packData_cons (d : Nat) (t : List Nat) : packData (d :: t) = d + packData t <<< 256 := rfl

/-- Bits within granule `i` of concatenated data are those of its own data. -/
theorem bits_packData (l : List Nat) (hl : ∀ x ∈ l, x < 2 ^ 256) {i x off w : Nat} (h : l[i]? = some x) (hoff : off + w ≤ 256) :
    bits (packData l) (256 * i + off) w = bits x off w := by
  induction l generalizing i with
  | nil => simp at h
  | cons y l ih =>
    have hy : y < 2 ^ 256 := hl y (List.mem_cons_self ..)
    cases i with
    | zero =>
      obtain rfl : y = x := by simpa using h
      rw [packData_cons, Nat.mul_zero, Nat.zero_add, bits_below hy _ hoff]
    | succ i =>
      rw [packData_cons, Nat.mul_succ, Nat.add_comm (256 * i) 256, Nat.add_assoc, bits_above hy,
        ih (fun z hz => hl z (List.mem_cons_of_mem _ hz)) (by simpa using h)]

/-! ### Converted elements (R117) -/

theorem signed_lt {w mag : Nat} (hw : 0 < w) (neg : Bool) (h : mag < 2 ^ (w - 1)) : signed w neg mag < 2 ^ w := by
  obtain ⟨v, rfl⟩ := Nat.exists_eq_add_of_le' hw
  rw [signed, Nat.shiftLeft_eq, Nat.pow_succ]
  rw [Nat.add_sub_cancel] at h ⊢
  cases neg
  · rw [Bool.toNat_false, Nat.zero_mul]
    omega
  · rw [Bool.toNat_true, Nat.one_mul]
    omega

theorem clamp8_lt (neg : Bool) (mag : Nat) : clamp8 neg mag < 2 ^ 8 := by
  rw [clamp8]
  split <;> omega

/-- A converted element has the width of its format. -/
theorem convElem_lt (d : Dst) (sat : Bool) (v : FVal) : convElem d sat v < 2 ^ d.width := by
  have hsigned : d ≠ .int8 → ∀ neg mag, mag ≤ d.specials.2.2.1 → signed d.width neg mag < 2 ^ d.width := fun hd neg mag h =>
    signed_lt (by cases d <;> decide) neg (Nat.lt_of_le_of_lt h (by cases d <;> decide))
  have hmax : d.specials.2.2.2 ≤ d.specials.2.2.1 := by cases d <;> decide
  by_cases hd : d = .int8
  · subst hd
    cases v with
    | nan => exact Nat.two_pow_pos 8
    | inf neg => cases neg <;> cases sat <;> decide
    | num neg m e => exact clamp8_lt neg _
  · have hover : ∀ neg, (if sat = true then signed d.width neg d.specials.2.2.2
        else if d = .e4m3 then 0x7F else signed d.width neg d.specials.2.2.1) < 2 ^ d.width := fun neg => by
      split
      · exact hsigned hd neg _ hmax
      · split
        · next he => subst he; decide
        · exact hsigned hd neg _ le_rfl
    cases v with
    | nan => cases d <;> cases sat <;> decide
    | inf neg =>
      cases d with
      | int8 => exact absurd rfl hd
      | _ => exact hover neg
    | num neg m e =>
      have hnum : (if d.specials.1.magnitude m e ≤ d.specials.2.2.2 then signed d.width neg (d.specials.1.magnitude m e)
          else if sat = true then signed d.width neg d.specials.2.2.2
          else if d = .e4m3 then 0x7F else signed d.width neg d.specials.2.2.1) < 2 ^ d.width := by
        split
        · next h => exact hsigned hd neg _ (h.trans hmax)
        · exact hover neg
      cases d with
      | int8 => exact absurd rfl hd
      | _ => exact hnum

/-! ### Produced granules (R106, R118) -/

theorem gPoison_encode (rep : Bool) (m : Nat) : gPoison (encode rep m) = m.testBit 256 := by
  have hk : 256 < codeK rep := by cases rep <;> decide
  rw [gPoison, encode, BitVec.toNat_ofNat, Nat.testBit_mod_two_pow, Nat.shiftLeft_eq, Nat.add_comm, Nat.mul_comm,
    Nat.testBit_two_pow_mul_add _ (Nat.mod_lt _ (Nat.two_pow_pos _)), if_pos hk, Nat.testBit_mod_two_pow]
  simp [hk]

/-- A produced granule without error is not poisoned, and carries its data. -/
theorem produced_good {data : Nat} (h : data < 2 ^ 256) : gPoison (produced false data).granule = false ∧ gData (produced false data).granule = data := by
  have htag : (data % 2 ^ 256 + false.toNat <<< 256 + true.toNat <<< 257 + (0 % 1024) <<< 258).testBit 256 = false := by
    rw [Nat.mod_eq_of_lt h, Nat.testBit_eq_decide_div_mod_eq]
    simp only [Bool.toNat_false, Bool.toNat_true, Nat.shiftLeft_eq]
    rw [show (data + 0 * 2 ^ 256 + 1 * 2 ^ 257 + 0 % 1024 * 2 ^ 258) / 2 ^ 256 = 2 by omega]
    decide
  exact ⟨(gPoison_encode false _).trans htag, (gData_mkWorking data false true 0).trans (Nat.mod_eq_of_lt h)⟩

theorem produced_bad (data : Nat) : (produced true data).granule = poisonGranule false := by rw [produced, if_pos rfl]

/-! ### A delivered granule of a conversion (R113 to R118) -/

theorem Dst.width_pos (d : Dst) : 0 < d.width := by cases d <;> decide

theorem Dst.per_pos (d : Dst) : 0 < 256 / d.width := by cases d <;> decide

theorem Dst.width_mul (d : Dst) : d.width * (256 / d.width) = 256 := by cases d <;> decide

theorem convGranule_lt (src : Nat) (d : Dst) (sat : Bool) (data : Nat) (pos : List Nat) (scale k : Nat) :
    convGranule src d sat data pos scale k < 2 ^ 256 := by
  have h := packElems_lt d.width ((List.range (256 / d.width)).map fun i => convAt src d sat data pos scale (256 / d.width * k + i))
  rwa [List.length_map, List.length_range, d.width_mul] at h

theorem convAt_lt (src : Nat) (d : Dst) (sat : Bool) (data : Nat) (pos : List Nat) (scale e : Nat) : convAt src d sat data pos scale e < 2 ^ d.width := by
  simp only [convAt]
  split
  · exact convElem_lt d sat _
  · exact convElem_lt d sat _

theorem bits_convGranule (src : Nat) (d : Dst) (sat : Bool) (data : Nat) (pos : List Nat) (scale k : Nat) {i : Nat} (h : i < 256 / d.width) :
    bits (convGranule src d sat data pos scale k) (d.width * i) d.width = convAt src d sat data pos scale (256 / d.width * k + i) := by
  rw [convGranule, bits_packElems (x := convAt src d sat data pos scale (256 / d.width * k + i)) _ (by rw [List.getElem?_map, List.getElem?_range h]; rfl)]
  exact Nat.mod_eq_of_lt (convAt_lt src d sat data pos scale _)

/-- Element `e` of the output stream is stored element `e` converted, with the scale of its block (R114). -/
theorem convAt_eq (src : Nat) (d : Dst) (sat : Bool) (data pos : List Nat) (scale e : Nat) :
    convAt src d sat (packData data) pos scale e = convElem d sat (elementValue src data pos scale e) := by
  have hblock : srcMx src = true → mxBlock src (pos.getD 0 0) (pos.getD (if srcWidth src = 6 then 0 else e / (256 / srcWidth src)) 0) e (e % (256 / srcWidth src)) =
      blockOf src pos e := fun h => by
    rw [srcMx, decide_eq_true_eq] at h
    obtain ⟨hlo, hhi⟩ := h
    interval_cases src <;> rfl
  cases hmx : srcMx src with
  | false => simp only [convAt, elementValue, storedElement, hmx, Bool.false_eq_true, if_false]
  | true => simp only [convAt, elementValue, storedElement, hmx, if_true, hblock hmx]

end Sys2Proof.Machine

end

section
/-! The granules of a conversion read (R113 to R119). -/

namespace Sys2Proof.Machine

/-! ### The lanes that contribute to an output granule (R118) -/

theorem any_window {α : Type} (l : List α) (a b : Nat) (p : α → Bool) :
    ((l.drop a).take (b + 1 - a)).any p = true ↔ ∃ i x, l[i]? = some x ∧ (a ≤ i ∧ i ≤ b) ∧ p x = true := by
  simp only [List.any_eq_true, List.mem_iff_getElem?, List.getElem?_take, List.getElem?_drop, Option.ite_none_right_eq_some]
  constructor
  · rintro ⟨x, ⟨i, hi, hx⟩, hp⟩
    exact ⟨a + i, x, hx, by omega, hp⟩
  · rintro ⟨i, x, hx, hi, hp⟩
    exact ⟨x, ⟨i - a, by omega, by rwa [Nat.add_sub_cancel' hi.1]⟩, hp⟩

theorem any_mapIdx {α : Type} (l : List α) (f : Nat → α → Bool) : (l.mapIdx f).any id = true ↔ ∃ i x, l[i]? = some x ∧ f i x = true := by
  simp only [List.any_eq_true, List.mem_iff_getElem?, List.getElem?_mapIdx, Option.map_eq_some_iff, id_eq]
  constructor
  · rintro ⟨_, ⟨i, x, hx, rfl⟩, hp⟩
    exact ⟨i, x, hx, hp⟩
  · rintro ⟨i, x, hx, hp⟩
    exact ⟨_, ⟨i, x, hx, rfl⟩, hp⟩

/-- The contributing lanes are those from the first to the last of convLanes. -/
theorem contributes_iff {src : Nat} (hsrc : 0 < srcWidth src) (d : Dst) (k i : Nat) :
    contributes (srcWidth src) (256 / d.width) k i = true ↔ (convLanes src d k).1 ≤ i ∧ i ≤ (convLanes src d k).2 := by
  have hper := d.per_pos
  have hpos : 0 < srcWidth src * (256 / d.width) * (k + 1) := Nat.mul_pos (Nat.mul_pos hsrc hper) k.succ_pos
  have hmul : ∀ x, 256 / d.width * x * srcWidth src = srcWidth src * (256 / d.width) * x := fun x => by
    rw [Nat.mul_comm, Nat.mul_assoc]
  rw [contributes, decide_eq_true_eq]
  simp only [convLanes, hmul]
  omega

theorem any_convLanes {src : Nat} (hsrc : 0 < srcWidth src) (d : Dst) (k : Nat) {α : Type} (els : List α) (p : α → Bool) :
    ((els.drop (convLanes src d k).1).take ((convLanes src d k).2 + 1 - (convLanes src d k).1)).any p =
      (els.mapIdx fun i l => contributes (srcWidth src) (256 / d.width) k i && p l).any id := by
  rw [Bool.eq_iff_iff, any_window, any_mapIdx]
  simp only [Bool.and_eq_true, contributes_iff hsrc]

/-! ### The output granules -/

/-- What a conversion takes from a lane: whether it is bad, whether its format code misfits, and its data. -/
def RLane.source (src : Nat) (l : RLane) : Bool × Bool × Nat := (l.bad, l.misfit src, gData l.granule)

/-- Output granule `k` of a conversion of element lanes `els` with scale lane `sc`. -/
theorem convOuts_lanes {src : Nat} (hsrc : 0 < srcWidth src) (d : Dst) (sat : Bool) (els : List RLane) (sc : RLane) (pos : List Nat) :
    convOuts src d sat (els.map (RLane.source src)) pos (some (sc.source src)) = (List.range (convD src d els.length)).map fun k =>
      { data := convGranule src d sat (packData (els.map fun l => gData l.granule)) pos (gData sc.granule) k
        bad := someSource (srcWidth src) (256 / d.width) k els sc fun l => l.bad
        format := someSource (srcWidth src) (256 / d.width) k els sc fun l => l.misfit src } := by
  simp only [convOuts, List.length_map, List.map_map, someSource, ← any_convLanes hsrc, ← List.map_drop, ← List.map_take, List.any_map]
  rfl

/-- A source is bad or misfits when it is bad or it misfits. -/
theorem someSource_or (w per k : Nat) (els : List RLane) (sc : RLane) (p q : RLane → Bool) :
    someSource w per k els sc (fun l => p l || q l) = (someSource w per k els sc p || someSource w per k els sc q) := by
  rw [Bool.eq_iff_iff]
  simp only [someSource, Bool.or_eq_true, any_mapIdx, Bool.and_eq_true]
  constructor
  · rintro ((h | h) | ⟨i, x, hx, hc, h | h⟩)
    · exact .inl (.inl h)
    · exact .inr (.inl h)
    · exact .inl (.inr ⟨i, x, hx, hc, h⟩)
    · exact .inr (.inr ⟨i, x, hx, hc, h⟩)
  · rintro ((h | ⟨i, x, hx, hc, h⟩) | (h | ⟨i, x, hx, hc, h⟩))
    · exact .inl (.inl h)
    · exact .inr ⟨i, x, hx, hc, .inl h⟩
    · exact .inl (.inr h)
    · exact .inr ⟨i, x, hx, hc, .inr h⟩

/-- The scale lane of an access, or none: a lane that scales nothing. -/
theorem source_scale (src : Nat) (o : Option RLane) : (o.map (RLane.source src)).getD (false, false, 0) = (o.getD { gi := 0 }).source src := by
  cases o with
  | none => simp [RLane.source, RLane.misfit, gData]
  | some l => rfl

section
variable {arg src : Nat} {d : Dst} {lanes els : List RLane} {sc : RLane} {pos : List Nat} (hsrc : src = argSrc arg) (hdst : dstOf (argDst arg) = some d)
  (hels : els = lanes.filter fun l => !l.scale) (hsc : sc = (lanes.find? fun l => l.scale).getD { gi := 0 }) (hpos : pos = els.map fun l => l.gi % mxGroup src)
include hsrc hdst hels hsc hpos

/-- A conversion read delivers poisoned granules where its lanes break R115, else its output granules, and counts those of a format code. -/
theorem convDeliver_eq (hwidth : 0 < srcWidth src) : convDeliver arg lanes =
    if srcMx src && !mxLanesOk src (els.map fun l => l.gi) then
      ((List.range (convD src d els.length)).map fun _ => produced true 0, convD src d els.length)
    else
      ((List.range (convD src d els.length)).map fun k =>
          produced (someSource (srcWidth src) (256 / d.width) k els sc fun l => l.bad || l.misfit src)
            (convGranule src d (argSat arg) (packData (els.map fun l => gData l.granule)) pos (gData sc.granule) k),
        ((List.range (convD src d els.length)).filter fun k => someSource (srcWidth src) (256 / d.width) k els sc fun l => l.misfit src).length) := by
  have hscale := source_scale src (lanes.find? fun l => l.scale)
  have houts : convOuts src d (argSat arg) (els.map (RLane.source src)) pos ((lanes.find? fun l => l.scale).map (RLane.source src)) =
      convOuts src d (argSat arg) (els.map (RLane.source src)) pos (some (sc.source src)) := by
    rw [hsc, ← hscale]
    rfl
  have hunfold : ∀ os, os = convOuts src d (argSat arg) (els.map (RLane.source src)) pos ((lanes.find? fun l => l.scale).map (RLane.source src)) →
      convDeliver arg lanes = if srcMx src && !mxLanesOk src (els.map fun l => l.gi) then (os.map fun _ => produced true 0, os.length)
        else (os.map fun o => produced (o.bad || o.format) o.data, (os.filter fun o => o.format).length) := by
    rintro os rfl
    subst hsrc hels hpos
    simp only [convDeliver, hdst, List.map_map]
    rfl
  rw [hunfold _ rfl, houts, convOuts_lanes hwidth]
  simp only [List.map_map, List.length_map, List.length_range, List.filter_map, Function.comp_def, someSource_or]

end

end Sys2Proof.Machine

end

section
/-! The delivery of conversion and transposed reads (R40, R118, R141). -/

namespace Sys2Proof.Machine

/-! ### What the taking of forwarded values keeps -/

/-- The registers of the region map and of the quadrants are those of `c`. -/
structure SameQuads (c d : Ctl) : Prop where
  reg : ∀ o, 0x40000 ≤ o → o < 0x50000 → d.reg o = c.reg o

namespace SameQuads

variable {c d e : Ctl}

theorem refl (c : Ctl) : SameQuads c c := ⟨fun _ _ _ => rfl⟩

theorem trans (h : SameQuads c d) (k : SameQuads d e) : SameQuads c e :=
  ⟨fun o ho ho' => (k.reg o ho ho').trans (h.reg o ho ho')⟩

theorem place (h : SameQuads c d) (gi : Nat) : d.place gi = c.place gi :=
  (SameRows.place (c := c) (d := { c with regs := d.regs }) ⟨fun o ho ho' => h.reg o ho (by omega), rfl, rfl, rfl, rfl⟩ gi :)

theorem fld (h : SameQuads c d) {o : Nat} {f : FieldPos} (ho : 0x40000 ≤ o) (hf : o + 8 * f.word < 0x50000) : d.fld o f = c.fld o f := by
  rw [Ctl.fld, h.reg _ (by omega) hf, ← Ctl.fld]

theorem setFld (c : Ctl) {o : Nat} {f : FieldPos} (h : o + 8 * f.word < 0x40000 ∨ 0x50000 ≤ o + 8 * f.word) (x : Nat) : SameQuads c (c.setFld o f x) :=
  ⟨fun o' _ _ => c.reg_setFld_ne x (by omega)⟩

theorem satAdd (c : Ctl) {o : Nat} {f : FieldPos} (h : o + 8 * f.word < 0x40000 ∨ 0x50000 ≤ o + 8 * f.word) (x : Nat) : SameQuads c (c.satAdd o f x) :=
  ⟨fun o' ho ho' => (c.satAdd_reg o f x o').trans ((setFld c h _).reg o' ho ho')⟩

theorem flag (c : Ctl) {o : Nat} {f : FieldPos} (h : o + 8 * f.word < 0x40000 ∨ 0x50000 ≤ o + 8 * f.word) : SameQuads c (c.flag o f) :=
  ⟨fun o' ho ho' => (c.flag_reg o f o').trans ((setFld c h 1).reg o' ho ho')⟩

theorem raiseAt (c : Ctl) (x unit : Nat) : SameQuads c (c.raiseAt x 10 unit) := by
  rw [Ctl.raiseAt]
  split
  · exact ⟨fun o ho ho' => reg_raise_ne c 10 unit (by
      simp only [raiseRegs, oFltCnt, oFltSticky, oFltStat, oFltCap, List.mem_cons, List.not_mem_nil, or_false, not_or]
      omega)⟩
  · exact ⟨fun o _ _ => reg_of_regs rfl o⟩

theorem foldl {α : Type} {f : Ctl → α → Ctl} (hf : ∀ c x, SameQuads c (f c x)) (l : List α) (c : Ctl) : SameQuads c (l.foldl f c) := by
  induction l generalizing c with
  | nil => exact refl c
  | cons x l ih => exact (hf c x).trans (ih _)

theorem cvFill (c : Ctl) (n : Nat) (write : Bool) (lane cause gi bc sceneNo off : Nat) : SameQuads c (c.cvFill n write lane cause gi bc sceneNo off) := by
  refine ⟨fun o _ ho => ?_⟩
  have hset : ∀ (d : Ctl) (r : Nat) (f : FieldPos) (x : Nat), 0x50000 ≤ r + 8 * f.word → (d.setFld r f x).reg o = d.reg o := fun d r f x h =>
    d.reg_setFld_ne x (by omega)
  simp (disch := decide) only [Ctl.cvFill, List.foldl_cons, List.foldl_nil, Ctl.flag_reg, hset]

theorem cueViolation (c : Ctl) (n : Nat) (write : Bool) (lane cause gi bc sceneNo off : Nat) :
    SameQuads c (c.cueViolation n write lane cause gi bc sceneNo off) := by
  have hcount : SameQuads c (c.satAdd oCvCount ⟨0, 0, 32⟩ 1) := satAdd c (by decide) 1
  simp only [Ctl.cueViolation]
  refine trans ?_ (raiseAt _ _ _)
  split
  · exact hcount.trans (cvFill ..)
  · refine trans ?_ (flag _ (by decide))
    split
    · exact hcount.trans (cvFill ..)
    · exact hcount

theorem cvFurther (c : Ctl) (n lane cause gi bc sceneNo off : Nat) : SameQuads c (c.cvFurther n lane cause gi bc sceneNo off) := by
  simp only [Ctl.cvFurther]
  split
  · exact cvFill ..
  · exact refl c

theorem countRead (c : Ctl) (n : Nat) (x : Cause) : SameQuads c (c.countRead n x) := by
  rw [Ctl.countRead]
  split
  · exact satAdd c (by simp only [oPstat]; omega) 1
  · split
    · exact satAdd c (by simp only [oPstat]; omega) 1
    · exact refl c

theorem putRead (h : SameQuads c d) (n : Nat) (r : RAccess) : SameQuads c (d.putRead n r) := ⟨fun o ho ho' => (reg_of_regs rfl o).trans (h.reg o ho ho')⟩

theorem readJudge (c : Ctl) (n : Nat) (r r' : RAccess) : SameQuads c (c.readJudge n r r') := by
  have hcount := fun l => foldl (fun c (x : Nat × RLane × RLane) => countRead c n x.2.2.cause) l c
  simp only [Ctl.readJudge]
  split
  · exact (hcount _).putRead n _
  · split
    · exact (hcount _).putRead n _
    · refine putRead ?_ n _
      split
      · exact (hcount _).trans (cvFurther ..)
      · exact (hcount _).trans (cueViolation ..)

end SameQuads

/-- The read access `y` is `x` but for forwarded lanes and the mark of a violation. -/
structure RAccess.Keeps (x y : RAccess) : Prop where
  id      : y.id = x.id
  tile    : y.tile = x.tile
  checked : y.checked = x.checked
  lane    : ∀ (k : Nat) (l : RLane), x.lanes[k]? = some l → l.fwd = none → y.lanes[k]? = some l

/-- Every read access of `q'` is one of `q` but for forwarded lanes. -/
def Seq.ReadsKept (q q' : Seq) : Prop := ∀ y ∈ q'.reads, ∃ x ∈ q.reads, x.Keeps y

theorem readsKept_forwardsRead {q : Seq} {c : Ctl} {upto e n : Nat} {r : RAccess} (hq : q.ReadsKept (c.seq n)) (hr : r ∈ q.reads) :
    q.ReadsKept ((c.forwardsRead upto e n r).seq n) := by
  obtain ⟨v, hv⟩ := seq_readJudge c n r { r with lanes := r.lanes.map (c.forwardLane (c.seq n) r upto e) }
  intro y hy
  rw [Ctl.forwardsRead, hv] at hy
  obtain ⟨x, hx, rfl⟩ := List.mem_map.1 hy
  split
  · refine ⟨r, hr, rfl, rfl, rfl, fun k l hl hfwd => ?_⟩
    rw [List.getElem?_map, hl, Option.map_some, forwardLane_of_fwd_none hfwd]
  · exact hq x hx

theorem foldl_forwardsRead_keeps {q : Seq} (upto e n : Nat) (l : List RAccess) (hl : ∀ r ∈ l, r ∈ q.reads) {c : Ctl} (hq : q.ReadsKept (c.seq n)) :
    SameQuads c (l.foldl (Ctl.forwardsRead upto e n) c) ∧ q.ReadsKept ((l.foldl (Ctl.forwardsRead upto e n) c).seq n) := by
  induction l generalizing c with
  | nil => exact ⟨.refl c, hq⟩
  | cons r l ih =>
    obtain ⟨hsame, hkept⟩ := ih (fun r hr => hl r (List.mem_cons_of_mem _ hr)) (readsKept_forwardsRead (upto := upto) (e := e) hq (hl r (List.mem_cons_self ..)))
    exact ⟨SameQuads.trans (.readJudge c n r _) hsame, hkept⟩

/-- The taking of forwarded values leaves the map, the statistics of the quadrants, and the lanes that are not forwarded. -/
theorem forwardsOf_keepsLanes (c : Ctl) (upto e n : Nat) (hnodup : ((c.seq n).reads.map fun x => x.id).Nodup) :
    SameQuads c (c.forwardsOf upto e n) ∧ SameBut n c (c.forwardsOf upto e n) ∧ ∃ f, Forwarded f ∧ (∀ x ∈ (c.seq n).reads, x.Keeps (f x)) ∧
      (c.forwardsOf upto e n).seq n = { c.seq n with reads := (c.seq n).reads.map f } := by
  obtain ⟨hsame, f, hf, hseq⟩ := forwardsOf_keeps c upto e n hnodup
  obtain ⟨hquads, hkept⟩ := foldl_forwardsRead_keeps upto e n ((c.seq n).reads.filter RAccess.waits) (fun r hr => List.mem_of_mem_filter hr)
    (c := c) (q := c.seq n) fun x hx => ⟨x, hx, rfl, rfl, rfl, fun _ _ h _ => h⟩
  rw [← forwardsOf_eq] at hquads hkept
  refine ⟨hquads, hsame, f, hf, fun x hx => ?_, hseq⟩
  obtain ⟨x', hx', hkeeps⟩ := hkept (f x) (by rw [hseq]; exact List.mem_map_of_mem hx)
  rwa [List.inj_on_of_nodup_map hnodup hx' hx (hkeeps.id.symm.trans (hf.id x))] at hkeeps

end Sys2Proof.Machine

end

section
/-! READ_DELIVERY of conversion and transposed reads (R40, R118). -/

namespace Sys2Proof.Machine

/-- Sequencer `q` once read access `r` has been delivered. -/
def Seq.delivered (q : Seq) (r : RAccess) : Seq := { q with reads := q.reads.map fun y => if y.id = r.id then { r with done := true } else y }

/-- The lanes that read access `r` of sequencer `n` delivers, and how many are counted. -/
def Ctl.outLanes (c : Ctl) (n : Nat) (r : RAccess) : List OutLane × Nat := ((c.seq n).delivered r).deliverLanes { r with done := true }

/-- MIO_MSO_STAT_q of the quadrant of the first lane of an access. -/
def Ctl.oStat (c : Ctl) (r : RAccess) : Nat := oMsoStat (c.place (r.lanes.headD { gi := 0 }).gi).quad

/-- The delivery of an access that is no plain read, outside safe state. -/
theorem readDeliver_eq {c : Ctl} (hblack : c.blackout = false) (n : Nat) {r : RAccess} (hdropped : r.dropped = false) (hmode : r.opmode.toNat ≠ 0) :
    c.readDeliver n r = ((if (c.outLanes n r).2 = 0 then c else c.satAdd (c.oStat r) msoStat_FORMAT (c.outLanes n r).2).setSeq n
      ((c.seq n).delivered r).prune).drive n r.deliver (c.outLanes n r).1 := by
  simp only [Ctl.readDeliver, hdropped, Bool.false_eq_true, if_false, hmode, hblack, false_or, decide_false, Bool.false_and, Ctl.outLanes, Seq.delivered,
    Ctl.oStat]
  cases r.lanes <;> rfl

/-- The counting of lanes of a format code in MIO_MSO_STAT_q (R119). -/
theorem format_counted (c : Ctl) (o k : Nat) :
    (if k = 0 then c else c.satAdd o msoStat_FORMAT k).fld o msoStat_FORMAT = min (c.fld o msoStat_FORMAT + k) 0xFFFF := by
  have hlt : c.fld o msoStat_FORMAT < 2 ^ 16 := bits_lt _ _ _
  by_cases hk : k = 0
  · rw [if_pos hk]
    omega
  · rw [if_neg hk, Ctl.satAdd_fld, Ctl.fld_setFld_same _ _ _ _ (by decide)]
    exact Nat.mod_eq_of_lt (Nat.lt_of_le_of_lt (Nat.min_le_right _ _) (by decide))

theorem SameBut.counted (n : Nat) (c : Ctl) (o k : Nat) : SameBut n c (if k = 0 then c else c.satAdd o msoStat_FORMAT k) := by
  split
  · exact .refl n c
  · exact sameBut_of_besideCv n (besideCv_satAdd c o _ k)

/-- The counting of poisoned lanes in MIO_PSTAT_n (R42). -/
def Ctl.countPoison (c : Ctl) (n : Nat) (l : List OutLane) : Ctl := c.satAdd (oPstat n) pstat_POIS ((l.filter fun x => gPoison x.granule).length)

theorem SameQuads.setSeq (c : Ctl) (n : Nat) (q : Seq) : SameQuads c (c.setSeq n q) := ⟨fun o _ _ => reg_of_regs rfl o⟩

theorem SameQuads.countPoison (c : Ctl) (n : Nat) (l : List OutLane) : SameQuads c (c.countPoison n l) := satAdd c (by simp only [oPstat]; omega) _

theorem drive_eq {c : Ctl} (hblack : c.blackout = false) (n e : Nat) (l : List OutLane) : c.drive n e l =
    { c.countPoison n l with rdOut := Tab.set {} (c.countPoison n l).rdOut n (busOf e l) } := by
  simp only [Ctl.drive, hblack, Bool.false_eq_true, if_false, busOf, Ctl.countPoison]

theorem fld_withBus (s : State) (c : Ctl) (x : Tab ReadOut) (o : Nat) (f : FieldPos) : (s.units { c with rdOut := x }).c.fld o f = c.fld o f :=
  fld_of_regs rfl o f

/-- The bus of a port as a delivery leaves it, and nothing else of the other ports. -/
theorem drives_of_bus {s : State} {n : Nat} {d : Ctl} {e : Nat} {l : List OutLane} (hsame : SameBut n s.c d) (hlen : l.length ≤ 8)
    (hexec : exec (.readDelivery n) s = .next (s.units { d with rdOut := Tab.set {} d.rdOut n (busOf e l) })) :
    Drives s (s.units { d with rdOut := Tab.set {} d.rdOut n (busOf e l) }) n e (busOf e l) := by
  refine ⟨hexec, ?_, rfl, rfl, ?_, fun k g hk => ?_, fun m hm => ⟨?_, hsame.others m hm⟩, rfl⟩
  · simp only [State.units, Tab.get_set_same]
  · simp only [busOf, laneMask_eq, maskNat_true, List.length_map]
  · obtain ⟨x, hx, rfl⟩ := Option.map_eq_some_iff.1 (by simpa only [busOf, List.getElem?_map] using hk)
    exact laneMask_getLsbD hlen (fun x => gPoison x.granule) hx
  · simp only [State.units, Tab.get_set_ne _ _ _ hm, hsame.buses]

/-- The delivery of an access that is no plain read: its lanes are on the bus, and those of a format code are counted. -/
theorem readDeliver_drives {s : State} {n : Nat} {c : Ctl} {r : RAccess} (hblack : s.c.blackout = false) (hquads : SameQuads s.c c) (hsame : SameBut n s.c c)
    (hexec : exec (.readDelivery n) s = .next (s.units (c.readDeliver n r))) (hdropped : r.dropped = false) (hmode : r.opmode.toNat ≠ 0) {l : List OutLane}
    {k : Nat} (hout : c.outLanes n r = (l, k)) (hlen : l.length ≤ 8) :
    ∃ t, Drives s t n r.deliver (busOf r.deliver l) ∧
      t.c.fld (s.c.oStat r) msoStat_FORMAT = min (s.c.fld (s.c.oStat r) msoStat_FORMAT + k) 0xFFFF := by
  have hdark := hsame.dark.trans hblack
  have hstat : c.oStat r = s.c.oStat r := by rw [Ctl.oStat, hquads.place, ← Ctl.oStat]
  have hquad : s.c.oStat r < 0x4F020 ∧ 0x4F000 ≤ s.c.oStat r := by
    have hlt := place_quad_lt s.c (r.lanes.headD { gi := 0 }).gi
    simp only [Ctl.oStat, oMsoStat]
    omega
  have hword : msoStat_FORMAT.word = 0 := rfl
  have hcount := SameBut.counted n c (s.c.oStat r) k
  have hfmt := format_counted c (s.c.oStat r) k
  rw [hquads.fld (f := msoStat_FORMAT) (by omega) (by rw [hword]; omega)] at hfmt
  have heq := readDeliver_eq hdark n hdropped hmode
  rw [hout, hstat] at heq
  generalize (if (l, k).2 = 0 then c else c.satAdd (s.c.oStat r) msoStat_FORMAT (l, k).2) = d at hcount hfmt heq
  rw [drive_eq (by exact hcount.dark.trans hdark)] at heq
  rw [heq] at hexec
  refine ⟨_, drives_of_bus (((hsame.trans hcount).trans (sameBut_setSeq n d _)).trans (sameBut_of_besideCv n (besideCv_satAdd _ _ _ _))) hlen hexec, ?_⟩
  have hpoison : SameQuads d ((d.setSeq n ((c.seq n).delivered r).prune).countPoison n l) :=
    (SameQuads.setSeq d n _).trans (.countPoison _ n l)
  have hkept := hpoison.fld (o := s.c.oStat r) (f := msoStat_FORMAT) (by omega) (by rw [hword]; omega)
  exact (fld_withBus s _ _ _ _).trans (hkept.trans hfmt)

/-- A read access that is delivered: the units that it is delivered from, and the outcome. -/
theorem readDelivery_delivers {s : State} {n : Nat} {r : RAccess} (hwork : s.working) (hn : n < 104) (hdel : Delivers s n r) :
    ∃ c f, SameQuads s.c c ∧ SameBut n s.c c ∧ (∀ x ∈ (s.c.seq n).reads, x.Keeps (f x)) ∧
      c.seq n = { s.c.seq n with reads := (s.c.seq n).reads.map f } ∧ exec (.readDelivery n) s = .next (s.units (c.readDeliver n r)) := by
  obtain ⟨hnext, hdelivers, -, hwaits, hnodup⟩ := hdel
  obtain ⟨hquads, hsame, f, hf, hkeeps, hseq⟩ := forwardsOf_keepsLanes s.c s.c.bc s.c.ec n hnodup
  have hdelivers' : (s.c.forwardsOf s.c.bc s.c.ec n).delivers ((s.c.forwardsOf s.c.bc s.c.ec n).seq n) r = true := by
    simp only [Ctl.delivers, hsame.dark, hseq, Bool.and_eq_true] at hdelivers ⊢
    refine ⟨hdelivers.1, ?_⟩
    obtain ⟨-, htile⟩ := hdelivers
    cases h : r.tile with
    | none => rfl
    | some x =>
      rw [h] at htile
      simp only [List.all_map, List.all_eq_true] at htile ⊢
      exact fun y hy => by rw [Function.comp_apply, (hkeeps y hy).checked, (hkeeps y hy).tile, htile y hy]
  have hexec := readDelivery_exec hwork hn ((congrArg (fun q => Seq.nextDelivery q s.c.ec) hseq).trans (nextDelivery_forwarded hf hnext hwaits))
  rw [hdelivers', if_pos rfl] at hexec
  exact ⟨_, f, hquads, hsame, hkeeps, hseq, hexec⟩

/-- The delivery of an access that is no plain read, from the units in which its lanes have their values. -/
theorem drives_of_delivers {s : State} {n : Nat} {r : RAccess} (hwork : s.working) (hn : n < 104) (hdel : Delivers s n r) (hmode : r.opmode.toNat ≠ 0) :
    ∃ (c : Ctl) (f : RAccess → RAccess), (∀ x ∈ (s.c.seq n).reads, x.Keeps (f x)) ∧ c.seq n = { s.c.seq n with reads := (s.c.seq n).reads.map f } ∧
      ∀ l k, c.outLanes n r = (l, k) → l.length ≤ 8 → ∃ t, Drives s t n r.deliver (busOf r.deliver l) ∧
        t.c.fld (s.c.oStat r) msoStat_FORMAT = min (s.c.fld (s.c.oStat r) msoStat_FORMAT + k) 0xFFFF := by
  obtain ⟨c, f, hquads, hsame, hkeeps, hseq, hexec⟩ := readDelivery_delivers hwork hn hdel
  obtain ⟨-, -, hdropped, -⟩ := hdel
  exact ⟨c, f, hkeeps, hseq, fun l k hout hlen => readDeliver_drives hwork.2 hquads hsame hexec hdropped hmode hout hlen⟩

/-- Granule `k` of a delivery of lanes that a function gives. -/
theorem data_busOf_range {e len k : Nat} {f : Nat → OutLane} {g : Granule} (h : (busOf e ((List.range len).map f)).data[k]? = some g) :
    k < len ∧ (f k).granule = g := by
  simpa [busOf, List.getElem?_eq_some_iff] using h

/-- The elements of an output granule that no source poisons (R117). -/
theorem convGranule_elements {src : Nat} {d : Dst} {sat : Bool} {data pos : List Nat} {scale k i : Nat} (h : i < 256 / d.width) :
    bits (gData (produced false (convGranule src d sat (packData data) pos scale k)).granule) (d.width * i) d.width =
      convElem d sat (elementValue src data pos scale (256 / d.width * k + i)) := by
  rw [(produced_good (convGranule_lt src d sat _ pos scale k)).2, bits_convGranule _ _ _ _ _ _ _ h, convAt_eq]

theorem convOk_facts {src dst lanes : Nat} {d : Dst} (h : convOk src dst lanes = true) (hdst : dstOf dst = some d) :
    0 < srcWidth src ∧ convD src d lanes ≤ 8 := by
  simp only [convOk, hdst, Bool.and_eq_true, decide_eq_true_eq, ne_eq] at h
  obtain ⟨⟨⟨hwidth, -⟩, -, hlen⟩, -⟩ := h
  exact ⟨Nat.pos_of_ne_zero hwidth, hlen⟩

theorem convertedReadsAreDelivered : convertedReadsAreDeliveredRule := by
  intro s n src r d els sc data pos len per q hwork hn hdel hmode htile hsrc hdst hels hsc hdata hpos hok hlen hper hq
  obtain ⟨hwidth, hle⟩ := convOk_facts hok hdst
  have hmode' : r.opmode.toNat = 1 := by rw [hmode]; rfl
  obtain ⟨c, -, -, -, hdrives⟩ := drives_of_delivers hwork hn hdel (by rw [hmode']; decide)
  have hout : c.outLanes n r = convDeliver r.oparg.toNat r.lanes := by
    simp only [Ctl.outLanes, Seq.deliverLanes, hmode', one_ne_zero, if_false, if_true]
  rw [convDeliver_eq hsrc hdst hels hsc hpos hwidth] at hout
  have hstat : s.c.oStat r = oMsoStat q := by rw [hq]; rfl
  have hlen' : convD src d els.length = len := hlen.symm
  rw [hlen'] at hout hle
  rw [hstat] at hdrives
  subst hper hdata
  cases hbroken : srcMx src && !mxLanesOk src (els.map fun l => l.gi) with
  | true =>
    rw [hbroken, if_pos rfl] at hout
    obtain ⟨t, ht, hcount⟩ := hdrives _ _ hout (by simpa using hle)
    refine ⟨t, _, ht, by simp [busOf], fun _ _ => ⟨fun g hg => ?_, hcount⟩, fun hok => ?_⟩
    · simp only [busOf, List.map_map, List.mem_map] at hg
      obtain ⟨_, -, rfl⟩ := hg
      exact produced_bad 0
    · obtain hmx | hkept := hok
      · simp [hmx] at hbroken
      · simp [hkept] at hbroken
  | false =>
    rw [hbroken, if_neg Bool.false_ne_true] at hout
    obtain ⟨t, ht, hcount⟩ := hdrives _ _ hout (by simpa using hle)
    refine ⟨t, _, ht, by simp [busOf], fun hmx hbad => ?_, fun _ => ⟨hcount, fun k g hg => ?_⟩⟩
    · simp [hmx, hbad] at hbroken
    · obtain ⟨-, rfl⟩ := data_busOf_range hg
      refine ⟨fun hbad => ?_, fun hgood => ⟨?_, fun i hi => ?_⟩⟩
      · rw [hbad, produced_bad]
      · rw [hgood]
        exact (produced_good (convGranule_lt ..)).1
      · rw [hgood]
        exact convGranule_elements hi

end Sys2Proof.Machine

end

section
/-! Transposed reads (R108 to R111). -/

namespace Sys2Proof.Machine

/-! ### The rows of a tile (R108) -/

/-- The reads of a sequencer from which an access of its own is delivered are those that it had, but for forwarded lanes. -/
theorem reads_delivered {q : Seq} {f : RAccess → RAccess} {r : RAccess} (hnodup : (q.reads.map fun x => x.id).Nodup) (hr : r ∈ q.reads)
    (hf : ∀ x ∈ q.reads, x.Keeps (f x)) :
    ∃ g, (∀ x ∈ q.reads, x.Keeps (g x)) ∧ (({ q with reads := q.reads.map f } : Seq).delivered r).reads = q.reads.map g := by
  refine ⟨fun x => if (f x).id = r.id then { r with done := true } else f x, fun x hx => ?_, List.map_map ..⟩
  dsimp only
  split
  · next h =>
    rw [(hf x hx).id] at h
    obtain rfl := List.inj_on_of_nodup_map hnodup hx hr h
    exact ⟨rfl, rfl, rfl, fun _ _ hl _ => hl⟩
  · exact hf x hx

theorem find_kept {l : List RAccess} {g : RAccess → RAccess} (hg : ∀ x ∈ l, x.Keeps (g x)) {a : Nat} {x : RAccess}
    (h : (l.find? fun y => decide (y.id = a)) = some x) : ((l.map g).find? fun y => decide (y.id = a)) = some (g x) := by
  induction l with
  | nil => cases h
  | cons y l ih =>
    rw [List.map_cons]
    rw [List.find?_cons] at h ⊢
    rw [(hg y (List.mem_cons_self ..)).id]
    cases hy : decide (y.id = a) with
    | true =>
      rw [hy] at h
      rw [Option.some.inj h]
    | false =>
      rw [hy] at h
      exact ih (fun z hz => hg z (List.mem_cons_of_mem _ hz)) h

/-- `rows` are the lanes of the four accesses from number `first` on, none of them forwarded. -/
def TileLanes (reads : List RAccess) (first : Nat) (rows : List RLane) : Prop :=
  ∀ (i : Nat) (l : RLane), rows[i]? = some l → l.fwd = none ∧
    ∃ x, (reads.find? fun x => decide (x.id = first + i / 8)) = some x ∧ x.lanes[i % 8]? = some l

theorem TileLanes.kept {reads : List RAccess} {first : Nat} {rows : List RLane} (h : TileLanes reads first rows) {g : RAccess → RAccess}
    (hg : ∀ x ∈ reads, x.Keeps (g x)) : TileLanes (reads.map g) first rows := fun i l hi => by
  obtain ⟨hfwd, x, hx, hl⟩ := h i l hi
  exact ⟨hfwd, g x, find_kept hg hx, (hg x (List.mem_of_find?_eq_some hx)).lane _ l hl hfwd⟩

theorem tileRows_eq {q : Seq} {first : Nat} {rows : List RLane} (hlen : rows.length = 32) (h : TileLanes q.reads first rows) (src : Nat) :
    q.tileRows first src = rows.map (RLane.source src) := by
  refine List.ext_getElem (by simp [Seq.tileRows, hlen]) fun i hi hi' => ?_
  rw [List.length_map] at hi'
  obtain ⟨hfwd, x, hx, hl⟩ := h i rows[i] (List.getElem?_eq_getElem hi')
  simp only [Seq.tileRows, List.getElem_map, List.getElem_range, hx, hl, hfwd, Option.isSome_none, Bool.false_and, Bool.or_false, RLane.source]

/-! ### A granule of a tile (R109) -/

/-- A row that an element of granule `j` of the tile comes from satisfies `p`. -/
def TileHas (rows : List RLane) (esize j : Nat) (p : RLane → Bool) : Prop :=
  ∃ i l, i < 32 / esize ∧ rows[j % esize * (32 / esize) + i]? = some l ∧ p l = true

theorem tileHas_or (rows : List RLane) (esize j : Nat) (p q : RLane → Bool) :
    TileHas rows esize j (fun l => p l || q l) ↔ TileHas rows esize j p ∨ TileHas rows esize j q := by
  simp only [TileHas, Bool.or_eq_true, and_or_left, exists_or]

theorem tile_per_pos {esize : Nat} (hesize : esize * (32 / esize) = 32) : 0 < 32 / esize := Nat.pos_of_ne_zero fun h => by simp [h] at hesize

/-- Elements of the output stream and the rows that they come from. -/
theorem tileSource_iff {esize : Nat} (hesize : 0 < 32 / esize) (rows : List RLane) (k i : Nat) (p : RLane → Bool) :
    (∃ (e : Nat) (l : RLane), e / (32 / esize) = i ∧ rows[(tileSource esize k e).1]? = some l ∧ p l = true) ↔ TileHas rows esize (8 * k + i) p := by
  constructor
  · rintro ⟨e, l, rfl, hl, hp⟩
    exact ⟨e % (32 / esize), l, Nat.mod_lt _ hesize, hl, hp⟩
  · rintro ⟨x, l, hx, hl, hp⟩
    have hdiv : (32 / esize * i + x) / (32 / esize) = i := by rw [Nat.mul_add_div hesize, Nat.div_eq_of_lt hx, Nat.add_zero]
    refine ⟨32 / esize * i + x, l, hdiv, ?_, hp⟩
    rwa [tileSource, hdiv, Nat.mul_add_mod, Nat.mod_eq_of_lt hx]

/-- What granule `j` of a tile of rows `rows` takes from them. -/
def tileOut (esize j : Nat) (rows : List (Bool × Bool × Nat)) : Bool × Bool × Nat :=
  let rs := (transRows esize j).map fun r => rows.getD r (true, false, 0)
  let bad := rs.any fun r => r.1
  (bad, rs.any (fun r => r.2.1), if bad then 0 else transGranule esize (rows.map fun r => r.2.2) j)

section
variable {esize : Nat} (hesize : esize * (32 / esize) = 32) {rows : List RLane} (hlen : rows.length = 32)
include hesize

theorem tileRow_lt (j : Nat) {i : Nat} (hi : i < 32 / esize) : j % esize * (32 / esize) + i < 32 := by
  have hpos : 0 < esize := Nat.pos_of_ne_zero fun h => by simp [h] at hesize
  have hmod : j % esize + 1 ≤ esize := Nat.mod_lt _ hpos
  have hmul := Nat.mul_le_mul_right (32 / esize) hmod
  rw [Nat.add_one_mul, hesize] at hmul
  omega

include hlen

theorem any_tileRows (f : RLane → Bool × Bool × Nat) (p : Bool × Bool × Nat → Bool) (j : Nat) :
    (((transRows esize j).map fun r => (rows.map f).getD r (true, false, 0)).any p) = true ↔ TileHas rows esize j fun l => p (f l) := by
  have hrow : ∀ i, i < 32 / esize → ∃ l, rows[j % esize * (32 / esize) + i]? = some l := fun i hi =>
    ⟨_, List.getElem?_eq_getElem (by rw [hlen]; exact tileRow_lt hesize j hi)⟩
  simp only [transRows, List.map_map, List.any_map, List.any_eq_true, List.mem_range, Function.comp_apply, List.getD_eq_getElem?_getD, List.getElem?_map]
  constructor
  · rintro ⟨i, hi, hp⟩
    obtain ⟨l, hl⟩ := hrow i hi
    rw [hl] at hp
    exact ⟨i, l, hi, hl, hp⟩
  · rintro ⟨i, l, hi, hl, hp⟩
    exact ⟨i, hi, by rw [hl]; exact hp⟩

theorem tileOut_bad (f : RLane → Bool × Bool × Nat) (j : Nat) : (tileOut esize j (rows.map f)).1 = true ↔ TileHas rows esize j fun l => (f l).1 :=
  any_tileRows hesize hlen f (fun r => r.1) j

theorem tileOut_misfit (f : RLane → Bool × Bool × Nat) (j : Nat) : (tileOut esize j (rows.map f)).2.1 = true ↔ TileHas rows esize j fun l => (f l).2.1 :=
  any_tileRows hesize hlen f (fun r => r.2.1) j

omit hlen

theorem transGranule_lt (data : List Nat) (j : Nat) : transGranule esize data j < 2 ^ 256 := by
  have h := packElems_lt (8 * esize) ((List.range (32 / esize)).map fun i =>
    bits (data.getD ((j % esize) * (32 / esize) + i) 0) (8 * esize * (j / esize)) (8 * esize))
  rwa [List.length_map, List.length_range, Nat.mul_assoc 8 esize (32 / esize), hesize] at h

theorem tileOut_lt (data : List (Bool × Bool × Nat)) (j : Nat) : (tileOut esize j data).2.2 < 2 ^ 256 := by
  simp only [tileOut]
  split
  · exact Nat.two_pow_pos 256
  · exact transGranule_lt hesize _ j

omit hesize

/-- Element `i` of a granule of the tile is that of R109's row and column. -/
theorem tileOut_element {f : RLane → Bool × Bool × Nat} {j i : Nat} (hgood : (tileOut esize j (rows.map f)).1 = false) (hi : i < 32 / esize) {l : RLane}
    (hl : rows[j % esize * (32 / esize) + i]? = some l) :
    bits (tileOut esize j (rows.map f)).2.2 (8 * esize * i) (8 * esize) = bits (f l).2.2 (8 * esize * (j / esize)) (8 * esize) := by
  have hdata : (tileOut esize j (rows.map f)).2.2 = transGranule esize ((rows.map f).map fun r => r.2.2) j := by
    simp only [tileOut] at hgood ⊢
    rw [hgood, if_neg Bool.false_ne_true]
  rw [hdata, transGranule, bits_packElems (i := i) (x := bits (f l).2.2 (8 * esize * (j / esize)) (8 * esize)), bits_mod]
  simp [List.getElem?_range hi, List.getD_eq_getElem?_getD, hl]

end

/-! ### The granules of a transposed access -/

/-- A row of a plain transposed access: no format code is checked (R111). -/
def RLane.plain (l : RLane) : Bool × Bool × Nat := (l.bad, false, gData l.granule)

theorem transDeliver_plain (arg k src : Nat) (rows : List RLane) : transDeliver 2 arg k (rows.map (RLane.source src)) =
    ((List.range 8).map fun i => produced (tileOut (argEsize arg) (8 * k + i) (rows.map RLane.plain)).1
      (tileOut (argEsize arg) (8 * k + i) (rows.map RLane.plain)).2.2, 0) := by
  have hplain : (rows.map (RLane.source src)).map (fun r => (r.1, false, r.2.2)) = rows.map RLane.plain := List.map_map ..
  simp only [transDeliver, if_true, hplain, tileOut, List.map_map, Function.comp_def]

theorem transDeliver_conv {arg : Nat} {d : Dst} (hdst : dstOf (argDst arg) = some d) (k : Nat) (rows : List (Bool × Bool × Nat)) :
    ∃ n, transDeliver 3 arg k rows = ((convOuts (argSrc arg) d (argSat arg)
      ((List.range 8).map fun i => tileOut (srcWidth (argSrc arg) / 8) (8 * k + i) rows) [] none).map fun o => produced (o.bad || o.format) o.data, n) := by
  refine ⟨(transDeliver 3 arg k rows).2, Prod.ext ?_ rfl⟩
  simp only [transDeliver, hdst, tileOut, List.map_map, Function.comp_def, Nat.reduceEqDiff, if_false]

/-- The widths of a transposed conversion: `t` granules of the tile go into an output granule. -/
theorem transConv_widths {src dst : Nat} {d : Dst} (hok : transConvOk src dst = true) (hdst : dstOf dst = some d) :
    srcMx src = false ∧ 8 * (srcWidth src / 8) = srcWidth src ∧ srcWidth src / 8 * (32 / (srcWidth src / 8)) = 32 ∧
      ∃ t, 0 < t ∧ srcWidth src = d.width * t ∧ 256 / d.width = 32 / (srcWidth src / 8) * t ∧ convD src d 8 * t = 8 := by
  simp only [transConvOk, hdst, Bool.and_eq_true, decide_eq_true_eq] at hok
  obtain ⟨hsrc, hle⟩ := hok
  refine ⟨?_, ?_, ?_, srcWidth src / d.width, ?_⟩ <;> interval_cases src <;> cases d <;> revert hle <;> decide

/-- The granules of the tile that contribute to output granule `i` of a transposed conversion, `t` to each. -/
theorem transConv_window {src i g : Nat} {d : Dst} {t : Nat} (ht : 0 < t) (hper : srcWidth src * (256 / d.width) = 256 * t) :
    contributes (srcWidth src) (256 / d.width) i g = true ↔ g / t = i := by
  rw [contributes, decide_eq_true_eq, hper, Nat.mul_assoc, Nat.mul_assoc, Nat.mul_lt_mul_left (by decide), Nat.mul_lt_mul_left (by decide),
    Nat.div_eq_iff ht]
  have hsucc : t * (i + 1) = t * i + t := Nat.mul_succ t i
  rw [Nat.mul_comm i t]
  omega

end Sys2Proof.Machine

end

section
/-! The delivery of transposed reads (R108 to R111). -/

namespace Sys2Proof.Machine

/-- Element `e` of concatenated granules of `32 / esize` elements. -/
theorem storedElement_granules {esize : Nat} (hesize : esize * (32 / esize) = 32) {data : List Nat} (hdata : ∀ x ∈ data, x < 2 ^ 256) {e x : Nat}
    (hx : data[e / (32 / esize)]? = some x) : storedElement (8 * esize) data e = bits x (8 * esize * (e % (32 / esize))) (8 * esize) := by
  have hwidth : 8 * esize * (32 / esize) = 256 := by rw [Nat.mul_assoc, hesize]
  have hpos := tile_per_pos hesize
  have hoff : 8 * esize * (e % (32 / esize)) + 8 * esize ≤ 256 := by
    rw [← hwidth, ← Nat.mul_succ]
    exact Nat.mul_le_mul_left _ (Nat.mod_lt e hpos)
  have hplace : 8 * esize * e = 256 * (e / (32 / esize)) + 8 * esize * (e % (32 / esize)) := by
    rw [← hwidth, Nat.mul_assoc _ (32 / esize), ← Nat.mul_add, Nat.div_add_mod]
  rw [storedElement, hplace, bits_packData data hdata hx hoff]

/-- Whether a granule of the tile that output granule `i` of a transposed conversion is formed from is bad or misfits; `t` of them form one. -/
def tilePoison (tile : Nat → Bool × Bool × Nat) (t i : Nat) : Bool := (List.range 8).any fun g => decide (g / t = i) && ((tile g).1 || (tile g).2.1)

theorem tilePoison_iff {tile : Nat → Bool × Bool × Nat} {t i : Nat} :
    tilePoison tile t i = true ↔ ∃ g, g < 8 ∧ g / t = i ∧ ((tile g).1 || (tile g).2.1) = true := by
  simp only [tilePoison, List.any_eq_true, List.mem_range, Bool.and_eq_true, decide_eq_true_eq]

section
variable {src : Nat} {d : Dst} {t : Nat} (hwidth : 0 < srcWidth src) (ht : 0 < t) (hper : srcWidth src * (256 / d.width) = 256 * t)
include hwidth ht hper

theorem any_tileWindow (tile : Nat → Bool × Bool × Nat) (i : Nat) (p : Bool × Bool × Nat → Bool) :
    ((((List.range 8).map tile).drop (convLanes src d i).1).take ((convLanes src d i).2 + 1 - (convLanes src d i).1)).any p =
      (List.range 8).any fun g => decide (g / t = i) && p (tile g) := by
  rw [any_convLanes hwidth, Bool.eq_iff_iff, any_mapIdx]
  simp only [Bool.and_eq_true, transConv_window ht hper, List.any_eq_true, List.mem_range, decide_eq_true_eq]
  constructor
  · rintro ⟨g, x, hx, hg, hp⟩
    obtain ⟨hlt, rfl⟩ := by simpa [List.getElem?_eq_some_iff] using hx
    exact ⟨g, hlt, hg, hp⟩
  · rintro ⟨g, hlt, hg, hp⟩
    exact ⟨g, tile g, by rw [List.getElem?_map, List.getElem?_range hlt, Option.map_some], hg, hp⟩

theorem convOuts_tile (sat : Bool) (tile : Nat → Bool × Bool × Nat) :
    ((convOuts src d sat ((List.range 8).map tile) [] none).map fun o => produced (o.bad || o.format) o.data) =
      (List.range (convD src d 8)).map fun i => produced (tilePoison tile t i)
        (convGranule src d sat (packData ((List.range 8).map fun g => (tile g).2.2)) [] 0 i) := by
  simp only [convOuts, List.map_map, List.length_map, List.length_range]
  refine List.map_congr_left fun i _ => ?_
  have hor : (((List.range 8).any fun g => decide (g / t = i) && (tile g).1) || (List.range 8).any fun g => decide (g / t = i) && (tile g).2.1) =
      tilePoison tile t i := by
    rw [Bool.eq_iff_iff, tilePoison_iff]
    simp only [Bool.or_eq_true, List.any_eq_true, List.mem_range, Bool.and_eq_true, decide_eq_true_eq, and_or_left, exists_or]
  simp only [Function.comp_apply, any_tileWindow hwidth ht hper, Option.getD_none, Bool.false_or, hor, Function.comp_def]

end

/-- Output granule `i` of a transposed conversion is poisoned by a row of one of its elements (R111). -/
theorem tilePoison_rows {esize : Nat} (hesize : esize * (32 / esize) = 32) {rows : List RLane} (hlen : rows.length = 32) {src k t m i : Nat}
    (hm : m = 32 / esize * t) (hlast : ∀ g, g / t = i → g < 8) :
    tilePoison (fun g => tileOut esize (8 * k + g) (rows.map (RLane.source src))) t i = true ↔
      ∃ (e : Nat) (l : RLane), e / m = i ∧ rows[(tileSource esize k e).1]? = some l ∧ (l.bad || l.misfit src) = true := by
  have hpos := tile_per_pos hesize
  have hgranule : ∀ g, ((tileOut esize (8 * k + g) (rows.map (RLane.source src))).1 || (tileOut esize (8 * k + g) (rows.map (RLane.source src))).2.1) = true ↔
      ∃ (e : Nat) (l : RLane), e / (32 / esize) = g ∧ rows[(tileSource esize k e).1]? = some l ∧ (l.bad || l.misfit src) = true := fun g => by
    rw [Bool.or_eq_true, tileOut_bad hesize hlen, tileOut_misfit hesize hlen, tileSource_iff hpos rows k g fun l => l.bad || l.misfit src, tileHas_or]
    rfl
  simp only [tilePoison_iff, hgranule, hm, ← Nat.div_div_eq_div_mul]
  constructor
  · rintro ⟨_, -, hg, e, l, rfl, hl, hp⟩
    exact ⟨e, l, hg, hl, hp⟩
  · rintro ⟨e, l, he, hl, hp⟩
    exact ⟨e / (32 / esize), hlast _ he, he, e, l, rfl, hl, hp⟩

/-- A stored element of a transposed conversion is that of R109's row and column, where its granule of the tile is good. -/
theorem elementValue_tile {esize src : Nat} (hmx : srcMx src = false) (hwide : 8 * esize = srcWidth src) (hesize : esize * (32 / esize) = 32)
    {rows : List RLane} {k e : Nat} (he : e / (32 / esize) < 8) {l : RLane} (hl : rows[(tileSource esize k e).1]? = some l)
    (hgood : (tileOut esize (8 * k + e / (32 / esize)) (rows.map (RLane.source src))).1 = false) :
    elementValue src ((List.range 8).map fun g => (tileOut esize (8 * k + g) (rows.map (RLane.source src))).2.2) [] 0 e =
      srcValue src (bits (gData l.granule) (8 * esize * (tileSource esize k e).2) (8 * esize)) := by
  have hpos := tile_per_pos hesize
  have hdata : ∀ x ∈ (List.range 8).map fun g => (tileOut esize (8 * k + g) (rows.map (RLane.source src))).2.2, x < 2 ^ 256 := fun x hx => by
    obtain ⟨g, -, rfl⟩ := List.mem_map.1 hx
    exact tileOut_lt hesize _ _
  rw [elementValue, hmx, if_neg Bool.false_ne_true, ← hwide,
    storedElement_granules hesize hdata (by rw [List.getElem?_map, List.getElem?_range he]; rfl), tileOut_element hgood (Nat.mod_lt e hpos) hl]
  rfl

/-- The element sizes of a plain transposition divide a granule (R108). -/
theorem argEsize_mul {a : Nat} (h : argEsize a ≤ 4) : argEsize a * (32 / argEsize a) = 32 := by
  have hbits : bits a 0 2 < 4 := bits_lt a 0 2
  rw [argEsize] at h ⊢
  interval_cases bits a 0 2 <;> revert h <;> decide

/-! ### The rule -/

/-- The lanes of a transposed access are those of the rows of its tile. -/
theorem outLanes_tile {s : State} {n first k : Nat} {r : RAccess} {rows : List RLane} {c : Ctl} {f : RAccess → RAccess}
    (hdel : Delivers s n r) (htile : r.tile = some (first, k)) (hlen : rows.length = 32) (hrows : TileLanes (s.c.seq n).reads first rows)
    (hkeeps : ∀ x ∈ (s.c.seq n).reads, x.Keeps (f x)) (hseq : c.seq n = { s.c.seq n with reads := (s.c.seq n).reads.map f })
    (hmode : r.opmode.toNat ≠ 0 ∧ r.opmode.toNat ≠ 1) :
    c.outLanes n r = transDeliver r.opmode.toNat r.oparg.toNat k (rows.map (RLane.source (argSrc r.oparg.toNat))) := by
  obtain ⟨hnext, -, -, -, hnodup⟩ := hdel
  obtain ⟨g, hg, hreads⟩ := reads_delivered hnodup (nextDelivery_mem hnext) hkeeps
  have hkept := hrows.kept hg
  rw [← hreads, ← hseq] at hkept
  simp only [Ctl.outLanes, Seq.deliverLanes, hmode.1, hmode.2, if_false, htile, tileRows_eq hlen hkept]

section
variable {s : State} {n first k : Nat} {r : RAccess} {rows : List RLane} (hwork : s.working) (hn : n < 104) (hdel : Delivers s n r)
  (htile : r.tile = some (first, k)) (hlen : rows.length = 32) (hrows : TileLanes (s.c.seq n).reads first rows)
include hwork hn hdel htile hlen hrows

/-- A transposed access drives the granules of its tile. -/
theorem transposed_drives {mode : Nat} (hmode : r.opmode.toNat = mode) (htrans : mode ≠ 0 ∧ mode ≠ 1) {l : List OutLane} {m : Nat}
    (hout : transDeliver mode r.oparg.toNat k (rows.map (RLane.source (argSrc r.oparg.toNat))) = (l, m)) (hle : l.length ≤ 8) :
    ∃ t, Drives s t n r.deliver (busOf r.deliver l) := by
  subst hmode
  obtain ⟨c, f, hkeeps, hseq, hdrives⟩ := drives_of_delivers hwork hn hdel htrans.1
  obtain ⟨t, ht, -⟩ := hdrives l m ((outLanes_tile hdel htile hlen hrows hkeeps hseq htrans).trans hout) hle
  exact ⟨t, ht⟩

/-- A plain transposed access (OPMODE 0x2): eight granules of the tile. -/
theorem transposedPlain {m esize : Nat} (hmode : r.opmode = 2) (hesize : esize = argEsize r.oparg.toNat) (hle : esize ≤ 4) (hm : m = 32 / esize) :
    ∃ t o, Drives s t n r.deliver o ∧ o.data.length = 8 ∧ ∀ (i : Nat) (g : Granule), o.data[i]? = some g →
      ((∃ (e : Nat) (l : RLane), e / m = i ∧ rows[(tileSource esize k e).1]? = some l ∧ l.bad = true) → g = poisonGranule false) ∧
      ((∀ (e : Nat) (l : RLane), e / m = i → rows[(tileSource esize k e).1]? = some l → l.bad = false) → gPoison g = false ∧
        ∀ (e : Nat) (l : RLane), e / m = i → rows[(tileSource esize k e).1]? = some l →
          bits (gData g) (8 * esize * (e % m)) (8 * esize) = bits (gData l.granule) (8 * esize * (tileSource esize k e).2) (8 * esize)) := by
  have hmode' : r.opmode.toNat = 2 := by rw [hmode]; rfl
  have hwidth : esize * (32 / esize) = 32 := hesize ▸ argEsize_mul (by rwa [← hesize])
  have hpos := tile_per_pos hwidth
  have hout := transDeliver_plain r.oparg.toNat k (argSrc r.oparg.toNat) rows
  rw [← hesize] at hout
  obtain ⟨t, ht⟩ := transposed_drives hwork hn hdel htile hlen hrows hmode' (by decide) hout (by simp)
  refine ⟨t, _, ht, by simp [busOf], fun i g hg => ?_⟩
  obtain ⟨-, rfl⟩ := data_busOf_range hg
  have hpois : _ ↔ TileHas rows esize (8 * k + i) RLane.bad := tileOut_bad hwidth hlen RLane.plain (8 * k + i)
  subst hm
  rw [← tileSource_iff hpos] at hpois
  refine ⟨fun hbad => ?_, fun hgood => ?_⟩
  · rw [hpois.2 hbad, produced_bad]
  · have hfalse : (tileOut esize (8 * k + i) (rows.map RLane.plain)).1 = false := by
      refine Bool.eq_false_iff.2 fun h => ?_
      obtain ⟨e, l, he, hl, hbad⟩ := hpois.1 h
      exact Bool.eq_false_iff.1 (hgood e l he hl) hbad
    obtain ⟨hp, hd⟩ := produced_good (tileOut_lt hwidth (rows.map RLane.plain) (8 * k + i))
    rw [hfalse]
    refine ⟨hp, fun e l he hl => ?_⟩
    subst he
    rw [hd, tileOut_element hfalse (Nat.mod_lt e hpos) hl]
    rfl

/-- A converting transposed access (OPMODE 0x3): the granules of the tile, converted. -/
theorem transposedConverted {m esize src : Nat} {d : Dst} (hmode : r.opmode = 3) (hsrc : src = argSrc r.oparg.toNat) (hesize : esize = srcWidth src / 8)
    (hdst : dstOf (argDst r.oparg.toNat) = some d) (hok : transConvOk src (argDst r.oparg.toNat) = true) (hm : m = 256 / d.width) :
    ∃ t o, Drives s t n r.deliver o ∧ o.data.length = 8 * d.width / srcWidth src ∧ ∀ (i : Nat) (g : Granule), o.data[i]? = some g →
      ((∃ (e : Nat) (l : RLane), e / m = i ∧ rows[(tileSource esize k e).1]? = some l ∧ (l.bad = true ∨ l.misfit src = true)) → g = poisonGranule false) ∧
      ((∀ (e : Nat) (l : RLane), e / m = i → rows[(tileSource esize k e).1]? = some l → l.bad = false ∧ l.misfit src = false) → gPoison g = false ∧
        ∀ (e : Nat) (l : RLane), e / m = i → rows[(tileSource esize k e).1]? = some l → bits (gData g) (d.width * (e % m)) d.width =
          convElem d (argSat r.oparg.toNat) (srcValue src (bits (gData l.granule) (8 * esize * (tileSource esize k e).2) (8 * esize)))) := by
  have hmode' : r.opmode.toNat = 3 := by rw [hmode]; rfl
  obtain ⟨hmx, hwide, hwidth, t, ht, hratio, hper, hcount⟩ := transConv_widths hok hdst
  rw [← hesize] at hwide hwidth hper
  rw [← hm] at hper
  have hwindow : srcWidth src * (256 / d.width) = 256 * t := by rw [hratio, Nat.mul_right_comm, d.width_mul]
  obtain ⟨p, hout⟩ := transDeliver_conv hdst k (rows.map (RLane.source src))
  rw [← hsrc, ← hesize, convOuts_tile (by rw [hratio]; exact Nat.mul_pos d.width_pos ht) ht hwindow, hsrc] at hout
  obtain ⟨u, hu⟩ := transposed_drives hwork hn hdel htile hlen hrows hmode' (by decide) hout
    (by rw [List.length_map, List.length_range, ← hsrc]; exact (Nat.le_mul_of_pos_right _ ht).trans hcount.le)
  rw [← hsrc] at hu
  refine ⟨u, _, hu, by simp [busOf, convD], fun i g hg => ?_⟩
  obtain ⟨hi, rfl⟩ := data_busOf_range hg
  have hlast : ∀ x, x / t = i → x < 8 := fun x hx => by
    rw [← hcount]
    exact (Nat.div_lt_iff_lt_mul ht).1 (hx ▸ hi)
  have hpois := tilePoison_rows hwidth hlen (src := src) (k := k) hper hlast
  refine ⟨fun hbad => ?_, fun hgood => ?_⟩
  · rw [hpois.2 (by simpa only [Bool.or_eq_true] using hbad), produced_bad]
  · have hfalse : tilePoison (fun g => tileOut esize (8 * k + g) (rows.map (RLane.source src))) t i = false := by
      refine Bool.eq_false_iff.2 fun h => ?_
      obtain ⟨e, l, he, hl, hbad⟩ := hpois.1 h
      obtain ⟨hgb, hgm⟩ := hgood e l he hl
      rw [hgb, hgm] at hbad
      cases hbad
    rw [hfalse]
    refine ⟨(produced_good (convGranule_lt ..)).1, fun e l he hl => ?_⟩
    subst hm
    have hwin : e / (32 / esize) / t = i := by rw [Nat.div_div_eq_div_mul, ← hper, he]
    have hgranule := Bool.eq_false_iff.2 fun h => Bool.eq_false_iff.1 hfalse (tilePoison_iff.2 ⟨_, hlast _ hwin, hwin, h⟩)
    rw [convGranule_elements (Nat.mod_lt e d.per_pos), ← he, Nat.div_add_mod,
      elementValue_tile hmx hwide hwidth (hlast _ hwin) hl (Bool.or_eq_false_iff.1 hgranule).1]

end

theorem transposedReadsAreDelivered : transposedReadsAreDeliveredRule :=
  fun _ _ _ _ _ _ _ hwork hn hdel htile _ hlen hrows =>
    ⟨fun _ hmode hesize hle hm => transposedPlain hwork hn hdel htile hlen hrows hmode hesize hle hm,
      fun _ _ _ hmode hsrc hesize hdst hok hm => transposedConverted hwork hn hdel htile hlen hrows hmode hsrc hesize hdst hok hm⟩

/-- Settles O22: a delivery drives the granules that its mode forms, and each of them is poisoned by one of its sources or holds the elements. -/
theorem convertedAndTransposedReads : Obligations.ConvertedAndTransposedReads := ⟨convertedReadsAreDelivered, transposedReadsAreDelivered⟩

end Sys2Proof.Machine

end
